-- ==== Sys2Proof/Word.lean ====
section
/-! DEFINITION. The word type of the device and its plainest names (R2, R6, R33). -/

namespace Sys2Proof

/-- A 64-bit register value, address or stamp. -/
abbrev Word := BitVec 64

/-- A 32-bit instruction word or vector element. -/
abbrev Half := BitVec 32

/-- A byte of memory. -/
abbrev Byte := BitVec 8

end Sys2Proof
end

