-- ==== Sys2Proof/Syntax.lean ====
section
/-! DEFINITION. The syntax: one constructor for every row of spec/opcode_table.json.
The first 258 are words (their fields are bit vectors of the encoding, R34, R35); the last 107 are the steps of the device that
no word encodes (spec/95_what_each_step_holds.md): their operands name the object the step happens to. -/

namespace Sys2Proof

/-- Every instruction and every step of the opcode table. -/
inductive Instr where
  /-- ADD (R57). -/
  | add (d : BitVec 7) (a : BitVec 7) (b : BitVec 7)
  /-- SUB (R57). -/
  | sub (d : BitVec 7) (a : BitVec 7) (b : BitVec 7)
  /-- AND (R57). -/
  | and (d : BitVec 7) (a : BitVec 7) (b : BitVec 7)
  /-- OR (R57). -/
  | or (d : BitVec 7) (a : BitVec 7) (b : BitVec 7)
  /-- XOR (R57). -/
  | xor (d : BitVec 7) (a : BitVec 7) (b : BitVec 7)
  /-- ANDN (R57). -/
  | andn (d : BitVec 7) (a : BitVec 7) (b : BitVec 7)
  /-- SLL (R57). -/
  | sll (d : BitVec 7) (a : BitVec 7) (b : BitVec 7)
  /-- SRL (R57). -/
  | srl (d : BitVec 7) (a : BitVec 7) (b : BitVec 7)
  /-- SRA (R57). -/
  | sra (d : BitVec 7) (a : BitVec 7) (b : BitVec 7)
  /-- ROL (R57). -/
  | rol (d : BitVec 7) (a : BitVec 7) (b : BitVec 7)
  /-- ROR (R57). -/
  | ror (d : BitVec 7) (a : BitVec 7) (b : BitVec 7)
  /-- SLT (R57). -/
  | slt (d : BitVec 7) (a : BitVec 7) (b : BitVec 7)
  /-- SLTU (R57). -/
  | sltu (d : BitVec 7) (a : BitVec 7) (b : BitVec 7)
  /-- MIN (R57). -/
  | min (d : BitVec 7) (a : BitVec 7) (b : BitVec 7)
  /-- MAX (R57). -/
  | max (d : BitVec 7) (a : BitVec 7) (b : BitVec 7)
  /-- MINU (R57). -/
  | minu (d : BitVec 7) (a : BitVec 7) (b : BitVec 7)
  /-- MAXU (R57). -/
  | maxu (d : BitVec 7) (a : BitVec 7) (b : BitVec 7)
  /-- MUL (R57). -/
  | mul (d : BitVec 7) (a : BitVec 7) (b : BitVec 7)
  /-- MULH (R57). -/
  | mulh (d : BitVec 7) (a : BitVec 7) (b : BitVec 7)
  /-- MULHU (R57). -/
  | mulhu (d : BitVec 7) (a : BitVec 7) (b : BitVec 7)
  /-- CLZ (R58). -/
  | clz (d : BitVec 7) (a : BitVec 7)
  /-- CTZ (R58). -/
  | ctz (d : BitVec 7) (a : BitVec 7)
  /-- POPC (R58). -/
  | popc (d : BitVec 7) (a : BitVec 7)
  /-- BREV (R58). -/
  | brev (d : BitVec 7) (a : BitVec 7)
  /-- SEXT_B (R58). -/
  | sextB (d : BitVec 7) (a : BitVec 7)
  /-- SEXT_H (R58). -/
  | sextH (d : BitVec 7) (a : BitVec 7)
  /-- SEXT_W (R58). -/
  | sextW (d : BitVec 7) (a : BitVec 7)
  /-- ZEXT_W (R58). -/
  | zextW (d : BitVec 7) (a : BitVec 7)
  /-- ADDI (R59). -/
  | addi (d : BitVec 7) (a : BitVec 7) (imm : BitVec 12)
  /-- ANDI (R59). -/
  | andi (d : BitVec 7) (a : BitVec 7) (imm : BitVec 12)
  /-- ORI (R59). -/
  | ori (d : BitVec 7) (a : BitVec 7) (imm : BitVec 12)
  /-- XORI (R59). -/
  | xori (d : BitVec 7) (a : BitVec 7) (imm : BitVec 12)
  /-- SLTI (R59). -/
  | slti (d : BitVec 7) (a : BitVec 7) (imm : BitVec 12)
  /-- SLTIU (R59). -/
  | sltiu (d : BitVec 7) (a : BitVec 7) (imm : BitVec 12)
  /-- SLLI (R60). -/
  | slli (d : BitVec 7) (a : BitVec 7) (sh : BitVec 6)
  /-- SRLI (R60). -/
  | srli (d : BitVec 7) (a : BitVec 7) (sh : BitVec 6)
  /-- SRAI (R60). -/
  | srai (d : BitVec 7) (a : BitVec 7) (sh : BitVec 6)
  /-- RORI (R60). -/
  | rori (d : BitVec 7) (a : BitVec 7) (sh : BitVec 6)
  /-- LUI (R61). -/
  | lui (d : BitVec 7) (imm : BitVec 19)
  /-- AUIPC (R61). -/
  | auipc (d : BitVec 7) (imm : BitVec 19)
  /-- LD_B (R71). -/
  | ldB (d : BitVec 7) (a : BitVec 7) (ahead : BitVec 4) (off : BitVec 8)
  /-- LD_BU (R71). -/
  | ldBu (d : BitVec 7) (a : BitVec 7) (ahead : BitVec 4) (off : BitVec 8)
  /-- LD_H (R71). -/
  | ldH (d : BitVec 7) (a : BitVec 7) (ahead : BitVec 4) (off : BitVec 8)
  /-- LD_HU (R71). -/
  | ldHu (d : BitVec 7) (a : BitVec 7) (ahead : BitVec 4) (off : BitVec 8)
  /-- LD_W (R71). -/
  | ldW (d : BitVec 7) (a : BitVec 7) (ahead : BitVec 4) (off : BitVec 8)
  /-- LD_WU (R71). -/
  | ldWu (d : BitVec 7) (a : BitVec 7) (ahead : BitVec 4) (off : BitVec 8)
  /-- LD_D (R71). -/
  | ldD (d : BitVec 7) (a : BitVec 7) (ahead : BitVec 4) (off : BitVec 8)
  /-- ST_B (R71). -/
  | stB (d : BitVec 7) (a : BitVec 7) (off : BitVec 8)
  /-- ST_H (R71). -/
  | stH (d : BitVec 7) (a : BitVec 7) (off : BitVec 8)
  /-- ST_W (R71). -/
  | stW (d : BitVec 7) (a : BitVec 7) (off : BitVec 8)
  /-- ST_D (R71). -/
  | stD (d : BitVec 7) (a : BitVec 7) (off : BitVec 8)
  /-- AMO_SWAP (R77). -/
  | amoSwap (d : BitVec 7) (a : BitVec 7) (b : BitVec 7)
  /-- AMO_ADD (R77). -/
  | amoAdd (d : BitVec 7) (a : BitVec 7) (b : BitVec 7)
  /-- AMO_AND (R77). -/
  | amoAnd (d : BitVec 7) (a : BitVec 7) (b : BitVec 7)
  /-- AMO_OR (R77). -/
  | amoOr (d : BitVec 7) (a : BitVec 7) (b : BitVec 7)
  /-- AMO_XOR (R77). -/
  | amoXor (d : BitVec 7) (a : BitVec 7) (b : BitVec 7)
  /-- AMO_MIN (R77). -/
  | amoMin (d : BitVec 7) (a : BitVec 7) (b : BitVec 7)
  /-- AMO_MAX (R77). -/
  | amoMax (d : BitVec 7) (a : BitVec 7) (b : BitVec 7)
  /-- AMO_CAS (R77). -/
  | amoCas (d : BitVec 7) (a : BitVec 7) (b : BitVec 7)
  /-- RED_ADD (R81). -/
  | redAdd (a : BitVec 7) (b : BitVec 7)
  /-- RED_OR (R81). -/
  | redOr (a : BitVec 7) (b : BitVec 7)
  /-- RED_MIN (R81). -/
  | redMin (a : BitVec 7) (b : BitVec 7)
  /-- RED_MAX (R81). -/
  | redMax (a : BitVec 7) (b : BitVec 7)
  /-- RED_FADD_S (R81). -/
  | redFaddS (a : BitVec 7) (b : BitVec 7)
  /-- BEQ (R63). -/
  | beq (a : BitVec 7) (b : BitVec 7) (off : BitVec 9)
  /-- BNE (R63). -/
  | bne (a : BitVec 7) (b : BitVec 7) (off : BitVec 9)
  /-- BLT (R63). -/
  | blt (a : BitVec 7) (b : BitVec 7) (off : BitVec 9)
  /-- BGE (R63). -/
  | bge (a : BitVec 7) (b : BitVec 7) (off : BitVec 9)
  /-- BLTU (R63). -/
  | bltu (a : BitVec 7) (b : BitVec 7) (off : BitVec 9)
  /-- BGEU (R63). -/
  | bgeu (a : BitVec 7) (b : BitVec 7) (off : BitVec 9)
  /-- BBS (R64). -/
  | bbs (a : BitVec 7) (bit : BitVec 6) (off : BitVec 12)
  /-- BBC (R64). -/
  | bbc (a : BitVec 7) (bit : BitVec 6) (off : BitVec 12)
  /-- J (R65). -/
  | j (off : BitVec 26)
  /-- JAL (R65). -/
  | jal (off : BitVec 26)
  /-- JALR (R66). -/
  | jalr (d : BitVec 7) (a : BitVec 7) (imm : BitVec 12)
  /-- FADD_S (R108). -/
  | faddS (d : BitVec 7) (a : BitVec 7) (b : BitVec 7)
  /-- FSUB_S (R108). -/
  | fsubS (d : BitVec 7) (a : BitVec 7) (b : BitVec 7)
  /-- FMUL_S (R108). -/
  | fmulS (d : BitVec 7) (a : BitVec 7) (b : BitVec 7)
  /-- FDIV_S (R108). -/
  | fdivS (d : BitVec 7) (a : BitVec 7) (b : BitVec 7)
  /-- FSQRT_S (R109). -/
  | fsqrtS (d : BitVec 7) (a : BitVec 7)
  /-- FMIN_S (R110). -/
  | fminS (d : BitVec 7) (a : BitVec 7) (b : BitVec 7)
  /-- FMAX_S (R110). -/
  | fmaxS (d : BitVec 7) (a : BitVec 7) (b : BitVec 7)
  /-- FEQ_S (R111). -/
  | feqS (d : BitVec 7) (a : BitVec 7) (b : BitVec 7)
  /-- FLT_S (R111). -/
  | fltS (d : BitVec 7) (a : BitVec 7) (b : BitVec 7)
  /-- FLE_S (R111). -/
  | fleS (d : BitVec 7) (a : BitVec 7) (b : BitVec 7)
  /-- FCLASS_S (R111). -/
  | fclassS (d : BitVec 7) (a : BitVec 7)
  /-- FMADD_S (R112). -/
  | fmaddS (d : BitVec 7) (a : BitVec 7) (b : BitVec 7)
  /-- FMSUB_S (R112). -/
  | fmsubS (d : BitVec 7) (a : BitVec 7) (b : BitVec 7)
  /-- FNMSUB_S (R112). -/
  | fnmsubS (d : BitVec 7) (a : BitVec 7) (b : BitVec 7)
  /-- FNMADD_S (R112). -/
  | fnmaddS (d : BitVec 7) (a : BitVec 7) (b : BitVec 7)
  /-- CVT_S_L (R113). -/
  | cvtSL (d : BitVec 7) (a : BitVec 7)
  /-- CVT_S_LU (R113). -/
  | cvtSLu (d : BitVec 7) (a : BitVec 7)
  /-- CVT_L_S (R113). -/
  | cvtLS (d : BitVec 7) (a : BitVec 7)
  /-- CVT_LU_S (R113). -/
  | cvtLuS (d : BitVec 7) (a : BitVec 7)
  /-- CVT_BF16_S (R114). -/
  | cvtBf16S (d : BitVec 7) (a : BitVec 7)
  /-- CVT_S_BF16 (R114). -/
  | cvtSBf16 (d : BitVec 7) (a : BitVec 7)
  /-- CVT_H_S (R114). -/
  | cvtHS (d : BitVec 7) (a : BitVec 7)
  /-- CVT_S_H (R114). -/
  | cvtSH (d : BitVec 7) (a : BitVec 7)
  /-- CVT_E4M3_S (R114). -/
  | cvtE4m3S (d : BitVec 7) (a : BitVec 7)
  /-- CVT_S_E4M3 (R114). -/
  | cvtSE4m3 (d : BitVec 7) (a : BitVec 7)
  /-- CVT_E5M2_S (R114). -/
  | cvtE5m2S (d : BitVec 7) (a : BitVec 7)
  /-- CVT_S_E5M2 (R114). -/
  | cvtSE5m2 (d : BitVec 7) (a : BitVec 7)
  /-- CVT_F4B_S (R115). -/
  | cvtF4bS (d : BitVec 7) (a : BitVec 7) (b : BitVec 7)
  /-- CVT_S_F4B (R115). -/
  | cvtSF4b (d : BitVec 7) (a : BitVec 7) (b : BitVec 7)
  /-- SPAWN (R147). -/
  | spawn (d : BitVec 7) (a : BitVec 7) (b : BitVec 7)
  /-- TAKE (R148). -/
  | take (d : BitVec 7) (a : BitVec 7)
  /-- REAP (R150). -/
  | reap (d : BitVec 7) (a : BitVec 7)
  /-- TEND (R151). -/
  | tend
  /-- TABORT (R152). -/
  | tabort (a : BitVec 7)
  /-- YIELD (R155). -/
  | yield
  /-- MFC (R157). -/
  | mfc (d : BitVec 7) (n : BitVec 7)
  /-- MTC (R157). -/
  | mtc (a : BitVec 7) (n : BitVec 7)
  /-- SELF (R156). -/
  | self (d : BitVec 7)
  /-- GRADE (R409). -/
  | grade (d : BitVec 7)
  /-- TOPO (R410). -/
  | topo (d : BitVec 7) (a : BitVec 7)
  /-- REP (R48). -/
  | rep (n : BitVec 6) (sd : BitVec 4) (sa : BitVec 4) (sb : BitVec 4) (len : BitVec 4)
  /-- TRAP (R128). -/
  | trap (a : BitVec 7)
  /-- ERET (R129). -/
  | eret
  /-- MFS (R130). -/
  | mfs (d : BitVec 7) (idx : BitVec 14)
  /-- MTS (R130). -/
  | mts (d : BitVec 7) (idx : BitVec 14)
  /-- BKPT (R131). -/
  | bkpt
  /-- TREPLAY (R132). -/
  | treplay (d : BitVec 7)
  /-- WAIT (R133). -/
  | wait (d : BitVec 7) (a : BitVec 7)
  /-- BMODE (R180). -/
  | bmode (d : BitVec 7) (a : BitVec 7) (b : BitVec 7)
  /-- CFLUSH (R186). -/
  | cflush
  /-- CINV (R185). -/
  | cinv (a : BitVec 7) (b : BitVec 7)
  /-- HOME (R196). -/
  | home
  /-- BAR (R376). -/
  | bar (n : BitVec 7)
  /-- BARV (R376). -/
  | barv (d : BitVec 7) (a : BitVec 7) (op : BitVec 3) (n : BitVec 2)
  /-- GRED (R377). -/
  | gred (a : BitVec 7) (n : BitVec 7)
  /-- GLEAVE (R378). -/
  | gleave (n : BitVec 7)
  /-- LAUNCH (R379). -/
  | launch (d : BitVec 7) (a : BitVec 7)
  /-- GQRY (R380). -/
  | gqry (d : BitVec 7) (a : BitVec 7)
  /-- SEND (R351). -/
  | send (d : BitVec 7) (a : BitVec 7) (b : BitVec 7)
  /-- SENDV (R351). -/
  | sendv (d : BitVec 7) (va : BitVec 5) (b : BitVec 7)
  /-- GVT (R360). -/
  | gvt (d : BitVec 7)
  /-- IRV_HOST (R361). -/
  | irvHost (a : BitVec 7) (b : BitVec 7)
  /-- IRV_FLASH (R361). -/
  | irvFlash (a : BitVec 7) (b : BitVec 7)
  /-- IRV_DB (R361). -/
  | irvDb (a : BitVec 7) (b : BitVec 7)
  /-- STAMP (R360). -/
  | stamp (d : BitVec 7)
  /-- CPY (R260). -/
  | cpy (d : BitVec 7) (a : BitVec 7) (b : BitVec 7)
  /-- CPY2D (R260). -/
  | cpy2d (d : BitVec 7) (a : BitVec 7) (b : BitVec 7)
  /-- CPYMC (R271). -/
  | cpymc (d : BitVec 7) (a : BitVec 7) (b : BitVec 7)
  /-- GATH (R260). -/
  | gath (d : BitVec 7) (a : BitVec 7) (b : BitVec 7)
  /-- SCAT (R260). -/
  | scat (d : BitVec 7) (a : BitVec 7) (b : BitVec 7)
  /-- CHAIN (R269). -/
  | chain (d : BitVec 7) (a : BitVec 7) (b : BitVec 7)
  /-- EWAIT (R268). -/
  | ewait (a : BitVec 7) (b : BitVec 7)
  /-- SHOPEN (R276). -/
  | shopen (d : BitVec 7) (a : BitVec 7) (b : BitVec 7)
  /-- PUBL (R278). -/
  | publ (a : BitVec 7)
  /-- BCARM (R273). -/
  | bcarm (a : BitVec 7) (b : BitVec 7)
  /-- BCWAIT (R274). -/
  | bcwait (a : BitVec 7)
  /-- CLAIM (R199). -/
  | claim (a : BitVec 7)
  /-- VREL (R203). -/
  | vrel
  /-- RENEG (R202). -/
  | reneg (a : BitVec 7)
  /-- VADD_S (R214). -/
  | vaddS (vd : BitVec 5) (va : BitVec 5) (vb : BitVec 5) (gp : BitVec 5)
  /-- VSUB_S (R214). -/
  | vsubS (vd : BitVec 5) (va : BitVec 5) (vb : BitVec 5) (gp : BitVec 5)
  /-- VMUL_S (R214). -/
  | vmulS (vd : BitVec 5) (va : BitVec 5) (vb : BitVec 5) (gp : BitVec 5)
  /-- VFMA_S (R214). -/
  | vfmaS (vd : BitVec 5) (va : BitVec 5) (vb : BitVec 5) (gp : BitVec 5)
  /-- VFMS_S (R214). -/
  | vfmsS (vd : BitVec 5) (va : BitVec 5) (vb : BitVec 5) (gp : BitVec 5)
  /-- VMIN_S (R214). -/
  | vminS (vd : BitVec 5) (va : BitVec 5) (vb : BitVec 5) (gp : BitVec 5)
  /-- VMAX_S (R214). -/
  | vmaxS (vd : BitVec 5) (va : BitVec 5) (vb : BitVec 5) (gp : BitVec 5)
  /-- VABS_S (R214). -/
  | vabsS (vd : BitVec 5) (va : BitVec 5) (gp : BitVec 5)
  /-- VNEG_S (R214). -/
  | vnegS (vd : BitVec 5) (va : BitVec 5) (gp : BitVec 5)
  /-- VRCP_S (R215). -/
  | vrcpS (vd : BitVec 5) (va : BitVec 5) (gp : BitVec 5)
  /-- VRSQ_S (R215). -/
  | vrsqS (vd : BitVec 5) (va : BitVec 5) (gp : BitVec 5)
  /-- VEXP2_S (R215). -/
  | vexp2S (vd : BitVec 5) (va : BitVec 5) (gp : BitVec 5)
  /-- VLOG2_S (R215). -/
  | vlog2S (vd : BitVec 5) (va : BitVec 5) (gp : BitVec 5)
  /-- VIADD (R216). -/
  | viadd (vd : BitVec 5) (va : BitVec 5) (vb : BitVec 5) (gp : BitVec 5)
  /-- VISUB (R216). -/
  | visub (vd : BitVec 5) (va : BitVec 5) (vb : BitVec 5) (gp : BitVec 5)
  /-- VIMUL (R216). -/
  | vimul (vd : BitVec 5) (va : BitVec 5) (vb : BitVec 5) (gp : BitVec 5)
  /-- VAND (R216). -/
  | vand (vd : BitVec 5) (va : BitVec 5) (vb : BitVec 5) (gp : BitVec 5)
  /-- VOR (R216). -/
  | vor (vd : BitVec 5) (va : BitVec 5) (vb : BitVec 5) (gp : BitVec 5)
  /-- VXOR (R216). -/
  | vxor (vd : BitVec 5) (va : BitVec 5) (vb : BitVec 5) (gp : BitVec 5)
  /-- VSHL (R216). -/
  | vshl (vd : BitVec 5) (va : BitVec 5) (vb : BitVec 5) (gp : BitVec 5)
  /-- VSHR (R216). -/
  | vshr (vd : BitVec 5) (va : BitVec 5) (vb : BitVec 5) (gp : BitVec 5)
  /-- VSRA (R216). -/
  | vsra (vd : BitVec 5) (va : BitVec 5) (vb : BitVec 5) (gp : BitVec 5)
  /-- VLD (R217). -/
  | vld (vd : BitVec 5) (gp : BitVec 5)
  /-- VST (R217). -/
  | vst (vd : BitVec 5) (gp : BitVec 5)
  /-- VLDS (R217). -/
  | vlds (vd : BitVec 5) (vb : BitVec 5) (gp : BitVec 5)
  /-- VSTS (R217). -/
  | vsts (vd : BitVec 5) (vb : BitVec 5) (gp : BitVec 5)
  /-- VGATH (R217). -/
  | vgath (vd : BitVec 5) (vb : BitVec 5) (gp : BitVec 5)
  /-- VSCAT (R217). -/
  | vscat (vd : BitVec 5) (vb : BitVec 5) (gp : BitVec 5)
  /-- VPERM (R220). -/
  | vperm (vd : BitVec 5) (va : BitVec 5) (vb : BitVec 5) (gp : BitVec 5)
  /-- VSLIDE (R220). -/
  | vslide (vd : BitVec 5) (va : BitVec 5) (vb : BitVec 5) (gp : BitVec 5)
  /-- VSEL (R220). -/
  | vsel (vd : BitVec 5) (va : BitVec 5) (vb : BitVec 5) (gp : BitVec 5)
  /-- VBCAST (R220). -/
  | vbcast (vd : BitVec 5) (gp : BitVec 5)
  /-- VCOMP (R220). -/
  | vcomp (vd : BitVec 5) (va : BitVec 5) (gp : BitVec 5)
  /-- VSPRS (R221). -/
  | vsprs (vd : BitVec 5) (va : BitVec 5) (gp : BitVec 5)
  /-- VCVT_BF16_S (R222). -/
  | vcvtBf16S (vd : BitVec 5) (va : BitVec 5) (gp : BitVec 5)
  /-- VCVT_H_S (R222). -/
  | vcvtHS (vd : BitVec 5) (va : BitVec 5) (gp : BitVec 5)
  /-- VCVT_E4M3_S (R222). -/
  | vcvtE4m3S (vd : BitVec 5) (va : BitVec 5) (gp : BitVec 5)
  /-- VCVT_E5M2_S (R222). -/
  | vcvtE5m2S (vd : BitVec 5) (va : BitVec 5) (gp : BitVec 5)
  /-- VCVT_F4B_S (R222). -/
  | vcvtF4bS (vd : BitVec 5) (va : BitVec 5) (gp : BitVec 5)
  /-- VCVT_S_BF16 (R222). -/
  | vcvtSBf16 (vd : BitVec 5) (va : BitVec 5) (gp : BitVec 5)
  /-- VCVT_S_H (R222). -/
  | vcvtSH (vd : BitVec 5) (va : BitVec 5) (gp : BitVec 5)
  /-- VCVT_S_E4M3 (R222). -/
  | vcvtSE4m3 (vd : BitVec 5) (va : BitVec 5) (gp : BitVec 5)
  /-- VCVT_S_E5M2 (R222). -/
  | vcvtSE5m2 (vd : BitVec 5) (va : BitVec 5) (gp : BitVec 5)
  /-- VCVT_S_F4B (R222). -/
  | vcvtSF4b (vd : BitVec 5) (va : BitVec 5) (gp : BitVec 5)
  /-- VCMPEQ_S (R224). -/
  | vcmpeqS (d : BitVec 7) (va : BitVec 5) (vb : BitVec 5) (ahead : BitVec 4)
  /-- VCMPNE_S (R224). -/
  | vcmpneS (d : BitVec 7) (va : BitVec 5) (vb : BitVec 5) (ahead : BitVec 4)
  /-- VCMPLT_S (R224). -/
  | vcmpltS (d : BitVec 7) (va : BitVec 5) (vb : BitVec 5) (ahead : BitVec 4)
  /-- VCMPLE_S (R224). -/
  | vcmpleS (d : BitVec 7) (va : BitVec 5) (vb : BitVec 5) (ahead : BitVec 4)
  /-- VCMPEQ_I (R224). -/
  | vcmpeqI (d : BitVec 7) (va : BitVec 5) (vb : BitVec 5) (ahead : BitVec 4)
  /-- VCMPNE_I (R224). -/
  | vcmpneI (d : BitVec 7) (va : BitVec 5) (vb : BitVec 5) (ahead : BitVec 4)
  /-- VCMPLT_I (R224). -/
  | vcmpltI (d : BitVec 7) (va : BitVec 5) (vb : BitVec 5) (ahead : BitVec 4)
  /-- VCMPLE_I (R224). -/
  | vcmpleI (d : BitVec 7) (va : BitVec 5) (vb : BitVec 5) (ahead : BitVec 4)
  /-- VRSUM (R225). -/
  | vrsum (d : BitVec 7) (va : BitVec 5) (ahead : BitVec 4)
  /-- VRMAX (R225). -/
  | vrmax (d : BitVec 7) (va : BitVec 5) (ahead : BitVec 4)
  /-- VRMIN (R225). -/
  | vrmin (d : BitVec 7) (va : BitVec 5) (ahead : BitVec 4)
  /-- VMOVS (R226). -/
  | vmovs (d : BitVec 7) (va : BitVec 5) (ahead : BitVec 4)
  /-- VIBRES (R292). -/
  | vibres (d : BitVec 7) (va : BitVec 5) (vb : BitVec 5) (ahead : BitVec 4)
  /-- VIBADD (R286). -/
  | vibadd (vd : BitVec 5) (va : BitVec 5) (vb : BitVec 5) (gp : BitVec 5)
  /-- VIBSUB (R286). -/
  | vibsub (vd : BitVec 5) (va : BitVec 5) (vb : BitVec 5) (gp : BitVec 5)
  /-- VEMBED (R287). -/
  | vembed (vd : BitVec 5) (va : BitVec 5) (gp : BitVec 5)
  /-- VSCHUR (R290). -/
  | vschur (vd : BitVec 5) (va : BitVec 5) (gp : BitVec 5)
  /-- VDAMP (R288). -/
  | vdamp (vd : BitVec 5) (va : BitVec 5) (vb : BitVec 5) (gp : BitVec 5)
  /-- VSOLVE (R291). -/
  | vsolve (vd : BitVec 5) (va : BitVec 5) (gp : BitVec 5)
  /-- MBSET (R295). -/
  | mbset (a : BitVec 7) (b : BitVec 7)
  /-- MBLD (R296). -/
  | mbld (vd : BitVec 5) (a : BitVec 7)
  /-- MBUPD (R297). -/
  | mbupd (d : BitVec 7) (a : BitVec 7) (vb : BitVec 5)
  /-- MMA (R246). -/
  | mma (acc : BitVec 3) (aslot : BitVec 4) (bslot : BitVec 4) (wait : BitVec 8) (set : BitVec 4)
  /-- MMA_OW (R246). -/
  | mmaOw (acc : BitVec 3) (aslot : BitVec 4) (bslot : BitVec 4) (wait : BitVec 8) (set : BitVec 4)
  /-- MMA_HALF (R246). -/
  | mmaHalf (acc : BitVec 3) (aslot : BitVec 4) (bslot : BitVec 4) (wait : BitVec 8) (set : BitVec 4)
  /-- MMA_HALF_OW (R246). -/
  | mmaHalfOw (acc : BitVec 3) (aslot : BitVec 4) (bslot : BitVec 4) (wait : BitVec 8) (set : BitVec 4)
  /-- MMA_SP (R246). -/
  | mmaSp (acc : BitVec 3) (aslot : BitVec 4) (bslot : BitVec 4) (wait : BitVec 8) (set : BitVec 4)
  /-- MMA_SP_OW (R246). -/
  | mmaSpOw (acc : BitVec 3) (aslot : BitVec 4) (bslot : BitVec 4) (wait : BitVec 8) (set : BitVec 4)
  /-- MMA_HALF_SP (R246). -/
  | mmaHalfSp (acc : BitVec 3) (aslot : BitVec 4) (bslot : BitVec 4) (wait : BitVec 8) (set : BitVec 4)
  /-- MMA_HALF_SP_OW (R246). -/
  | mmaHalfSpOw (acc : BitVec 3) (aslot : BitVec 4) (bslot : BitVec 4) (wait : BitVec 8) (set : BitVec 4)
  /-- OCLAIM (R236). -/
  | oclaim (e : BitVec 7) (n : BitVec 7)
  /-- OREL (R237). -/
  | orel (n : BitVec 7)
  /-- OLD (R238). -/
  | old (d : BitVec 7) (a : BitVec 7) (b : BitVec 7)
  /-- ARD (R243). -/
  | ard (a : BitVec 7) (b : BitVec 7)
  /-- AWR (R243). -/
  | awr (a : BitVec 7) (b : BitVec 7)
  /-- ACLR (R243). -/
  | aclr (b : BitVec 7)
  /-- MWAIT (R241). -/
  | mwait (a : BitVec 7) (b : BitVec 7)
  /-- DIV (R85). -/
  | div (d : BitVec 7) (a : BitVec 7) (b : BitVec 7)
  /-- DIVU (R85). -/
  | divu (d : BitVec 7) (a : BitVec 7) (b : BitVec 7)
  /-- REM (R85). -/
  | rem (d : BitVec 7) (a : BitVec 7) (b : BitVec 7)
  /-- REMU (R85). -/
  | remu (d : BitVec 7) (a : BitVec 7) (b : BitVec 7)
  /-- FADD_D (R116). -/
  | faddD (d : BitVec 7) (a : BitVec 7) (b : BitVec 7)
  /-- FSUB_D (R116). -/
  | fsubD (d : BitVec 7) (a : BitVec 7) (b : BitVec 7)
  /-- FMUL_D (R116). -/
  | fmulD (d : BitVec 7) (a : BitVec 7) (b : BitVec 7)
  /-- FDIV_D (R116). -/
  | fdivD (d : BitVec 7) (a : BitVec 7) (b : BitVec 7)
  /-- FSQRT_D (R116). -/
  | fsqrtD (d : BitVec 7) (a : BitVec 7)
  /-- FMIN_D (R116). -/
  | fminD (d : BitVec 7) (a : BitVec 7) (b : BitVec 7)
  /-- FMAX_D (R116). -/
  | fmaxD (d : BitVec 7) (a : BitVec 7) (b : BitVec 7)
  /-- FEQ_D (R116). -/
  | feqD (d : BitVec 7) (a : BitVec 7) (b : BitVec 7)
  /-- FLT_D (R116). -/
  | fltD (d : BitVec 7) (a : BitVec 7) (b : BitVec 7)
  /-- FLE_D (R116). -/
  | fleD (d : BitVec 7) (a : BitVec 7) (b : BitVec 7)
  /-- FCLASS_D (R116). -/
  | fclassD (d : BitVec 7) (a : BitVec 7)
  /-- CVT_D_S (R116). -/
  | cvtDS (d : BitVec 7) (a : BitVec 7)
  /-- CVT_S_D (R116). -/
  | cvtSD (d : BitVec 7) (a : BitVec 7)
  /-- CVT_D_L (R116). -/
  | cvtDL (d : BitVec 7) (a : BitVec 7)
  /-- CVT_L_D (R116). -/
  | cvtLD (d : BitVec 7) (a : BitVec 7)
  /-- FMADD_D (R116). -/
  | fmaddD (d : BitVec 7) (a : BitVec 7) (b : BitVec 7)
  /-- FMSUB_D (R116). -/
  | fmsubD (d : BitVec 7) (a : BitVec 7) (b : BitVec 7)
  /-- FNMSUB_D (R116). -/
  | fnmsubD (d : BitVec 7) (a : BitVec 7) (b : BitVec 7)
  /-- FNMADD_D (R116). -/
  | fnmaddD (d : BitVec 7) (a : BitVec 7) (b : BitVec 7)
  /-- ROTATION_BOUNDARY (R158). -/
  | rotationBoundary (v : Nat) (c : Nat)
  /-- LOAD_COMPLETE (R45). -/
  | loadComplete (v : Nat) (tid : Nat)
  /-- HELD_TRAP_DELIVERY (R122). -/
  | heldTrapDelivery (v : Nat) (tid : Nat)
  /-- CDISP_RESTART (R124). -/
  | cdispRestart (v : Nat) (c : Nat)
  /-- DEBUG_HALT (R135). -/
  | debugHalt (v : Nat) (c : Nat)
  /-- DEBUG_RESUME (R135). -/
  | debugResume (v : Nat) (c : Nat)
  /-- DEBUG_STEP (R135). -/
  | debugStep (v : Nat) (c : Nat)
  /-- DEBUG_ABORT (R135). -/
  | debugAbort (v : Nat) (c : Nat)
  /-- DDATA_READ (R134). -/
  | ddataRead (v : Nat) (c : Nat)
  /-- DDATA_WRITE (R135). -/
  | ddataWrite (v : Nat) (c : Nat) (x : BitVec 64)
  /-- TNQ_READ (R134). -/
  | tnqRead (v : Nat) (c : Nat)
  /-- CPRE_WRITE (R160). -/
  | cpreWrite (v : Nat) (c : Nat) (x : BitVec 64)
  /-- DISPLACE (R144). -/
  | displace (v : Nat) (c : Nat)
  /-- BARRIER_YIELD (R145). -/
  | barrierYield (v : Nat) (c : Nat)
  /-- VACATE_COMPLETE (R161). -/
  | vacateComplete (v : Nat) (c : Nat) (slot : Nat)
  /-- CONTEXT_WRITEBACK (R161). -/
  | contextWriteback (v : Nat)
  /-- PACKET_ENQUEUE (R140). -/
  | packetEnqueue (k : Nat)
  /-- OVERFLOW_REFILL (R140). -/
  | overflowRefill (v : Nat) (c : Nat)
  /-- MIGRATION_ARRIVAL (R195). -/
  | migrationArrival (k : Nat)
  /-- LANE_GRANT (R200). -/
  | laneGrant (v : Nat)
  /-- VECTOR_COMMAND_COMPLETE (R208). -/
  | vectorCommandComplete (v : Nat) (tid : Nat)
  /-- GANG_INSTRUCTION_EFFECT (R233). -/
  | gangInstructionEffect (v : Nat) (pid : Nat) (gid : Nat)
  /-- MMA_START (R251). -/
  | mmaStart (v : Nat) (pid : Nat) (gid : Nat) (k : Nat)
  /-- MMA_COMPLETE (R247). -/
  | mmaComplete (v : Nat) (pid : Nat) (gid : Nat) (k : Nat)
  /-- OLD_COMPLETE (R239). -/
  | oldComplete (v : Nat) (pid : Nat) (gid : Nat) (k : Nat)
  /-- ACCUMULATOR_OP_COMPLETE (R243). -/
  | accumulatorOpComplete (v : Nat) (pid : Nat) (gid : Nat) (k : Nat)
  /-- GANG_RECLAIM (R253). -/
  | gangReclaim (v : Nat) (pid : Nat) (gid : Nat)
  /-- GANG_PARK (R254). -/
  | gangPark (v : Nat) (pid : Nat) (gid : Nat)
  /-- ENGINE_COMMAND_COMPLETE (R264). -/
  | engineCommandComplete (v : Nat) (k : Nat)
  /-- CHAIN_DESCRIPTOR_COMPLETE (R270). -/
  | chainDescriptorComplete (v : Nat) (k : Nat)
  /-- BYTE_COUNT_ADD (R272). -/
  | byteCountAdd (k : Nat)
  /-- MESSAGE_ARRIVAL (R352). -/
  | messageArrival (k : Nat)
  /-- ANTI_MESSAGE_ARRIVAL (R355). -/
  | antiMessageArrival (k : Nat)
  /-- MESSAGE_ACK (R352). -/
  | messageAck (k : Nat)
  /-- MESSAGE_HANDOVER (R452). -/
  | messageHandover (v : Nat) (k : Nat)
  /-- PACKET_FORWARD (R305). -/
  | packetForward (k : Nat)
  /-- TABLE_ENTRY_UPDATE (R304). -/
  | tableEntryUpdate (router : Nat) (v : Nat)
  /-- GVT_ROUND_START (R356). -/
  | gvtRoundStart (pid : Nat)
  /-- GVT_CUT (R356). -/
  | gvtCut (pid : Nat) (v : Nat)
  /-- COMMIT_PHASE (R357). -/
  | commitPhase (pid : Nat)
  /-- CONFLICT_NOTICE (R333). -/
  | conflictNotice (k : Nat)
  /-- IRV_PERFORM (R361). -/
  | irvPerform (pid : Nat)
  /-- LAUNCH_SUBMIT (R367). -/
  | launchSubmit (x : BitVec 64)
  /-- LAUNCH_PROCESS (R369). -/
  | launchProcess (pid : Nat)
  /-- CHUNK_HANDOUT (R307). -/
  | chunkHandout (pid : Nat) (lnum : Nat) (chunk : Nat)
  /-- BARRIER_ARRIVAL (R376). -/
  | barrierArrival (pid : Nat) (gid : Nat) (tid : Nat)
  /-- BARRIER_COMPLETE (R376). -/
  | barrierComplete (pid : Nat) (gid : Nat)
  /-- GROUP_PLACEMENT (R381). -/
  | groupPlacement (pid : Nat) (gid : Nat)
  /-- GANG_RESERVATION (R383). -/
  | gangReservation (pid : Nat) (gid : Nat)
  /-- RESERVATION_PREEMPT (R383). -/
  | reservationPreempt (pid : Nat) (gid : Nat)
  /-- PARTITION_PREEMPT (R385). -/
  | partitionPreempt (pid : Nat)
  /-- PARTITION_RESUME (R413). -/
  | partitionResume (pid : Nat)
  /-- PARTITION_CREATE (R388). -/
  | partitionCreate (pid : Nat)
  /-- PARTITION_DESTROY (R388). -/
  | partitionDestroy (pid : Nat)
  /-- HNDCFG_WRITE (R347). -/
  | hndcfgWrite (v : Nat) (x : BitVec 64)
  /-- SCRCFG_WRITE (R166). -/
  | scrcfgWrite (v : Nat) (x : BitVec 64)
  /-- PCAIRN_WRITE (R413). -/
  | pcairnWrite (pid : Nat) (x : BitVec 64)
  /-- FRDAT_WRITE (R428). -/
  | frdatWrite (pid : Nat) (x : BitVec 64)
  /-- ROTCTL_WRITE (R390). -/
  | rotctlWrite (x : BitVec 64)
  /-- ROTATION_REQUEST (R392). -/
  | rotationRequest (x : BitVec 64)
  /-- ROTATION_START (R392). -/
  | rotationStart (src : Nat) (dst : Nat)
  /-- ROTATION_COPY (R393). -/
  | rotationCopy (v : Nat)
  /-- ROTATION_REMAP (R393). -/
  | rotationRemap (v : Nat)
  /-- ROTATION_RESUME (R393). -/
  | rotationResume (v : Nat)
  /-- SELF_TEST_START (R390). -/
  | selfTestStart (pcn : Nat)
  /-- SELF_TEST_END (R391). -/
  | selfTestEnd (pcn : Nat) (outcome : Nat)
  /-- ERROR_STOP (R401). -/
  | errorStop (v : Nat) (code : Nat) (core : Nat) (slot : Nat) (detail : BitVec 16) (detail2 : BitVec 64)
  /-- CAIRN_RESTORE (R401). -/
  | cairnRestore (v : Nat)
  /-- COAST_FORWARD_END (R402). -/
  | coastForwardEnd (v : Nat)
  /-- DIE_FENCE (R309). -/
  | dieFence (die : Nat)
  /-- MASTER_TAKEOVER (R309). -/
  | masterTakeover
  /-- PAGE_WALK_COMPLETE (R323). -/
  | pageWalkComplete (pid : Nat) (region : Nat)
  /-- FRESP_RETRY (R324). -/
  | frespRetry (x : BitVec 64)
  /-- FRESP_REJECT (R324). -/
  | frespReject (x : BitVec 64)
  /-- XLINV (R322). -/
  | xlinv (x : BitVec 64)
  /-- XLINV_DONE (R322). -/
  | xlinvDone
  /-- SLICE_HASH_SEL_WRITE (R321). -/
  | sliceHashSelWrite (x : BitVec 64)
  /-- SLICE_REHASH_COMPLETE (R321). -/
  | sliceRehashComplete
  /-- LINE_EVICTION (R315). -/
  | lineEviction (tier : Nat) (line : Nat)
  /-- WRITE_THROUGH_PERFORM (R315). -/
  | writeThroughPerform (v : Nat)
  /-- WINDOW_B_READ (R416). -/
  | windowBRead (off : Nat) (n : Nat)
  /-- WINDOW_B_WRITE (R416). -/
  | windowBWrite (off : Nat) (n : Nat) (x : BitVec 64)
  /-- ATTESTATION_REQUEST (R422). -/
  | attestationRequest (x : BitVec 64)
  /-- ATTESTATION_REPORT (R422). -/
  | attestationReport
  /-- POWER_SAMPLE (R425). -/
  | powerSample (watts : Nat)
  /-- THERMAL_TRIP (R425). -/
  | thermalTrip
  /-- POWER_ON (R420). -/
  | powerOn (images : BitVec 8)
  /-- BRINGUP_CLUSTER_PASS (R424). -/
  | bringupClusterPass (pcn : Nat)
  /-- GRADE_TIMEOUT (R424). -/
  | gradeTimeout
  /-- FRAME_RETRANSMIT (R427). -/
  | frameRetransmit (k : Nat)
  /-- PACKAGE_LOST (R427). -/
  | packageLost (pkg : Nat)
  /-- FABRIC_PUBLICATION_DATA (R430). -/
  | fabricPublicationData (k : Nat)
  /-- FABRIC_GVT_FRAME (R431). -/
  | fabricGvtFrame (k : Nat)
  /-- FABRIC_GROUP_FRAME (R432). -/
  | fabricGroupFrame (k : Nat)
  /-- ROPE_DIGEST_FRAME (R433). -/
  | ropeDigestFrame (k : Nat)
  /-- TIE_BREAK_END (R435). -/
  | tieBreakEnd (pid : Nat) (mine : BitVec 256) (theirs : BitVec 256)
  /-- IMAGE_DATA_FRAME (R436). -/
  | imageDataFrame (pid : Nat)
  /-- SLICE_GATE (R437). -/
  | sliceGate
  /-- SLICE_GATE_FRAME (R437). -/
  | sliceGateFrame (k : Nat)
  /-- SLICE_ABANDON (R437). -/
  | sliceAbandon
  /-- REGISTER_WRITE (R24). -/
  | registerWrite (idx : Nat) (x : BitVec 64)
  /-- UNASSIGNED_WORD (R36). -/
  | unassignedWord (w : BitVec 32)
  /-- WINDOW_A_WRITE (R371). -/
  | windowAWrite (off : Nat) (x : BitVec 64)
  /-- MEMORY_DIE_LOSS (R405). -/
  | memoryDieLoss (die : Nat)
  /-- SLICE_UNCORRECTABLE_ERROR (R405). -/
  | sliceUncorrectableError (slice : Nat)
  /-- CAIRN_ACKNOWLEDGE (R400). -/
  | cairnAcknowledge (v : Nat)
  /-- FLASH_IMAGE_WRITTEN (R436). -/
  | flashImageWritten (pid : Nat)
  deriving DecidableEq, Repr

end Sys2Proof
end

