-- ==== Sys2Proof/Decode.lean ====
section
/-! DEFINITION. The decoder and the encoder (R33 to R39), from the encoding tables of the spec: the major opcode
selects the format, the function value selects the instruction, and every field the entry does not name must be zero.
The decoder is marked noncomputable because the compiler builds no constructor beyond the 245th of a type; the kernel
evaluates it (log 1). -/

namespace Sys2Proof

/-- Why a word is no instruction (check 1 of R36). -/
inductive Reject where
  /-- the major opcode is unassigned (R38) -/
  | major
  /-- the function, cc, sub or kind value is unassigned within its major (R39) -/
  | function
  /-- a field that must be zero is not (R37) -/
  | reserved
  deriving DecidableEq, Repr

/-- Bits `lo + len - 1 .. lo` of `w` (R2). -/
def fld {n : Nat} (w : BitVec n) (lo len : Nat) : BitVec len := w.extractLsb' lo len

/-- An instruction whose unused fields must be zero (R37). -/
def needZero (z : Bool) (i : Instr) : Except Reject Instr := if z then .ok i else .error .reserved

/-- The R format (R34). -/
def wordR (op : BitVec 6) (d : BitVec 7) (a : BitVec 7) (b : BitVec 7) (fn : BitVec 5) : Half :=
  op ++ d ++ a ++ b ++ fn

/-- The I format (R34). -/
def wordI (op : BitVec 6) (d : BitVec 7) (a : BitVec 7) (imm : BitVec 12) : Half :=
  op ++ d ++ a ++ imm

/-- The L format (R34). -/
def wordL (op : BitVec 6) (d : BitVec 7) (a : BitVec 7) (ahead : BitVec 4) (off : BitVec 8) : Half :=
  op ++ d ++ a ++ ahead ++ off

/-- The B format (R34). -/
def wordB (op : BitVec 6) (cc : BitVec 3) (a : BitVec 7) (b : BitVec 7) (off : BitVec 9) : Half :=
  op ++ cc ++ a ++ b ++ off

/-- The T format (R34). -/
def wordT (op : BitVec 6) (a : BitVec 7) (bit : BitVec 6) (sense : BitVec 1) (off : BitVec 12) : Half :=
  op ++ a ++ bit ++ sense ++ off

/-- The J format (R34). -/
def wordJ (op : BitVec 6) (off : BitVec 26) : Half :=
  op ++ off

/-- The U format (R34). -/
def wordU (op : BitVec 6) (d : BitVec 7) (imm : BitVec 19) : Half :=
  op ++ d ++ imm

/-- The V format (R34). -/
def wordV (op : BitVec 6) (vfn : BitVec 6) (vd : BitVec 5) (va : BitVec 5) (vb : BitVec 5) (gp : BitVec 5) : Half :=
  op ++ vfn ++ vd ++ va ++ vb ++ gp

/-- The VS format (R34). -/
def wordVS (op : BitVec 6) (d : BitVec 7) (va : BitVec 5) (vb : BitVec 5) (vfn : BitVec 5) (ahead : BitVec 4) : Half :=
  op ++ d ++ va ++ vb ++ vfn ++ ahead

/-- The X format (R34). -/
def wordX (op : BitVec 6) (sub : BitVec 3) (acc : BitVec 3) (aslot : BitVec 4) (bslot : BitVec 4) (wait : BitVec 8) (set : BitVec 4) : Half :=
  op ++ sub ++ acc ++ aslot ++ bslot ++ wait ++ set

/-- The P format (R34). -/
def wordP (op : BitVec 6) (n : BitVec 6) (sd : BitVec 4) (sa : BitVec 4) (sb : BitVec 4) (len : BitVec 4) (rsv : BitVec 4) : Half :=
  op ++ n ++ sd ++ sa ++ sb ++ len ++ rsv

/-- Major 0x01 (R39). -/
def decMajor01 (w : Half) : Except Reject Instr :=
  match fld w 0 5 with
  | 0#5 => .ok (.add (fld w 19 7) (fld w 12 7) (fld w 5 7))
  | 1#5 => .ok (.sub (fld w 19 7) (fld w 12 7) (fld w 5 7))
  | 2#5 => .ok (.and (fld w 19 7) (fld w 12 7) (fld w 5 7))
  | 3#5 => .ok (.or (fld w 19 7) (fld w 12 7) (fld w 5 7))
  | 4#5 => .ok (.xor (fld w 19 7) (fld w 12 7) (fld w 5 7))
  | 5#5 => .ok (.andn (fld w 19 7) (fld w 12 7) (fld w 5 7))
  | 6#5 => .ok (.sll (fld w 19 7) (fld w 12 7) (fld w 5 7))
  | 7#5 => .ok (.srl (fld w 19 7) (fld w 12 7) (fld w 5 7))
  | 8#5 => .ok (.sra (fld w 19 7) (fld w 12 7) (fld w 5 7))
  | 9#5 => .ok (.rol (fld w 19 7) (fld w 12 7) (fld w 5 7))
  | 10#5 => .ok (.ror (fld w 19 7) (fld w 12 7) (fld w 5 7))
  | 11#5 => .ok (.slt (fld w 19 7) (fld w 12 7) (fld w 5 7))
  | 12#5 => .ok (.sltu (fld w 19 7) (fld w 12 7) (fld w 5 7))
  | 13#5 => .ok (.min (fld w 19 7) (fld w 12 7) (fld w 5 7))
  | 14#5 => .ok (.max (fld w 19 7) (fld w 12 7) (fld w 5 7))
  | 15#5 => .ok (.minu (fld w 19 7) (fld w 12 7) (fld w 5 7))
  | 16#5 => .ok (.maxu (fld w 19 7) (fld w 12 7) (fld w 5 7))
  | 17#5 => .ok (.mul (fld w 19 7) (fld w 12 7) (fld w 5 7))
  | 18#5 => .ok (.mulh (fld w 19 7) (fld w 12 7) (fld w 5 7))
  | 19#5 => .ok (.mulhu (fld w 19 7) (fld w 12 7) (fld w 5 7))
  | _ => .error .function

/-- Major 0x02 (R39). -/
def decMajor02 (w : Half) : Except Reject Instr :=
  match fld w 0 5 with
  | 0#5 => needZero (fld w 5 7 == 0) (.clz (fld w 19 7) (fld w 12 7))
  | 1#5 => needZero (fld w 5 7 == 0) (.ctz (fld w 19 7) (fld w 12 7))
  | 2#5 => needZero (fld w 5 7 == 0) (.popc (fld w 19 7) (fld w 12 7))
  | 3#5 => needZero (fld w 5 7 == 0) (.brev (fld w 19 7) (fld w 12 7))
  | 4#5 => needZero (fld w 5 7 == 0) (.sextB (fld w 19 7) (fld w 12 7))
  | 5#5 => needZero (fld w 5 7 == 0) (.sextH (fld w 19 7) (fld w 12 7))
  | 6#5 => needZero (fld w 5 7 == 0) (.sextW (fld w 19 7) (fld w 12 7))
  | 7#5 => needZero (fld w 5 7 == 0) (.zextW (fld w 19 7) (fld w 12 7))
  | _ => .error .function

/-- Major 0x09 (R39). -/
def decMajor09 (w : Half) : Except Reject Instr :=
  match fld w 6 6 with
  | 0#6 => .ok (.slli (fld w 19 7) (fld w 12 7) (fld w 0 6))
  | 1#6 => .ok (.srli (fld w 19 7) (fld w 12 7) (fld w 0 6))
  | 2#6 => .ok (.srai (fld w 19 7) (fld w 12 7) (fld w 0 6))
  | 3#6 => .ok (.rori (fld w 19 7) (fld w 12 7) (fld w 0 6))
  | _ => .error .function

/-- Major 0x17 (R39). -/
def decMajor17 (w : Half) : Except Reject Instr :=
  match fld w 0 5 with
  | 0#5 => .ok (.amoSwap (fld w 19 7) (fld w 12 7) (fld w 5 7))
  | 1#5 => .ok (.amoAdd (fld w 19 7) (fld w 12 7) (fld w 5 7))
  | 2#5 => .ok (.amoAnd (fld w 19 7) (fld w 12 7) (fld w 5 7))
  | 3#5 => .ok (.amoOr (fld w 19 7) (fld w 12 7) (fld w 5 7))
  | 4#5 => .ok (.amoXor (fld w 19 7) (fld w 12 7) (fld w 5 7))
  | 5#5 => .ok (.amoMin (fld w 19 7) (fld w 12 7) (fld w 5 7))
  | 6#5 => .ok (.amoMax (fld w 19 7) (fld w 12 7) (fld w 5 7))
  | 7#5 => .ok (.amoCas (fld w 19 7) (fld w 12 7) (fld w 5 7))
  | 16#5 => needZero (fld w 19 7 == 0) (.redAdd (fld w 12 7) (fld w 5 7))
  | 17#5 => needZero (fld w 19 7 == 0) (.redOr (fld w 12 7) (fld w 5 7))
  | 18#5 => needZero (fld w 19 7 == 0) (.redMin (fld w 12 7) (fld w 5 7))
  | 19#5 => needZero (fld w 19 7 == 0) (.redMax (fld w 12 7) (fld w 5 7))
  | 20#5 => needZero (fld w 19 7 == 0) (.redFaddS (fld w 12 7) (fld w 5 7))
  | _ => .error .function

/-- Major 0x18 (R39). -/
def decMajor18 (w : Half) : Except Reject Instr :=
  match fld w 23 3 with
  | 0#3 => .ok (.beq (fld w 16 7) (fld w 9 7) (fld w 0 9))
  | 1#3 => .ok (.bne (fld w 16 7) (fld w 9 7) (fld w 0 9))
  | 2#3 => .ok (.blt (fld w 16 7) (fld w 9 7) (fld w 0 9))
  | 3#3 => .ok (.bge (fld w 16 7) (fld w 9 7) (fld w 0 9))
  | 4#3 => .ok (.bltu (fld w 16 7) (fld w 9 7) (fld w 0 9))
  | 5#3 => .ok (.bgeu (fld w 16 7) (fld w 9 7) (fld w 0 9))
  | _ => .error .function

/-- Major 0x19 (R39). -/
def decMajor19 (w : Half) : Except Reject Instr :=
  match fld w 12 1 with
  | 0#1 => .ok (.bbc (fld w 19 7) (fld w 13 6) (fld w 0 12))
  | 1#1 => .ok (.bbs (fld w 19 7) (fld w 13 6) (fld w 0 12))

/-- Major 0x1D (R39). -/
def decMajor1d (w : Half) : Except Reject Instr :=
  match fld w 0 5 with
  | 0#5 => .ok (.faddS (fld w 19 7) (fld w 12 7) (fld w 5 7))
  | 1#5 => .ok (.fsubS (fld w 19 7) (fld w 12 7) (fld w 5 7))
  | 2#5 => .ok (.fmulS (fld w 19 7) (fld w 12 7) (fld w 5 7))
  | 3#5 => .ok (.fdivS (fld w 19 7) (fld w 12 7) (fld w 5 7))
  | 4#5 => needZero (fld w 5 7 == 0) (.fsqrtS (fld w 19 7) (fld w 12 7))
  | 5#5 => .ok (.fminS (fld w 19 7) (fld w 12 7) (fld w 5 7))
  | 6#5 => .ok (.fmaxS (fld w 19 7) (fld w 12 7) (fld w 5 7))
  | 7#5 => .ok (.feqS (fld w 19 7) (fld w 12 7) (fld w 5 7))
  | 8#5 => .ok (.fltS (fld w 19 7) (fld w 12 7) (fld w 5 7))
  | 9#5 => .ok (.fleS (fld w 19 7) (fld w 12 7) (fld w 5 7))
  | 10#5 => needZero (fld w 5 7 == 0) (.fclassS (fld w 19 7) (fld w 12 7))
  | _ => .error .function

/-- Major 0x1E (R39). -/
def decMajor1e (w : Half) : Except Reject Instr :=
  match fld w 0 5 with
  | 0#5 => .ok (.fmaddS (fld w 19 7) (fld w 12 7) (fld w 5 7))
  | 1#5 => .ok (.fmsubS (fld w 19 7) (fld w 12 7) (fld w 5 7))
  | 2#5 => .ok (.fnmsubS (fld w 19 7) (fld w 12 7) (fld w 5 7))
  | 3#5 => .ok (.fnmaddS (fld w 19 7) (fld w 12 7) (fld w 5 7))
  | _ => .error .function

/-- Major 0x1F (R39). -/
def decMajor1f (w : Half) : Except Reject Instr :=
  match fld w 0 5 with
  | 0#5 => needZero (fld w 5 7 == 0) (.cvtSL (fld w 19 7) (fld w 12 7))
  | 1#5 => needZero (fld w 5 7 == 0) (.cvtSLu (fld w 19 7) (fld w 12 7))
  | 2#5 => needZero (fld w 5 7 == 0) (.cvtLS (fld w 19 7) (fld w 12 7))
  | 3#5 => needZero (fld w 5 7 == 0) (.cvtLuS (fld w 19 7) (fld w 12 7))
  | 4#5 => needZero (fld w 5 7 == 0) (.cvtBf16S (fld w 19 7) (fld w 12 7))
  | 5#5 => needZero (fld w 5 7 == 0) (.cvtSBf16 (fld w 19 7) (fld w 12 7))
  | 6#5 => needZero (fld w 5 7 == 0) (.cvtHS (fld w 19 7) (fld w 12 7))
  | 7#5 => needZero (fld w 5 7 == 0) (.cvtSH (fld w 19 7) (fld w 12 7))
  | 8#5 => needZero (fld w 5 7 == 0) (.cvtE4m3S (fld w 19 7) (fld w 12 7))
  | 9#5 => needZero (fld w 5 7 == 0) (.cvtSE4m3 (fld w 19 7) (fld w 12 7))
  | 10#5 => needZero (fld w 5 7 == 0) (.cvtE5m2S (fld w 19 7) (fld w 12 7))
  | 11#5 => needZero (fld w 5 7 == 0) (.cvtSE5m2 (fld w 19 7) (fld w 12 7))
  | 12#5 => .ok (.cvtF4bS (fld w 19 7) (fld w 12 7) (fld w 5 7))
  | 13#5 => .ok (.cvtSF4b (fld w 19 7) (fld w 12 7) (fld w 5 7))
  | _ => .error .function

/-- Major 0x20 (R39). -/
def decMajor20 (w : Half) : Except Reject Instr :=
  match fld w 0 5 with
  | 0#5 => .ok (.spawn (fld w 19 7) (fld w 12 7) (fld w 5 7))
  | 1#5 => needZero (fld w 5 7 == 0) (.take (fld w 19 7) (fld w 12 7))
  | 2#5 => needZero (fld w 5 7 == 0) (.reap (fld w 19 7) (fld w 12 7))
  | 3#5 => needZero (fld w 19 7 == 0 && fld w 12 7 == 0 && fld w 5 7 == 0) (.tend)
  | 4#5 => needZero (fld w 19 7 == 0 && fld w 5 7 == 0) (.tabort (fld w 12 7))
  | 5#5 => needZero (fld w 19 7 == 0 && fld w 12 7 == 0 && fld w 5 7 == 0) (.yield)
  | 6#5 => needZero (fld w 12 7 == 0) (.mfc (fld w 19 7) (fld w 5 7))
  | 7#5 => needZero (fld w 19 7 == 0) (.mtc (fld w 12 7) (fld w 5 7))
  | 8#5 => needZero (fld w 12 7 == 0 && fld w 5 7 == 0) (.self (fld w 19 7))
  | 9#5 => needZero (fld w 12 7 == 0 && fld w 5 7 == 0) (.grade (fld w 19 7))
  | 10#5 => needZero (fld w 5 7 == 0) (.topo (fld w 19 7) (fld w 12 7))
  | _ => .error .function

/-- Major 0x22 (R39). -/
def decMajor22 (w : Half) : Except Reject Instr :=
  match fld w 0 5 with
  | 0#5 => needZero (fld w 19 7 == 0 && fld w 5 7 == 0) (.trap (fld w 12 7))
  | 1#5 => needZero (fld w 19 7 == 0 && fld w 12 7 == 0 && fld w 5 7 == 0) (.eret)
  | 2#5 => .ok (.mfs (fld w 19 7) (fld w 5 14))
  | 3#5 => .ok (.mts (fld w 19 7) (fld w 5 14))
  | 4#5 => needZero (fld w 19 7 == 0 && fld w 12 7 == 0 && fld w 5 7 == 0) (.bkpt)
  | 5#5 => needZero (fld w 12 7 == 0 && fld w 5 7 == 0) (.treplay (fld w 19 7))
  | 6#5 => needZero (fld w 5 7 == 0) (.wait (fld w 19 7) (fld w 12 7))
  | 7#5 => .ok (.bmode (fld w 19 7) (fld w 12 7) (fld w 5 7))
  | 8#5 => needZero (fld w 19 7 == 0 && fld w 12 7 == 0 && fld w 5 7 == 0) (.cflush)
  | 9#5 => needZero (fld w 19 7 == 0) (.cinv (fld w 12 7) (fld w 5 7))
  | 10#5 => needZero (fld w 19 7 == 0 && fld w 12 7 == 0 && fld w 5 7 == 0) (.home)
  | _ => .error .function

/-- Major 0x23 (R39). -/
def decMajor23 (w : Half) : Except Reject Instr :=
  match fld w 0 5 with
  | 0#5 => needZero (fld w 19 7 == 0 && fld w 12 7 == 0) (.bar (fld w 5 7))
  | 1#5 => needZero (fld w 10 2 == 0) (.barv (fld w 19 7) (fld w 12 7) (fld w 7 3) (fld w 5 2))
  | 2#5 => needZero (fld w 19 7 == 0) (.gred (fld w 12 7) (fld w 5 7))
  | 3#5 => needZero (fld w 19 7 == 0 && fld w 12 7 == 0) (.gleave (fld w 5 7))
  | 4#5 => needZero (fld w 5 7 == 0) (.launch (fld w 19 7) (fld w 12 7))
  | 5#5 => needZero (fld w 5 7 == 0) (.gqry (fld w 19 7) (fld w 12 7))
  | _ => .error .function

/-- Major 0x24 (R39). -/
def decMajor24 (w : Half) : Except Reject Instr :=
  match fld w 0 5 with
  | 0#5 => .ok (.send (fld w 19 7) (fld w 12 7) (fld w 5 7))
  | 1#5 => needZero (fld w 17 2 == 0) (.sendv (fld w 19 7) (fld w 12 5) (fld w 5 7))
  | 2#5 => needZero (fld w 12 7 == 0 && fld w 5 7 == 0) (.gvt (fld w 19 7))
  | 3#5 =>
    match fld w 19 7 with
    | 1#7 => .ok (.irvHost (fld w 12 7) (fld w 5 7))
    | 2#7 => .ok (.irvFlash (fld w 12 7) (fld w 5 7))
    | 3#7 => .ok (.irvDb (fld w 12 7) (fld w 5 7))
    | _ => .error .function
  | 4#5 => needZero (fld w 12 7 == 0 && fld w 5 7 == 0) (.stamp (fld w 19 7))
  | _ => .error .function

/-- Major 0x25 (R39). -/
def decMajor25 (w : Half) : Except Reject Instr :=
  match fld w 0 5 with
  | 0#5 => .ok (.cpy (fld w 19 7) (fld w 12 7) (fld w 5 7))
  | 1#5 => .ok (.cpy2d (fld w 19 7) (fld w 12 7) (fld w 5 7))
  | 2#5 => .ok (.cpymc (fld w 19 7) (fld w 12 7) (fld w 5 7))
  | 3#5 => .ok (.gath (fld w 19 7) (fld w 12 7) (fld w 5 7))
  | 4#5 => .ok (.scat (fld w 19 7) (fld w 12 7) (fld w 5 7))
  | 5#5 => .ok (.chain (fld w 19 7) (fld w 12 7) (fld w 5 7))
  | 6#5 => needZero (fld w 19 7 == 0) (.ewait (fld w 12 7) (fld w 5 7))
  | 7#5 => .ok (.shopen (fld w 19 7) (fld w 12 7) (fld w 5 7))
  | 8#5 => needZero (fld w 19 7 == 0 && fld w 5 7 == 0) (.publ (fld w 12 7))
  | 9#5 => needZero (fld w 19 7 == 0) (.bcarm (fld w 12 7) (fld w 5 7))
  | 10#5 => needZero (fld w 19 7 == 0 && fld w 5 7 == 0) (.bcwait (fld w 12 7))
  | _ => .error .function

/-- Major 0x26 (R39). -/
def decMajor26 (w : Half) : Except Reject Instr :=
  match fld w 0 5 with
  | 0#5 => needZero (fld w 19 7 == 0 && fld w 5 7 == 0) (.claim (fld w 12 7))
  | 1#5 => needZero (fld w 19 7 == 0 && fld w 12 7 == 0 && fld w 5 7 == 0) (.vrel)
  | 2#5 => needZero (fld w 19 7 == 0 && fld w 5 7 == 0) (.reneg (fld w 12 7))
  | _ => .error .function

/-- Major 0x28 (R39). -/
def decMajor28 (w : Half) : Except Reject Instr :=
  match fld w 20 6 with
  | 0#6 => .ok (.vaddS (fld w 15 5) (fld w 10 5) (fld w 5 5) (fld w 0 5))
  | 1#6 => .ok (.vsubS (fld w 15 5) (fld w 10 5) (fld w 5 5) (fld w 0 5))
  | 2#6 => .ok (.vmulS (fld w 15 5) (fld w 10 5) (fld w 5 5) (fld w 0 5))
  | 3#6 => .ok (.vfmaS (fld w 15 5) (fld w 10 5) (fld w 5 5) (fld w 0 5))
  | 4#6 => .ok (.vfmsS (fld w 15 5) (fld w 10 5) (fld w 5 5) (fld w 0 5))
  | 5#6 => .ok (.vminS (fld w 15 5) (fld w 10 5) (fld w 5 5) (fld w 0 5))
  | 6#6 => .ok (.vmaxS (fld w 15 5) (fld w 10 5) (fld w 5 5) (fld w 0 5))
  | 7#6 => needZero (fld w 5 5 == 0) (.vabsS (fld w 15 5) (fld w 10 5) (fld w 0 5))
  | 8#6 => needZero (fld w 5 5 == 0) (.vnegS (fld w 15 5) (fld w 10 5) (fld w 0 5))
  | 9#6 => needZero (fld w 5 5 == 0) (.vrcpS (fld w 15 5) (fld w 10 5) (fld w 0 5))
  | 10#6 => needZero (fld w 5 5 == 0) (.vrsqS (fld w 15 5) (fld w 10 5) (fld w 0 5))
  | 11#6 => needZero (fld w 5 5 == 0) (.vexp2S (fld w 15 5) (fld w 10 5) (fld w 0 5))
  | 12#6 => needZero (fld w 5 5 == 0) (.vlog2S (fld w 15 5) (fld w 10 5) (fld w 0 5))
  | _ => .error .function

/-- Major 0x29 (R39). -/
def decMajor29 (w : Half) : Except Reject Instr :=
  match fld w 20 6 with
  | 0#6 => .ok (.viadd (fld w 15 5) (fld w 10 5) (fld w 5 5) (fld w 0 5))
  | 1#6 => .ok (.visub (fld w 15 5) (fld w 10 5) (fld w 5 5) (fld w 0 5))
  | 2#6 => .ok (.vimul (fld w 15 5) (fld w 10 5) (fld w 5 5) (fld w 0 5))
  | 3#6 => .ok (.vand (fld w 15 5) (fld w 10 5) (fld w 5 5) (fld w 0 5))
  | 4#6 => .ok (.vor (fld w 15 5) (fld w 10 5) (fld w 5 5) (fld w 0 5))
  | 5#6 => .ok (.vxor (fld w 15 5) (fld w 10 5) (fld w 5 5) (fld w 0 5))
  | 6#6 => .ok (.vshl (fld w 15 5) (fld w 10 5) (fld w 5 5) (fld w 0 5))
  | 7#6 => .ok (.vshr (fld w 15 5) (fld w 10 5) (fld w 5 5) (fld w 0 5))
  | 8#6 => .ok (.vsra (fld w 15 5) (fld w 10 5) (fld w 5 5) (fld w 0 5))
  | _ => .error .function

/-- Major 0x2A (R39). -/
def decMajor2a (w : Half) : Except Reject Instr :=
  match fld w 20 6 with
  | 0#6 => needZero (fld w 10 5 == 0 && fld w 5 5 == 0) (.vld (fld w 15 5) (fld w 0 5))
  | 1#6 => needZero (fld w 10 5 == 0 && fld w 5 5 == 0) (.vst (fld w 15 5) (fld w 0 5))
  | 2#6 => needZero (fld w 10 5 == 0) (.vlds (fld w 15 5) (fld w 5 5) (fld w 0 5))
  | 3#6 => needZero (fld w 10 5 == 0) (.vsts (fld w 15 5) (fld w 5 5) (fld w 0 5))
  | 4#6 => needZero (fld w 10 5 == 0) (.vgath (fld w 15 5) (fld w 5 5) (fld w 0 5))
  | 5#6 => needZero (fld w 10 5 == 0) (.vscat (fld w 15 5) (fld w 5 5) (fld w 0 5))
  | _ => .error .function

/-- Major 0x2B (R39). -/
def decMajor2b (w : Half) : Except Reject Instr :=
  match fld w 20 6 with
  | 0#6 => .ok (.vperm (fld w 15 5) (fld w 10 5) (fld w 5 5) (fld w 0 5))
  | 1#6 => .ok (.vslide (fld w 15 5) (fld w 10 5) (fld w 5 5) (fld w 0 5))
  | 2#6 => .ok (.vsel (fld w 15 5) (fld w 10 5) (fld w 5 5) (fld w 0 5))
  | 3#6 => needZero (fld w 10 5 == 0 && fld w 5 5 == 0) (.vbcast (fld w 15 5) (fld w 0 5))
  | 4#6 => needZero (fld w 5 5 == 0) (.vcomp (fld w 15 5) (fld w 10 5) (fld w 0 5))
  | 5#6 => needZero (fld w 5 5 == 0) (.vsprs (fld w 15 5) (fld w 10 5) (fld w 0 5))
  | 17#6 => needZero (fld w 5 5 == 0) (.vcvtBf16S (fld w 15 5) (fld w 10 5) (fld w 0 5))
  | 18#6 => needZero (fld w 5 5 == 0) (.vcvtHS (fld w 15 5) (fld w 10 5) (fld w 0 5))
  | 19#6 => needZero (fld w 5 5 == 0) (.vcvtE4m3S (fld w 15 5) (fld w 10 5) (fld w 0 5))
  | 20#6 => needZero (fld w 5 5 == 0) (.vcvtE5m2S (fld w 15 5) (fld w 10 5) (fld w 0 5))
  | 21#6 => needZero (fld w 5 5 == 0) (.vcvtF4bS (fld w 15 5) (fld w 10 5) (fld w 0 5))
  | 25#6 => needZero (fld w 5 5 == 0) (.vcvtSBf16 (fld w 15 5) (fld w 10 5) (fld w 0 5))
  | 26#6 => needZero (fld w 5 5 == 0) (.vcvtSH (fld w 15 5) (fld w 10 5) (fld w 0 5))
  | 27#6 => needZero (fld w 5 5 == 0) (.vcvtSE4m3 (fld w 15 5) (fld w 10 5) (fld w 0 5))
  | 28#6 => needZero (fld w 5 5 == 0) (.vcvtSE5m2 (fld w 15 5) (fld w 10 5) (fld w 0 5))
  | 29#6 => needZero (fld w 5 5 == 0) (.vcvtSF4b (fld w 15 5) (fld w 10 5) (fld w 0 5))
  | _ => .error .function

/-- Major 0x2C (R39). -/
def decMajor2c (w : Half) : Except Reject Instr :=
  match fld w 4 5 with
  | 0#5 => .ok (.vcmpeqS (fld w 19 7) (fld w 14 5) (fld w 9 5) (fld w 0 4))
  | 1#5 => .ok (.vcmpneS (fld w 19 7) (fld w 14 5) (fld w 9 5) (fld w 0 4))
  | 2#5 => .ok (.vcmpltS (fld w 19 7) (fld w 14 5) (fld w 9 5) (fld w 0 4))
  | 3#5 => .ok (.vcmpleS (fld w 19 7) (fld w 14 5) (fld w 9 5) (fld w 0 4))
  | 4#5 => .ok (.vcmpeqI (fld w 19 7) (fld w 14 5) (fld w 9 5) (fld w 0 4))
  | 5#5 => .ok (.vcmpneI (fld w 19 7) (fld w 14 5) (fld w 9 5) (fld w 0 4))
  | 6#5 => .ok (.vcmpltI (fld w 19 7) (fld w 14 5) (fld w 9 5) (fld w 0 4))
  | 7#5 => .ok (.vcmpleI (fld w 19 7) (fld w 14 5) (fld w 9 5) (fld w 0 4))
  | 8#5 => needZero (fld w 9 5 == 0) (.vrsum (fld w 19 7) (fld w 14 5) (fld w 0 4))
  | 9#5 => needZero (fld w 9 5 == 0) (.vrmax (fld w 19 7) (fld w 14 5) (fld w 0 4))
  | 10#5 => needZero (fld w 9 5 == 0) (.vrmin (fld w 19 7) (fld w 14 5) (fld w 0 4))
  | 11#5 => needZero (fld w 9 5 == 0) (.vmovs (fld w 19 7) (fld w 14 5) (fld w 0 4))
  | 12#5 => .ok (.vibres (fld w 19 7) (fld w 14 5) (fld w 9 5) (fld w 0 4))
  | _ => .error .function

/-- Major 0x2D (R39). -/
def decMajor2d (w : Half) : Except Reject Instr :=
  match fld w 20 6 with
  | 0#6 => .ok (.vibadd (fld w 15 5) (fld w 10 5) (fld w 5 5) (fld w 0 5))
  | 1#6 => .ok (.vibsub (fld w 15 5) (fld w 10 5) (fld w 5 5) (fld w 0 5))
  | 2#6 => needZero (fld w 5 5 == 0) (.vembed (fld w 15 5) (fld w 10 5) (fld w 0 5))
  | 3#6 => needZero (fld w 5 5 == 0) (.vschur (fld w 15 5) (fld w 10 5) (fld w 0 5))
  | 4#6 => .ok (.vdamp (fld w 15 5) (fld w 10 5) (fld w 5 5) (fld w 0 5))
  | 5#6 => needZero (fld w 5 5 == 0) (.vsolve (fld w 15 5) (fld w 10 5) (fld w 0 5))
  | _ => .error .function

/-- Major 0x2E (R39). -/
def decMajor2e (w : Half) : Except Reject Instr :=
  match fld w 0 5 with
  | 0#5 => needZero (fld w 19 7 == 0) (.mbset (fld w 12 7) (fld w 5 7))
  | 1#5 => needZero (fld w 24 2 == 0 && fld w 5 7 == 0) (.mbld (fld w 19 5) (fld w 12 7))
  | 2#5 => needZero (fld w 10 2 == 0) (.mbupd (fld w 19 7) (fld w 12 7) (fld w 5 5))
  | _ => .error .function

/-- Major 0x30 (R39). -/
def decMajor30 (w : Half) : Except Reject Instr :=
  match fld w 23 3 with
  | 0#3 => needZero (fld w 3 1 == 1 || fld w 0 3 == 0) (.mma (fld w 20 3) (fld w 16 4) (fld w 12 4) (fld w 4 8) (fld w 0 4))
  | 1#3 => needZero (fld w 3 1 == 1 || fld w 0 3 == 0) (.mmaOw (fld w 20 3) (fld w 16 4) (fld w 12 4) (fld w 4 8) (fld w 0 4))
  | 2#3 => needZero (fld w 3 1 == 1 || fld w 0 3 == 0) (.mmaHalf (fld w 20 3) (fld w 16 4) (fld w 12 4) (fld w 4 8) (fld w 0 4))
  | 3#3 => needZero (fld w 3 1 == 1 || fld w 0 3 == 0) (.mmaHalfOw (fld w 20 3) (fld w 16 4) (fld w 12 4) (fld w 4 8) (fld w 0 4))
  | 4#3 => needZero (fld w 3 1 == 1 || fld w 0 3 == 0) (.mmaSp (fld w 20 3) (fld w 16 4) (fld w 12 4) (fld w 4 8) (fld w 0 4))
  | 5#3 => needZero (fld w 3 1 == 1 || fld w 0 3 == 0) (.mmaSpOw (fld w 20 3) (fld w 16 4) (fld w 12 4) (fld w 4 8) (fld w 0 4))
  | 6#3 => needZero (fld w 3 1 == 1 || fld w 0 3 == 0) (.mmaHalfSp (fld w 20 3) (fld w 16 4) (fld w 12 4) (fld w 4 8) (fld w 0 4))
  | 7#3 => needZero (fld w 3 1 == 1 || fld w 0 3 == 0) (.mmaHalfSpOw (fld w 20 3) (fld w 16 4) (fld w 12 4) (fld w 4 8) (fld w 0 4))

/-- Major 0x31 (R39). -/
def decMajor31 (w : Half) : Except Reject Instr :=
  match fld w 0 5 with
  | 0#5 => needZero (fld w 19 7 == 0) (.oclaim (fld w 12 7) (fld w 5 7))
  | 1#5 => needZero (fld w 19 7 == 0 && fld w 12 7 == 0) (.orel (fld w 5 7))
  | 2#5 => .ok (.old (fld w 19 7) (fld w 12 7) (fld w 5 7))
  | 3#5 => needZero (fld w 19 7 == 0) (.ard (fld w 12 7) (fld w 5 7))
  | 4#5 => needZero (fld w 19 7 == 0) (.awr (fld w 12 7) (fld w 5 7))
  | 5#5 => needZero (fld w 19 7 == 0 && fld w 12 7 == 0) (.aclr (fld w 5 7))
  | 6#5 => needZero (fld w 19 7 == 0) (.mwait (fld w 12 7) (fld w 5 7))
  | _ => .error .function

/-- Major 0x38 (R39). -/
noncomputable def decMajor38 (w : Half) : Except Reject Instr :=
  match fld w 0 5 with
  | 0#5 => .ok (.div (fld w 19 7) (fld w 12 7) (fld w 5 7))
  | 1#5 => .ok (.divu (fld w 19 7) (fld w 12 7) (fld w 5 7))
  | 2#5 => .ok (.rem (fld w 19 7) (fld w 12 7) (fld w 5 7))
  | 3#5 => .ok (.remu (fld w 19 7) (fld w 12 7) (fld w 5 7))
  | 4#5 => .ok (.faddD (fld w 19 7) (fld w 12 7) (fld w 5 7))
  | 5#5 => .ok (.fsubD (fld w 19 7) (fld w 12 7) (fld w 5 7))
  | 6#5 => .ok (.fmulD (fld w 19 7) (fld w 12 7) (fld w 5 7))
  | 7#5 => .ok (.fdivD (fld w 19 7) (fld w 12 7) (fld w 5 7))
  | 8#5 => needZero (fld w 5 7 == 0) (.fsqrtD (fld w 19 7) (fld w 12 7))
  | 9#5 => .ok (.fminD (fld w 19 7) (fld w 12 7) (fld w 5 7))
  | 10#5 => .ok (.fmaxD (fld w 19 7) (fld w 12 7) (fld w 5 7))
  | 11#5 => .ok (.feqD (fld w 19 7) (fld w 12 7) (fld w 5 7))
  | 12#5 => .ok (.fltD (fld w 19 7) (fld w 12 7) (fld w 5 7))
  | 13#5 => .ok (.fleD (fld w 19 7) (fld w 12 7) (fld w 5 7))
  | 14#5 => needZero (fld w 5 7 == 0) (.fclassD (fld w 19 7) (fld w 12 7))
  | 15#5 => needZero (fld w 5 7 == 0) (.cvtDS (fld w 19 7) (fld w 12 7))
  | 16#5 => needZero (fld w 5 7 == 0) (.cvtSD (fld w 19 7) (fld w 12 7))
  | 17#5 => needZero (fld w 5 7 == 0) (.cvtDL (fld w 19 7) (fld w 12 7))
  | 18#5 => needZero (fld w 5 7 == 0) (.cvtLD (fld w 19 7) (fld w 12 7))
  | _ => .error .function

/-- Major 0x39 (R39). -/
noncomputable def decMajor39 (w : Half) : Except Reject Instr :=
  match fld w 0 5 with
  | 0#5 => .ok (.fmaddD (fld w 19 7) (fld w 12 7) (fld w 5 7))
  | 1#5 => .ok (.fmsubD (fld w 19 7) (fld w 12 7) (fld w 5 7))
  | 2#5 => .ok (.fnmsubD (fld w 19 7) (fld w 12 7) (fld w 5 7))
  | 3#5 => .ok (.fnmaddD (fld w 19 7) (fld w 12 7) (fld w 5 7))
  | _ => .error .function

/-- The instruction a word stands for, or why it stands for none (R36 check 1). -/
noncomputable def decode (w : Half) : Except Reject Instr :=
  match fld w 26 6 with
  | 1#6 => decMajor01 w
  | 2#6 => decMajor02 w
  | 3#6 => .ok (.addi (fld w 19 7) (fld w 12 7) (fld w 0 12))
  | 4#6 => .ok (.andi (fld w 19 7) (fld w 12 7) (fld w 0 12))
  | 5#6 => .ok (.ori (fld w 19 7) (fld w 12 7) (fld w 0 12))
  | 6#6 => .ok (.xori (fld w 19 7) (fld w 12 7) (fld w 0 12))
  | 7#6 => .ok (.slti (fld w 19 7) (fld w 12 7) (fld w 0 12))
  | 8#6 => .ok (.sltiu (fld w 19 7) (fld w 12 7) (fld w 0 12))
  | 9#6 => decMajor09 w
  | 10#6 => .ok (.lui (fld w 19 7) (fld w 0 19))
  | 11#6 => .ok (.auipc (fld w 19 7) (fld w 0 19))
  | 12#6 => .ok (.ldB (fld w 19 7) (fld w 12 7) (fld w 8 4) (fld w 0 8))
  | 13#6 => .ok (.ldBu (fld w 19 7) (fld w 12 7) (fld w 8 4) (fld w 0 8))
  | 14#6 => .ok (.ldH (fld w 19 7) (fld w 12 7) (fld w 8 4) (fld w 0 8))
  | 15#6 => .ok (.ldHu (fld w 19 7) (fld w 12 7) (fld w 8 4) (fld w 0 8))
  | 16#6 => .ok (.ldW (fld w 19 7) (fld w 12 7) (fld w 8 4) (fld w 0 8))
  | 17#6 => .ok (.ldWu (fld w 19 7) (fld w 12 7) (fld w 8 4) (fld w 0 8))
  | 18#6 => .ok (.ldD (fld w 19 7) (fld w 12 7) (fld w 8 4) (fld w 0 8))
  | 19#6 => needZero (fld w 8 4 == 0) (.stB (fld w 19 7) (fld w 12 7) (fld w 0 8))
  | 20#6 => needZero (fld w 8 4 == 0) (.stH (fld w 19 7) (fld w 12 7) (fld w 0 8))
  | 21#6 => needZero (fld w 8 4 == 0) (.stW (fld w 19 7) (fld w 12 7) (fld w 0 8))
  | 22#6 => needZero (fld w 8 4 == 0) (.stD (fld w 19 7) (fld w 12 7) (fld w 0 8))
  | 23#6 => decMajor17 w
  | 24#6 => decMajor18 w
  | 25#6 => decMajor19 w
  | 26#6 => .ok (.j (fld w 0 26))
  | 27#6 => .ok (.jal (fld w 0 26))
  | 28#6 => .ok (.jalr (fld w 19 7) (fld w 12 7) (fld w 0 12))
  | 29#6 => decMajor1d w
  | 30#6 => decMajor1e w
  | 31#6 => decMajor1f w
  | 32#6 => decMajor20 w
  | 33#6 => needZero (fld w 0 4 == 0) (.rep (fld w 20 6) (fld w 16 4) (fld w 12 4) (fld w 8 4) (fld w 4 4))
  | 34#6 => decMajor22 w
  | 35#6 => decMajor23 w
  | 36#6 => decMajor24 w
  | 37#6 => decMajor25 w
  | 38#6 => decMajor26 w
  | 40#6 => decMajor28 w
  | 41#6 => decMajor29 w
  | 42#6 => decMajor2a w
  | 43#6 => decMajor2b w
  | 44#6 => decMajor2c w
  | 45#6 => decMajor2d w
  | 46#6 => decMajor2e w
  | 48#6 => decMajor30 w
  | 49#6 => decMajor31 w
  | 56#6 => decMajor38 w
  | 57#6 => decMajor39 w
  | _ => .error .major

/-- The word of an instruction (R34, R38, R39); an event of the device has none. -/
def encode : Instr → Option Half
  | .add d a b => some (wordR 1#6 d a b 0#5)
  | .sub d a b => some (wordR 1#6 d a b 1#5)
  | .and d a b => some (wordR 1#6 d a b 2#5)
  | .or d a b => some (wordR 1#6 d a b 3#5)
  | .xor d a b => some (wordR 1#6 d a b 4#5)
  | .andn d a b => some (wordR 1#6 d a b 5#5)
  | .sll d a b => some (wordR 1#6 d a b 6#5)
  | .srl d a b => some (wordR 1#6 d a b 7#5)
  | .sra d a b => some (wordR 1#6 d a b 8#5)
  | .rol d a b => some (wordR 1#6 d a b 9#5)
  | .ror d a b => some (wordR 1#6 d a b 10#5)
  | .slt d a b => some (wordR 1#6 d a b 11#5)
  | .sltu d a b => some (wordR 1#6 d a b 12#5)
  | .min d a b => some (wordR 1#6 d a b 13#5)
  | .max d a b => some (wordR 1#6 d a b 14#5)
  | .minu d a b => some (wordR 1#6 d a b 15#5)
  | .maxu d a b => some (wordR 1#6 d a b 16#5)
  | .mul d a b => some (wordR 1#6 d a b 17#5)
  | .mulh d a b => some (wordR 1#6 d a b 18#5)
  | .mulhu d a b => some (wordR 1#6 d a b 19#5)
  | .clz d a => some (wordR 2#6 d a 0#7 0#5)
  | .ctz d a => some (wordR 2#6 d a 0#7 1#5)
  | .popc d a => some (wordR 2#6 d a 0#7 2#5)
  | .brev d a => some (wordR 2#6 d a 0#7 3#5)
  | .sextB d a => some (wordR 2#6 d a 0#7 4#5)
  | .sextH d a => some (wordR 2#6 d a 0#7 5#5)
  | .sextW d a => some (wordR 2#6 d a 0#7 6#5)
  | .zextW d a => some (wordR 2#6 d a 0#7 7#5)
  | .addi d a imm => some (wordI 3#6 d a imm)
  | .andi d a imm => some (wordI 4#6 d a imm)
  | .ori d a imm => some (wordI 5#6 d a imm)
  | .xori d a imm => some (wordI 6#6 d a imm)
  | .slti d a imm => some (wordI 7#6 d a imm)
  | .sltiu d a imm => some (wordI 8#6 d a imm)
  | .slli d a sh => some (wordI 9#6 d a (0#6 ++ sh))
  | .srli d a sh => some (wordI 9#6 d a (1#6 ++ sh))
  | .srai d a sh => some (wordI 9#6 d a (2#6 ++ sh))
  | .rori d a sh => some (wordI 9#6 d a (3#6 ++ sh))
  | .lui d imm => some (wordU 10#6 d imm)
  | .auipc d imm => some (wordU 11#6 d imm)
  | .ldB d a ahead off => some (wordL 12#6 d a ahead off)
  | .ldBu d a ahead off => some (wordL 13#6 d a ahead off)
  | .ldH d a ahead off => some (wordL 14#6 d a ahead off)
  | .ldHu d a ahead off => some (wordL 15#6 d a ahead off)
  | .ldW d a ahead off => some (wordL 16#6 d a ahead off)
  | .ldWu d a ahead off => some (wordL 17#6 d a ahead off)
  | .ldD d a ahead off => some (wordL 18#6 d a ahead off)
  | .stB d a off => some (wordL 19#6 d a 0#4 off)
  | .stH d a off => some (wordL 20#6 d a 0#4 off)
  | .stW d a off => some (wordL 21#6 d a 0#4 off)
  | .stD d a off => some (wordL 22#6 d a 0#4 off)
  | .amoSwap d a b => some (wordR 23#6 d a b 0#5)
  | .amoAdd d a b => some (wordR 23#6 d a b 1#5)
  | .amoAnd d a b => some (wordR 23#6 d a b 2#5)
  | .amoOr d a b => some (wordR 23#6 d a b 3#5)
  | .amoXor d a b => some (wordR 23#6 d a b 4#5)
  | .amoMin d a b => some (wordR 23#6 d a b 5#5)
  | .amoMax d a b => some (wordR 23#6 d a b 6#5)
  | .amoCas d a b => some (wordR 23#6 d a b 7#5)
  | .redAdd a b => some (wordR 23#6 0#7 a b 16#5)
  | .redOr a b => some (wordR 23#6 0#7 a b 17#5)
  | .redMin a b => some (wordR 23#6 0#7 a b 18#5)
  | .redMax a b => some (wordR 23#6 0#7 a b 19#5)
  | .redFaddS a b => some (wordR 23#6 0#7 a b 20#5)
  | .beq a b off => some (wordB 24#6 0#3 a b off)
  | .bne a b off => some (wordB 24#6 1#3 a b off)
  | .blt a b off => some (wordB 24#6 2#3 a b off)
  | .bge a b off => some (wordB 24#6 3#3 a b off)
  | .bltu a b off => some (wordB 24#6 4#3 a b off)
  | .bgeu a b off => some (wordB 24#6 5#3 a b off)
  | .bbs a bit off => some (wordT 25#6 a bit 1#1 off)
  | .bbc a bit off => some (wordT 25#6 a bit 0#1 off)
  | .j off => some (wordJ 26#6 off)
  | .jal off => some (wordJ 27#6 off)
  | .jalr d a imm => some (wordI 28#6 d a imm)
  | .faddS d a b => some (wordR 29#6 d a b 0#5)
  | .fsubS d a b => some (wordR 29#6 d a b 1#5)
  | .fmulS d a b => some (wordR 29#6 d a b 2#5)
  | .fdivS d a b => some (wordR 29#6 d a b 3#5)
  | .fsqrtS d a => some (wordR 29#6 d a 0#7 4#5)
  | .fminS d a b => some (wordR 29#6 d a b 5#5)
  | .fmaxS d a b => some (wordR 29#6 d a b 6#5)
  | .feqS d a b => some (wordR 29#6 d a b 7#5)
  | .fltS d a b => some (wordR 29#6 d a b 8#5)
  | .fleS d a b => some (wordR 29#6 d a b 9#5)
  | .fclassS d a => some (wordR 29#6 d a 0#7 10#5)
  | .fmaddS d a b => some (wordR 30#6 d a b 0#5)
  | .fmsubS d a b => some (wordR 30#6 d a b 1#5)
  | .fnmsubS d a b => some (wordR 30#6 d a b 2#5)
  | .fnmaddS d a b => some (wordR 30#6 d a b 3#5)
  | .cvtSL d a => some (wordR 31#6 d a 0#7 0#5)
  | .cvtSLu d a => some (wordR 31#6 d a 0#7 1#5)
  | .cvtLS d a => some (wordR 31#6 d a 0#7 2#5)
  | .cvtLuS d a => some (wordR 31#6 d a 0#7 3#5)
  | .cvtBf16S d a => some (wordR 31#6 d a 0#7 4#5)
  | .cvtSBf16 d a => some (wordR 31#6 d a 0#7 5#5)
  | .cvtHS d a => some (wordR 31#6 d a 0#7 6#5)
  | .cvtSH d a => some (wordR 31#6 d a 0#7 7#5)
  | .cvtE4m3S d a => some (wordR 31#6 d a 0#7 8#5)
  | .cvtSE4m3 d a => some (wordR 31#6 d a 0#7 9#5)
  | .cvtE5m2S d a => some (wordR 31#6 d a 0#7 10#5)
  | .cvtSE5m2 d a => some (wordR 31#6 d a 0#7 11#5)
  | .cvtF4bS d a b => some (wordR 31#6 d a b 12#5)
  | .cvtSF4b d a b => some (wordR 31#6 d a b 13#5)
  | .spawn d a b => some (wordR 32#6 d a b 0#5)
  | .take d a => some (wordR 32#6 d a 0#7 1#5)
  | .reap d a => some (wordR 32#6 d a 0#7 2#5)
  | .tend => some (wordR 32#6 0#7 0#7 0#7 3#5)
  | .tabort a => some (wordR 32#6 0#7 a 0#7 4#5)
  | .yield => some (wordR 32#6 0#7 0#7 0#7 5#5)
  | .mfc d n => some (wordR 32#6 d 0#7 n 6#5)
  | .mtc a n => some (wordR 32#6 0#7 a n 7#5)
  | .self d => some (wordR 32#6 d 0#7 0#7 8#5)
  | .grade d => some (wordR 32#6 d 0#7 0#7 9#5)
  | .topo d a => some (wordR 32#6 d a 0#7 10#5)
  | .rep n sd sa sb len => some (wordP 33#6 n sd sa sb len 0#4)
  | .trap a => some (wordR 34#6 0#7 a 0#7 0#5)
  | .eret => some (wordR 34#6 0#7 0#7 0#7 1#5)
  | .mfs d idx => some (wordR 34#6 d (fld idx 7 7) (fld idx 0 7) 2#5)
  | .mts d idx => some (wordR 34#6 d (fld idx 7 7) (fld idx 0 7) 3#5)
  | .bkpt => some (wordR 34#6 0#7 0#7 0#7 4#5)
  | .treplay d => some (wordR 34#6 d 0#7 0#7 5#5)
  | .wait d a => some (wordR 34#6 d a 0#7 6#5)
  | .bmode d a b => some (wordR 34#6 d a b 7#5)
  | .cflush => some (wordR 34#6 0#7 0#7 0#7 8#5)
  | .cinv a b => some (wordR 34#6 0#7 a b 9#5)
  | .home => some (wordR 34#6 0#7 0#7 0#7 10#5)
  | .bar n => some (wordR 35#6 0#7 0#7 n 0#5)
  | .barv d a op n => some (wordR 35#6 d a (0#2 ++ op ++ n) 1#5)
  | .gred a n => some (wordR 35#6 0#7 a n 2#5)
  | .gleave n => some (wordR 35#6 0#7 0#7 n 3#5)
  | .launch d a => some (wordR 35#6 d a 0#7 4#5)
  | .gqry d a => some (wordR 35#6 d a 0#7 5#5)
  | .send d a b => some (wordR 36#6 d a b 0#5)
  | .sendv d va b => some (wordR 36#6 d (0#2 ++ va) b 1#5)
  | .gvt d => some (wordR 36#6 d 0#7 0#7 2#5)
  | .irvHost a b => some (wordR 36#6 1#7 a b 3#5)
  | .irvFlash a b => some (wordR 36#6 2#7 a b 3#5)
  | .irvDb a b => some (wordR 36#6 3#7 a b 3#5)
  | .stamp d => some (wordR 36#6 d 0#7 0#7 4#5)
  | .cpy d a b => some (wordR 37#6 d a b 0#5)
  | .cpy2d d a b => some (wordR 37#6 d a b 1#5)
  | .cpymc d a b => some (wordR 37#6 d a b 2#5)
  | .gath d a b => some (wordR 37#6 d a b 3#5)
  | .scat d a b => some (wordR 37#6 d a b 4#5)
  | .chain d a b => some (wordR 37#6 d a b 5#5)
  | .ewait a b => some (wordR 37#6 0#7 a b 6#5)
  | .shopen d a b => some (wordR 37#6 d a b 7#5)
  | .publ a => some (wordR 37#6 0#7 a 0#7 8#5)
  | .bcarm a b => some (wordR 37#6 0#7 a b 9#5)
  | .bcwait a => some (wordR 37#6 0#7 a 0#7 10#5)
  | .claim a => some (wordR 38#6 0#7 a 0#7 0#5)
  | .vrel => some (wordR 38#6 0#7 0#7 0#7 1#5)
  | .reneg a => some (wordR 38#6 0#7 a 0#7 2#5)
  | .vaddS vd va vb gp => some (wordV 40#6 0#6 vd va vb gp)
  | .vsubS vd va vb gp => some (wordV 40#6 1#6 vd va vb gp)
  | .vmulS vd va vb gp => some (wordV 40#6 2#6 vd va vb gp)
  | .vfmaS vd va vb gp => some (wordV 40#6 3#6 vd va vb gp)
  | .vfmsS vd va vb gp => some (wordV 40#6 4#6 vd va vb gp)
  | .vminS vd va vb gp => some (wordV 40#6 5#6 vd va vb gp)
  | .vmaxS vd va vb gp => some (wordV 40#6 6#6 vd va vb gp)
  | .vabsS vd va gp => some (wordV 40#6 7#6 vd va 0#5 gp)
  | .vnegS vd va gp => some (wordV 40#6 8#6 vd va 0#5 gp)
  | .vrcpS vd va gp => some (wordV 40#6 9#6 vd va 0#5 gp)
  | .vrsqS vd va gp => some (wordV 40#6 10#6 vd va 0#5 gp)
  | .vexp2S vd va gp => some (wordV 40#6 11#6 vd va 0#5 gp)
  | .vlog2S vd va gp => some (wordV 40#6 12#6 vd va 0#5 gp)
  | .viadd vd va vb gp => some (wordV 41#6 0#6 vd va vb gp)
  | .visub vd va vb gp => some (wordV 41#6 1#6 vd va vb gp)
  | .vimul vd va vb gp => some (wordV 41#6 2#6 vd va vb gp)
  | .vand vd va vb gp => some (wordV 41#6 3#6 vd va vb gp)
  | .vor vd va vb gp => some (wordV 41#6 4#6 vd va vb gp)
  | .vxor vd va vb gp => some (wordV 41#6 5#6 vd va vb gp)
  | .vshl vd va vb gp => some (wordV 41#6 6#6 vd va vb gp)
  | .vshr vd va vb gp => some (wordV 41#6 7#6 vd va vb gp)
  | .vsra vd va vb gp => some (wordV 41#6 8#6 vd va vb gp)
  | .vld vd gp => some (wordV 42#6 0#6 vd 0#5 0#5 gp)
  | .vst vd gp => some (wordV 42#6 1#6 vd 0#5 0#5 gp)
  | .vlds vd vb gp => some (wordV 42#6 2#6 vd 0#5 vb gp)
  | .vsts vd vb gp => some (wordV 42#6 3#6 vd 0#5 vb gp)
  | .vgath vd vb gp => some (wordV 42#6 4#6 vd 0#5 vb gp)
  | .vscat vd vb gp => some (wordV 42#6 5#6 vd 0#5 vb gp)
  | .vperm vd va vb gp => some (wordV 43#6 0#6 vd va vb gp)
  | .vslide vd va vb gp => some (wordV 43#6 1#6 vd va vb gp)
  | .vsel vd va vb gp => some (wordV 43#6 2#6 vd va vb gp)
  | .vbcast vd gp => some (wordV 43#6 3#6 vd 0#5 0#5 gp)
  | .vcomp vd va gp => some (wordV 43#6 4#6 vd va 0#5 gp)
  | .vsprs vd va gp => some (wordV 43#6 5#6 vd va 0#5 gp)
  | .vcvtBf16S vd va gp => some (wordV 43#6 17#6 vd va 0#5 gp)
  | .vcvtHS vd va gp => some (wordV 43#6 18#6 vd va 0#5 gp)
  | .vcvtE4m3S vd va gp => some (wordV 43#6 19#6 vd va 0#5 gp)
  | .vcvtE5m2S vd va gp => some (wordV 43#6 20#6 vd va 0#5 gp)
  | .vcvtF4bS vd va gp => some (wordV 43#6 21#6 vd va 0#5 gp)
  | .vcvtSBf16 vd va gp => some (wordV 43#6 25#6 vd va 0#5 gp)
  | .vcvtSH vd va gp => some (wordV 43#6 26#6 vd va 0#5 gp)
  | .vcvtSE4m3 vd va gp => some (wordV 43#6 27#6 vd va 0#5 gp)
  | .vcvtSE5m2 vd va gp => some (wordV 43#6 28#6 vd va 0#5 gp)
  | .vcvtSF4b vd va gp => some (wordV 43#6 29#6 vd va 0#5 gp)
  | .vcmpeqS d va vb ahead => some (wordVS 44#6 d va vb 0#5 ahead)
  | .vcmpneS d va vb ahead => some (wordVS 44#6 d va vb 1#5 ahead)
  | .vcmpltS d va vb ahead => some (wordVS 44#6 d va vb 2#5 ahead)
  | .vcmpleS d va vb ahead => some (wordVS 44#6 d va vb 3#5 ahead)
  | .vcmpeqI d va vb ahead => some (wordVS 44#6 d va vb 4#5 ahead)
  | .vcmpneI d va vb ahead => some (wordVS 44#6 d va vb 5#5 ahead)
  | .vcmpltI d va vb ahead => some (wordVS 44#6 d va vb 6#5 ahead)
  | .vcmpleI d va vb ahead => some (wordVS 44#6 d va vb 7#5 ahead)
  | .vrsum d va ahead => some (wordVS 44#6 d va 0#5 8#5 ahead)
  | .vrmax d va ahead => some (wordVS 44#6 d va 0#5 9#5 ahead)
  | .vrmin d va ahead => some (wordVS 44#6 d va 0#5 10#5 ahead)
  | .vmovs d va ahead => some (wordVS 44#6 d va 0#5 11#5 ahead)
  | .vibres d va vb ahead => some (wordVS 44#6 d va vb 12#5 ahead)
  | .vibadd vd va vb gp => some (wordV 45#6 0#6 vd va vb gp)
  | .vibsub vd va vb gp => some (wordV 45#6 1#6 vd va vb gp)
  | .vembed vd va gp => some (wordV 45#6 2#6 vd va 0#5 gp)
  | .vschur vd va gp => some (wordV 45#6 3#6 vd va 0#5 gp)
  | .vdamp vd va vb gp => some (wordV 45#6 4#6 vd va vb gp)
  | .vsolve vd va gp => some (wordV 45#6 5#6 vd va 0#5 gp)
  | .mbset a b => some (wordR 46#6 0#7 a b 0#5)
  | .mbld vd a => some (wordR 46#6 (0#2 ++ vd) a 0#7 1#5)
  | .mbupd d a vb => some (wordR 46#6 d a (0#2 ++ vb) 2#5)
  | .mma acc aslot bslot wait set => some (wordX 48#6 0#3 acc aslot bslot wait set)
  | .mmaOw acc aslot bslot wait set => some (wordX 48#6 1#3 acc aslot bslot wait set)
  | .mmaHalf acc aslot bslot wait set => some (wordX 48#6 2#3 acc aslot bslot wait set)
  | .mmaHalfOw acc aslot bslot wait set => some (wordX 48#6 3#3 acc aslot bslot wait set)
  | .mmaSp acc aslot bslot wait set => some (wordX 48#6 4#3 acc aslot bslot wait set)
  | .mmaSpOw acc aslot bslot wait set => some (wordX 48#6 5#3 acc aslot bslot wait set)
  | .mmaHalfSp acc aslot bslot wait set => some (wordX 48#6 6#3 acc aslot bslot wait set)
  | .mmaHalfSpOw acc aslot bslot wait set => some (wordX 48#6 7#3 acc aslot bslot wait set)
  | .oclaim e n => some (wordR 49#6 0#7 e n 0#5)
  | .orel n => some (wordR 49#6 0#7 0#7 n 1#5)
  | .old d a b => some (wordR 49#6 d a b 2#5)
  | .ard a b => some (wordR 49#6 0#7 a b 3#5)
  | .awr a b => some (wordR 49#6 0#7 a b 4#5)
  | .aclr b => some (wordR 49#6 0#7 0#7 b 5#5)
  | .mwait a b => some (wordR 49#6 0#7 a b 6#5)
  | .div d a b => some (wordR 56#6 d a b 0#5)
  | .divu d a b => some (wordR 56#6 d a b 1#5)
  | .rem d a b => some (wordR 56#6 d a b 2#5)
  | .remu d a b => some (wordR 56#6 d a b 3#5)
  | .faddD d a b => some (wordR 56#6 d a b 4#5)
  | .fsubD d a b => some (wordR 56#6 d a b 5#5)
  | .fmulD d a b => some (wordR 56#6 d a b 6#5)
  | .fdivD d a b => some (wordR 56#6 d a b 7#5)
  | .fsqrtD d a => some (wordR 56#6 d a 0#7 8#5)
  | .fminD d a b => some (wordR 56#6 d a b 9#5)
  | .fmaxD d a b => some (wordR 56#6 d a b 10#5)
  | .feqD d a b => some (wordR 56#6 d a b 11#5)
  | .fltD d a b => some (wordR 56#6 d a b 12#5)
  | .fleD d a b => some (wordR 56#6 d a b 13#5)
  | .fclassD d a => some (wordR 56#6 d a 0#7 14#5)
  | .cvtDS d a => some (wordR 56#6 d a 0#7 15#5)
  | .cvtSD d a => some (wordR 56#6 d a 0#7 16#5)
  | .cvtDL d a => some (wordR 56#6 d a 0#7 17#5)
  | .cvtLD d a => some (wordR 56#6 d a 0#7 18#5)
  | .fmaddD d a b => some (wordR 57#6 d a b 0#5)
  | .fmsubD d a b => some (wordR 57#6 d a b 1#5)
  | .fnmsubD d a b => some (wordR 57#6 d a b 2#5)
  | .fnmaddD d a b => some (wordR 57#6 d a b 3#5)
  | .rotationBoundary _ _ => none
  | .loadComplete _ _ => none
  | .heldTrapDelivery _ _ => none
  | .cdispRestart _ _ => none
  | .debugHalt _ _ => none
  | .debugResume _ _ => none
  | .debugStep _ _ => none
  | .debugAbort _ _ => none
  | .ddataRead _ _ => none
  | .ddataWrite _ _ _ => none
  | .tnqRead _ _ => none
  | .cpreWrite _ _ _ => none
  | .displace _ _ => none
  | .barrierYield _ _ => none
  | .vacateComplete _ _ _ => none
  | .contextWriteback _ => none
  | .packetEnqueue _ => none
  | .overflowRefill _ _ => none
  | .migrationArrival _ => none
  | .laneGrant _ => none
  | .vectorCommandComplete _ _ => none
  | .gangInstructionEffect _ _ _ => none
  | .mmaStart _ _ _ _ => none
  | .mmaComplete _ _ _ _ => none
  | .oldComplete _ _ _ _ => none
  | .accumulatorOpComplete _ _ _ _ => none
  | .gangReclaim _ _ _ => none
  | .gangPark _ _ _ => none
  | .engineCommandComplete _ _ => none
  | .chainDescriptorComplete _ _ => none
  | .byteCountAdd _ => none
  | .messageArrival _ => none
  | .antiMessageArrival _ => none
  | .messageAck _ => none
  | .messageHandover _ _ => none
  | .packetForward _ => none
  | .tableEntryUpdate _ _ => none
  | .gvtRoundStart _ => none
  | .gvtCut _ _ => none
  | .commitPhase _ => none
  | .conflictNotice _ => none
  | .irvPerform _ => none
  | .launchSubmit _ => none
  | .launchProcess _ => none
  | .chunkHandout _ _ _ => none
  | .barrierArrival _ _ _ => none
  | .barrierComplete _ _ => none
  | .groupPlacement _ _ => none
  | .gangReservation _ _ => none
  | .reservationPreempt _ _ => none
  | .partitionPreempt _ => none
  | .partitionResume _ => none
  | .partitionCreate _ => none
  | .partitionDestroy _ => none
  | .hndcfgWrite _ _ => none
  | .scrcfgWrite _ _ => none
  | .pcairnWrite _ _ => none
  | .frdatWrite _ _ => none
  | .rotctlWrite _ => none
  | .rotationRequest _ => none
  | .rotationStart _ _ => none
  | .rotationCopy _ => none
  | .rotationRemap _ => none
  | .rotationResume _ => none
  | .selfTestStart _ => none
  | .selfTestEnd _ _ => none
  | .errorStop _ _ _ _ _ _ => none
  | .cairnRestore _ => none
  | .coastForwardEnd _ => none
  | .dieFence _ => none
  | .masterTakeover => none
  | .pageWalkComplete _ _ => none
  | .frespRetry _ => none
  | .frespReject _ => none
  | .xlinv _ => none
  | .xlinvDone => none
  | .sliceHashSelWrite _ => none
  | .sliceRehashComplete => none
  | .lineEviction _ _ => none
  | .writeThroughPerform _ => none
  | .windowBRead _ _ => none
  | .windowBWrite _ _ _ => none
  | .attestationRequest _ => none
  | .attestationReport => none
  | .powerSample _ => none
  | .thermalTrip => none
  | .powerOn _ => none
  | .bringupClusterPass _ => none
  | .gradeTimeout => none
  | .frameRetransmit _ => none
  | .packageLost _ => none
  | .fabricPublicationData _ => none
  | .fabricGvtFrame _ => none
  | .fabricGroupFrame _ => none
  | .ropeDigestFrame _ => none
  | .tieBreakEnd _ _ _ => none
  | .imageDataFrame _ => none
  | .sliceGate => none
  | .sliceGateFrame _ => none
  | .sliceAbandon => none
  | .registerWrite _ _ => none
  | .unassignedWord _ => none
  | .windowAWrite _ _ => none
  | .memoryDieLoss _ => none
  | .sliceUncorrectableError _ => none
  | .cairnAcknowledge _ => none
  | .flashImageWritten _ => none

/-- The word of an instruction, zero for an event. -/
def wordOf (i : Instr) : Half := (encode i).getD 0

/-- The instruction of a word of the opcode table: words have 32 bits, events none. -/
noncomputable def decodeTableWord (_nbits w : Nat) : Option Instr := (decode (BitVec.ofNat 32 w)).toOption

end Sys2Proof
end

