-- ==== Sys2Proof/Config.lean ====
section
/-! DEFINITION. What an implementation fixes and the values the spec leaves open. -/

namespace Sys2Proof.Config

/-- The entry of Reondul's dispatcher, where slot 0 of each core starts (R139; log 5: the spec gives no address). -/
def dispatcherEntry : Word := 0x0000000200000000#64

/-- Whether a 512-bit signature reports a line beyond its exact list (R190): the two hash functions are not
published. The argument is the signature's lines and the line asked about. -/
opaque signatureHit (lines : List Nat) (line : Nat) : Bool

/-- A free value: the n-th value the spec leaves open (log 8). -/
opaque freeValue (n : Nat) : Word

/-- The bytes of rope items whose SHA3-256 is an interval's digest: the spec leaves their serialisation open (R433; log 8). -/
opaque ropeBytes (items : List Word) : List Byte

/-- The SHA3-256 digest of a copy of a firmware image in the boot region (R420, R422): images 0 to 3 in their load order, copies
0 and 1. The images are not the spec's. -/
opaque imageDigest (image copy : Nat) : List Byte

/-- The module's identity public keys for both algorithms, fused at manufacture (R422). -/
opaque identityKeys : List Byte

/-- The signed attestation report over the nonce, the identity keys, the digests of the loaded images, the grade code, V and the
count of retired clusters (R422): its layout and the signatures are open. -/
opaque attestation (nonce : List Word) (keys : List Byte) (digests : List (List Byte)) (grade v gone : Word) : List Byte

/-- A write of these bytes at this flash address is refused (R420): it falls on the boot region, whose place the spec does not give,
and the image does not carry both signatures. -/
opaque bootRefuses (addr : Nat) (bytes : List Byte) : Bool

end Sys2Proof.Config
end

