-- ==== Sys2Proof/Machine/State.lean ====
section
/-! DEFINITION. The state of one package, as plain data. Every structure names the rule of spec/ that gives it.
A `Map α` is a list of (key, value) pairs with rising keys; a key that is not listed reads as the default the
reader names. Memories are lists of `Host.Cell` in canonical form (Machine/Store.lean says the form). -/

namespace Sys2Proof.Machine

/-- Sparse data by key, keys rising. -/
abbrev Map (α : Type) := List (Nat × α)

/-- A memory: address and byte, addresses rising, no zero byte listed (an unlisted byte reads as zero). -/
abbrev Mem := List Host.Cell

/-! ## The thread slot (02, 03, 07) -/

/-- The counters of R15. -/
structure Counters where
  /-- draw index, R98 -/
  draw : Nat := 0
  /-- spawn index, R147 -/
  spawn : Nat := 0
  /-- send index, R351 -/
  send : Nat := 0
  /-- count of LAUNCHes, R379 -/
  launch : Nat := 0
  /-- count of gang instructions, R234 -/
  gang : Nat := 0
  /-- OLD token count, R238 -/
  old : Nat := 0
  /-- engine token count, R266 -/
  engine : Nat := 0
  deriving DecidableEq, Repr

/-- An operation with the values it read at issue (R120): its word, where it stood, its effective address
(or first operand) and its other operands. -/
structure Op where
  word : Half
  pc : Word
  /-- a replay of a repeat frame (R51) -/
  frame : Bool := false
  /-- issued in supervisor mode (R22) -/
  sup : Bool := false
  ea : Word := 0
  y : Word := 0
  z : Word := 0
  /-- FRM and the draw index taken at issue (R208) -/
  frm : Nat := 0
  draw : Nat := 0
  /-- vector elements or payload words read at issue -/
  vec : List Half := []
  /-- the number of the command in its unit's order -/
  seq : Nat := 0
  deriving DecidableEq, Repr

/-- The trap codes (R126). -/
inductive Trap where
  | eill | ereg | ealign | ewindow | ebankmode | epage | eperm | equiet | estamp | egbpcfg | edupstamp
  | esingular | edim | elane | eomem | eacc | egang | edivz | escratchgone | esuper | etrap | ebreak | erep | efmt
  deriving DecidableEq, Repr

/-- What an operation gives: a value with the flags it raises, or a fault with its TVAL (R120). -/
inductive Result where
  | value (x : Word) (flags : BitVec 5)
  | fault (t : Trap) (tval : Word)
  deriving DecidableEq, Repr

/-- How far an operation has come: not yet performed (a page walk is outstanding, or the vector pool has not run
it); performed, its result still under way (R75); its result arrived. -/
inductive Arrival where
  | waiting
  | flying (r : Result)
  | landed (r : Result)
  deriving DecidableEq, Repr

/-- When a pending operation is due (R45, R120, R213, R239, R268). -/
inductive Due where
  /-- after `left` more issues (R45) -/
  | window (left : Nat)
  /-- at the next instruction issued (R77) -/
  | next
  /-- at the next load, store, AMO or instruction of R47 (R120) -/
  | memory
  /-- at the points of R213 -/
  | vector
  /-- at the next OMEM or MMA instruction or instruction of R47 (R239) -/
  | omem
  /-- engine command with this token (R268) -/
  | engine (token : Nat)
  deriving DecidableEq, Repr

/-- Where a result goes (R45, R222, R227). `none` discards it. -/
inductive Dest where
  | none
  | reg (r : BitVec 7)
  deriving DecidableEq, Repr

/-- A pending operation of a thread: an open window, a waiting store or AMO, or a fault to report (R15, R120). -/
structure Pend where
  op : Op
  due : Due
  dest : Dest
  arrival : Arrival
  deriving DecidableEq, Repr

/-- An entry of the load-data queue (R19, R21). -/
structure LdqEntry where
  op : Op
  arrival : Arrival
  deriving DecidableEq, Repr

/-- A running repeat frame: the REP word, its address, replay i and position j (R51), and the captured words, which the
core's sequencer buffer holds (R48). -/
structure Frame where
  word : Half
  base : Word
  i : Nat
  j : Nat
  words : List Half := []
  deriving DecidableEq, Repr

/-- The trap registers (R125). -/
structure TrapRegs where
  cause : BitVec 11 := 0
  epc : Word := 0
  cpc : Word := 0
  val : Word := 0
  vec : Word := 0
  deriving DecidableEq, Repr

/-- The suspended task of a handler (R123). -/
structure Suspended where
  ldq : List LdqEntry
  sdq : List Word
  pend : List Pend
  frame : Option Frame
  /-- the task's draw index, set aside while the handler draws from its own (R98) -/
  draw : Nat := 0
  deriving DecidableEq, Repr

/-- What a thread waits for after its instruction took its place (R161, R233, R376). -/
inductive Wait where
  | none
  /-- stands at a CLAIM that waits (R199) -/
  | claim
  /-- stands at a barrier of this group (slot n, operation, contribution; BAR has no operation) -/
  | barrier (gid : Nat) (op : Option Nat) (x : Word)
  /-- the barrier completed with this result, flags; or the operations differed (R376) -/
  | released (result : Word) (flags : BitVec 5) (mixed : Bool)
  /-- arrived at its n-th gang instruction -/
  | gang (n : Nat)
  /-- the gang instruction took effect, or raised this trap -/
  | gangDone (trap : Option (Trap × Word))
  deriving DecidableEq, Repr

/-- A thread: its architectural state (R15) and the machine's records of its task. -/
structure Thread where
  /-- the task's number; dispatchers have 8·VCN + core (log 9) -/
  uid : Nat
  pid : Nat := 0
  pc : Word
  regBase : Nat := 0
  regLim : Nat := 32
  ldq : List LdqEntry := []
  sdq : List Word := []
  stamp : Word := 0
  fmtA : Word := 0
  fmtB : Word := 0
  fmtC : Word := 0
  frm : BitVec 3 := 0
  fflags : BitVec 5 := 0
  traps : TrapRegs := {}
  grps : BitVec 36 := 0
  carryCount : Nat := 32
  carryBase : Nat := 0
  homeV : Nat
  homeC : Nat
  away : Bool := false
  cores : Bool := false
  quiet : Bool := false
  sup : Bool := false
  pend : List Pend := []
  frame : Option Frame := none
  counters : Counters := {}
  suspended : Option Suspended := none
  /-- the deferred operation TREPLAY re-executes, its destination and LDQ place (R120) -/
  saved : Option (Pend × Bool) := none
  wait : Wait := .none
  /-- a held trap to deliver once the task is the floor task: TCAUSE, TEPC, TCPC, TVAL (R122) -/
  held : Option (BitVec 11 × Word × Word × Word) := none
  /-- debug STEP: halt again after one issue (R135) -/
  stepOnce : Bool := false
  priority : Nat := 0
  /-- the lengths of the chains this task has issued, by token (R268) -/
  chains : Map Nat := []
  /-- 64 KiB regions whose translation the driver rejected and this thread has not reported yet (R324) -/
  rejected : List Nat := []
  /-- instructions it has issued, replays of frames included (R167, R400) -/
  issued : Nat := 0
  /-- of a trailing thread: the load-value queue, oldest value first (R169) -/
  values : List LdqEntry := []
  /-- code and TVAL of the trap it raised last, which a screened pair compares (R174) -/
  trapped : Option (Nat × Word) := none
  deriving DecidableEq, Repr

/-- An entry of the store comparator (R170): the word of an operation that has not left the core, and the operand values it
carries. The word is absent where its fetch failed. -/
structure Held where
  word : Option Half
  operands : List Word
  deriving DecidableEq, Repr

/-- What a screened pair holds (R167 to R171): how many instructions the leading thread is ahead, the operations it has issued
that wait for the trailing thread's, and the synchronising instruction at which it stands; `agreed`: the trailing thread has
reached that instruction with the same word, operands and trap. -/
structure Pair where
  lag : Nat := 0
  held : List Held := []
  sync : Option Held := none
  agreed : Bool := false
  deriving DecidableEq, Repr

/-- A slot (R138). ENDED keeps the allocation and the REAP flags (R150). -/
inductive Slot where
  | free
  | live (t : Thread)
  | halted (t : Thread)
  | ended (base lim : Nat) (requeued aborted : Bool)
  /-- the trailing half of the screened pair whose leading half is the slot eight below it (R167, R168) -/
  | trailing (t : Thread) (q : Pair)
  deriving DecidableEq, Repr

/-! ## Tasks and packets (08, 18, 19) -/

/-- What started a task (R140, R148). -/
inductive Origin where
  | launch | spawn | message
  deriving DecidableEq, Repr

/-- A message header (R348, R351). -/
structure Message where
  sender : Nat
  sendIdx : Nat
  incarnation : Nat
  senderStamp : Word
  srcV : Nat
  pid : Nat
  destV : Nat
  handler : Nat
  stamp : Word
  payload : List Byte
  fmtA : Word
  fmtB : Word
  fmtC : Word
  priority : Nat
  /-- the sender was the floor task when it was sent (R353) -/
  floor : Bool := false
  /-- package the sender belongs to (R429) -/
  srcPkg : Nat := 0
  /-- the other package that the route or link sent it to (R429, R430) -/
  toPkg : Option Nat := none
  /-- of a fabric publication at its destination: its data has been written and acknowledged once (R430) -/
  written : Bool := false
  deriving DecidableEq, Repr

/-- The inputs of a task (R26): everything a re-run starts from. -/
structure Packet where
  origin : Origin
  pc : Word
  stamp : Word
  regn : Nat
  /-- g3 upward -/
  args : List Word
  fmtA : Word
  fmtB : Word
  fmtC : Word
  grps : BitVec 36
  quiet : Bool
  cores : Bool
  tvec : Word
  priority : Nat
  homeV : Nat
  homeC : Nat
  message : Option Message := none
  deriving DecidableEq, Repr

/-- Where a task stands. -/
inductive Stage where
  | queued | running | ended | selfAborted
  deriving DecidableEq, Repr

/-- A task that has not committed (R154, R354). -/
structure Task where
  pid : Nat
  packet : Packet
  stage : Stage := .queued
  aborts : Nat := 0
  children : List Nat := []
  /-- the launch it counts in (R367) -/
  launch : Option Nat := none
  /-- the exit code of its TABORT -/
  exitCode : Option Nat := none
  cancelled : Bool := false
  /-- clusters it has executed on in this run (R401) -/
  ran : List Nat := []
  /-- LAUNCHes of a quiet task, which has no records: launch record, argument block and TVEC (R191, R379) -/
  launches : List (List Byte × List Byte × Word) := []
  deriving DecidableEq, Repr

/-- An entry of an inbound queue (R140, R141): a task's packet or an arrival. -/
structure Entry where
  uid : Nat
  arrival : Bool
  seq : Nat
  deriving DecidableEq, Repr

/-- A core (08): its slots, register file, common registers, queue and debug registers. -/
structure Core where
  /-- slots that differ from their state at reset (R138, R139) -/
  slots : Map Slot := []
  /-- the 2,048-entry register file, zero where not listed -/
  file : Map Word := []
  common : Map Word := []
  /-- MTC writes waiting for the boundary: register, slot, value (R158) -/
  pendingCommon : List (Nat × Nat × Word) := []
  queue : List Entry := []
  overflow : List Entry := []
  /-- trap notices: the TNQ layout with bit 63 set (R134) -/
  notices : List Word := []
  dsel : BitVec 4 := 0
  didx : BitVec 16 := 0
  dstatRes : BitVec 2 := 0
  dcmd : BitVec 3 := 0
  den : Bool := false
  stopped : Bool := false
  debugPending : Bool := false
  /-- vacates in progress, one per slot (R160) -/
  vacating : List Nat := []
  /-- SCREEN as the last rotation boundary put it into effect (R167) -/
  screened : Bool := false
  /-- the slot whose turn it is and the rotation (R136) -/
  turn : Nat := 0
  rotation : Nat := 0
  deriving DecidableEq, Repr

/-! ## Cluster memory and logs (10) -/

/-- Bank modes (R178). -/
inductive BankMode where
  | scratch | scratchT | cache | fifo | log | cairn
  deriving DecidableEq, Repr

/-- A bank: its mode and the group region it holds (R197, R441). -/
structure Bank where
  mode : BankMode := .scratch
  region : Option (Nat × Nat) := none
  /-- the region's group has exited and the bank was not allocated again -/
  gone : Bool := false
  deriving DecidableEq, Repr

/-- The tags of a tracked line (R187); `writer` is the task that set wts (log 9). -/
structure LineTag where
  rts : Word := 0
  wts : Word := 0
  u : Bool := false
  writer : Nat := 0
  deriving DecidableEq, Repr

/-- Reduction forms (R80). -/
inductive RedKind where
  | add | or | min | max | faddS
  deriving DecidableEq, Repr

/-- Returning AMO forms (R77). -/
inductive AmoKind where
  | swap | add | and | or | xor | min | max | cas
  deriving DecidableEq, Repr

/-- Kinds of irrevocable actions (R361). -/
inductive IrvKind where
  | host | flash | db
  deriving DecidableEq, Repr

/-- A record of a LOG bank (R191, R351, R361, R377, R379). -/
inductive LogRec where
  /-- old bytes of the line at `line` (64·line is the scratch offset), its tags and writer -/
  | undo (line : Nat) (bytes : List Byte) (tag : LineTag)
  /-- bytes written to the global line with this PA: offset and byte -/
  | redo (pa : Nat) (coherent : Bool) (va : Word) (bytes : Map Byte)
  /-- a reduction on scratch (global = false) or on a PA -/
  | red (kind : RedKind) (global : Bool) (addr : Nat) (ea : Word) (y : Word)
  | send (m : Message)
  | irv (kind : IrvKind) (addr : Nat) (y : Word) (payload : List Byte)
  | launch (record : List Byte) (block : List Byte) (tvec : Word)
  | gred (gid : Nat) (x : Word)
  deriving DecidableEq, Repr

/-- A record with its task and its place in the order of records. -/
structure LogEntry where
  uid : Nat
  seq : Nat
  body : LogRec
  deriving DecidableEq, Repr

/-- A read signature of a task at a cluster (R190): the keys of the scratch lines, coherent lines and published buffers it
read, in order of first read. -/
structure Signature where
  uid : Nat
  lines : List Nat := []
  deriving DecidableEq, Repr

/-- A line of the cluster cache (R184, R331). -/
structure CacheLine where
  pa : Nat
  bytes : List Byte
  isPrivate : Bool
  deriving DecidableEq, Repr

/-- A write-through store accepted and not yet performed (R186, R315). -/
structure Through where
  uid : Nat
  pa : Nat
  coherent : Bool
  bytes : List Byte
  deriving DecidableEq, Repr

/-! ## The vector pool (11) -/

/-- A command of a context's queue (R207, R208). -/
structure VCmd where
  op : Op
  mask : Word
  scalar : Word
  /-- its bank modes were checked on its thread's arrival (R182, R195) -/
  arrived : Bool := false
  deriving DecidableEq, Repr

/-- A claim (R198). `v` holds the context: word 64·N + e is element e of vN. `waiting`: its CLAIM has not completed.
`awaits`: it has asked for lanes and holds none (R200, R206). -/
structure Claim where
  uid : Nat
  request : Nat
  grant : Nat := 0
  waiting : Bool := false
  awaits : Bool := false
  /-- holds a context of this cluster's store; false while waiting or spilled (R204) -/
  resident : Bool := true
  /-- when its CLAIM issued: waiting claims are served in this order (R200) -/
  seq : Nat := 0
  v : Map Half := []
  /-- the context of the trailing thread's copy of the commands, on a screened cluster (R172) -/
  second : Option (Map Half) := none
  queue : List VCmd := []
  deriving DecidableEq, Repr

/-- A saved context (R161, R194): a thread without a slot, with its registers. `core` is the core it re-enters. -/
structure Parked where
  thread : Thread
  regs : List Word
  core : Nat
  /-- in the context cache; otherwise written to the reserved HBM region (R161) -/
  cached : Bool := true
  /-- order of arrival (R141) -/
  seq : Nat
  /-- the access a migration performs on arrival (R195) -/
  access : Option Pend := none
  /-- the vector context that travels with a migration (R204) -/
  claim : Option Claim := none
  /-- a bounced migration (R197): ESCRATCHGONE with this address -/
  bounced : Option Word := none
  /-- the trailing half of a screened pair, which has an entry of its own: its thread, registers and the pair's queues (R176) -/
  trail : Option (Thread × List Word × Pair) := none
  deriving DecidableEq, Repr

/-! ## The matrix engine (12) -/

/-- An operand slot of a gang (R234 to R239). -/
structure OpSlot where
  code : Nat
  index : Nat
  /-- byte 128·line + k -/
  bytes : Map Byte := []
  /-- side-band: per line 8 scale bytes then 8 extra bytes, at 16·line -/
  side : Map Byte := []
  /-- metadata, at 64·line -/
  metadata : Map Byte := []
  deriving DecidableEq, Repr

/-- A bound accumulator (R242). -/
structure Acc where
  phys : Nat
  m0slot : Nat := 0
  /-- element 64·row + column -/
  elems : Map Half := []
  released : List Nat := []
  deriving DecidableEq, Repr

/-- An operation of a gang's queue (R249). -/
structure GangOp where
  op : Op
  uid : Nat
  member : Nat
  seq : Nat
  set : Option Nat := none
  wait : BitVec 8 := 0
  started : Bool := false
  /-- its addresses have been checked; the member no longer waits for it (R240, R250) -/
  checked : Bool := false
  /-- address ranges it reads or writes, first and last key (R240, R245) -/
  spans : List (Nat × Nat) := []
  deriving DecidableEq, Repr

/-- An engaged or parked gang (R232, R253, R254). `seq` is the order of engagement. -/
structure Gang where
  pid : Nat
  gid : Nat
  slots : Map OpSlot := []
  accs : Map Acc := []
  queue : List GangOp := []
  /-- members stalled at a gang instruction: member, uid, its number, its op -/
  arrived : List (Nat × Nat × Nat × Op) := []
  /-- gang instructions that took effect -/
  effects : Nat := 0
  orphan : Bool := false
  parked : Bool := false
  stopped : Bool := false
  deriving DecidableEq, Repr

/-! ## The copy engines (13) -/

/-- The maker of an access and the kind of R73: supervisor mode, a quiet task, or a non-quiet task. -/
inductive Mode where
  | super | quiet | spec
  deriving DecidableEq, Repr

/-- Who makes an access: its task, partition, stamp and kind. -/
structure Who where
  uid : Nat
  pid : Nat
  stamp : Word
  mode : Mode
  /-- regions whose translation the driver rejected (R324) -/
  rejected : List Nat := []
  deriving DecidableEq, Repr

/-- A data descriptor (R258, R269): the form, both addresses and the control pair. -/
structure Desc where
  fn : Nat
  x : Word
  y : Word
  c0 : Word
  c1 : Word
  deriving DecidableEq, Repr

/-- A command of the engine queue: a data command (one descriptor), a chain, or a shadow fill (none). -/
structure EngCmd where
  uid : Nat
  token : Nat
  seq : Nat
  op : Op
  who : Who
  descs : List Desc := []
  /-- the groups of its task, whose exit waits for it (R265) -/
  groups : List Nat := []
  /-- descriptors completed (R270) -/
  completed : Nat := 0
  chain : Bool := false
  fill : Bool := false
  /-- every check of R262 passed -/
  checked : Bool := false
  /-- bytes written, counts on their way (R272) -/
  counting : Bool := false
  /-- source and destination spans, first and last key (R263, R264) -/
  srcSpans : List (Nat × Nat) := []
  dstSpans : List (Nat × Nat) := []
  deriving DecidableEq, Repr

/-- An owned shadow of a published buffer (R276 to R280). -/
structure Shadow where
  uid : Nat
  v : Nat
  /-- PA of the publication record, VA of the buffer -/
  record : Nat
  base : Nat
  backing : Nat
  /-- PUBL has marked it, at this order number -/
  marked : Option Nat := none
  deriving DecidableEq, Repr

/-! ## Handlers and the pending set (18) -/

/-- A handler-store entry (R347). -/
structure Handler where
  pc : Word := 0
  tvec : Word := 0
  cfg : BitVec 32 := 0
  deriving DecidableEq, Repr

/-- A header of the pending set (R353): `task` names the message task once it is TAKEN. -/
structure Header where
  message : Message
  task : Option Nat := none
  overflow : Bool := false
  deriving DecidableEq, Repr

/-- An anti-message: the id, destination and receive stamp of its positive (R351, R355). `sender` is the sender's stamp. -/
structure Anti where
  sender : Word
  sendIdx : Nat
  incarnation : Nat
  srcV : Nat
  pid : Nat
  destV : Nat
  stamp : Word
  srcPkg : Nat := 0
  deriving DecidableEq, Repr

/-! ## Cairns (20) -/

/-- A line record of a cairn (R399): the line as it stood at the point without what uncommitted writers wrote. -/
structure CairnLine where
  bytes : List Byte
  tag : LineTag
  deriving DecidableEq, Repr

/-- The cairn of a cluster at a point (R399). The partner lays the line records of each point over those it holds, so that
`lines` has every line; `changed` are the ones that this point recorded. -/
structure Cairn where
  v : Nat
  vt : Nat
  partner : Nat
  seq : Nat
  banks : Map Bank := []
  screen : Bool := false
  checked : Bool := false
  /-- common registers by core -/
  common : Map (Map Word) := []
  handlers : Map Handler := []
  lines : Map CairnLine := []
  changed : List Nat := []
  /-- contexts of the quiet threads, with the vector contexts and gangs -/
  quiet : List Parked := []
  claims : List Claim := []
  gangs : List Gang := []
  /-- message state -/
  pending : List Header := []
  orphans : List Anti := []
  annihilated : List Anti := []
  deriving DecidableEq, Repr

/-! ## Clusters -/

/-- A cluster, keyed by VCN (09 to 14). -/
structure Cluster where
  cores : Map Core := []
  /-- the partition that holds the cluster now (R388, R437) -/
  pid : Option Nat := none
  banks : Map Bank := []
  /-- bank·65,536 + offset -/
  scratch : Mem := []
  /-- keyed by scratch line -/
  tags : Map LineTag := []
  log : List LogEntry := []
  sigs : List Signature := []
  /-- cluster cache, most recently used first -/
  cache : List CacheLine := []
  /-- leases by line PA (R331) -/
  leases : Map Word := []
  throughs : List Through := []
  screen : Bool := false
  checked : Bool := false
  claims : List Claim := []
  gangs : List Gang := []
  cmds : List EngCmd := []
  hndIdx : BitVec 10 := 0
  hndPc : Word := 0
  hndTvec : Word := 0
  handlers : Map Handler := []
  pending : List Header := []
  orphans : List Anti := []
  /-- ids of annihilated or committed messages remembered for resends (R395) -/
  annihilated : List Anti := []
  parked : List Parked := []
  /-- mailboxes with CFG = 1 configured by MBSET, by scratch address (R181, R295) -/
  mailboxes : List Nat := []
  /-- receive stamps of acknowledgements that overtook the cut (R356) -/
  late : List Word := []
  /-- the number of the last GVT round in which the cluster has taken its cut (R356) -/
  cutNo : Nat := 0
  /-- from the remap of a rotation to its resume: the last minimum of the old physical cluster (R447) -/
  lastMin : Option Word := none
  /-- the cairn of the last point that the partner has acknowledged, and of a newer one that it has not (R397 to R400) -/
  cairn : Option Cairn := none
  cairnNext : Option Cairn := none
  /-- gang reservation for this partition and group (R383) -/
  reserved : Option (Nat × Nat) := none
  /-- when that reservation began -/
  reservedAt : Nat := 0
  /-- the cluster's error sequence is under way (R401) -/
  stopped : Bool := false
  /-- a rotation is under way: no slot issues; until the remap its router holds arriving packets (R393) -/
  paused : Bool := false
  holding : Bool := false
  /-- packets of the tasks committed on the cluster since each of those points, in stamp order, as its input logs hold them (R400) -/
  inputs : List Packet := []
  inputsNext : List Packet := []
  /-- its input log has reached 48 MiB: the next GVT round brings it an extra point (R400) -/
  logFull : Bool := false
  /-- records and entries set aside by admission, by launch number (R387) -/
  reserve : Map (Nat × Nat) := []
  /-- a mismatch that a screened pair has met, until its machine check is raised: core, pair and kind (R175) -/
  mismatch : Option (Nat × Nat × Nat) := none
  deriving DecidableEq, Repr

/-! ## Partitions (18, 19, 20, 22) -/

/-- An entry of a group table (R371), with the counts the tree keeps (R372, R376). -/
structure Group where
  banks : BitVec 32 := 0
  vcn0 : BitVec 16 := 0
  vcnn : BitVec 16 := 0
  flags : Byte := 0
  arrive : BitVec 32 := 0
  /-- 0 inactive, 1 active, 2 exited -/
  state : Nat := 0
  exitCode : BitVec 16 := 0
  /-- the stamp whose TABORT set EXITCODE -/
  exitStamp : Option Word := none
  tabortsN : BitVec 32 := 0
  red : Word := 0
  /-- contributions of GRED with ROP 5, kept exactly until read (R102, R375) -/
  terms : List Half := []
  /-- uids of the members -/
  members : List Nat := []
  /-- launches and uncommitted LAUNCH records that name it -/
  named : Nat := 0
  /-- when members came to wait for their placement (R383) -/
  waiting : Option Nat := none
  /-- barrier completions so far, the last report of each other package, the last report of this one, and the combined
  reduction that package 0 last made known (R432) -/
  epoch : Nat := 0
  remotes : Map (List Word) := []
  reported : List Word := []
  total : Option (Word × BitVec 5) := none
  /-- arrivals at the group's barrier: task, BARV operation and contribution (R376) -/
  arrivals : List (Nat × Option Nat × Word) := []
  /-- members whose placement is granted (R142, R381) -/
  granted : List Nat := []
  /-- gang members that ended, with their counts of gang instructions (R234) -/
  gone : List (Nat × Nat) := []
  deriving DecidableEq, Repr

/-- A launch the command processor has accepted (R307, R308, R367, R369). -/
structure LaunchJob where
  lnum : Nat
  /-- window-A slot of a host launch -/
  slot : Option Nat
  record : List Byte
  block : List Byte
  tvec : Word
  count : Nat
  /-- chunks not yet handed out -/
  unplaced : List Nat
  /-- tasks placed and not yet committed or ended, children included -/
  live : Nat := 0
  /-- masks of indices not committed, by chunk (R308) -/
  masks : Map Word := []
  bounded : Bool := false
  black : Bool := false
  acceptedAt : Nat := 0
  /-- a host launch, and the number it was first accepted under: a restore accepts it again under another (R403) -/
  host : Bool := false
  orig : Nat := 0
  deriving DecidableEq, Repr

/-- A launch handed to the command processor and not yet processed (R369). `none` slot: a device launch. -/
structure LaunchReq where
  slot : Option Nat
  record : List Byte
  block : List Byte
  tvec : Word
  /-- regions of its sources whose translation the driver rejected (R368) -/
  rejected : List Nat := []
  /-- a host launch that the roped partner forwarded (R433) -/
  forwarded : Bool := false
  /-- the run of the partition that took it in first, of a launch that a restore takes in again (R403) -/
  run : Option Nat := none
  /-- of such a launch: the number it was first accepted under, and the host launches that were not DONE then (R339) -/
  first : Option Nat := none
  running : List Nat := []
  /-- the stamp of the task whose LAUNCH it is (R369) -/
  stamp : Word := 0
  /-- what the host wrote through window B before a launch that a restore takes in again, since the launch before (R337, R403) -/
  writes : List (Nat × List Byte) := []
  deriving DecidableEq, Repr

/-- An IRV released by a commit and not yet performed (R361). -/
structure IrvItem where
  stamp : Word
  kind : IrvKind
  addr : Nat
  y : Word
  payload : List Byte
  /-- the run of the partition in which its task committed -/
  run : Nat := 0
  deriving DecidableEq, Repr

/-- A partition's registers, table, and running state (R388, R413, R428). -/
structure Partition where
  active : Bool := false
  refused : Bool := false
  checked : Bool := false
  screen : Bool := false
  bounded : Bool := false
  cap : BitVec 4 := 0
  w : BitVec 36 := 0
  seed : Word := 0
  disp : Word := 0
  vcnmap : Map Word := []
  period : BitVec 17 := 1000
  /-- none while idle (R356) -/
  gvt : Option Word := none
  cairn : BitVec 64 := 0
  cairnRefused : Bool := false
  /-- VT of the latest cairn point (R413) -/
  lastVt : Option Nat := none
  off : Bool := false
  irvBase : BitVec 38 := 0
  irvSize : BitVec 38 := 0
  /-- GRADE word a task reads (R409) -/
  grade : Word := 0
  groups : Map Group := []
  lnum : Nat := 0
  jobs : List LaunchJob := []
  reqs : List LaunchReq := []
  irvs : List IrvItem := []
  /-- stopped for good with a partition error (R346, R402, R405, R427) -/
  halted : Bool := false
  /-- a GVT round is under way: clusters cut so far (R356), and the candidate -/
  round : Option (List Nat) := none
  candidate : Option Word := none
  /-- stamps reported at the cuts of this round -/
  reports : List Word := []
  nextRound : Nat := 0
  /-- the number of the latest GVT round: the rounds of every package count together (R356, R431) -/
  roundNo : Nat := 0
  /-- cairn points and flash images taken; an image is being written; one waits to be sent to the store (R398, R436) -/
  points : Nat := 0
  imagesTaken : Nat := 0
  imageBusy : Bool := false
  imageVt : Option Nat := none
  /-- when each of its clusters last began a rotation (R392) -/
  rotated : Map Nat := []
  /-- fabric (R428) -/
  fabcfg : BitVec 64 := 0
  fabRefused : Bool := false
  routes : Map (BitVec 9) := []
  links : Map Word := []
  /-- rope intervals whose digests agreed, counted from interval 0 (R434) -/
  ropeAgreed : Nat := 0
  diverged : Bool := false
  /-- digest items, and the digests sent and received, by rope interval (R433) -/
  ropeItems : Map (List Word) := []
  ropeMine : Map (BitVec 256) := []
  ropeTheirs : Map (BitVec 256) := []
  /-- the tie-break run under way: its interval and the two digests that differed (R435) -/
  tie : Option (Nat × BitVec 256 × BitVec 256) := none
  /-- candidates received from other packages this round (R431) -/
  remoteCandidates : Map Word := []
  /-- the stamps at which the other packages' commits would stop (R431) -/
  remoteStops : Map Word := []
  /-- the last IRV released, as run and stamp: those up to it are suppressed in a re-execution (R403) -/
  irvDone : Option (Nat × Word) := none
  /-- how often the partition has left idleness: stamps rise within one such run (R356) -/
  run : Nat := 0
  /-- states of its clusters while another partition holds them (R385, R437) -/
  saved : Map Cluster := []
  /-- the cairn partner of each VCN (R397) -/
  partners : Map Nat := []
  /-- host launches accepted since the latest flash image began, with their numbers: a restore accepts them again (R3, R403) -/
  launched : List (Nat × LaunchReq) := []
  /-- what the host has written through window B since the last of them, and whether a restore has still to lay it over the memory
  (R337, R403) -/
  hostWrites : List (Nat × List Byte) := []
  owed : Bool := false
  /-- the launches that were DONE when a restore took the partition back before their ends (R339) -/
  redone : List Nat := []
  /-- the route entry that FRIDX selects (R428) -/
  fridx : BitVec 10 := 0
  deriving DecidableEq, Repr

/-! ## The package (15, 16, 20, 21, 22) -/

/-- Where a physical cluster stands (R389). -/
inductive PcState where
  | live (v : Nat)
  | fallow
  | spare
  | retired
  /-- not yet through its power-on self-test (R424) -/
  | untested
  deriving DecidableEq, Repr

/-- A physical cluster (R389, R407). -/
structure Phys where
  state : PcState
  age : BitVec 16 := 0
  /-- order in which it entered its present state -/
  since : Nat := 0
  /-- order in which it last ended a self-test -/
  tested : Nat := 0
  deriving DecidableEq, Repr

/-- An entry of the VCN tables (R304, R306). -/
structure VEntry where
  valid : Bool := false
  pcn : BitVec 11 := 0
  gen : BitVec 8 := 0
  deriving DecidableEq, Repr

/-- Step of a rotation (R393). -/
inductive RotStep where
  | drain | copied | remapped
  deriving DecidableEq, Repr

/-- A rotation in progress (R393). -/
structure Rotation where
  v : Nat
  src : Nat
  dst : Nat
  step : RotStep
  deriving DecidableEq, Repr

/-- A retirement entry (R412). -/
structure Retired where
  cause : BitVec 8
  age : BitVec 16
  pcn : BitVec 11
  deriving DecidableEq, Repr

/-- A frame of the fabric (R427): `ack` is the highest sequence number received in order from its destination; sequence
numbers start at 1. -/
structure WireFrame where
  kind : Nat
  pid : Nat
  src : Nat
  dest : Nat
  seq : Nat := 0
  ack : Nat := 0
  body : List Word := []
  /-- when it was first sent, and whether its destination has received it -/
  since : Nat := 0
  received : Bool := false
  deriving DecidableEq, Repr

/-- What is in flight in the network (R301, R427). -/
inductive Packetry where
  | migration (destV : Nat) (p : Parked)
  | task (destV core : Nat) (uid : Nat)
  | message (m : Message)
  | anti (a : Anti)
  /-- an acknowledgement: the last round its cluster had cut (R356), and the payload units that it frees at the sender (R181) -/
  | ack (a : Anti) (destV cut units : Nat)
  | notice (destV line : Nat) (w : Option Word) (buffer : Bool)
  /-- counted bytes for a counter object, of the engine command with this number (R272) -/
  | count (destV addr len cmd : Nat)
  | frame (f : WireFrame)
  /-- a fabric publication that has arrived and waits for a backing (R430): its id, receive stamp and data; the buffer's
  VA stands in `fmtA` -/
  | publication (m : Message)
  deriving DecidableEq, Repr

/-- A restore in progress (R401): the failed cluster, the target once its cairn is copied, and what the machine-check
record says of the event (R414). -/
structure Restore where
  v : Nat
  failed : Nat
  target : Option Nat := none
  /-- the target of the rotation that the error ended, which the restore uses (R396) -/
  wish : Option Nat := none
  /-- the cairn copied into the target -/
  image : Option Cairn := none
  /-- packets that its fenced die had sent and the switch die dropped: the restored cluster sends them again (R309, R394) -/
  dropped : List (Nat × Packetry) := []
  /-- the digests of the first run and of the re-execution differ (R402) -/
  differs : Bool := false
  /-- CLASS of the fault, as it stood at detection (R405) -/
  cls : Nat := 1
  code : Nat := 0
  core : Nat := 0
  slot : Nat := 0
  detail : BitVec 16 := 0
  detail2 : Word := 0
  time : Nat := 0
  gvt : Word := 0
  before : BitVec 16 := 0
  after : BitVec 16 := 0
  deriving DecidableEq, Repr

/-- A packet with the PCN and GEN its source router wrote (R304). `held`: its router holds it (R305). `src` is that source
router, 768 for the switch die, and `order` tells which of its packets it sent first (R301). `there`: it has reached its
cluster and waits there for room (R195). -/
structure Flight where
  body : Packetry
  pcn : BitVec 11 := 0
  gen : BitVec 8 := 0
  held : Bool := false
  src : Nat := 768
  order : Nat := 0
  there : Bool := false
  deriving DecidableEq, Repr

/-- An entry of a translation station (R320): one page of any size. -/
structure StationEntry where
  /-- the station that holds it, 0 to 255 -/
  station : Nat
  pid : Nat
  /-- the page's first 64 KiB region -/
  region : Nat
  leaf : Word
  /-- level of the leaf -/
  level : Nat
  deriving DecidableEq, Repr

/-- An entry of a station's walk cache (R320, R325): a page-table entry of level 1 to 3, and the VA bits that index down to it. -/
structure WalkEntry where
  station : Nat
  pid : Nat
  level : Nat
  tag : Nat
  entry : Word
  /-- of a bounded partition: kept until the partition ends -/
  pinned : Bool := false
  deriving DecidableEq, Repr

/-- A walk for a region: outstanding, or faulted and reported (R320, R323). -/
structure Walk where
  pid : Nat
  region : Nat
  kind : Nat
  /-- order numbers of the requests that wait for it -/
  waiters : List Nat := []
  /-- threads that stand at an instruction whose fetch or precise read waits for it -/
  threads : List Nat := []
  reported : Bool := false
  deriving DecidableEq, Repr

/-- A line that a tier holds (R312, R315): PA[47:6]; its value stands once, in `hbm`. -/
structure TierLine where
  line : Nat
  dirty : Bool
  deriving DecidableEq, Repr

/-- The two tiers, most recently used lines first (R312): the core-side tier by slice, the memory-side tier by channel. -/
structure Tiers where
  slices : Map (List TierLine) := []
  channels : Map (List TierLine) := []
  deriving DecidableEq, Repr

/-- A directory entry (R334). -/
structure DirEntry where
  line : Nat
  rts : Word
  holders : List Nat
  deriving DecidableEq, Repr

/-- Launch-window and status registers (R367). -/
structure WindowA where
  recs : Map (BitVec 64) := []
  lsub : Word := 0
  gtsel : BitVec 20 := 0
  lstat : Map Word := []
  deriving DecidableEq, Repr

/-- A record for a ring in host memory that waits for room or for the window (R323, R414, R417, R419). -/
structure RingRec where
  /-- 0 fault, 1 machine check, 2 partition error, 3 attestation report -/
  ring : Nat
  bytes : List Byte
  /-- where an attestation report goes -/
  addr : Nat := 0
  /-- the faulted walk a fault record tells of: PASID and region (R323) -/
  walk : Option (Nat × Nat) := none
  deriving DecidableEq, Repr

/-- A flash image of a partition: its clusters, tasks and packets as they stood at a cairn point, and device memory,
of which a restore takes the partition's pages (R436). -/
structure FlashImage where
  vt : Nat
  part : Partition
  clusters : Map Cluster
  tasks : Map Task
  flights : Map Flight
  shadows : List Shadow
  hbm : Mem
  deriving DecidableEq, Repr

/-- The chip: everything but the pool of physical clusters. -/
structure Chip where
  clusters : Map Cluster := []
  tasks : Map Task := []
  parts : Map Partition := []
  hbm : Mem := []
  flash : Mem := []
  host : Mem := []
  tiers : Tiers := {}
  /-- the entries of the 256 stations and of their walk caches, oldest first (R320) -/
  stations : List StationEntry := []
  upper : List WalkEntry := []
  walks : List Walk := []
  /-- device memory that the invalidation under way has unmapped: first PA and length (R322) -/
  removed : List (Nat × Nat) := []
  directory : List DirEntry := []
  /-- floors of evicted directory sets, by set (R334) -/
  floors : Map Word := []
  /-- rts of published buffers by record PA (R275) -/
  bufRts : Map Word := []
  shadows : List Shadow := []
  flights : Map Flight := []
  /-- plain package registers by index: the value last written (R321, R411, R414, R426, R437); 0x1428, 0x1490 and 0x1498
  hold the sequence number of the next record of each ring (R323, R414, R419) -/
  regs : Map Word := []
  winA : WindowA := {}
  rings : List RingRec := []
  /-- MSI-X vectors raised whose write has not been sent, the host bus address of each vector's write, and the vectors sent (R417,
  R418; log 34) -/
  msix : List Nat := []
  msixAt : Map Nat := []
  interrupts : List Nat := []
  /-- V, REDUCED and the BOOTSTAT stage (R424) -/
  v : Nat := 0
  /-- the four firmware images are loaded, and the copy of each (R420) -/
  booted : Bool := false
  loaded : List Nat := []
  reduced : Bool := false
  stage : Nat := 0
  /-- the routers' VCN table: one value, since a new entry reaches every router (R304) -/
  vmap : Map VEntry := []
  /-- routers that a new entry has not reached yet: router, VCN and the old entry (R304) -/
  stale : List (Nat × Nat × VEntry) := []
  now : Nat := 0
  /-- the value a host read or an MFS-like read returned last (R416, DDATA_READ, TNQ_READ) -/
  hostAnswer : Option Word := none
  /-- the nonce of the attestation report being built (R422) -/
  attesting : Option (List Word) := none
  /-- the fuses say RDM-P20-B18 (R2, R412); the modelled module is an RDM-P20-A19 (log 22) -/
  gradeB : Bool := false
  /-- size of window B (R415) -/
  barSize : Nat := 2 ^ 30
  /-- the package stopped: loss of the package (R405, R425) -/
  lost : Bool := false
  fences : List Nat := []
  master : Nat := 0
  /-- the slice gate under way began at this time; the number of the latest gate; packages that have reported for it; the
  sequence entry that enters next; the occupant vacated for it (R437) -/
  gateAt : Option Nat := none
  gateNum : Nat := 0
  gateReports : List Nat := []
  gateNext : Nat := 0
  gateOut : Option Nat := none
  lostPkgs : List Nat := []
  /-- frames sent and not acknowledged, every transmission so far, and the next sequence number and the highest one
  received in order by package (R427) -/
  unacked : Map WireFrame := []
  wire : List WireFrame := []
  /-- when each other package last acknowledged something (R427) -/
  ackAt : Map Nat := []
  frameSeq : Map Nat := []
  frameGot : Map Nat := []
  /-- flash images: the last one written of PASID p under 2p, one being written under 2p + 1 (R436) -/
  images : Map FlashImage := []
  /-- of a roped partition: its earlier images, latest first, back to the last whose intervals all agreed, and its states at the cairn
  points since the last agreed one (R435) -/
  older : Map (List FlashImage) := []
  atPoints : Map (List FlashImage) := []
  /-- counter of free values (log 8) -/
  free : Nat := 0
  /-- next task number and next order number (log 9) -/
  nextUid : Nat := 16384
  nextSeq : Nat := 0
  deriving DecidableEq, Repr

/-- The pool of physical clusters and their movements (20). -/
structure Pool where
  phys : Map Phys := []
  rotations : List Rotation := []
  restores : List Restore := []
  retired : List Retired := []
  /-- VCNs whose requested rotations wait (R411) -/
  requests : List Nat := []
  /-- clusters that passed the power-on self-test (R424) -/
  passed : Nat := 0
  gradeLost : Bool := false
  seq : Nat := 0
  /-- a cluster has become SPARE, and the rotation that it starts is still to begin (R392) -/
  due : Bool := false
  deriving DecidableEq, Repr

/-- What the schedule says comes next (log 2). -/
inductive Agenda where
  /-- an event row of the opcode table happens -/
  | event (i : Instr)
  /-- this core has its issue turn, with nothing completed first and no time passed -/
  | turn (v c : Nat)
  /-- a frame of another package reaches this one (R427) -/
  | frame (f : WireFrame)
  /-- device time passes -/
  | elapse (ns : Nat)
  /-- the 1,024th corrected ECC event on a physical cluster since the last that was counted (R407) -/
  | corrected (p : Nat)
  /-- the re-execution for this VCN meets a digest that differs from the first run's (R402) -/
  | differs (v : Nat)
  /-- an uncorrectable error in an SRAM of a physical cluster that a rotation fills (R396) -/
  | targetError (p : Nat)
  /-- an uncorrectable error in the HBM4 line that holds this device address (R405) -/
  | lineError (a : Nat)
  /-- the input log of this VCN reaches 48 MiB (R400) -/
  | logFull (v : Nat)
  /-- the host reads the doubleword at byte offset 8·k of window C, or of window A (R367, R371, R415) -/
  | hostRead (management : Bool) (k : Nat)
  /-- the host sets the size of window B (R415) -/
  | barSize (n : Nat)
  /-- the host sets the address of a vector's write (R418) -/
  | msixTable (n addr : Nat)
  /-- a thermal warning is raised (R418) -/
  | thermalWarning
  /-- a physical cluster fails its power-on self-test (R408, R424) -/
  | selfTestFailed (p : Nat)
  deriving DecidableEq, Repr

/-- A place in the machine: cluster, core, slot. -/
structure At where
  v : Nat
  c : Nat
  t : Nat
  deriving DecidableEq, Repr

/-- The state of one package. `focus` names the core whose turn the next issue takes. -/
structure State where
  agenda : List Agenda := []
  focusV : Nat := 0
  focusC : Nat := 0
  chip : Chip := {}
  pool : Pool := {}
  deriving DecidableEq, Repr

/-- Reasons the whole machine stops. -/
inductive Fault where
  /-- Raised by `step` once the package has stopped for good: a thermal trip or the loss of a memory die
  (R309, R405, R425). Safe: the spec gives the package no further step. -/
  | packageStopped
  deriving DecidableEq, Repr

/-- Reasons an instruction has no meaning here. -/
inductive Refusal where
  /-- Answered by an arm of `exec` whose instruction has no meaning yet. Safe. -/
  | notModelled (mnemonic : String)
  deriving DecidableEq, Repr

/-- The machine right after reset: the security processor has just started (R420, R424); V is 0 and STAGE reads 0.
A cluster, core or slot that is not listed is as cluster reset leaves it: every bank SCRATCH and zero (R179), slot 0
LIVE in supervisor mode with REGBASE 0 and REGLIM 32 (R139), the other slots FREE. -/
def State.reset : State := {}

end Sys2Proof.Machine
end

