-- ==== Sys2Proof/Machine/Store.lean ====
section
/-! DEFINITION. Sparse maps by key and byte memories (R6, R7). -/

namespace Sys2Proof.Machine

/-- The value listed under `k`. -/
def Map.get {α : Type} : Map α → Nat → Option α
  | [], _ => none
  | (j, x) :: m, k => if j = k then some x else if j < k then Map.get m k else none

/-- `m` with `x` listed under `k`. -/
def Map.put {α : Type} : Map α → Nat → α → Map α
  | [], k, x => [(k, x)]
  | (j, y) :: m, k, x =>
    if j < k then (j, y) :: Map.put m k x
    else if j = k then (k, x) :: m
    else (k, x) :: (j, y) :: m

/-- `m` without the key `k`. -/
def Map.erase {α : Type} : Map α → Nat → Map α
  | [], _ => []
  | (j, y) :: m, k => if j = k then Map.erase m k else (j, y) :: Map.erase m k

/-- The value listed under `k`, or `d`. -/
def Map.getOr {α : Type} (m : Map α) (k : Nat) (d : α) : α := (m.get k).getD d

/-- `f` applied to the value of every key. -/
def Map.each {α : Type} (m : Map α) (f : Nat → α → α) : Map α := m.map fun p => (p.1, f p.1 p.2)

/-- One byte of a memory; an unlisted address reads as zero (log 6). -/
def Mem.read : Mem → Nat → Byte
  | [], _ => 0
  | (a, x) :: m, k => if a = k then x else if a < k then Mem.read m k else 0

/-- A memory with the byte `x` at `k`. A zero byte is not listed. -/
def Mem.write : Mem → Nat → Byte → Mem
  | [], k, x => if x = 0 then [] else [(k, x)]
  | (a, y) :: m, k, x =>
    if a < k then (a, y) :: Mem.write m k x
    else if a = k then (if x = 0 then m else (k, x) :: m)
    else (if x = 0 then (a, y) :: m else (k, x) :: (a, y) :: m)

/-- `n` bytes from `k` upward. -/
def Mem.readBytes (m : Mem) (k : Nat) : Nat → List Byte
  | 0 => []
  | n + 1 => m.read k :: Mem.readBytes m (k + 1) n

/-- The bytes `xs` written from `k` upward. -/
def Mem.writeBytes (m : Mem) (k : Nat) : List Byte → Mem
  | [] => m
  | x :: xs => Mem.writeBytes (m.write k x) (k + 1) xs

/-- Every listed address is at least `lo`, addresses rise, and no listed byte is zero. -/
def Mem.wfFrom : Nat → Mem → Bool
  | _, [] => true
  | lo, (a, x) :: m => decide (lo ≤ a) && x != 0 && Mem.wfFrom (a + 1) m

/-- The canonical form of a memory. -/
def Memory.wf (m : Mem) : Bool := Mem.wfFrom 0 m

/-- The little-endian number that bytes stand for (R6). -/
def bytesToNat : List Byte → Nat
  | [] => 0
  | b :: bs => b.toNat + 256 * bytesToNat bs

/-- The `n` low bytes of a number, little-endian. -/
def natToBytes : Nat → Nat → List Byte
  | 0, _ => []
  | n + 1, x => BitVec.ofNat 8 x :: natToBytes n (x / 256)

/-- `x` sign-extended from its low `8 * size` bits. -/
def sextBytes (size x : Nat) : Word :=
  if x < 2 ^ (8 * size - 1) then BitVec.ofNat 64 x else BitVec.ofInt 64 (x - 2 ^ (8 * size))

/-- `size` bytes of `x`, little-endian. -/
def wordBytes (size : Nat) (x : Word) : List Byte := natToBytes size x.toNat

/-- The doubleword at an address of a memory. -/
def Mem.read64 (m : Mem) (k : Nat) : Word := BitVec.ofNat 64 (bytesToNat (m.readBytes k 8))

/-- `x` put into a sorted list before the first element it is not after. -/
def insertBy {α : Type} (le : α → α → Bool) (x : α) : List α → List α
  | [] => [x]
  | y :: ys => if le x y then x :: y :: ys else y :: insertBy le x ys

/-- A list sorted by `le`; equal elements keep their order. -/
def sortBy {α : Type} (le : α → α → Bool) : List α → List α
  | [] => []
  | x :: xs => insertBy le x (sortBy le xs)

/-- A field of a word as a number. -/
def bits {n : Nat} (w : BitVec n) (lo len : Nat) : Nat := w.toNat / 2 ^ lo % 2 ^ len

end Sys2Proof.Machine
end

