-- ==== Sys2Proof/Machine/Ops.lean ====
section
/-! DEFINITION. The named operations over the state: clusters, cores, slots and threads, the register file, parking
a thread (R161), taking a trap (R122 to R124) and returning from one (R129). -/

namespace Sys2Proof.Machine

/-! ## Reading and changing parts of the chip -/

/-- Slot 0's thread at reset (R139): the dispatcher, in supervisor mode, at its entry (log 5). -/
def dispatcher (v c : Nat) : Thread :=
  { uid := 8 * v + c, pc := Config.dispatcherEntry, homeV := v, homeC := c, sup := true }

/-- Slot t of a core; an unlisted slot is as reset leaves it (R138, R139). -/
def Core.slot (k : Core) (v c t : Nat) : Slot :=
  (k.slots.get t).getD (if t = 0 then .live (dispatcher v c) else .free)

/-- The cluster that VCN v names. -/
def Chip.cluster (h : Chip) (v : Nat) : Cluster := h.clusters.getOr v {}

/-- Core c of cluster v. -/
def Chip.core (h : Chip) (v c : Nat) : Core := (h.cluster v).cores.getOr c {}

/-- The slot at a place. -/
def Chip.slot (h : Chip) (p : At) : Slot := (h.core p.v p.c).slot p.v p.c p.t

/-- The record of a partition. -/
def Chip.part (h : Chip) (pid : Nat) : Partition := h.parts.getOr pid {}

/-- `f` applied to cluster v. -/
def Chip.modCluster (h : Chip) (v : Nat) (f : Cluster → Cluster) : Chip :=
  { h with clusters := h.clusters.put v (f (h.cluster v)) }

/-- `f` applied to core c of cluster v. -/
def Chip.modCore (h : Chip) (v c : Nat) (f : Core → Core) : Chip :=
  h.modCluster v fun k => { k with cores := k.cores.put c (f (k.cores.getOr c {})) }

/-- The slot at a place replaced. -/
def Chip.setSlot (h : Chip) (p : At) (s : Slot) : Chip :=
  h.modCore p.v p.c fun k => { k with slots := k.slots.put p.t s }

/-- `f` applied to a partition. -/
def Chip.modPart (h : Chip) (pid : Nat) (f : Partition → Partition) : Chip :=
  { h with parts := h.parts.put pid (f (h.part pid)) }

/-- The thread a slot holds, LIVE or HALTED. -/
def Slot.thread? : Slot → Option Thread
  | .live t => some t
  | .halted t => some t
  | .trailing t _ => some t
  | .free => none
  | .ended .. => none

/-- A slot with its thread replaced. -/
def Slot.withThread : Slot → Thread → Slot
  | .live _, t => .live t
  | .halted _, t => .halted t
  | .trailing _ q, t => .trailing t q
  | .free, _ => .free
  | .ended b l r a, _ => .ended b l r a

/-- The thread at a place. -/
def Chip.thread? (h : Chip) (p : At) : Option Thread := (h.slot p).thread?

/-- The thread at a place replaced; the slot's state stays. -/
def Chip.setThread (h : Chip) (p : At) (t : Thread) : Chip := h.setSlot p ((h.slot p).withThread t)

/-- The clusters of a partition's map that exist, in increasing VCN (R388). -/
def Partition.vcns (q : Partition) : List Nat :=
  (List.range 2048).filter fun v => (q.vcnmap.getOr (v / 64) 0).getLsbD (v % 64)

/-- VCN v belongs to the partition (R388). -/
def Partition.holds (q : Partition) (v : Nat) : Bool := (q.vcnmap.getOr (v / 64) 0).getLsbD (v % 64)

/-- A thread is its partition's floor task (R358). -/
def Chip.floorStamp (h : Chip) (pid : Nat) (stamp : Word) : Bool := (h.part pid).gvt == some stamp

/-- The thread holds a task: it is not the dispatcher of slot 0. -/
def Thread.isTask (t : Thread) : Bool := decide (16384 ≤ t.uid)

/-- The partition that a thread of cluster v works for: a task's own; slot 0 works for the partition that holds the cluster,
whosever dispatcher it runs (R98, R131, R360). -/
def Chip.pidAt (h : Chip) (v : Nat) (t : Thread) : Nat := if t.isTask then t.pid else (h.cluster v).pid.getD t.pid

/-- The thread runs a task in task mode that keeps logs: non-quiet (R73). -/
def Thread.speculative (t : Thread) : Bool := t.isTask && !t.sup && !t.quiet

/-- The stamp a thread reads and acts at: 0 in supervisor mode (R22). -/
def Thread.tstamp (t : Thread) : Word := if t.sup then 0 else t.stamp

/-! ## The register file (R17) -/

/-- Register number r of a thread: g0 reads as zero. -/
def readGpr (t : Thread) (file : Map Word) (r : Nat) : Word :=
  if r = 0 then 0 else file.getOr (t.regBase + r) 0

/-- Register number r written: a write to g0 is discarded. -/
def writeGpr (t : Thread) (file : Map Word) (r : Nat) (x : Word) : Map Word :=
  if r = 0 then file else file.put (t.regBase + r) x

/-- The file with g1 to g(lim - 1) of an allocation taking the values `xs` (g0 first), missing ones zero; the entry
at `base` is left alone (R17, R26). -/
def loadFile (file : Map Word) (base lim : Nat) (xs : List Word) : Map Word :=
  (List.range lim).foldl (fun f k => if k = 0 then f else f.put (base + k) (xs.getD k 0)) file

/-- The values g0 to g(n-1) of a thread. -/
def saveFile (t : Thread) (file : Map Word) : List Word :=
  (List.range t.regLim).map fun r => readGpr t file r

/-- A thread with its core's register file: what a scalar instruction acts on. -/
structure Here where
  th : Thread
  file : Map Word
  deriving DecidableEq, Repr

/-- The thread at a place with its core's register file. -/
def Chip.here? (h : Chip) (p : At) : Option Here :=
  (h.thread? p).map fun t => ⟨t, (h.core p.v p.c).file⟩

/-- The thread and the register file put back. -/
def Chip.putHere (h : Chip) (p : At) (x : Here) : Chip :=
  (h.setThread p x.th).modCore p.v p.c fun k => { k with file := x.file }

/-! ## Pending operations -/

/-- `f` applied to every pending operation and LDQ entry of a thread, those of its suspended task and the values that a trailing
thread has not taken included (R163, R169). -/
def Thread.mapPend (t : Thread) (f : Pend → Pend) (g : LdqEntry → LdqEntry) : Thread :=
  { t with
    pend := t.pend.map f, ldq := t.ldq.map g, values := t.values.map g
    suspended := t.suspended.map fun u => { u with pend := u.pend.map f, ldq := u.ldq.map g } }

/-- A pending operation added behind the others; it belongs to the suspended task where `toTask` says so. -/
def Thread.addPend (t : Thread) (q : Pend) : Thread := { t with pend := t.pend ++ [q] }

/-- `f` applied to every thread of a cluster whose task number is `uid`: in a slot, parked, or in flight (R163). -/
def Slot.mapThread (s : Slot) (uid : Nat) (f : Thread → Thread) : Slot :=
  match s.thread? with
  | some t => if t.uid = uid then s.withThread (f t) else s
  | none => s

/-- `f` applied to a thread of the cluster, wherever it stands there. -/
def Cluster.mapThread (k : Cluster) (uid : Nat) (f : Thread → Thread) : Cluster :=
  { k with
    cores := k.cores.each fun _ c => { c with slots := c.slots.each fun _ s => s.mapThread uid f }
    parked := k.parked.map fun q =>
      if q.thread.uid = uid then { q with thread := f q.thread, trail := q.trail.map fun x => (f x.1, x.2) } else q }

/-- `f` applied to a thread of the package, wherever it stands (slots, contexts, migration packets). -/
def Chip.mapThread (h : Chip) (uid : Nat) (f : Thread → Thread) : Chip :=
  { h with
    clusters := h.clusters.each fun _ k => k.mapThread uid f
    flights := h.flights.each fun _ g =>
      match g.body with
      | .migration d q => if q.thread.uid = uid then { g with body := .migration d { q with thread := f q.thread } } else g
      | _ => g }

/-- The places of a cluster's slots that are listed. -/
def Cluster.places (k : Cluster) (v : Nat) : List At :=
  k.cores.flatMap fun c => c.2.slots.map fun s => ⟨v, c.1, s.1⟩

/-- The slot that holds a task's thread, if any. -/
def Chip.placeOf (h : Chip) (uid : Nat) : Option At :=
  (h.clusters.flatMap fun k => k.2.places k.1).find? fun p =>
    match h.thread? p with
    | some t => t.uid == uid && (match h.slot p with | .trailing .. => false | _ => true)
    | none => false

/-- The thread of a task, wherever it stands. -/
def Chip.findThread (h : Chip) (uid : Nat) : Option Thread :=
  match h.placeOf uid with
  | some p => h.thread? p
  | none =>
    match (h.clusters.flatMap fun k => k.2.parked).find? fun q => q.thread.uid == uid with
    | some q => some q.thread
    | none =>
      h.flights.findSome? fun g =>
        match g.2.body with
        | .migration _ q => if q.thread.uid = uid then some q.thread else none
        | _ => none

/-- A fresh order number (log 9). -/
def Chip.tick (h : Chip) : Chip := { h with nextSeq := h.nextSeq + 1 }

/-- A value the spec leaves open (log 8). -/
def Chip.takeFree (h : Chip) : Word × Chip := (Config.freeValue h.free, { h with free := h.free + 1 })

/-! ## Parking a thread (R161) -/

/-- The claim of a pre-empted thread releases its lanes once its queue is empty, and asks for none until it resumes (R201); a
CLAIM that still waits re-issues on resume (R199). -/
def releaseLanes (uid : Nat) (cs : List Claim) : List Claim :=
  (cs.filter fun c => decide (c.uid ≠ uid) || !(c.waiting && decide (c.grant = 0))).map fun c =>
    if c.uid ≠ uid then c
    else if c.queue = [] then { c with grant := 0, awaits := false }
    else { c with awaits := decide (c.grant = 0) }

/-- The gang of a member that leaves the rotation becomes an orphan (R253). -/
def orphanGangs (t : Thread) (gs : List Gang) : List Gang :=
  gs.map fun g => if g.pid = t.pid ∧ t.quiet ∧
    (List.range 4).any (fun n => t.grps.getLsbD (32 + n) && decide (bits t.grps (8 * n) 8 = g.gid)) then { g with orphan := true } else g

/-- An entry in a core's inbound queue of 40, eight of them for the floor task and arrivals; where none is left for it, in
the overflow area (R140). -/
def Core.enter (k : Core) (e : Entry) (floor : Bool) : Core :=
  if k.queue.length < (if floor || e.arrival then 40 else 32) then { k with queue := k.queue ++ [e] }
  else { k with overflow := k.overflow ++ [e] }

/-- A task's entry stands in the queue or in its overflow area. -/
def Core.queued (k : Core) (uid : Nat) : Bool := (k.queue ++ k.overflow).any fun e => decide (e.uid = uid)

/-- A context queued as an arrival at core c of cluster v (R161, R164). -/
def Chip.arrive (h : Chip) (v c uid : Nat) : Chip :=
  (h.modCore v c fun k => k.enter { uid := uid, arrival := true, seq := h.nextSeq } false).tick

/-- The place of the trailing half of the pair whose leading half stands at `p` (R167). -/
def At.trail (p : At) : At := { p with t := p.t + 8 }

/-- The trailing half of the screened pair that leads at `p` (R167). -/
def Chip.pairAt (h : Chip) (p : At) : Option (Thread × Pair) :=
  if 8 ≤ p.t then none
  else
    match h.slot p.trail with
    | .trailing u q => some (u, q)
    | _ => none

/-- Entries of the context cache that a saved context takes: two for a pair (R176). -/
def Parked.entries (q : Parked) : Nat := if q.trail.isSome then 2 else 1

/-- Entries of a cluster's context cache in use (R161). -/
def cacheUse (ps : List Parked) : Nat := ((ps.filter (·.cached)).map Parked.entries).sum

/-- Slots freed: that of a thread, and with it the trailing half of its pair (R167). -/
def Chip.freeSlots (h : Chip) (p : At) : Chip :=
  if (h.pairAt p).isSome then (h.setSlot p .free).setSlot p.trail .free else h.setSlot p .free

/-- The thread at a place without its slot: a saved context that re-enters core c, with `queued` as an arrival there
(R161, R164). A pair leaves as one (R176). -/
def Chip.parkTo (h : Chip) (p : At) (c : Nat) (queued : Bool) : Chip :=
  match h.here? p with
  | none => h
  | some x =>
    let trail := (h.pairAt p).map fun u => (u.1, saveFile u.1 x.file, u.2)
    let q : Parked := { thread := x.th, regs := saveFile x.th x.file, core := c, seq := h.nextSeq, trail := trail }
    let q := { q with cached := decide (cacheUse (h.cluster p.v).parked + q.entries ≤ 64) }
    let h := (h.freeSlots p).modCluster p.v fun k =>
      { k with parked := k.parked ++ [q], claims := releaseLanes x.th.uid k.claims, gangs := orphanGangs x.th k.gangs }
    if queued then h.arrive p.v c x.th.uid else h.tick

/-- A pre-empted thread parked for its own core (R161). -/
def Chip.park (h : Chip) (p : At) (queued : Bool) : Chip := h.parkTo p p.c queued

/-! ## Records for the host (R323, R414, R417 to R419) -/

/-- A record handed to a ring in host memory (it is written when the ring has room and the window covers it). -/
def Chip.record (h : Chip) (ring : Nat) (bytes : List Byte) : Chip := { h with rings := h.rings ++ [{ ring := ring, bytes := bytes }] }

/-- An MSI-X vector raised (R418). -/
def Chip.raise (h : Chip) (n : Nat) : Chip := { h with msix := h.msix ++ [n] }

/-- A partition-error record (R419); its sequence number and time are set when it is built. -/
def Chip.partitionError (h : Chip) (kind pid v core code : Nat) (stamp addr : Word) : Chip :=
  let n := (h.regs.getOr 0x1498 0).toNat
  let bytes := natToBytes 8 n ++ natToBytes 1 kind ++ natToBytes 3 pid ++ natToBytes 2 v ++ natToBytes 1 core ++
    natToBytes 1 code ++ wordBytes 8 stamp ++ wordBytes 8 addr ++ natToBytes 8 h.now ++ natToBytes 24 0
  { h with regs := h.regs.put 0x1498 (BitVec.ofNat 64 (n + 1)) }.record 2 bytes

/-! ## Taking a trap (R119 to R126) -/

/-- The code of a trap (R126). -/
def Trap.code : Trap → Nat
  | .eill => 0x01 | .ereg => 0x02 | .ealign => 0x03 | .ewindow => 0x04 | .ebankmode => 0x05 | .epage => 0x06
  | .eperm => 0x07 | .equiet => 0x08 | .estamp => 0x09 | .egbpcfg => 0x0A | .edupstamp => 0x0B | .esingular => 0x0C
  | .edim => 0x0D | .elane => 0x0E | .eomem => 0x0F | .eacc => 0x10 | .egang => 0x11 | .edivz => 0x12
  | .escratchgone => 0x13 | .esuper => 0x14 | .etrap => 0x15 | .ebreak => 0x16 | .erep => 0x17 | .efmt => 0x18

/-- A trap as it is raised: its code and TVAL, the faulting instruction and the resume point, whether it was a replay
of a frame, and for a deferred-precise trap the operation (and whether it filled an LDQ entry) kept for TREPLAY (R119, R120). -/
structure Raised where
  trap : Trap
  tval : Word
  epc : Word
  cpc : Word
  frame : Bool := false
  saved : Option (Pend × Bool) := none
  deriving DecidableEq, Repr

/-- TCAUSE of a new trap (R125): CODE, DEF, FRAME; REPLAYED clear. -/
def Raised.cause (r : Raised) : BitVec 11 :=
  BitVec.ofNat 11 (r.trap.code + (if r.saved.isSome then 0x100 else 0) + (if r.frame then 0x400 else 0))

/-- The four trap registers of a new trap (R125). -/
def Raised.write (r : Raised) (x : TrapRegs) : TrapRegs :=
  { x with cause := r.cause, epc := r.epc, cpc := r.cpc, val := r.tval }

/-- A trap notice (R134). -/
def notice (slot : Nat) (nest held deff : Bool) (code : Nat) : Word :=
  BitVec.ofNat 64 (2 ^ 63 + (if nest then 2 ^ 18 else 0) + (if held then 2 ^ 17 else 0) + (if deff then 2 ^ 16 else 0) +
    code % 256 * 256 + slot)

/-- A notice put into the core's queue of 16 (R134). -/
def Chip.notify (h : Chip) (p : At) (n : Word) : Chip :=
  h.modCore p.v p.c fun k => { k with notices := (k.notices ++ [n]).take 16 }

/-- The pending operation that a trap reports is no longer pending (R121). -/
def dropSaved (r : Raised) (ps : List Pend) : List Pend :=
  match r.saved with
  | some (q, false) => ps.filter fun x => decide (x.op.seq ≠ q.op.seq)
  | _ => ps

/-- Delivery into the thread (R123): the task is set aside and the handler starts at TVEC in supervisor mode. -/
def Thread.deliver (t : Thread) (r : Raised) : Thread :=
  { t with
    sup := true, pc := t.traps.vec, traps := r.write t.traps, saved := r.saved
    suspended := some { ldq := t.ldq, sdq := t.sdq, pend := dropSaved r t.pend, frame := t.frame, draw := t.counters.draw }
    ldq := [], sdq := [], pend := [], frame := none, counters := { t.counters with draw := 0 } }

/-- The thread at a place halted: a debug STEP is over (R135), and the gang it is a member of becomes an orphan (R253). -/
def Chip.haltAt (h : Chip) (p : At) (t : Thread) : Chip :=
  (h.setSlot p (.halted { t with stepOnce := false })).modCluster p.v fun k => { k with gangs := orphanGangs t k.gangs }

/-- A trap of the thread at `p`, delivered in the order of R122: the debug port, held, into the thread, or a halt
with a notice; in supervisor mode every trap, EBREAK too, is a nested trap (R124). `held`: it is delivered after being
held. -/
def Chip.takeTrap (h : Chip) (p : At) (r : Raised) (held : Bool := false) : Chip :=
  match h.thread? p with
  | none => h
  | some t =>
    let t := { t with rejected := [], trapped := some (r.trap.code, r.tval) }
    -- the thread once the trap is reported: its operation is no longer pending (R121)
    let told := { t with pend := dropSaved r t.pend }
    if p.t = 0 then
      -- a nested trap of slot 0 halts the core's dispatch (R124); it has no first trap to keep (log 12)
      let h := h.setSlot p (.halted { told with traps := r.write t.traps })
      let h := h.modCore p.v p.c fun k => { k with stopped := true }
      let h := h.notify p (notice 0 true false r.saved.isSome r.trap.code)
      (h.partitionError 2 ((h.cluster p.v).pid.getD 0) p.v p.c r.trap.code 0 0).raise 5
    else if t.sup then
      (h.haltAt p told).notify p (notice p.t true false r.saved.isSome r.trap.code)
    else if r.trap = .ebreak then
      h.haltAt p { t with traps := r.write t.traps, pc := r.cpc }
    else if t.speculative && !h.floorStamp t.pid t.stamp then
      -- held until the task is the floor task (R122); a debug STEP is over (R135)
      (h.setThread p { told with held := some (r.cause, r.epc, r.cpc, r.tval), saved := r.saved, stepOnce := false }).park p false
    else if t.traps.vec ≠ 0 then
      h.setThread p (t.deliver r)
    else
      -- RESUME goes on without the operation that the trap reported (log 66)
      (h.haltAt p { told with traps := r.write t.traps, pc := r.cpc }).notify p (notice p.t false held r.saved.isSome r.trap.code)

/-- The suspended task restored, SUP cleared, and the pc at TCPC (R129). -/
def Thread.restoreTask (t : Thread) (u : Suspended) : Thread :=
  { t with
    sup := false, pc := t.traps.cpc, ldq := u.ldq, sdq := u.sdq, pend := u.pend, frame := u.frame, suspended := none, saved := none
    counters := { t.counters with draw := u.draw } }

/-! ## How an instruction can end -/

/-- Why an instruction does not complete at this turn. -/
inductive Stop where
  /-- a precise trap (R119) -/
  | trap (t : Trap) (tval : Word)
  /-- the thread gives up its turn (R8, R45) -/
  | stall
  /-- a fault of an earlier operation is reported here (R120); `ldq` says that it fills an LDQ entry -/
  | deferred (q : Pend) (ldq : Bool)
  deriving DecidableEq, Repr

end Sys2Proof.Machine
end

