-- ==== Sys2Proof/Machine/Operands.lean ====
section
/-! DEFINITION. Register operands and the queues (R17 to R21, R42 to R44), lookahead and consumption points (R45 to
R47, R120, R121), repeat frames' positions (R51), and the issue of one instruction (R36, R136). -/

namespace Sys2Proof.Machine

/-! ## What kind of consumption point a word is -/

/-- The major opcode (R33). -/
def major (w : Half) : Nat := (fld w 26 6).toNat

/-- The consumption points a word is (R47, R120, R213, R239). -/
structure Points where
  /-- closes every window: REP and the THR, SYS, GRP and TW majors (R47) -/
  closes : Bool := false
  /-- closes every open window without being an instruction of R47: a migrating access (R193) -/
  windows : Bool := false
  /-- a load, store or AMO (R120) -/
  memory : Bool := false
  /-- a point of R213 for vector memory commands -/
  vector : Bool := false
  /-- a point of R239 for OLD, ARD and AWR -/
  omem : Bool := false
  /-- EWAIT of this token: a point for the engine commands up to it, 0 for all of them (R268) -/
  engine : Option Nat := none
  deriving DecidableEq, Repr

/-- The majors of R47. -/
def closesWindows (m : Nat) : Bool := [0x20, 0x21, 0x22, 0x23, 0x24].contains m

/-- The consumption points of an assigned word. -/
def pointsOf (w : Half) : Points :=
  let m := major w
  let c := closesWindows m
  let mem := decide (0x0C ≤ m ∧ m ≤ 0x17)
  { closes := c, memory := mem || c
    vector := mem || c || [0x26, 0x2A, 0x2C, 0x2E].contains m
    omem := c || [0x30, 0x31].contains m }

/-! ## Register fields (R18 to R20, R44) -/

/-- How an instruction uses a register field. -/
inductive Use where
  /-- source operand -/
  | src (r : BitVec 7)
  /-- destination of an instruction that is no load or returning AMO -/
  | dst (r : BitVec 7)
  /-- destination of a load or returning AMO: lq allowed, sq not -/
  | loadDst (r : BitVec 7)
  /-- data register of a store: sq allowed -/
  | data (r : BitVec 7)
  /-- read and written (R55, R147, R351): neither lq nor sq -/
  | both (r : BitVec 7)
  /-- read and written, and not g0 (R350) -/
  | bothOwned (r : BitVec 7)
  /-- destination of a VS instruction: a full SDQ is found later (R227) -/
  | vsDst (r : BitVec 7)
  /-- the control pair of R258 -/
  | ctrl (r : BitVec 7)
  /-- the scalar pair of R44 -/
  | pair (p : BitVec 5)
  deriving DecidableEq, Repr

/-- A field that names a general register of the allocation, or g0 (R18). -/
def owned (t : Thread) (r : BitVec 7) : Bool := decide (r.toNat = 0 ∨ (r.toNat < t.regLim ∧ r.toNat < 120))

/-- The first field that fails R18 to R20, R44 or R258, as its TVAL: fields in the order given; `pops` LDQ entries
are taken by the fields before. In a handler lq and sq raise EREG (R123). -/
def checkUses (t : Thread) : List Use → (pops : Nat) → Option Word
  | [], _ => none
  | .src r :: us, n =>
    if r.toNat = 120 ∧ t.suspended = none ∧ n < t.ldq.length then checkUses t us (n + 1)
    else if owned t r then checkUses t us n else some (r.zeroExtend 64)
  | .dst r :: us, n =>
    if r.toNat = 121 ∧ t.suspended = none ∧ t.sdq.length < 16 then checkUses t us n
    else if owned t r then checkUses t us n else some (r.zeroExtend 64)
  | .loadDst r :: us, n =>
    if r.toNat = 120 ∧ t.suspended = none ∧ t.ldq.length < 16 then checkUses t us n
    else if owned t r then checkUses t us n else some (r.zeroExtend 64)
  | .data r :: us, n =>
    if r.toNat = 120 ∧ t.suspended = none ∧ n < t.ldq.length then checkUses t us (n + 1)
    else if r.toNat = 121 ∧ t.suspended = none ∧ t.sdq ≠ [] then checkUses t us n
    else if owned t r then checkUses t us n else some (r.zeroExtend 64)
  | .both r :: us, n => if owned t r then checkUses t us n else some (r.zeroExtend 64)
  | .bothOwned r :: us, n =>
    if r.toNat ≠ 0 ∧ owned t r then checkUses t us n else some (r.zeroExtend 64)
  | .vsDst r :: us, n =>
    if r.toNat = 121 ∧ t.suspended = none then checkUses t us n
    else if owned t r then checkUses t us n else some (r.zeroExtend 64)
  | .ctrl r :: us, n =>
    if 1 ≤ r.toNat ∧ r.toNat ≤ 118 ∧ r.toNat + 1 < t.regLim then checkUses t us n else some (r.zeroExtend 64)
  | .pair p :: us, n =>
    if p.toNat = 0 ∨ 2 * p.toNat + 1 < t.regLim then checkUses t us n
    else some (BitVec.ofNat 64 (if t.regLim ≤ 2 * p.toNat then 2 * p.toNat else 2 * p.toNat + 1))

/-- An LDQ entry as the operation that its pop reports (R21). -/
def LdqEntry.pend (e : LdqEntry) : Pend := ⟨e.op, .next, .none, e.arrival⟩

/-- The value of a source field: lq pops the oldest LDQ entry, waiting for it or reporting its fault (R19, R21). -/
def Here.read (x : Here) (r : BitVec 7) : Except Stop (Word × Here) :=
  if r.toNat = 120 then
    match x.th.ldq with
    | [] => .error (.trap .ereg 120)
    | e :: es =>
      match e.arrival with
      | .landed (.value v _) => .ok (v, { x with th := { x.th with ldq := es } })
      | .landed (.fault _ _) => .error (.deferred e.pend true)
      | _ => .error .stall
  else .ok (readGpr x.th x.file r.toNat, x)

/-- A store's data field: sq pops the oldest SDQ entry (R20). -/
def Here.readData (x : Here) (r : BitVec 7) : Except Stop (Word × Here) :=
  if r.toNat = 121 then
    match x.th.sdq with
    | [] => .error (.trap .ereg 121)
    | v :: vs => .ok (v, { x with th := { x.th with sdq := vs } })
  else x.read r

/-- A destination field written: sq pushes; g0 discards (R17, R20). -/
def Here.write (x : Here) (r : BitVec 7) (v : Word) : Here :=
  if r.toNat = 121 then { x with th := { x.th with sdq := x.th.sdq ++ [v] } }
  else { x with file := writeGpr x.th x.file r.toNat v }

/-- The mask and the scalar operand that gp names (R42). -/
def Here.pair (x : Here) (p : BitVec 5) : Word × Word :=
  if p = 0 then (BitVec.allOnes 64, 0)
  else (readGpr x.th x.file (2 * p.toNat), readGpr x.th x.file (2 * p.toNat + 1))

/-- Flags ORed into FFLAGS (R8). -/
def Here.flag (x : Here) (f : BitVec 5) : Here := { x with th := { x.th with fflags := x.th.fflags ||| f } }

/-! ## Consumption points (R45 to R47, R120, R121) -/

/-- A pending operation is due at an instruction of these points. -/
def Pend.due? (q : Pend) (c : Points) : Bool :=
  match q.due with
  | .window k => decide (k = 0) || c.closes || c.windows
  | .next => true
  | .memory => c.memory
  | .vector => c.vector
  | .omem => c.omem
  | .engine k => c.closes || (match c.engine with | some n => decide (n = 0 ∨ k ≤ n) | none => false)

/-- The operation's result has arrived. -/
def Pend.arrived (q : Pend) : Bool :=
  match q.arrival with
  | .landed _ => true
  | _ => false

/-- The operation's result has arrived and is a fault. -/
def Pend.faulted (q : Pend) : Bool :=
  match q.arrival with
  | .landed (.fault _ _) => true
  | _ => false

/-- The operation's result has arrived and is a value. -/
def Pend.valued (q : Pend) : Bool := q.arrived && !q.faulted

/-- The result of a due operation written to its destination (R46). -/
def Here.land (x : Here) (q : Pend) : Here :=
  match q.arrival, q.dest with
  | .landed (.value v f), .reg r => (x.flag f).write r v
  | .landed (.value _ f), .none => x.flag f
  | _, _ => x

/-- A VS result bound for sq that finds the SDQ full raises EREG at its consumption point (R227). -/
def sdqFull (x : Here) (q : Pend) : Bool :=
  match q.arrival, q.dest with
  | .landed (.value _ _), .reg r => decide (r.toNat = 121 ∧ 16 ≤ x.th.sdq.length)
  | _, _ => false

/-- A consumption point part of the way through its due operations: the thread so far, the operations that stay pending,
and the oldest fault. -/
structure Landing where
  here : Here
  kept : List Pend := []
  fault : Option Pend := none
  deriving DecidableEq, Repr

/-- A fault stays pending. -/
def Landing.keep (l : Landing) (q : Pend) : Landing := { l with kept := l.kept ++ [q], fault := l.fault.or (some q) }

/-- The next due operation in program order. A fault stays pending; a result is written, but behind a fault with the
same destination it waits, since the older operation's result goes there first (R46). -/
def Landing.next (l : Landing) (q : Pend) : Landing :=
  if q.faulted then l.keep q
  else if l.kept.any (fun k => decide (k.dest = q.dest ∧ q.dest ≠ .none)) then { l with kept := l.kept ++ [q] }
  else if sdqFull l.here q then l.keep { q with arrival := .landed (.fault .ereg 121) }
  else { l with here := l.here.land q }

/-- The thread at a consumption point: it waits for every due operation; the due results are written in program order,
and the oldest fault is reported, with the thread as it then stands: everything between the faulted operation and this
point has had its effect (R45, R46, R120, R121). -/
def Here.consume (x : Here) (c : Points) : Except (Here × Stop) Here :=
  let due := sortBy (fun (a b : Pend) => decide (a.op.seq ≤ b.op.seq)) (x.th.pend.filter (·.due? c))
  if due.any (fun q => !q.arrived) then .error (x, .stall)
  else
    let l := due.foldl Landing.next { here := { x with th := { x.th with pend := x.th.pend.filter fun q => !q.due? c } } }
    match l.fault with
    | some q => .error ({ l.here with th := { l.here.th with pend := l.kept ++ l.here.th.pend } }, .deferred q false)
    | none => .ok l.here

/-- The thread as the operations due at such an instruction leave it: what the instruction's operand fields name. -/
def Here.landed (x : Here) (c : Points) : Here :=
  match x.consume c with
  | .ok y => y
  | .error (y, _) => y

/-! ## The position of the next instruction (R51) -/

/-- Captured length and replay count of a REP word (R35). -/
def repLen (w : Half) : Nat := (fld w 4 4).toNat + 1
def repCount (w : Half) : Nat := (fld w 20 6).toNat + 1

/-- The address of position j of a frame. -/
def Frame.at (f : Frame) (j : Nat) : Word := f.base + 4 + BitVec.ofNat 64 (4 * j)

/-- An open window with one issue fewer (R45). -/
def Pend.tick (q : Pend) : Pend :=
  match q.due with
  | .window (k + 1) => { q with due := .window k }
  | _ => q

/-- The thread past the instruction at its pc: one word on, or one position on in its frame (R48, R51); open windows
have one issue fewer (R45), and it has issued one instruction more. -/
def Thread.past (t : Thread) : Thread :=
  let t := { t with pend := t.pend.map Pend.tick, issued := t.issued + 1 }
  match t.frame with
  | none => { t with pc := t.pc + 4 }
  | some f =>
    if f.j + 1 < repLen f.word then { t with frame := some { f with j := f.j + 1 }, pc := f.at (f.j + 1) }
    else if f.i + 1 < repCount f.word then { t with frame := some { f with i := f.i + 1, j := 0 }, pc := f.at 0 }
    else { t with frame := none, pc := f.at (repLen f.word) }

/-! ## The issue of one instruction (R36, R119, R136) -/

/-- The place whose turn it is: the slot of the core in focus (R136). -/
def State.place (s : State) : At := ⟨s.focusV, s.focusC, (s.chip.core s.focusV s.focusC).turn⟩

/-- The thread stands within a replay of a frame, past its first word. -/
def Thread.midReplay (t : Thread) : Bool := match t.frame with | some f => decide (f.j ≠ 0) | none => false

/-- A debug STEP ends after one issue, or in a frame after one replay: the thread halts again, unless it waits within its
instruction (R135). -/
def Chip.endStep (h : Chip) (p : At) : Chip :=
  match h.slot p with
  | .live t =>
    if t.stepOnce ∧ !t.midReplay ∧ t.wait = .none ∧ !h.walks.any (fun w => w.threads.contains t.uid) then
      h.setSlot p (.halted { t with stepOnce := false })
    else h
  | _ => h

/-- What an instruction is, for its issue: its word, the points it is, whether it is supervisor-only (check 3), and its
register fields in the order of check 4. -/
structure Form where
  word : Half
  points : Points
  superOnly : Bool := false
  uses : List Use := []
  deriving DecidableEq, Repr

/-- The form of an assigned word. -/
def form (w : Half) (uses : List Use := []) (superOnly : Bool := false) : Form :=
  { word := w, points := pointsOf w, superOnly := superOnly, uses := uses }

/-- The word zero-extended: TVAL of EILL and ESUPER (R126). -/
def tvalWord (w : Half) : Word := w.zeroExtend 64

/-- The trap an instruction raises at the thread `t`: precise, or deferred with the operation it reports (R119, R120). -/
def raisedBy (t : Thread) (trap : Trap) (tval : Word) : Raised :=
  { trap := trap, tval := tval, epc := t.pc, cpc := if trap = .etrap ∨ trap = .ebreak then t.pc + 4 else t.pc
    frame := t.frame.isSome }

/-- The report of a deferred fault at the consumption point where `t` stands (R120). FRAME is that of the faulting operation (log 65). -/
def reportOf (t : Thread) (q : Pend) (ldq : Bool) : Raised :=
  match q.arrival with
  | .landed (.fault c v) => { trap := c, tval := v, epc := q.op.pc, cpc := t.pc, frame := q.op.frame, saved := some (q, ldq) }
  | _ => { trap := .eill, tval := 0, epc := q.op.pc, cpc := t.pc, frame := q.op.frame, saved := some (q, ldq) }

/-- The chip after an instruction stopped: a trap is taken, a stall changes nothing. -/
def Chip.stopped (h : Chip) (p : At) (t : Thread) : Stop → Chip
  | .stall => h
  | .trap c v => (h.takeTrap p (raisedBy t c v)).endStep p
  | .deferred q l => (h.takeTrap p (reportOf t q l)).endStep p

/-- The LDQ entries that an instruction of these fields pops (R19). -/
def Thread.pops (t : Thread) (us : List Use) : List LdqEntry :=
  t.ldq.take (us.countP fun u => decide (u = .src 120 ∨ u = .data 120))

/-- A fault about to be reported, or the older operation that the instruction would find first: an LDQ entry that it
pops shares its consumption point, and the oldest in program order is reported (R21, R121). -/
def Here.oldest (x : Here) (f : Form) : Stop → Stop
  | .deferred q false =>
    if (f.superOnly && !x.th.sup) || (checkUses x.th f.uses 0).isSome then .deferred q false
    else
      match (x.th.pops f.uses).find? fun e => decide (e.op.seq < q.op.seq) && !e.pend.valued with
      | some e => if e.pend.faulted then .deferred e.pend true else .stall
      | none => .deferred q false
  | e => e

/-- What the checks before an instruction's own effect give: the thread with due results landed, or why it stops. The
thread that a trap is taken from is the landed one where landing took place. -/
def Here.ready (x : Here) (f : Form) : Except (Here × Stop) Here :=
  match x.consume f.points with
  | .error (y, e) => .error (y, y.oldest f e)
  | .ok y =>
    if f.superOnly && !y.th.sup then .error (y, .trap .esuper (tvalWord f.word))
    else
      match checkUses y.th f.uses 0 with
      | some v => .error (y, .trap .ereg v)
      | none => .ok y

/-- An instruction whose effect lies within the thread and its registers: after the checks, the body acts on the
thread already moved past the instruction; `self` is the thread at the instruction. -/
def issueHere (f : Form) (s : State) (body : (self : Thread) → Here → Except Stop Here) :
    Host.Outcome State Fault Refusal :=
  let p := s.place
  match s.chip.slot p, s.chip.here? p with
  | .live _, some x =>
    match x.ready f with
    | .error (_, .stall) => .next s
    | .error (y, e) => .next { s with chip := (s.chip.putHere p y).stopped p y.th e }
    | .ok y =>
      match body y.th { y with th := y.th.past } with
      | .ok z => .next { s with chip := (s.chip.putHere p z).endStep p }
      | .error .stall => .next s
      | .error e => .next { s with chip := (s.chip.putHere p y).stopped p y.th e }
  | _, _ => .next s

/-- An instruction whose effect reaches the chip: the body acts on the chip in which the thread stands past the
instruction. -/
def issueChip (f : Form) (s : State) (body : (self : Thread) → At → Chip → Except Stop Chip) :
    Host.Outcome State Fault Refusal :=
  let p := s.place
  match s.chip.slot p, s.chip.here? p with
  | .live _, some x =>
    match x.ready f with
    | .error (_, .stall) => .next s
    | .error (y, e) => .next { s with chip := (s.chip.putHere p y).stopped p y.th e }
    | .ok y =>
      match body y.th p (s.chip.putHere p { y with th := y.th.past }) with
      | .ok h => .next { s with chip := h.endStep p }
      | .error .stall => .next s
      | .error e => .next { s with chip := (s.chip.putHere p y).stopped p y.th e }
  | _, _ => .next s

/-- The chip with a scalar result in register field d of the thread at `p`. -/
def Chip.writeDst (h : Chip) (p : At) (d : BitVec 7) (v : Word) : Chip :=
  match h.here? p with
  | some x => h.putHere p (x.write d v)
  | none => h

end Sys2Proof.Machine
end

