-- ==== Sys2Proof/Machine/Alu.lean ====
section
/-! DEFINITION. The integer families ALU, BIT, the immediate forms, SHI, LUI and AUIPC (R55 to R61). -/

namespace Sys2Proof.Machine

/-! ## Values -/

/-- 1 for true, 0 for false. -/
def flagWord (b : Bool) : Word := if b then 1 else 0

/-- SRA (R57): floor of the signed value by 2^s. -/
def sraWord (x : Word) (n : Nat) : Word := BitVec.ofInt 64 (x.toInt / 2 ^ n)

/-- ROL (R57). -/
def rolWord (x : Word) (n : Nat) : Word := (x <<< n) ||| (x >>> (64 - n))

/-- ROR (R57). -/
def rorWord (x : Word) (n : Nat) : Word := (x >>> n) ||| (x <<< (64 - n))

/-- MULH (R57). -/
def mulhWord (x y : Word) : Word := BitVec.ofInt 64 (x.toInt * y.toInt / 2 ^ 64)

/-- MULHU (R57). -/
def mulhuWord (x y : Word) : Word := BitVec.ofNat 64 (x.toNat * y.toNat / 2 ^ 64)

/-- The number of zero bits above the highest set bit among the low `n` bits (R58). -/
def clzFrom (x : Word) : Nat → Nat
  | 0 => 0
  | n + 1 => if x.getLsbD n then 0 else clzFrom x n + 1

/-- The number of zero bits below the lowest set bit, counted from bit `64 - n` (R58). -/
def ctzFrom (x : Word) : Nat → Nat
  | 0 => 0
  | n + 1 => if x.getLsbD (63 - n) then 0 else ctzFrom x n + 1

/-- The number of set bits among the low `n` bits (R58). -/
def popcFrom (x : Word) : Nat → Nat
  | 0 => 0
  | n + 1 => (if x.getLsbD n then 1 else 0) + popcFrom x n

/-- Bit i of the result is bit 63 - i (R58). -/
def brevWord (x : Word) : Word := x.reverse

/-! ## Shapes -/

/-- g(d) := f x y (R55, R57). -/
def aluForm (w : Half) (d a b : BitVec 7) (f : Word → Word → Word) (s : State) : Host.Outcome State Fault Refusal :=
  issueHere (form w [.dst d, .src a, .src b]) s fun _ h => do
    let (x, h) ← h.read a
    let (y, h) ← h.read b
    .ok (h.write d (f x y))

/-- g(d) := f x (R58 to R60). -/
def unaryForm (w : Half) (d a : BitVec 7) (f : Word → Word) (s : State) : Host.Outcome State Fault Refusal :=
  issueHere (form w [.dst d, .src a]) s fun _ h => do
    let (x, h) ← h.read a
    .ok (h.write d (f x))

/-! ## The instructions -/

/-- ADD (R57). -/
def execAdd (d : BitVec 7) (a : BitVec 7) (b : BitVec 7) (s : State) : Host.Outcome State Fault Refusal :=
  aluForm (wordR 1#6 d a b 0#5) d a b (fun x y => x + y) s

/-- SUB (R57). -/
def execSub (d : BitVec 7) (a : BitVec 7) (b : BitVec 7) (s : State) : Host.Outcome State Fault Refusal :=
  aluForm (wordR 1#6 d a b 1#5) d a b (fun x y => x - y) s

/-- AND (R57). -/
def execAnd (d : BitVec 7) (a : BitVec 7) (b : BitVec 7) (s : State) : Host.Outcome State Fault Refusal :=
  aluForm (wordR 1#6 d a b 2#5) d a b (fun x y => x &&& y) s

/-- OR (R57). -/
def execOr (d : BitVec 7) (a : BitVec 7) (b : BitVec 7) (s : State) : Host.Outcome State Fault Refusal :=
  aluForm (wordR 1#6 d a b 3#5) d a b (fun x y => x ||| y) s

/-- XOR (R57). -/
def execXor (d : BitVec 7) (a : BitVec 7) (b : BitVec 7) (s : State) : Host.Outcome State Fault Refusal :=
  aluForm (wordR 1#6 d a b 4#5) d a b (fun x y => x ^^^ y) s

/-- ANDN (R57). -/
def execAndn (d : BitVec 7) (a : BitVec 7) (b : BitVec 7) (s : State) : Host.Outcome State Fault Refusal :=
  aluForm (wordR 1#6 d a b 5#5) d a b (fun x y => x &&& ~~~y) s

/-- SLL (R57). -/
def execSll (d : BitVec 7) (a : BitVec 7) (b : BitVec 7) (s : State) : Host.Outcome State Fault Refusal :=
  aluForm (wordR 1#6 d a b 6#5) d a b (fun x y => x <<< bits y 0 6) s

/-- SRL (R57). -/
def execSrl (d : BitVec 7) (a : BitVec 7) (b : BitVec 7) (s : State) : Host.Outcome State Fault Refusal :=
  aluForm (wordR 1#6 d a b 7#5) d a b (fun x y => x >>> bits y 0 6) s

/-- SRA (R57). -/
def execSra (d : BitVec 7) (a : BitVec 7) (b : BitVec 7) (s : State) : Host.Outcome State Fault Refusal :=
  aluForm (wordR 1#6 d a b 8#5) d a b (fun x y => sraWord x (bits y 0 6)) s

/-- ROL (R57). -/
def execRol (d : BitVec 7) (a : BitVec 7) (b : BitVec 7) (s : State) : Host.Outcome State Fault Refusal :=
  aluForm (wordR 1#6 d a b 9#5) d a b (fun x y => rolWord x (bits y 0 6)) s

/-- ROR (R57). -/
def execRor (d : BitVec 7) (a : BitVec 7) (b : BitVec 7) (s : State) : Host.Outcome State Fault Refusal :=
  aluForm (wordR 1#6 d a b 10#5) d a b (fun x y => rorWord x (bits y 0 6)) s

/-- SLT (R57). -/
def execSlt (d : BitVec 7) (a : BitVec 7) (b : BitVec 7) (s : State) : Host.Outcome State Fault Refusal :=
  aluForm (wordR 1#6 d a b 11#5) d a b (fun x y => flagWord (x.slt y)) s

/-- SLTU (R57). -/
def execSltu (d : BitVec 7) (a : BitVec 7) (b : BitVec 7) (s : State) : Host.Outcome State Fault Refusal :=
  aluForm (wordR 1#6 d a b 12#5) d a b (fun x y => flagWord (x.ult y)) s

/-- MIN (R57). -/
def execMin (d : BitVec 7) (a : BitVec 7) (b : BitVec 7) (s : State) : Host.Outcome State Fault Refusal :=
  aluForm (wordR 1#6 d a b 13#5) d a b (fun x y => if x.sle y then x else y) s

/-- MAX (R57). -/
def execMax (d : BitVec 7) (a : BitVec 7) (b : BitVec 7) (s : State) : Host.Outcome State Fault Refusal :=
  aluForm (wordR 1#6 d a b 14#5) d a b (fun x y => if y.sle x then x else y) s

/-- MINU (R57). -/
def execMinu (d : BitVec 7) (a : BitVec 7) (b : BitVec 7) (s : State) : Host.Outcome State Fault Refusal :=
  aluForm (wordR 1#6 d a b 15#5) d a b (fun x y => if x.ule y then x else y) s

/-- MAXU (R57). -/
def execMaxu (d : BitVec 7) (a : BitVec 7) (b : BitVec 7) (s : State) : Host.Outcome State Fault Refusal :=
  aluForm (wordR 1#6 d a b 16#5) d a b (fun x y => if y.ule x then x else y) s

/-- MUL (R57). -/
def execMul (d : BitVec 7) (a : BitVec 7) (b : BitVec 7) (s : State) : Host.Outcome State Fault Refusal :=
  aluForm (wordR 1#6 d a b 17#5) d a b (fun x y => x * y) s

/-- MULH (R57). -/
def execMulh (d : BitVec 7) (a : BitVec 7) (b : BitVec 7) (s : State) : Host.Outcome State Fault Refusal :=
  aluForm (wordR 1#6 d a b 18#5) d a b (fun x y => mulhWord x y) s

/-- MULHU (R57). -/
def execMulhu (d : BitVec 7) (a : BitVec 7) (b : BitVec 7) (s : State) : Host.Outcome State Fault Refusal :=
  aluForm (wordR 1#6 d a b 19#5) d a b (fun x y => mulhuWord x y) s

/-- CLZ (R58). -/
def execClz (d : BitVec 7) (a : BitVec 7) (s : State) : Host.Outcome State Fault Refusal :=
  unaryForm (wordR 2#6 d a 0#7 0#5) d a (fun x => BitVec.ofNat 64 (clzFrom x 64)) s

/-- CTZ (R58). -/
def execCtz (d : BitVec 7) (a : BitVec 7) (s : State) : Host.Outcome State Fault Refusal :=
  unaryForm (wordR 2#6 d a 0#7 1#5) d a (fun x => BitVec.ofNat 64 (ctzFrom x 64)) s

/-- POPC (R58). -/
def execPopc (d : BitVec 7) (a : BitVec 7) (s : State) : Host.Outcome State Fault Refusal :=
  unaryForm (wordR 2#6 d a 0#7 2#5) d a (fun x => BitVec.ofNat 64 (popcFrom x 64)) s

/-- BREV (R58). -/
def execBrev (d : BitVec 7) (a : BitVec 7) (s : State) : Host.Outcome State Fault Refusal :=
  unaryForm (wordR 2#6 d a 0#7 3#5) d a (fun x => brevWord x) s

/-- SEXT.B (R58). -/
def execSextB (d : BitVec 7) (a : BitVec 7) (s : State) : Host.Outcome State Fault Refusal :=
  unaryForm (wordR 2#6 d a 0#7 4#5) d a (fun x => (fld x 0 8).signExtend 64) s

/-- SEXT.H (R58). -/
def execSextH (d : BitVec 7) (a : BitVec 7) (s : State) : Host.Outcome State Fault Refusal :=
  unaryForm (wordR 2#6 d a 0#7 5#5) d a (fun x => (fld x 0 16).signExtend 64) s

/-- SEXT.W (R58). -/
def execSextW (d : BitVec 7) (a : BitVec 7) (s : State) : Host.Outcome State Fault Refusal :=
  unaryForm (wordR 2#6 d a 0#7 6#5) d a (fun x => (fld x 0 32).signExtend 64) s

/-- ZEXT.W (R58). -/
def execZextW (d : BitVec 7) (a : BitVec 7) (s : State) : Host.Outcome State Fault Refusal :=
  unaryForm (wordR 2#6 d a 0#7 7#5) d a (fun x => (fld x 0 32).zeroExtend 64) s

/-- ADDI (R59). -/
def execAddi (d : BitVec 7) (a : BitVec 7) (imm : BitVec 12) (s : State) : Host.Outcome State Fault Refusal :=
  unaryForm (wordI 3#6 d a imm) d a (fun x => x + imm.signExtend 64) s

/-- ANDI (R59). -/
def execAndi (d : BitVec 7) (a : BitVec 7) (imm : BitVec 12) (s : State) : Host.Outcome State Fault Refusal :=
  unaryForm (wordI 4#6 d a imm) d a (fun x => x &&& imm.signExtend 64) s

/-- ORI (R59). -/
def execOri (d : BitVec 7) (a : BitVec 7) (imm : BitVec 12) (s : State) : Host.Outcome State Fault Refusal :=
  unaryForm (wordI 5#6 d a imm) d a (fun x => x ||| imm.signExtend 64) s

/-- XORI (R59). -/
def execXori (d : BitVec 7) (a : BitVec 7) (imm : BitVec 12) (s : State) : Host.Outcome State Fault Refusal :=
  unaryForm (wordI 6#6 d a imm) d a (fun x => x ^^^ imm.signExtend 64) s

/-- SLTI (R59). -/
def execSlti (d : BitVec 7) (a : BitVec 7) (imm : BitVec 12) (s : State) : Host.Outcome State Fault Refusal :=
  unaryForm (wordI 7#6 d a imm) d a (fun x => flagWord (x.slt (imm.signExtend 64))) s

/-- SLTIU (R59). -/
def execSltiu (d : BitVec 7) (a : BitVec 7) (imm : BitVec 12) (s : State) : Host.Outcome State Fault Refusal :=
  unaryForm (wordI 8#6 d a imm) d a (fun x => flagWord (x.ult (imm.signExtend 64))) s

/-- SLLI (R60). -/
def execSlli (d : BitVec 7) (a : BitVec 7) (sh : BitVec 6) (s : State) : Host.Outcome State Fault Refusal :=
  unaryForm (wordI 9#6 d a (0#6 ++ sh)) d a (fun x => x <<< sh.toNat) s

/-- SRLI (R60). -/
def execSrli (d : BitVec 7) (a : BitVec 7) (sh : BitVec 6) (s : State) : Host.Outcome State Fault Refusal :=
  unaryForm (wordI 9#6 d a (1#6 ++ sh)) d a (fun x => x >>> sh.toNat) s

/-- SRAI (R60). -/
def execSrai (d : BitVec 7) (a : BitVec 7) (sh : BitVec 6) (s : State) : Host.Outcome State Fault Refusal :=
  unaryForm (wordI 9#6 d a (2#6 ++ sh)) d a (fun x => sraWord x sh.toNat) s

/-- RORI (R60). -/
def execRori (d : BitVec 7) (a : BitVec 7) (sh : BitVec 6) (s : State) : Host.Outcome State Fault Refusal :=
  unaryForm (wordI 9#6 d a (3#6 ++ sh)) d a (fun x => rorWord x sh.toNat) s

/-- LUI (R61). -/
def execLui (d : BitVec 7) (imm : BitVec 19) (s : State) : Host.Outcome State Fault Refusal :=
  issueHere (form (wordU 10#6 d imm) [.dst d]) s fun _ h => .ok (h.write d (imm.signExtend 64 * 4096))

/-- AUIPC (R61): from the address of the AUIPC itself. -/
def execAuipc (d : BitVec 7) (imm : BitVec 19) (s : State) : Host.Outcome State Fault Refusal :=
  issueHere (form (wordU 11#6 d imm) [.dst d]) s fun self h => .ok (h.write d (self.pc + imm.signExtend 64 * 4096))

end Sys2Proof.Machine
end

