-- ==== Sys2Proof/Machine/Number.lean ====
section
/-! DEFINITION. Number formats, rounding and exact sums (05: R87 to R99, R101 to R104). A finite value is held exactly
as sign, magnitude and binary exponent; rounding happens once, at the end. Patterns are natural numbers. -/

namespace Sys2Proof.Machine

/-- A decoded value (R8): NaN, an infinity, or (-1)^neg · m · 2^e. -/
inductive Num where
  | nan (signalling : Bool)
  | inf (neg : Bool)
  | fin (neg : Bool) (m : Nat) (e : Int)
  deriving DecidableEq, Repr

/-- A floating-point layout (R87). `ieee` is false for E4M3, which has no infinity and one NaN magnitude. -/
structure Fmt where
  ebits : Nat
  p : Nat
  bias : Nat
  ieee : Bool := true
  /-- NaNs with a clear top mantissa bit are signalling (R88) -/
  snan : Bool := true
  deriving DecidableEq, Repr

/-- FP64 (R87). -/
def fp64 : Fmt := { ebits := 11, p := 52, bias := 1023 }
/-- FP32 (R87). -/
def fp32 : Fmt := { ebits := 8, p := 23, bias := 127 }
/-- BF16 (R87). -/
def bf16 : Fmt := { ebits := 8, p := 7, bias := 127 }
/-- FP16 (R87). -/
def fp16 : Fmt := { ebits := 5, p := 10, bias := 15 }
/-- E5M2 (R87). -/
def e5m2 : Fmt := { ebits := 5, p := 2, bias := 15, snan := false }
/-- E4M3 (R87). -/
def e4m3 : Fmt := { ebits := 4, p := 3, bias := 7, ieee := false, snan := false }

/-- The bits of a pattern. -/
def Fmt.width (f : Fmt) : Nat := 1 + f.ebits + f.p

/-- The pattern of the largest finite magnitude. -/
def Fmt.maxPat (f : Fmt) : Nat := if f.ieee then (2 ^ f.ebits - 1) * 2 ^ f.p - 1 else 2 ^ (f.ebits + f.p) - 2

/-- The pattern of +∞. -/
def Fmt.infPat (f : Fmt) : Nat := (2 ^ f.ebits - 1) * 2 ^ f.p

/-- The canonical NaN (R87, R88). -/
def Fmt.nanPat (f : Fmt) : Nat := if f.ieee then f.infPat + 2 ^ (f.p - 1) else 2 ^ (f.ebits + f.p) - 1

/-- The sign bit's weight where the sign is negative. -/
def Fmt.signPat (f : Fmt) (neg : Bool) : Nat := if neg then 2 ^ (f.ebits + f.p) else 0

/-- The value of a pattern (R87, R88). -/
def Fmt.decode (f : Fmt) (x : Nat) : Num :=
  let neg := (x / 2 ^ (f.ebits + f.p)) % 2 == 1
  let ex := (x / 2 ^ f.p) % 2 ^ f.ebits
  let m := x % 2 ^ f.p
  if f.ieee ∧ ex = 2 ^ f.ebits - 1 then
    (if m = 0 then .inf neg else .nan (f.snan && decide (m / 2 ^ (f.p - 1) = 0)))
  else if f.ieee = false ∧ x % 2 ^ (f.ebits + f.p) = 2 ^ (f.ebits + f.p) - 1 then .nan false
  else if ex = 0 then .fin neg m (1 - (f.bias : Int) - f.p)
  else .fin neg (2 ^ f.p + m) (ex - (f.bias : Int) - f.p)

/-! ## Flags (R24) -/

def flNV : BitVec 5 := 16
def flDZ : BitVec 5 := 8
def flOF : BitVec 5 := 4
def flUF : BitVec 5 := 2
def flNX : BitVec 5 := 1

/-- A flag that is raised or not. -/
def flagIf (b : Bool) (f : BitVec 5) : BitVec 5 := if b then f else 0

/-! ## Rounding (R94, R95, R99) -/

/-- Rounding modes; SR carries word 0 of its draw (R94, R99). -/
inductive Rnd where
  | rne | rtz | rdn | rup
  | sr (u : BitVec 32)
  deriving DecidableEq, Repr

/-- The mode FRM names for every operation but the narrowing conversions: 4 acts as RNE (R25, R94). -/
def rndOf (frm : Nat) : Rnd :=
  match frm with
  | 1 => .rtz
  | 2 => .rdn
  | 3 => .rup
  | _ => .rne

/-- Whether the magnitude between `lo` and `lo + 1` units rounds up: `rem` of `2^k` parts lie above `lo`, and
`sticky` says that a little more does (R94, R99). -/
def roundsUp (r : Rnd) (neg : Bool) (lo rem k : Nat) (sticky : Bool) : Bool :=
  let inexact := decide (rem ≠ 0) || sticky
  match r with
  | .rne => decide (2 ^ k < 2 * rem) || (decide (2 * rem = 2 ^ k) && (sticky || decide (lo % 2 = 1)))
  | .rtz => false
  | .rdn => inexact && neg
  | .rup => inexact && !neg
  | .sr u => inexact && decide (2 ^ 32 ≤ rem * 2 ^ 32 / 2 ^ k + u.toNat)

/-- `m · 2^e` cut at the unit `2^q`: the whole units, the rest, and how many bits the rest has. -/
def cutAt (m : Nat) (e q : Int) : Nat × Nat × Nat :=
  if e ≤ q then
    let k := (q - e).toNat
    (m / 2 ^ k, m % 2 ^ k, k)
  else (m * 2 ^ (e - q).toNat, 0, 0)

/-- The pattern of an overflow (R95). -/
def Fmt.overflow (f : Fmt) (r : Rnd) (neg : Bool) : Nat :=
  if f.ieee then
    match r with
    | .rne => f.infPat
    | .sr _ => f.infPat
    | .rtz => f.maxPat
    | .rdn => if neg then f.infPat else f.maxPat
    | .rup => if neg then f.maxPat else f.infPat
  else f.maxPat

/-- The value `(-1)^neg · (m + δ) · 2^e`, with δ between 0 and 1 where `sticky`, rounded to a format: its pattern
and flags (R88, R94, R95). `m` is not zero, or the value is an exact zero. -/
def Fmt.roundMag (f : Fmt) (r : Rnd) (neg : Bool) (m : Nat) (e : Int) (sticky : Bool) : Nat × BitVec 5 :=
  if m = 0 ∧ sticky = false then (f.signPat neg, 0)
  else
    let top : Int := Nat.log2 m + e
    let emin : Int := 1 - (f.bias : Int)
    let q := max top emin - f.p
    let (lo, rem, k) := cutAt m e q
    let inexact := decide (rem ≠ 0) || sticky
    let n := lo + (if roundsUp r neg lo rem k sticky then 1 else 0)
    let base := ((q + f.p + f.bias - 1).toNat) * 2 ^ f.p
    let beyond := match r with
      | .sr _ => decide (f.maxPat < base + lo) || (decide (base + lo = f.maxPat) && inexact)
      | _ => decide (f.maxPat < base + n)
    if beyond then (f.signPat neg + f.overflow r neg, flOF ||| flNX)
    else
      let (lo', rem', k') := cutAt m e (top - f.p)
      let carry := decide (lo' + (if roundsUp r neg lo' rem' k' sticky then 1 else 0) = 2 ^ (f.p + 1))
      let tiny := decide (top < emin) && !(decide (top + 1 = emin) && carry)
      (f.signPat neg + base + n, flagIf inexact flNX ||| flagIf (inexact && tiny) flUF)

/-- A value rounded to a format (R8): a NaN gives the canonical NaN, an infinity itself. E4M3 has no infinity: it
saturates with NV (R97). -/
def Fmt.round (f : Fmt) (r : Rnd) : Num → Nat × BitVec 5
  | .nan s => (f.nanPat, flagIf s flNV)
  | .inf neg => if f.ieee then (f.signPat neg + f.infPat, 0) else (f.signPat neg + f.maxPat, flNV)
  | .fin neg m e => f.roundMag r neg m e false

/-! ## Exact arithmetic -/

/-- The signed integer a finite value is in units of `2^q`, for `q` at most its exponent. -/
def unitsAt (neg : Bool) (m : Nat) (e q : Int) : Int :=
  let n : Int := m * 2 ^ (e - q).toNat
  if neg then -n else n

/-- A signed integer of units `2^q` as a value; a zero takes the sign given. -/
def numOf (n : Int) (q : Int) (zeroNeg : Bool) : Num :=
  if n = 0 then .fin zeroNeg 0 q else .fin (decide (n < 0)) n.natAbs q

/-- The sum of two values (R108): an exact zero sum of opposite signs is +0, or -0 when rounding down. `none` is the
invalid sum of opposite infinities. -/
def addNum (r : Rnd) (a b : Num) : Option Num :=
  match a, b with
  | .nan s, .nan t => some (.nan (s || t))
  | .nan s, _ => some (.nan s)
  | _, .nan t => some (.nan t)
  | .inf s, .inf t => if s = t then some (.inf s) else none
  | .inf s, _ => some (.inf s)
  | _, .inf t => some (.inf t)
  | .fin s m e, .fin t n g =>
    let q := min e g
    some (numOf (unitsAt s m e q + unitsAt t n g q) q (if s = t then s else decide (r = .rdn)))

/-- The value with its sign flipped. -/
def negNum : Num → Num
  | .nan s => .nan s
  | .inf s => .inf (!s)
  | .fin s m e => .fin (!s) m e

/-- The product of two values; `none` is 0 · ∞ (R108). -/
def mulNum (a b : Num) : Option Num :=
  match a, b with
  | .nan s, .nan t => some (.nan (s || t))
  | .nan s, _ => some (.nan s)
  | _, .nan t => some (.nan t)
  | .inf s, .inf t => some (.inf (s != t))
  | .inf s, .fin t n _ => if n = 0 then none else some (.inf (s != t))
  | .fin s m _, .inf t => if m = 0 then none else some (.inf (s != t))
  | .fin s m e, .fin t n g => some (.fin (s != t) (m * n) (e + g))

/-- The value is a NaN. -/
def Num.isNan : Num → Bool
  | .nan _ => true
  | _ => false

/-- The value is a signalling NaN. -/
def Num.isSnan : Num → Bool
  | .nan s => s
  | _ => false

/-- Bits `b .. 0` of a square root decided in turn, above the part already found. -/
def isqrtFrom (n : Nat) : Nat → Nat → Nat
  | 0, acc => if (acc + 1) * (acc + 1) ≤ n then acc + 1 else acc
  | b + 1, acc =>
    let t := acc + 2 ^ (b + 1)
    isqrtFrom n b (if t * t ≤ n then t else acc)

/-- The greatest number whose square is at most `n`, below `2^(bits + 1)`. -/
def isqrt (n bits : Nat) : Nat := isqrtFrom n bits 0

/-! ## Order -/

/-- Compare two numbers that are not NaN: less, equal or greater; zeros are equal. -/
def cmpNum (a b : Num) : Ordering :=
  match a, b with
  | .inf s, .inf t => if s = t then .eq else if s then .lt else .gt
  | .inf s, _ => if s then .lt else .gt
  | _, .inf t => if t then .gt else .lt
  | .fin s m e, .fin t n g =>
    let q := min e g
    compare (unitsAt s m e q) (unitsAt t n g q)
  | _, _ => .eq

/-- -0 counts below +0 for the minimum and maximum (R110). -/
def leqMin (a b : Num) : Bool :=
  match cmpNum a b with
  | .lt => true
  | .gt => false
  | .eq =>
    match a, b with
    | .fin s 0 _, .fin t 0 _ => s || !t
    | _, _ => true

/-! ## The operations of R108 to R116, for any format -/

/-- FADD, and FSUB with `sub` (R108). -/
def Fmt.add (f : Fmt) (r : Rnd) (sub : Bool) (x y : Nat) : Nat × BitVec 5 :=
  let a := f.decode x
  let b := if sub then negNum (f.decode y) else f.decode y
  match addNum r a b with
  | none => (f.nanPat, flNV)
  | some v => f.round r v

/-- FMUL (R108). -/
def Fmt.mul (f : Fmt) (r : Rnd) (x y : Nat) : Nat × BitVec 5 :=
  match mulNum (f.decode x) (f.decode y) with
  | none => (f.nanPat, flNV)
  | some v => f.round r v

/-- The quotient of two finite non-zero magnitudes rounded once. -/
def Fmt.quotient (f : Fmt) (r : Rnd) (neg : Bool) (m : Nat) (e : Int) (n : Nat) (g : Int) : Nat × BitVec 5 :=
  let sh := 2 * f.p + 8 + Nat.log2 n
  let num := m * 2 ^ sh
  f.roundMag r neg (num / n) (e - g - sh) (decide (num % n ≠ 0))

/-- FDIV (R108). An infinity divided by a zero is that infinity and raises no flag (log 52). -/
def Fmt.div (f : Fmt) (r : Rnd) (x y : Nat) : Nat × BitVec 5 :=
  match f.decode x, f.decode y with
  | .nan s, .nan t => (f.nanPat, flagIf (s || t) flNV)
  | .nan s, _ => (f.nanPat, flagIf s flNV)
  | _, .nan t => (f.nanPat, flagIf t flNV)
  | .inf _, .inf _ => (f.nanPat, flNV)
  | .inf s, .fin t _ _ => (f.signPat (s != t) + f.infPat, 0)
  | .fin s _ _, .inf t => (f.signPat (s != t), 0)
  | .fin s m e, .fin t n g =>
    if n = 0 then (if m = 0 then (f.nanPat, flNV) else (f.signPat (s != t) + f.infPat, flDZ))
    else if m = 0 then (f.signPat (s != t), 0)
    else f.quotient r (s != t) m e n g

/-- FSQRT (R109). -/
def Fmt.sqrt (f : Fmt) (r : Rnd) (x : Nat) : Nat × BitVec 5 :=
  match f.decode x with
  | .nan s => (f.nanPat, flagIf s flNV)
  | .inf s => if s then (f.nanPat, flNV) else (f.infPat, 0)
  | .fin s m e =>
    if m = 0 then (f.signPat s, 0)
    else if s then (f.nanPat, flNV)
    else
      let odd := (e % 2).toNat
      let sh := 2 * (f.p + 4)
      let n := m * 2 ^ (odd + sh)
      let root := isqrt n (f.p + 64)
      f.roundMag r false root ((e - odd - sh) / 2) (decide (root * root ≠ n))

/-- FMIN, FMAX (R110). -/
def Fmt.minMax (f : Fmt) (max : Bool) (x y : Nat) : Nat × BitVec 5 :=
  let a := f.decode x
  let b := f.decode y
  let nv := flagIf (a.isSnan || b.isSnan) flNV
  if a.isNan && b.isNan then (f.nanPat, nv)
  else if a.isNan then (y, nv)
  else if b.isNan then (x, nv)
  else if max then (if leqMin b a then x else y, nv)
  else (if leqMin a b then x else y, nv)

/-- FEQ, FLT, FLE (R111): the truth value and the flags. -/
def Fmt.eq (f : Fmt) (x y : Nat) : Bool × BitVec 5 :=
  let a := f.decode x
  let b := f.decode y
  if a.isNan || b.isNan then (false, flagIf (a.isSnan || b.isSnan) flNV) else (cmpNum a b == .eq, 0)
def Fmt.lt (f : Fmt) (x y : Nat) : Bool × BitVec 5 :=
  let a := f.decode x
  let b := f.decode y
  if a.isNan || b.isNan then (false, flNV) else (cmpNum a b == .lt, 0)
def Fmt.le (f : Fmt) (x y : Nat) : Bool × BitVec 5 :=
  let a := f.decode x
  let b := f.decode y
  if a.isNan || b.isNan then (false, flNV) else (cmpNum a b != .gt, 0)

/-- FCLASS (R111). -/
def Fmt.classOf (f : Fmt) (x : Nat) : Nat :=
  match f.decode x with
  | .nan true => 2 ^ 8
  | .nan false => 2 ^ 9
  | .inf true => 2 ^ 0
  | .inf false => 2 ^ 7
  | .fin true m _ => if m = 0 then 2 ^ 3 else if m < 2 ^ f.p then 2 ^ 2 else 2 ^ 1
  | .fin false m _ => if m = 0 then 2 ^ 4 else if m < 2 ^ f.p then 2 ^ 5 else 2 ^ 6

/-- FMADD and its forms (R112): `negP` negates the product, `negC` the addend. -/
def Fmt.fma (f : Fmt) (r : Rnd) (negP negC : Bool) (x y c : Nat) : Nat × BitVec 5 :=
  let p := f.decode x
  let q := f.decode y
  let a := f.decode c
  let snan := p.isSnan || q.isSnan || a.isSnan
  match mulNum p q with
  | none => (f.nanPat, flNV)
  | some v =>
    let v := if negP then negNum v else v
    let a := if negC then negNum a else a
    if v.isNan || a.isNan then (f.nanPat, flagIf snan flNV)
    else
      match addNum r v a with
      | none => (f.nanPat, flNV)
      | some s => f.round r s

/-- A conversion between floating formats (R114): the exact value rounded to the target. -/
def convert (src dst : Fmt) (r : Rnd) (x : Nat) : Nat × BitVec 5 := dst.round r (src.decode x)

/-- An integer converted to a format (R113). -/
def Fmt.ofInt (f : Fmt) (r : Rnd) (n : Int) : Nat × BitVec 5 := f.round r (numOf n 0 false)

/-- A value converted to an integer between `lo` and `hi` (R113): the pattern modulo 2^64 and the flags. -/
def Fmt.toInt64 (f : Fmt) (r : Rnd) (lo hi : Int) (x : Nat) : Word × BitVec 5 :=
  match f.decode x with
  | .nan _ => (BitVec.ofInt 64 hi, flNV)
  | .inf s => (BitVec.ofInt 64 (if s then lo else hi), flNV)
  | .fin s m e =>
    let (n, rem, k) := cutAt m e 0
    let n := n + (if roundsUp r s n rem k false then 1 else 0)
    let v : Int := if s then -(n : Int) else n
    if v < lo then (BitVec.ofInt 64 lo, flNV)
    else if hi < v then (BitVec.ofInt 64 hi, flNV)
    else (BitVec.ofInt 64 v, flagIf (decide (rem ≠ 0)) flNX)

/-! ## Exact sums (R101, R102) -/

/-- The exact sum of values (R8, R102): a NaN, an infinity, or a value; a zero sum is -0 when every term is -0. -/
structure ExactSum where
  nan : Bool := false
  posInf : Bool := false
  negInf : Bool := false
  total : Int := 0
  unit : Int := 0
  allNegZero : Bool := true
  empty : Bool := true
  deriving DecidableEq, Repr

/-- One term added. -/
def ExactSum.term (s : ExactSum) (v : Num) : ExactSum :=
  match v with
  | .nan _ => { s with nan := true, empty := false, allNegZero := false }
  | .inf true => { s with negInf := true, empty := false, allNegZero := false }
  | .inf false => { s with posInf := true, empty := false, allNegZero := false }
  | .fin neg m e =>
    let q := if s.empty then e else min e s.unit
    { s with
      total := s.total * 2 ^ (s.unit - q).toNat + unitsAt neg m e q
      unit := q, empty := false, allNegZero := s.allNegZero && neg && decide (m = 0) }

/-- The sum of a list of values. -/
def exactSum (vs : List Num) : ExactSum := vs.foldl ExactSum.term {}

/-- The sum rounded once to FP32, RNE (R102). -/
def ExactSum.roundFp32 (s : ExactSum) : Nat × BitVec 5 :=
  if s.nan || (s.posInf && s.negInf) then (fp32.nanPat, flNV)
  else if s.posInf then (fp32.infPat, 0)
  else if s.negInf then (fp32.signPat true + fp32.infPat, 0)
  else fp32.round .rne (numOf s.total s.unit (s.allNegZero && !s.empty))

/-- The exact sum of FP32 patterns (R101, R102). -/
def sumFp32 (xs : List Nat) : Nat × BitVec 5 := (exactSum (xs.map fp32.decode)).roundFp32

/-! ## F4B (R89, R90, R96) -/

/-- E(c) in units of 2^-9, for the codes but 0b1000. -/
def f4bUnits (c : Nat) : Int :=
  let mags : List Int := [0, 256, 512, 768, 1024, 1536, 2048, 3072]
  if c < 8 then mags.getD c 0 else -(mags.getD (c - 8) 0)

/-- The extra value in units of 2^-9; none where it is NaN. -/
def extraUnits (x : Nat) : Option Int :=
  match e4m3.decode x with
  | .fin neg m e => some (unitsAt neg m e (-9))
  | _ => none

/-- decode(F4B, c, s, x) (R90). -/
def decodeF4B (c s x : Nat) : Num :=
  if s % 256 = 255 then .nan false
  else if c % 16 = 8 then
    match e4m3.decode (x % 256) with
    | .fin neg m e => .fin neg m (e + ((s % 256 : Nat) : Int) - 127)
    | v => v
  else
    let n := f4bUnits (c % 16)
    .fin (decide (8 < c % 16)) n.natAbs (((s % 256 : Nat) : Int) - 127 - 9)

/-- The codes of a block with their values in units of 2^-9; 0b1000 only where the extra is a number. -/
def f4bSet (x : Nat) : List (Nat × Int) :=
  let plain := ((List.range 16).filter fun c => decide (c ≠ 8)).map fun c => (c, f4bUnits c)
  match extraUnits x with
  | some v => plain ++ [(8, v)]
  | none => plain

/-- The code of the greatest value at most the bound (`up` false) or the least value at least it; earlier codes win. -/
def f4bBest (set : List (Nat × Int)) (ok : Int → Bool) (better : Int → Int → Bool) : Option (Nat × Int) :=
  set.foldl (fun b c =>
    if ok c.2 then
      match b with
      | none => some c
      | some d => if better c.2 d.2 then some c else b
    else b) none

/-- A value converted into F4B against scale `s` and extra `x`: the code and the flags (R95 to R97, R99). -/
def toF4B (r : Rnd) (s x : Nat) (v : Num) : Nat × BitVec 5 :=
  if s % 256 = 255 then (0, flNV)
  else
    let set := f4bSet (x % 256)
    let hiCode := ((f4bBest set (fun _ => true) (fun a b => decide (b < a))).map (·.1)).getD 7
    let loCode := ((f4bBest set (fun _ => true) (fun a b => decide (a < b))).map (·.1)).getD 15
    match v with
    | .nan _ => (0, flNV)
    | .inf neg => (if neg then loCode else hiCode, flNV)
    | .fin neg m e =>
      if m = 0 then (0, 0)
      else
        -- x = X / D units of 2^-9 of the scaled grid
        let k : Int := e + 136 - ((s % 256 : Nat) : Int)
        let D : Int := if k < 0 then 2 ^ (-k).toNat else 1
        let X : Int := (if neg then -1 else 1) * m * (if k < 0 then 1 else 2 ^ k.toNat)
        let grid := set.map fun c => (c.1, c.2 * D)
        let small := grid.any fun c => decide (c.2 ≠ 0 ∧ (c.2 < 0 ↔ X < 0) ∧ c.2.natAbs ≤ X.natAbs)
        match f4bBest grid (fun a => decide (a ≤ X)) (fun a b => decide (b < a)),
              f4bBest grid (fun a => decide (X ≤ a)) (fun a b => decide (a < b)) with
        | some lo, some hi =>
          if lo.2 = X then (if lo.2 = 0 then 0 else lo.1, 0)
          else
            let fl := flNX ||| flagIf (!small) flUF
            let near := if lo.2.natAbs ≤ hi.2.natAbs then lo else hi
            let far := if lo.2.natAbs ≤ hi.2.natAbs then hi else lo
            let pick : Nat × Int :=
              match r with
              | .rne =>
                if X - lo.2 < hi.2 - X then lo
                else if hi.2 - X < X - lo.2 then hi
                else if lo.1 % 2 = 0 ∧ hi.1 % 2 = 0 then near
                else if lo.1 % 2 = 0 then lo else hi
              | .rtz => near
              | .rdn => lo
              | .rup => hi
              | .sr u =>
                if 2 ^ 32 ≤ (X.natAbs - near.2.natAbs) * 2 ^ 32 / (hi.2 - lo.2).natAbs + u.toNat then far else near
            (if pick.2 = 0 then 0 else pick.1, fl)
        | none, _ => (loCode, flOF ||| flNX)
        | _, none => (hiCode, flOF ||| flNX)

/-- The format of a format code below 5 (R92). -/
def fmtOfCode (c : Nat) : Fmt :=
  match c with
  | 1 => bf16
  | 2 => fp16
  | 3 => e4m3
  | 4 => e5m2
  | _ => fp32

end Sys2Proof.Machine
end

