-- ==== Sys2Proof/Machine/Philox.lean ====
section
/-! DEFINITION. The stochastic-rounding stream (R98) and CRC-32C (R314). The algorithms are public; their constants are
PRESUMED (log 10): the spec names them without printing them. -/

namespace Sys2Proof.Machine

/-- One round of Philox-4×32 on the counter words c0..c3 with the round key k0, k1. -/
def philoxRound (k0 k1 : Half) (c : Half × Half × Half × Half) : Half × Half × Half × Half :=
  let (c0, c1, c2, c3) := c
  let p0 := 0xD2511F53 * c0.toNat
  let p1 := 0xCD9E8D57 * c2.toNat
  (BitVec.ofNat 32 (p1 / 2 ^ 32) ^^^ c1 ^^^ k0, BitVec.ofNat 32 p1,
   BitVec.ofNat 32 (p0 / 2 ^ 32) ^^^ c3 ^^^ k1, BitVec.ofNat 32 p0)

/-- `n` rounds, the key raised between them. -/
def philoxRounds : Nat → Half → Half → Half × Half × Half × Half → Half × Half × Half × Half
  | 0, _, _, c => c
  | n + 1, k0, k1, c => philoxRounds n (k0 + 0x9E3779B9#32) (k1 + 0xBB67AE85#32) (philoxRound k0 k1 c)

/-- philox(key, counter) (R8): output word 0, the one a draw uses (R99). -/
def philox0 (key : Word) (ctr : BitVec 128) : Half :=
  (philoxRounds 10 (fld key 0 32) (fld key 32 32) (fld ctr 0 32, fld ctr 32 32, fld ctr 64 32, fld ctr 96 32)).1

/-- The counter of a draw: stamp, logical core number and draw index (R98). -/
def drawCounter (stamp : Word) (lcn idx : Nat) : BitVec 128 :=
  stamp ++ BitVec.ofNat 16 lcn ++ BitVec.ofNat 48 idx

/-- One step of CRC-32C, bit by bit (reflected polynomial 0x82F63B78). -/
def crcBit (c : Half) : Half := if c.getLsbD 0 then (c >>> 1) ^^^ 0x82F63B78#32 else c >>> 1

/-- `n` steps. -/
def crcBits : Nat → Half → Half
  | 0, c => c
  | n + 1, c => crcBits n (crcBit c)

/-- CRC-32C of bytes, initial value all ones, complemented at the end (R314). -/
def crc32c (bs : List Byte) : Half :=
  ~~~ bs.foldl (fun c b => crcBits 8 (c ^^^ b.zeroExtend 32)) 0xFFFFFFFF#32

end Sys2Proof.Machine
end

