-- ==== Sys2Proof/Machine/Float.lean ====
section
/-! DEFINITION. Scalar floating point and conversions (R105 to R115), and the shapes the FP64 forms share (R116). -/

namespace Sys2Proof.Machine

/-! ## Draws of the stochastic stream (R98) -/

/-- The logical core number a draw of the thread at `p` uses: that of HOME, or the executing core's for slot 0 (R98). -/
def drawLcn (t : Thread) (p : At) : Nat := if p.t = 0 then 8 * p.v + p.c else 8 * t.homeV + t.homeC

/-- Word 0 of draw number `idx` of the thread at `p` (R98, R99): the supervisor draws at stamp 0. -/
def Chip.drawWord (h : Chip) (t : Thread) (p : At) (idx : Nat) : Half :=
  philox0 (h.part (h.pidAt p.v t)).seed (drawCounter t.tstamp (drawLcn t p) idx)

/-- Draw indices taken by the thread. -/
def Here.takeDraws (x : Here) (n : Nat) : Here :=
  { x with th := { x.th with counters := { x.th.counters with draw := x.th.counters.draw + n } } }

/-! ## Shapes -/

/-- An operand of a format: the low bits of a register (R105). -/
def patOf (f : Fmt) (x : Word) : Nat := x.toNat % 2 ^ f.width

/-- A result with its flags (R105, R106). -/
def Here.result (x : Here) (d : BitVec 7) (r : Nat × BitVec 5) : Here := (x.write d (BitVec.ofNat 64 r.1)).flag r.2

/-- The mode of a rounding that is no narrowing conversion (R106). -/
def Here.rnd (x : Here) : Rnd := rndOf x.th.frm.toNat

/-- Two operands and a result. -/
def fpBinary (f : Fmt) (d a b : BitVec 7) (op : Rnd → Nat → Nat → Nat × BitVec 5) (h : Here) : Except Stop Here := do
  let (x, h) ← h.read a
  let (y, h) ← h.read b
  .ok (h.result d (op h.rnd (patOf f x) (patOf f y)))

/-- One operand and a result. -/
def fpUnary (f : Fmt) (d a : BitVec 7) (op : Rnd → Nat → Nat × BitVec 5) (h : Here) : Except Stop Here := do
  let (x, h) ← h.read a
  .ok (h.result d (op h.rnd (patOf f x)))

/-- A compare: 1 or 0 (R111). -/
def fpCompare (f : Fmt) (d a b : BitVec 7) (op : Nat → Nat → Bool × BitVec 5) (h : Here) : Except Stop Here :=
  fpBinary f d a b (fun _ x y => ((if (op x y).1 then 1 else 0), (op x y).2)) h

/-- The fused forms (R112): the addend is read from d after a and b. -/
def fpFused (f : Fmt) (d a b : BitVec 7) (negP negC : Bool) (h : Here) : Except Stop Here := do
  let (x, h) ← h.read a
  let (y, h) ← h.read b
  let (z, h) ← h.read d
  .ok (h.result d (f.fma h.rnd negP negC (patOf f x) (patOf f y) (patOf f z)))

/-- A conversion from a signed integer (R113). -/
def fpFromInt (f : Fmt) (d a : BitVec 7) (h : Here) : Except Stop Here := do
  let (x, h) ← h.read a
  .ok (h.result d (f.ofInt h.rnd x.toInt))

/-- A conversion from an unsigned integer (R113). -/
def fpFromNat (f : Fmt) (d a : BitVec 7) (h : Here) : Except Stop Here := do
  let (x, h) ← h.read a
  .ok (h.result d (f.ofInt h.rnd x.toNat))

/-- A conversion to an integer of a range (R113). -/
def fpToInt (f : Fmt) (lo hi : Int) (d a : BitVec 7) (h : Here) : Except Stop Here := do
  let (x, h) ← h.read a
  let r := f.toInt64 h.rnd lo hi (patOf f x)
  .ok ((h.write d r.1).flag r.2)

/-- The draw word of the next SR rounding of the thread whose turn it is. -/
def nextDraw (s : State) : Half :=
  match s.chip.thread? s.place with
  | some t => s.chip.drawWord t s.place t.counters.draw
  | none => 0

/-- A narrowing conversion (R94, R114): under FRM = 4 it takes one draw, whatever its operand. -/
def fpNarrow (u : Half) (d a : BitVec 7) (op : Rnd → Word → Nat × BitVec 5) (h : Here) : Except Stop Here := do
  let (x, h) ← h.read a
  if h.th.frm = 4 then .ok ((h.takeDraws 1).result d (op (.sr u) x))
  else .ok (h.result d (op h.rnd x))

/-- The form of a two-operand instruction. -/
def formDAB (w : Half) (d a b : BitVec 7) : Form := form w [.dst d, .src a, .src b]

/-- The form of a one-operand instruction. -/
def formDA (w : Half) (d a : BitVec 7) : Form := form w [.dst d, .src a]

/-- The form of a fused instruction (R112). -/
def formFused (w : Half) (d a b : BitVec 7) : Form := form w [.both d, .src a, .src b]

/-! ## FP (R108 to R111) -/

/-- FADD.S (R108). -/
def execFaddS (d : BitVec 7) (a : BitVec 7) (b : BitVec 7) (s : State) : Host.Outcome State Fault Refusal :=
  issueHere (formDAB (wordR 29#6 d a b 0#5) d a b) s fun _ h => fpBinary fp32 d a b (fun r x y => fp32.add r false x y) h

/-- FSUB.S (R108). -/
def execFsubS (d : BitVec 7) (a : BitVec 7) (b : BitVec 7) (s : State) : Host.Outcome State Fault Refusal :=
  issueHere (formDAB (wordR 29#6 d a b 1#5) d a b) s fun _ h => fpBinary fp32 d a b (fun r x y => fp32.add r true x y) h

/-- FMUL.S (R108). -/
def execFmulS (d : BitVec 7) (a : BitVec 7) (b : BitVec 7) (s : State) : Host.Outcome State Fault Refusal :=
  issueHere (formDAB (wordR 29#6 d a b 2#5) d a b) s fun _ h => fpBinary fp32 d a b (fun r x y => fp32.mul r x y) h

/-- FDIV.S (R108). -/
def execFdivS (d : BitVec 7) (a : BitVec 7) (b : BitVec 7) (s : State) : Host.Outcome State Fault Refusal :=
  issueHere (formDAB (wordR 29#6 d a b 3#5) d a b) s fun _ h => fpBinary fp32 d a b (fun r x y => fp32.div r x y) h

/-- FSQRT.S (R109). -/
def execFsqrtS (d : BitVec 7) (a : BitVec 7) (s : State) : Host.Outcome State Fault Refusal :=
  issueHere (formDA (wordR 29#6 d a 0#7 4#5) d a) s fun _ h => fpUnary fp32 d a (fun r x => fp32.sqrt r x) h

/-- FMIN.S (R110). -/
def execFminS (d : BitVec 7) (a : BitVec 7) (b : BitVec 7) (s : State) : Host.Outcome State Fault Refusal :=
  issueHere (formDAB (wordR 29#6 d a b 5#5) d a b) s fun _ h => fpBinary fp32 d a b (fun _ x y => fp32.minMax false x y) h

/-- FMAX.S (R110). -/
def execFmaxS (d : BitVec 7) (a : BitVec 7) (b : BitVec 7) (s : State) : Host.Outcome State Fault Refusal :=
  issueHere (formDAB (wordR 29#6 d a b 6#5) d a b) s fun _ h => fpBinary fp32 d a b (fun _ x y => fp32.minMax true x y) h

/-- FEQ.S (R111). -/
def execFeqS (d : BitVec 7) (a : BitVec 7) (b : BitVec 7) (s : State) : Host.Outcome State Fault Refusal :=
  issueHere (formDAB (wordR 29#6 d a b 7#5) d a b) s fun _ h => fpCompare fp32 d a b fp32.eq h

/-- FLT.S (R111). -/
def execFltS (d : BitVec 7) (a : BitVec 7) (b : BitVec 7) (s : State) : Host.Outcome State Fault Refusal :=
  issueHere (formDAB (wordR 29#6 d a b 8#5) d a b) s fun _ h => fpCompare fp32 d a b fp32.lt h

/-- FLE.S (R111). -/
def execFleS (d : BitVec 7) (a : BitVec 7) (b : BitVec 7) (s : State) : Host.Outcome State Fault Refusal :=
  issueHere (formDAB (wordR 29#6 d a b 9#5) d a b) s fun _ h => fpCompare fp32 d a b fp32.le h

/-- FCLASS.S (R111). -/
def execFclassS (d : BitVec 7) (a : BitVec 7) (s : State) : Host.Outcome State Fault Refusal :=
  issueHere (formDA (wordR 29#6 d a 0#7 10#5) d a) s fun _ h => fpUnary fp32 d a (fun _ x => (fp32.classOf x, 0)) h

/-! ## FMA (R112) -/

/-- FMADD.S (R112). -/
def execFmaddS (d : BitVec 7) (a : BitVec 7) (b : BitVec 7) (s : State) : Host.Outcome State Fault Refusal :=
  issueHere (formFused (wordR 30#6 d a b 0#5) d a b) s fun _ h => fpFused fp32 d a b false false h

/-- FMSUB.S (R112). -/
def execFmsubS (d : BitVec 7) (a : BitVec 7) (b : BitVec 7) (s : State) : Host.Outcome State Fault Refusal :=
  issueHere (formFused (wordR 30#6 d a b 1#5) d a b) s fun _ h => fpFused fp32 d a b false true h

/-- FNMSUB.S (R112). -/
def execFnmsubS (d : BitVec 7) (a : BitVec 7) (b : BitVec 7) (s : State) : Host.Outcome State Fault Refusal :=
  issueHere (formFused (wordR 30#6 d a b 2#5) d a b) s fun _ h => fpFused fp32 d a b true false h

/-- FNMADD.S (R112). -/
def execFnmaddS (d : BitVec 7) (a : BitVec 7) (b : BitVec 7) (s : State) : Host.Outcome State Fault Refusal :=
  issueHere (formFused (wordR 30#6 d a b 3#5) d a b) s fun _ h => fpFused fp32 d a b true true h

/-! ## CVT (R113 to R115) -/

/-- CVT.S.L (R113). -/
def execCvtSL (d : BitVec 7) (a : BitVec 7) (s : State) : Host.Outcome State Fault Refusal :=
  issueHere (formDA (wordR 31#6 d a 0#7 0#5) d a) s fun _ h => fpFromInt fp32 d a h

/-- CVT.S.LU (R113). -/
def execCvtSLu (d : BitVec 7) (a : BitVec 7) (s : State) : Host.Outcome State Fault Refusal :=
  issueHere (formDA (wordR 31#6 d a 0#7 1#5) d a) s fun _ h => fpFromNat fp32 d a h

/-- CVT.L.S (R113). -/
def execCvtLS (d : BitVec 7) (a : BitVec 7) (s : State) : Host.Outcome State Fault Refusal :=
  issueHere (formDA (wordR 31#6 d a 0#7 2#5) d a) s fun _ h => fpToInt fp32 (-2 ^ 63) (2 ^ 63 - 1) d a h

/-- CVT.LU.S (R113). -/
def execCvtLuS (d : BitVec 7) (a : BitVec 7) (s : State) : Host.Outcome State Fault Refusal :=
  issueHere (formDA (wordR 31#6 d a 0#7 3#5) d a) s fun _ h => fpToInt fp32 0 (2 ^ 64 - 1) d a h

/-- CVT.BF16.S (R114). -/
def execCvtBf16S (d : BitVec 7) (a : BitVec 7) (s : State) : Host.Outcome State Fault Refusal :=
  issueHere (formDA (wordR 31#6 d a 0#7 4#5) d a) s fun _ h => fpNarrow (nextDraw s) d a (fun r x => convert fp32 bf16 r (patOf fp32 x)) h

/-- CVT.S.BF16 (R114). -/
def execCvtSBf16 (d : BitVec 7) (a : BitVec 7) (s : State) : Host.Outcome State Fault Refusal :=
  issueHere (formDA (wordR 31#6 d a 0#7 5#5) d a) s fun _ h => fpUnary bf16 d a (fun r x => convert bf16 fp32 r x) h

/-- CVT.H.S (R114). -/
def execCvtHS (d : BitVec 7) (a : BitVec 7) (s : State) : Host.Outcome State Fault Refusal :=
  issueHere (formDA (wordR 31#6 d a 0#7 6#5) d a) s fun _ h => fpNarrow (nextDraw s) d a (fun r x => convert fp32 fp16 r (patOf fp32 x)) h

/-- CVT.S.H (R114). -/
def execCvtSH (d : BitVec 7) (a : BitVec 7) (s : State) : Host.Outcome State Fault Refusal :=
  issueHere (formDA (wordR 31#6 d a 0#7 7#5) d a) s fun _ h => fpUnary fp16 d a (fun r x => convert fp16 fp32 r x) h

/-- CVT.E4M3.S (R114). -/
def execCvtE4m3S (d : BitVec 7) (a : BitVec 7) (s : State) : Host.Outcome State Fault Refusal :=
  issueHere (formDA (wordR 31#6 d a 0#7 8#5) d a) s fun _ h => fpNarrow (nextDraw s) d a (fun r x => convert fp32 e4m3 r (patOf fp32 x)) h

/-- CVT.S.E4M3 (R114). -/
def execCvtSE4m3 (d : BitVec 7) (a : BitVec 7) (s : State) : Host.Outcome State Fault Refusal :=
  issueHere (formDA (wordR 31#6 d a 0#7 9#5) d a) s fun _ h => fpUnary e4m3 d a (fun r x => convert e4m3 fp32 r x) h

/-- CVT.E5M2.S (R114). -/
def execCvtE5m2S (d : BitVec 7) (a : BitVec 7) (s : State) : Host.Outcome State Fault Refusal :=
  issueHere (formDA (wordR 31#6 d a 0#7 10#5) d a) s fun _ h => fpNarrow (nextDraw s) d a (fun r x => convert fp32 e5m2 r (patOf fp32 x)) h

/-- CVT.S.E5M2 (R114). -/
def execCvtSE5m2 (d : BitVec 7) (a : BitVec 7) (s : State) : Host.Outcome State Fault Refusal :=
  issueHere (formDA (wordR 31#6 d a 0#7 11#5) d a) s fun _ h => fpUnary e5m2 d a (fun r x => convert e5m2 fp32 r x) h

/-- The two operands of an F4B conversion: the value, then the scale and extra bytes of g(b) (R115). -/
def fpF4b (u : Half) (d a b : BitVec 7) (h : Here) : Except Stop Here := do
  let (x, h) ← h.read a
  let (y, h) ← h.read b
  let op := fun r => toF4B r (bits y 0 8) (bits y 8 8) (fp32.decode (patOf fp32 x))
  if h.th.frm = 4 then .ok ((h.takeDraws 1).result d (op (.sr u)))
  else .ok (h.result d (op h.rnd))

/-- The widening F4B conversion (R115): a NaN raises no flag. -/
def fpOfF4b (d a b : BitVec 7) (h : Here) : Except Stop Here := do
  let (x, h) ← h.read a
  let (y, h) ← h.read b
  .ok (h.result d (fp32.round h.rnd (decodeF4B (bits x 0 4) (bits y 0 8) (bits y 8 8))))

/-- CVT.F4B.S (R115). -/
def execCvtF4bS (d : BitVec 7) (a : BitVec 7) (b : BitVec 7) (s : State) : Host.Outcome State Fault Refusal :=
  issueHere (formDAB (wordR 31#6 d a b 12#5) d a b) s fun _ h => fpF4b (nextDraw s) d a b h

/-- CVT.S.F4B (R115). -/
def execCvtSF4b (d : BitVec 7) (a : BitVec 7) (b : BitVec 7) (s : State) : Host.Outcome State Fault Refusal :=
  issueHere (formDAB (wordR 31#6 d a b 13#5) d a b) s fun _ h => fpOfF4b d a b h

end Sys2Proof.Machine
end

