-- ==== Sys2Proof/Machine/Tasks.lean ====
section
/-! DEFINITION. Tasks: LOG space (R191, R192, R387), group membership (R371, R372), abort and cancellation (R154,
R189, R354), and the partition stop (R346). -/

namespace Sys2Proof.Machine

/-! ## LOG records and signatures -/

/-- The LOG units a record takes (R191, R351, R361, R377, R379). -/
def LogRec.units : LogRec → Nat
  | .undo .. => 3
  | .redo .. => 3
  | .red .. => 1
  | .send _ => 1
  | .irv .. => 3
  | .launch .. => 6
  | .gred .. => 1

/-- The units that records take together. -/
def unitsOf (es : List LogEntry) : Nat := (es.map fun e => e.body.units).sum

/-- The mode of a bank (R178). -/
def Cluster.mode (k : Cluster) (b : Nat) : BankMode := (k.banks.getOr b {}).mode

/-- The banks of a mode. -/
def Cluster.countMode (k : Cluster) (m : BankMode) : Nat := (List.range 32).countP fun b => k.mode b == m

/-- All LOG units of a cluster (R191). -/
def Cluster.logTotal (k : Cluster) : Nat := 2048 * k.countMode .log

/-- LOGFREE.UNITS (R179). -/
def Cluster.logFree (k : Cluster) : Nat := k.logTotal - unitsOf k.log

/-- SIGFREE.ENTRIES (R179). -/
def Cluster.sigFree (k : Cluster) : Nat := 256 - k.sigs.length

/-- The task a number names. -/
def Chip.task? (h : Chip) (uid : Nat) : Option Task := h.tasks.get uid

/-- `f` applied to a task's record, if there is one. -/
def Chip.modTask (h : Chip) (uid : Nat) (f : Task → Task) : Chip :=
  match h.task? uid with
  | some t => { h with tasks := h.tasks.put uid (f t) }
  | none => h

/-- The bounded launch whose reservation a task draws on, if it has one: the tasks of the launch do, their children do not (R387). -/
def Chip.reservationOf (h : Chip) (uid : Nat) : Option LaunchJob :=
  match h.task? uid with
  | none => none
  | some k =>
    match k.launch with
    | none => none
    | some n =>
      if k.packet.origin = .launch then (h.part k.pid).jobs.find? fun j => decide (j.lnum = n) && j.bounded && !k.packet.quiet
      else none

/-- LOGMAX of a launch record (R364). -/
def recordField (r : List Byte) (off n : Nat) : Nat := bytesToNat ((r.drop off).take n)

/-- The records a task holds on every cluster. -/
def Chip.recordsOf (h : Chip) (uid : Nat) : List LogEntry :=
  h.clusters.flatMap fun k => k.2.log.filter fun e => decide (e.uid = uid)

/-- Units and entries that reservations of a cluster set aside. -/
def Cluster.reservedUnits (k : Cluster) : Nat := (k.reserve.map fun r => r.2.1).sum
def Cluster.reservedSigs (k : Cluster) : Nat := (k.reserve.map fun r => r.2.2).sum

/-- What a need of LOG units or a signature entry meets (R192, R387). -/
inductive Room where
  | enough
  /-- the task waits -/
  | wait
  /-- the floor task takes the room of this task, which is aborted -/
  | evict (uid : Nat)
  /-- the need can never be met -/
  | never
  deriving DecidableEq, Repr

/-- The non-quiet task with the greatest stamp, other than `uid`, that holds records or entries here on no
reservation (R192). -/
def Chip.greatestHolder (h : Chip) (v uid : Nat) : Option Nat :=
  let k := h.cluster v
  let us := (k.log.map (·.uid) ++ k.sigs.map (·.uid)).filter fun u => decide (u ≠ uid) && (h.reservationOf u).isNone
  us.foldl (fun best u =>
    match best with
    | none => some u
    | some b =>
      if ((h.task? b).map fun t => t.packet.stamp.toNat).getD 0 < ((h.task? u).map fun t => t.packet.stamp.toNat).getD 0
      then some u else some b) none

/-- Whether the task can take `n` LOG units and, where `sig` says so, a new signature entry at cluster v. -/
def Chip.room (h : Chip) (v uid n : Nat) (sig : Bool) : Room :=
  let k := h.cluster v
  match h.reservationOf uid with
  | some j => if recordField j.record 29 2 < unitsOf (h.recordsOf uid) + n then .never else .enough
  | none =>
    let own := fun e : LogEntry => (h.reservationOf e.uid).isNone
    let used := unitsOf (k.log.filter own)
    let sigs := k.sigs.countP fun s => (h.reservationOf s.uid).isNone
    if used + n + k.reservedUnits ≤ k.logTotal ∧ (!sig ∨ sigs + 1 + k.reservedSigs ≤ 256) then .enough
    else
      match h.task? uid with
      | none => .wait
      | some t =>
        if h.floorStamp t.pid t.packet.stamp then
          match h.greatestHolder v uid with
          | some u => .evict u
          | none => .never
        else .wait

/-- A record appended for a task at a cluster. -/
def Chip.addRecord (h : Chip) (v uid : Nat) (r : LogRec) : Chip :=
  (h.modCluster v fun k => { k with log := k.log ++ [⟨uid, h.nextSeq, r⟩] }).tick

/-- What a signature records of a scratch line, of a coherent line (PA div 64) and of a published buffer (record PA). -/
def scratchKey (line : Nat) : Nat := 3 * line
def coherentKey (line : Nat) : Nat := 3 * line + 1
def bufferKey (record : Nat) : Nat := 3 * record + 2

/-- A signature reports a line: exactly, or by a false report beyond the first 64 lines (R190). -/
def sigHolds (ls : List Nat) (x : Nat) : Bool :=
  ls.contains x || (decide (64 < ls.length) && Config.signatureHit ls x)

/-- `f` applied to the task's signature at cluster v, which is made if there is none. -/
def Chip.modSig (h : Chip) (v uid : Nat) (f : Signature → Signature) : Chip :=
  h.modCluster v fun k =>
    if k.sigs.any (fun s => decide (s.uid = uid)) then
      { k with sigs := k.sigs.map fun s => if s.uid = uid then f s else s }
    else { k with sigs := k.sigs ++ [f { uid := uid }] }

/-- The task has a signature entry at the cluster. -/
def Chip.hasSig (h : Chip) (v uid : Nat) : Bool := (h.cluster v).sigs.any fun s => decide (s.uid = uid)

/-- A list with `x` added if it was not there. -/
def addOnce (xs : List Nat) (x : Nat) : List Nat := if xs.contains x then xs else xs ++ [x]

/-! ## The partition stop (R346) -/

/-- EDUPSTAMP: the partition stops and the host is told the line and the stamp. -/
def Chip.dupStamp (h : Chip) (pid v : Nat) (stamp addr : Word) : Chip :=
  (h.modPart pid fun q => { q with halted := true }).partitionError 1 pid v 0 0 stamp addr

/-- A reported fault halts the partition (R405, R419). -/
def Chip.haltPartition (h : Chip) (kind pid v : Nat) : Chip :=
  (h.modPart pid fun q => { q with halted := true }).partitionError kind pid v 0 0 0 0

/-! ## The fabric configuration (R428) -/

/-- PKG, COUNT, ROPED and PARTNER of FABCFG. -/
def Partition.pkg (q : Partition) : Nat := bits q.fabcfg 0 8
def Partition.count (q : Partition) : Nat := bits q.fabcfg 8 8
def Partition.roped (q : Partition) : Bool := q.fabcfg.getLsbD 16
def Partition.partner (q : Partition) : Nat := bits q.fabcfg 24 8

/-- The other packages that a partition is spread over: none for a roped one, which each of the two packages runs whole
(R428, R433). -/
def Partition.pkgCount (q : Partition) : Nat := if q.roped then 0 else q.count

/-- The package a handler's messages go to, where it is another one (R428, R429). -/
def Partition.routeOf (q : Partition) (handler : Nat) : Option Nat :=
  let r := q.routes.getOr handler 0
  if 0 < q.pkgCount ∧ r.getLsbD 8 ∧ bits r 0 8 ≠ q.pkg then some (bits r 0 8) else none

/-! ## Groups (R371, R372) -/

/-- The group ids a GRPS value names, in slot order. -/
def groupIds (g : BitVec 36) : List Nat :=
  (List.range 4).filterMap fun n => if g.getLsbD (32 + n) then some (bits g (8 * n) 8) else none

/-- The group record. -/
def Chip.group (h : Chip) (pid gid : Nat) : Group := (h.part pid).groups.getOr gid {}

/-- `f` applied to a group. -/
def Chip.modGroup (h : Chip) (pid gid : Nat) (f : Group → Group) : Chip :=
  h.modPart pid fun q => { q with groups := q.groups.put gid (f (q.groups.getOr gid {})) }

/-- The group's flags (R371). -/
def Group.gang (g : Group) : Bool := g.flags.getLsbD 1
def Group.cores (g : Group) : Bool := g.flags.getLsbD 2
def Group.rop (g : Group) : Nat := bits g.flags 4 3

/-- The clusters of a group's region. -/
def Group.regionVcns (g : Group) : List Nat := (List.range g.vcnn.toNat).map fun i => g.vcn0.toNat + i

/-- An engine command of a member of the group is not complete (R265). -/
def Chip.groupBusy (h : Chip) (pid gid : Nat) : Bool :=
  h.clusters.any fun k => k.2.cmds.any fun c => decide (c.who.pid = pid) && c.groups.contains gid

/-- A group exits: STATE 2, its region released so that migrations bounce, its gang's accumulators and slots discarded
(R197, R254, R372). -/
def Chip.exitGroup (h : Chip) (pid gid : Nat) : Chip :=
  let h := h.modGroup pid gid fun g => { g with state := 2 }
  let leave := fun b : Bank => if b.region = some (pid, gid) then { b with gone := true } else b
  { h with clusters := h.clusters.each fun _ k =>
    { k with
      banks := k.banks.each fun _ b => leave b
      gangs := k.gangs.filter fun x => decide (¬(x.pid = pid ∧ x.gid = gid)) } }

/-- The group is active on this package and has neither a member, nor a launch that names it, nor a command of a member
(R265, R372). -/
def Chip.groupEmpty (h : Chip) (pid gid : Nat) : Bool :=
  let g := h.group pid gid
  decide (g.state = 1 ∧ g.members = [] ∧ g.named = 0) && !h.groupBusy pid gid

/-- A group that has become empty exits; one of a multi-package partition exits once it is empty on every package
(R372, R432). -/
def Chip.exitIfDone (h : Chip) (pid gid : Nat) : Chip :=
  if (h.part pid).pkgCount = 0 ∧ h.groupEmpty pid gid then h.exitGroup pid gid else h

/-- A member joins the groups of its packet (R372). -/
def Chip.joinGroups (h : Chip) (pid uid : Nat) (grps : BitVec 36) : Chip :=
  (groupIds grps).foldl (fun h g => h.modGroup pid g fun x => { x with members := addOnce x.members uid }) h

/-- A member leaves a group, which may exit. -/
def Chip.leaveGroup (h : Chip) (pid uid gid : Nat) : Chip :=
  (h.modGroup pid gid fun x => { x with members := x.members.filter (· ≠ uid) }).exitIfDone pid gid

/-- A task leaves every group it is in. -/
def Chip.leaveGroups (h : Chip) (pid uid : Nat) (grps : BitVec 36) : Chip :=
  (groupIds grps).foldl (fun h g => h.leaveGroup pid uid g) h

/-- The least EXITCODE and the count of TABORTs (R371). -/
def Chip.noteAbort (h : Chip) (pid : Nat) (grps : BitVec 36) (stamp : Word) (code : Nat) : Chip :=
  (groupIds grps).foldl (fun h g => h.modGroup pid g fun x =>
    let first := match x.exitStamp with | none => true | some s => stamp.ult s
    { x with
      tabortsN := x.tabortsN + 1
      exitCode := if first then BitVec.ofNat 16 code else x.exitCode
      exitStamp := if first then some stamp else x.exitStamp }) h

/-! ## Launch bookkeeping (R308, R367) -/

/-- A task of a launch ended its count: committed, ended or cancelled. When none is left and every chunk is placed the
launch is DONE. -/
def Chip.launchDone (h : Chip) (pid : Nat) (lnum : Nat) : Chip :=
  match (h.part pid).jobs.find? fun j => decide (j.lnum = lnum) with
  | none => h
  | some j =>
    if j.live = 0 ∧ j.unplaced = [] then
      let h := h.modPart pid fun q => { q with jobs := q.jobs.filter fun j => decide (j.lnum ≠ lnum) }
      let h := { h with clusters := h.clusters.each fun _ k => { k with reserve := k.reserve.erase (pid * 2 ^ 32 + lnum) } }
      match j.slot with
      | none => h
      | some s =>
        let w := h.winA.lstat.getOr s 0
        -- the slot still shows this launch, ACCEPTED and neither BUSY nor DONE (R367)
        if w = BitVec.ofNat 64 (2 ^ 62 + j.orig % 2 ^ 32) then
          { h with winA := { h.winA with lstat := h.winA.lstat.put s (w ||| 0x8000000000000000#64) } }.raise 0
        else h
    else h

/-- The count of live tasks of a launch changed by one. -/
def Chip.launchLive (h : Chip) (pid : Nat) (l : Option Nat) (up : Bool) : Chip :=
  match l with
  | none => h
  | some n =>
    let h := h.modPart pid fun q => { q with jobs := q.jobs.map fun j =>
      if j.lnum = n then { j with live := if up then j.live + 1 else j.live - 1 } else j }
    if up then h else h.launchDone pid n

/-! ## Abort and cancellation (R154, R189, R354) -/

/-- The scratch lines a task wrote at a cluster: those it has undo records for. -/
def wroteLines (k : Cluster) (uid : Nat) : List Nat :=
  k.log.filterMap fun e =>
    match e.body with
    | .undo l _ _ => if e.uid = uid then some l else none
    | _ => none

/-- The stamp of a task, 0 where there is none. -/
def Chip.stampOf (h : Chip) (uid : Nat) : Word := ((h.task? uid).map fun t => t.packet.stamp).getD 0

/-- Task u falls with task a: it is a's child, or stamped above a and either wrote a line that a wrote or read a tracked one
whose rts lies above a (R188, R189, R354). -/
def Chip.fallsWith (h : Chip) (a u : Nat) : Bool :=
  let child := ((h.task? a).map fun t => t.children.contains u).getD false
  child || ((h.stampOf a).ult (h.stampOf u) &&
    h.clusters.any fun k =>
      (wroteLines k.2 a).any fun l =>
        (wroteLines k.2 u).contains l ||
          (k.2.mode (l / 1024) == .scratchT && (h.stampOf a).ult (k.2.tags.getOr l {}).rts &&
            k.2.sigs.any fun s => decide (s.uid = u) && sigHolds s.lines (scratchKey l)))

/-- The tasks that fall with the given ones. -/
def Chip.closure (h : Chip) : Nat → List Nat → List Nat
  | 0, us => us
  | n + 1, us =>
    let new := (h.tasks.map (·.1)).filter fun u =>
      !us.contains u && ((h.task? u).map fun t => !t.packet.quiet).getD false && us.any fun a => h.fallsWith a u
    if new = [] then us else h.closure n (us ++ new)

/-- The undo records of the tasks, from the greatest stamp down and within one task in reverse order (R189). -/
def Chip.undoList (h : Chip) (v : Nat) (us : List Nat) : List LogEntry :=
  let es := (h.cluster v).log.filter fun e =>
    us.contains e.uid && (match e.body with | .undo .. => true | _ => false)
  sortBy (fun a b =>
    (h.stampOf b.uid).ult (h.stampOf a.uid) || (h.stampOf a.uid == h.stampOf b.uid && decide (b.seq ≤ a.seq))) es

/-- One undo record applied: the bytes, wts and U come back; rts stays (R187, R189). -/
def Cluster.applyUndo (k : Cluster) (e : LogEntry) : Cluster :=
  match e.body with
  | .undo l bs tag =>
    { k with
      scratch := k.scratch.writeBytes (64 * l) bs
      tags := k.tags.put l { tag with rts := (k.tags.getOr l {}).rts } }
  | _ => k

/-- An anti-message for a send record (R354, R355). -/
def antiOf (m : Message) : Anti :=
  { sender := m.senderStamp, sendIdx := m.sendIdx, incarnation := m.incarnation, srcV := m.srcV, pid := m.pid, destV := m.destV
    stamp := m.stamp, srcPkg := m.srcPkg }

/-- An anti-message names this message: the ids (TSTAMP, send index, incarnation) are equal (R351, R355). -/
def Anti.names (a : Anti) (m : Message) : Bool :=
  decide (a.sender = m.senderStamp ∧ a.sendIdx = m.sendIdx ∧ a.incarnation = m.incarnation ∧ a.pid = m.pid)

/-- Two anti-messages carry one id. -/
def Anti.same (a b : Anti) : Bool :=
  decide (a.sender = b.sender ∧ a.sendIdx = b.sendIdx ∧ a.incarnation = b.incarnation ∧ a.pid = b.pid)

/-- The VCN a packet is addressed to. -/
def Packetry.dest : Packetry → Option Nat
  | .migration v _ => some v
  | .task v _ _ => some v
  | .message m => some m.destV
  | .anti a => some a.destV
  | .ack _ v _ _ => some v
  | .notice v _ _ _ => some v
  | .count v _ _ _ => some v
  | .frame _ => none
  | .publication _ => none

/-- The partition a packet in flight belongs to. -/
def Chip.packetPid (h : Chip) : Packetry → Nat
  | .migration _ q => q.thread.pid
  | .task _ _ u => ((h.task? u).map (·.pid)).getD 0
  | .message m => m.pid
  | .anti a => a.pid
  | .ack a _ _ _ => a.pid
  | .notice v _ _ _ => ((h.cluster v).pid).getD 0
  | .count v _ _ _ => ((h.cluster v).pid).getD 0
  | .frame f => f.pid
  | .publication m => m.pid

/-- The router of the cluster that holds a VCN, and the switch die as a source of packets. The messages of
a task leave from the router of its home, which they name; what the device sends for a launch from the switch die (log 56). -/
def Chip.routerOf (h : Chip) (v : Nat) : Nat := (h.vmap.getOr v {}).pcn.toNat / 4
def switchDie : Nat := 768

/-- The entry for VCN v at a router: an old one until the new one has reached it (R304). -/
def Chip.routerEntry (h : Chip) (router v : Nat) : VEntry :=
  match h.stale.find? fun x => decide (x.1 = router ∧ x.2.1 = v) with
  | some x => x.2.2
  | none => h.vmap.getOr v {}

/-- A packet put into the network by a source router, with the PCN and GEN that the router reads (R304). -/
def Chip.send (h : Chip) (src destV : Nat) (b : Packetry) : Chip :=
  let e := h.routerEntry src destV
  { h with flights := h.flights.put h.nextSeq { body := b, pcn := e.pcn, gen := e.gen, src := src, order := h.nextSeq } }.tick

/-! ## Frames and anti-messages (R354, R427 to R430) -/

/-- The handler number that marks a fabric publication: no handler-store entry has it (R430). -/
def publicationHandler : Nat := 1024

/-- The body of a frame that carries a message: its id, receive stamp, destination, sender, format shadows, priority and
payload (R429). -/
def frameBody (m : Message) : List Word :=
  [m.senderStamp, BitVec.ofNat 64 m.sendIdx, BitVec.ofNat 64 m.incarnation, m.stamp, BitVec.ofNat 64 m.destV,
   BitVec.ofNat 64 m.handler, BitVec.ofNat 64 m.sender, BitVec.ofNat 64 m.srcV, m.fmtA, m.fmtB, m.fmtC,
   BitVec.ofNat 64 m.priority, if m.floor then 1 else 0] ++ m.payload.map fun b => b.zeroExtend 64

/-- A frame to another package, kept until that package acknowledges it (R427). -/
def Chip.sendFrame (h : Chip) (kind pid dest : Nat) (body : List Word) : Chip :=
  let f : WireFrame :=
    { kind := kind, pid := pid, src := (h.part pid).pkg, dest := dest, seq := h.frameSeq.getOr dest 0 + 1
      ack := h.frameGot.getOr dest 0, body := body, since := h.now }
  { h with
    frameSeq := h.frameSeq.put dest f.seq, wire := h.wire ++ [f]
    unacked := h.unacked.put h.nextSeq f }.tick

/-- The anti-message of a send record put on its way: after its positive, to a cluster of this package or to the package
its positive went to (R354, R429, R430). -/
def Chip.recall (h : Chip) (m : Message) : Chip :=
  match m.toPkg with
  | some dest => h.sendFrame 2 m.pid dest (frameBody m)
  | none => h.send (h.routerOf m.srcV) m.destV (.anti (antiOf m))

/-- A slot whose thread's task was aborted is ENDED with REQUEUED (R154). -/
def Slot.abort (s : Slot) (us : List Nat) : Slot :=
  match s with
  | .live t => if us.contains t.uid then .ended t.regBase t.regLim true false else s
  | .halted t => if us.contains t.uid then .ended t.regBase t.regLim true false else s
  | .trailing t _ => if us.contains t.uid then .ended t.regBase t.regLim true false else s
  | s => s

/-- What a cluster drops for aborted tasks: threads, records, signatures, claims, engine commands. -/
def Cluster.dropTasks (k : Cluster) (us : List Nat) : Cluster :=
  { k with
    cores := k.cores.each fun _ c =>
      { c with
        slots := c.slots.each fun _ s => s.abort us
        queue := c.queue.filter fun e => !us.contains e.uid
        overflow := c.overflow.filter fun e => !us.contains e.uid }
    parked := k.parked.filter fun q => !us.contains q.thread.uid
    log := k.log.filter fun e => !us.contains e.uid
    sigs := k.sigs.filter fun s => !us.contains s.uid
    claims := k.claims.filter fun c => !us.contains c.uid
    cmds := k.cmds.filter fun c => !us.contains c.uid }

/-- An entry placed in a core's inbound queue, or in its overflow area when 32 entries are taken and it is neither an
arrival nor the floor task (R140). -/
def Chip.enqueue (h : Chip) (v c uid : Nat) (arrival floor : Bool) : Chip :=
  (h.modCore v c fun k => k.enter { uid := uid, arrival := arrival, seq := h.nextSeq } floor).tick

/-- One task after its undo: re-queued with one more abort, or discarded where it is cancelled (R354). `cancel` tells
which tasks are cancelled. A task that ended by TABORT stays ended (R152). -/
def Chip.restart (h : Chip) (uid : Nat) (cancel : Bool) : Chip :=
  match h.task? uid with
  | none => h
  | some t =>
    if cancel then
      let h := (h.leaveGroups t.pid uid t.packet.grps).launchLive t.pid t.launch false
      { h with tasks := h.tasks.erase uid }
    else if t.stage = .selfAborted then
      { h with tasks := h.tasks.put uid { t with children := [] } }
    else if (t.packet.message.map (·.handler)) = some publicationHandler then
      -- a fabric publication waits for a backing again (R280, R430)
      match t.packet.message with
      | some m => { h with tasks := h.tasks.erase uid }.send switchDie m.destV (.publication m)
      | none => h
    else
      let t' := { t with stage := .queued, aborts := t.aborts + 1, children := [], exitCode := none, ran := [], launches := [] }
      let h := { h with tasks := h.tasks.put uid t' }
      h.enqueue t.packet.homeV t.packet.homeC uid false (h.floorStamp t.pid t.packet.stamp)

/-- The LAUNCHes that a task has issued and not handed over, oldest first: record, block and TVEC (R191, R379). -/
def Chip.launchesOf (h : Chip) (uid : Nat) : List (List Byte × List Byte × Word) :=
  let logged := (sortBy (fun (a b : LogEntry) => decide (a.seq ≤ b.seq)) (h.recordsOf uid)).filterMap fun e =>
    match e.body with
    | .launch r b tv => some (r, b, tv)
    | _ => none
  logged ++ ((h.task? uid).map (·.launches)).getD []

/-- LAUNCHes of aborted tasks name their groups no longer (R372, R379). -/
def Chip.unnameLaunches (h : Chip) (pid : Nat) (rs : List (List Byte)) : Chip :=
  rs.foldl (fun h r =>
    (groupIds (BitVec.ofNat 36 (recordField r 28 1 % 16 * 2 ^ 32 + recordField r 24 4))).foldl (fun h g =>
      (h.modGroup pid g fun x => { x with named := x.named - 1 }).exitIfDone pid g) h) h

/-- Tasks aborted together, `cancelled` those whose packets are discarded; the others re-run (R154, R189, R354).
Children of aborted tasks are cancelled. -/
def Chip.abortTasks (h : Chip) (start cancelled : List Nat) : Chip :=
  let us := h.closure h.tasks.length (start.filter fun u => (h.task? u).isSome)
  let kids := us.flatMap fun u => ((h.task? u).map (·.children)).getD []
  let sends := (h.clusters.flatMap fun k => k.2.log).filterMap fun e =>
    match e.body with
    | .send m => if us.contains e.uid then some m else none
    | _ => none
  let launches := us.flatMap fun u => (h.launchesOf u).map (·.1)
  let pid := ((us.head?.bind h.task?).map (·.pid)).getD 0
  let h1 := { h with clusters := h.clusters.each fun v k =>
    ((h.undoList v us).foldl Cluster.applyUndo k).dropTasks us }
  let h2 := { h1 with
    shadows := h1.shadows.filter fun x => !us.contains x.uid
    flights := h1.flights.filter fun f =>
      match f.2.body with
      | .migration _ q => !us.contains q.thread.uid
      | .task _ _ u => !us.contains u
      | _ => true }
  let h3 := sends.foldl Chip.recall h2
  let h4 := h3.unnameLaunches pid launches
  us.foldl (fun h u => h.restart u (cancelled.contains u || kids.contains u)) h4

/-- One task aborted by a conflict and re-queued (R154). -/
def Chip.abort (h : Chip) (uid : Nat) : Chip := h.abortTasks [uid] []

/-- One task cancelled (R354). -/
def Chip.cancel (h : Chip) (uid : Nat) : Chip := h.abortTasks [uid] [uid]

/-- The need of `n` LOG units, and of a signature entry where `sig` says so, met: the task waits, the floor task takes
room from others, or the need can never be met and the access raises EPERM (R192, R387). `fuel` bounds the tasks
evicted. -/
def Chip.makeRoom (h : Chip) (v uid n : Nat) (sig : Bool) (ea : Word) : Nat → Except Stop Chip
  | 0 => .error (.trap .eperm ea)
  | fuel + 1 =>
    match h.room v uid n sig with
    | .enough => .ok h
    | .wait => .error .stall
    | .never => .error (.trap .eperm ea)
    | .evict u => (h.abort u).makeRoom v uid n sig ea fuel

/-- `makeRoom` with as much fuel as there are tasks. -/
def Chip.need (h : Chip) (v uid n : Nat) (sig : Bool) (ea : Word) : Except Stop Chip :=
  h.makeRoom v uid n sig ea (h.tasks.length + 1)

/-- The limiter defers the start of MMAs and vector commands of cluster v: the latest sample is above PLIMIT, and the
partition is not bounded (R425). -/
def Chip.limited (h : Chip) (v : Nat) : Bool :=
  (h.regs.getOr 0x4AA 12000).ult (h.regs.getOr 0x4AB 0) && !(h.part ((h.cluster v).pid.getD 0)).bounded

/-- Commands of a task that are not complete. -/
def Chip.openCmds (h : Chip) (uid : Nat) : Nat := (h.clusters.flatMap fun k => k.2.cmds).countP fun c => decide (c.uid = uid)

end Sys2Proof.Machine
end

