-- ==== Sys2Proof/Machine/Translate.lean ====
section
/-! DEFINITION. Generic addresses (R27 to R29), page tables, stations and walks (R317 to R320), published buffers
(R319). -/

namespace Sys2Proof.Machine

/-! ## Windows (R27) -/

/-- The windows of the generic address space. -/
inductive Window where
  | scratch | peer | global | none
  deriving DecidableEq, Repr

/-- The window of an address, taken as a number so that a last byte past the top lies in no window. -/
def windowOf (a : Nat) : Window :=
  if a < 0x200000 then .scratch
  else if a < 0x100000000 then .none
  else if a < 0x200000000 then .peer
  else if a < 2 ^ 56 then .global
  else .none

/-- The VCN of a peer-scratch address, and the offset in a cluster's scratch (R27). -/
def peerVcn (a : Nat) : Nat := a / 2 ^ 21 % 2 ^ 11
def scratchOff (a : Nat) : Nat := a % 2 ^ 21

/-- Where an access of `n` bytes acts: this cluster's scratch, another cluster's, or global memory. -/
inductive Place where
  | here (off : Nat)
  | remote (v off : Nat)
  | global (va : Nat)
  deriving DecidableEq, Repr

/-- The window check (R27, R28): the first byte's window holds the last byte, and a peer VCN is below V. The peer window is
one window, so an access that runs over a VCN boundary passes; no aligned access and no line of a longer one does. -/
def accessPlace (V v a n : Nat) : Option Place :=
  let w := windowOf a
  if windowOf (a + n - 1) ≠ w then none
  else
    match w with
    | .scratch => some (.here (scratchOff a))
    | .peer =>
      if V ≤ peerVcn a then none
      else if peerVcn a = v then some (.here (scratchOff a))
      else some (.remote (peerVcn a) (scratchOff a))
    | .global => some (.global a)
    | .none => none

/-- One number for every byte a thread on cluster v can name, so that the two names of a scratch byte agree. -/
def addrKey (v a : Nat) : Nat :=
  match windowOf a with
  | .scratch => 2 ^ 60 + v * 2 ^ 21 + scratchOff a
  | .peer => 2 ^ 60 + peerVcn a * 2 ^ 21 + scratchOff a
  | _ => a

/-- The keys of `n` bytes at `a`: first and last. -/
def spanOf (v a n : Nat) : Nat × Nat := (addrKey v a, addrKey v a + n - 1)

/-- Two spans share a byte. -/
def overlaps (p q : Nat × Nat) : Bool := decide (p.1 ≤ q.2 ∧ q.1 ≤ p.2)

/-! ## Page tables (R317, R318) -/

/-- ATTR of a leaf. -/
inductive Attr where
  | priv | readShared | coherent | host
  deriving DecidableEq, Repr

/-- The fields of an entry. -/
def entryValid (e : Word) : Bool := e.getLsbD 63
def entryLeaf (e : Word) : Bool := e.getLsbD 62
def entryAttr (e : Word) : Attr :=
  match bits e 60 2 with
  | 0 => .priv
  | 1 => .readShared
  | 2 => .coherent
  | _ => .host
def entryNc (e : Word) : Bool := e.getLsbD 59
def entryPub (e : Word) : Bool := e.getLsbD 58
def entryAddr (e : Word) : Nat := bits e 8 40 * 256

/-- Bytes a leaf of a level maps, and the table size of a level (R317). -/
def leafSize : Nat → Nat
  | 0 => 2 ^ 16
  | 1 => 2 ^ 21
  | _ => 2 ^ 30
def tableSize : Nat → Nat
  | 0 => 256
  | 1 => 4096
  | 2 => 4096
  | _ => 2 ^ 20

/-- The index of a VA in the table of a level. -/
def levelIndex (va : Nat) : Nat → Nat
  | 0 => va / 2 ^ 16 % 2 ^ 5
  | 1 => va / 2 ^ 21 % 2 ^ 9
  | 2 => va / 2 ^ 30 % 2 ^ 9
  | _ => va / 2 ^ 39 % 2 ^ 17

/-- Why a leaf of level `n` cannot be used, as the REASON of the fault record; none if it is well formed (R318). A PA of
device memory that HBM4 does not reach is REASON 2, every other malformed entry REASON 1 (log 47). -/
def leafFault (n : Nat) (e : Word) : Option Nat :=
  let pa := entryAddr e
  let host := decide (2 ^ 47 ≤ pa)
  if bits e 48 10 ≠ 0 ∨ bits e 0 8 ≠ 0 ∨ n = 3 then some 1
  else if entryPub e && decide (entryAttr e ≠ .coherent) then some 1
  else if !entryPub e && decide (pa % leafSize n ≠ 0) then some 1
  else if decide (entryAttr e = .host) ≠ host then some 1
  else if !host && decide (2 ^ 41 ≤ pa) then some 2
  else none

/-- Why a pointer to a table of level `n` cannot be used. -/
def pointerFault (n : Nat) (e : Word) : Option Nat :=
  let pa := entryAddr e
  if bits e 48 14 ≠ 0 ∨ bits e 0 8 ≠ 0 ∨ pa % tableSize n ≠ 0 ∨ 2 ^ 47 ≤ pa then some 1
  else if 2 ^ 41 ≤ pa then some 2
  else none

/-- The walk from the table of level `n` (R317): the leaf and its level, or REASON and LEVEL of the fault. -/
def walkFrom (m : Mem) (va : Nat) : (n : Nat) → (table : Nat) → Except (Nat × Nat) (Word × Nat)
  | n, table =>
    let e := m.read64 (table + 8 * levelIndex va n)
    if !entryValid e then .error (0, n)
    else if entryLeaf e then
      match leafFault n e with
      | some r => .error (r, n)
      | none => .ok (e, n)
    else
      match n with
      | 0 => .error (1, 0)
      | k + 1 =>
        match pointerFault k e with
        | some r => .error (r, k + 1)
        | none => walkFrom m va k (entryAddr e)

/-- The entries of levels 3 to 1 that a walk from the table of level `n` passes, with their levels (R317). -/
def upperPath (m : Mem) (va : Nat) : (n : Nat) → (table : Nat) → List (Nat × Word)
  | 0, _ => []
  | n + 1, table =>
    let e := m.read64 (table + 8 * levelIndex va (n + 1))
    if !entryValid e then []
    else (n + 1, e) :: (if entryLeaf e then [] else upperPath m va n (entryAddr e))

/-- The valid entries of the table of level `n` and of the tables below it: level, first VA, and entry (R317). -/
def entriesBelow (m : Mem) : (n : Nat) → (table va : Nat) → List (Nat × Nat × Word)
  | n, table, va =>
    -- an index none of whose bytes is listed reads as zero, not valid
    let listed := m.filter fun c => decide (table ≤ c.1 ∧ c.1 < table + tableSize n)
    ((listed.map fun c => (c.1 - table) / 8).foldl addOnce []).flatMap fun i =>
      let e := m.read64 (table + 8 * i)
      let va := va + i * (match n with | 3 => 2 ^ 39 | k => leafSize k)
      if !entryValid e then []
      else (n, va, e) :: (if entryLeaf e then [] else match n with | 0 => [] | k + 1 => entriesBelow m k (entryAddr e) va)

/-- A plain package register, as last written. -/
def Chip.reg (h : Chip) (i : Nat) : Word := h.regs.getOr i 0

/-- The root of a PASID's tables (R317). -/
def Chip.rootOf (h : Chip) (pid : Nat) : Word := h.hbm.read64 ((h.reg 0x420).toNat + 8 * pid)

/-- The valid entries of a PASID's tables. -/
def Chip.entriesOf (h : Chip) (pid : Nat) : List (Nat × Nat × Word) :=
  let root := h.rootOf pid
  if (h.reg 0x421).toNat ≤ pid ∨ !entryValid root ∨ entryLeaf root then [] else entriesBelow h.hbm 3 (entryAddr root) 0

/-! ## Stations (R320) -/

/-- The 64 KiB region of a VA. -/
def regionOf (va : Nat) : Nat := va / 2 ^ 16

/-- The station of a region (R320). -/
def stationOf (pid region : Nat) : Nat := (crc32c (natToBytes 8 (pid * 2 ^ 40 + region))).toNat / 2 ^ 24

/-- The 64 KiB regions that a page of a level, or an entry of levels 1 to 3, covers (R317). -/
def regionsOf : Nat → Nat
  | 0 => 1
  | 1 => 2 ^ 5
  | 2 => 2 ^ 14
  | _ => 2 ^ 23

/-- An entry holds the page of a region. -/
def StationEntry.covers (e : StationEntry) (region : Nat) : Bool := decide (region / regionsOf e.level * regionsOf e.level = e.region)

/-- The entry for a region in its station. -/
def Chip.station (h : Chip) (pid region : Nat) : Option StationEntry :=
  h.stations.find? fun e => decide (e.pid = pid) && e.covers region && decide (e.station = stationOf pid region)

/-- A region's walk that met a fault or has not ended. -/
def Chip.walkOf (h : Chip) (pid region : Nat) : Option Walk :=
  h.walks.find? fun w => decide (w.pid = pid ∧ w.region = region)

/-- The lowest entry for a VA in its station's walk cache, with its level (R320). -/
def Chip.cachedUpper (h : Chip) (pid va : Nat) : Option (Nat × Word) :=
  [1, 2, 3].findSome? fun n =>
    (h.upper.find? fun e => decide (e.pid = pid ∧ e.level = n ∧ e.tag = regionOf va / regionsOf n) &&
      decide (e.station = stationOf pid (regionOf va))).map fun e => (n, e.entry)

/-- The walk of a PASID's tables, from the lowest entry that the station's walk cache holds (R317, R320). A PASID at or above
PASIDN has no root. -/
def Chip.walk (h : Chip) (pid va : Nat) : Except (Nat × Nat) (Word × Nat) :=
  match h.cachedUpper pid va with
  | some (n, e) => if entryLeaf e then .ok (e, n) else walkFrom h.hbm va (n - 1) (entryAddr e)
  | none =>
    let root := h.rootOf pid
    if (h.reg 0x421).toNat ≤ pid ∨ !entryValid root then .error (0, 3)
    else if entryLeaf root then .error (1, 3)
    else
      match pointerFault 3 root with
      | some r => .error (r, 3)
      | none => walkFrom h.hbm va 3 (entryAddr root)

/-- The entries of levels 3 to 1 that the walk of a VA reads in memory. -/
def Chip.walkPath (h : Chip) (pid va : Nat) : List (Nat × Word) :=
  match h.cachedUpper pid va with
  | some (n, e) => if entryLeaf e then [] else upperPath h.hbm va (n - 1) (entryAddr e)
  | none => upperPath h.hbm va 3 (entryAddr (h.rootOf pid))

/-- An element put behind the others; where `cap` of a kind stand in the list, the first of them that may go makes room. -/
def enterCapped {α : Type} (kind free : α → Bool) (cap : Nat) (l : List α) (x : α) : List α :=
  (if cap ≤ l.countP kind then l.eraseP fun y => kind y && free y else l) ++ [x]

/-- An entry put into a station's walk cache of 512 (R320, R325). -/
def Chip.enterUpper (h : Chip) (e : WalkEntry) : Chip :=
  let same := fun x : WalkEntry => decide (x.station = e.station ∧ x.pid = e.pid ∧ x.level = e.level ∧ x.tag = e.tag)
  { h with upper := enterCapped (fun x => decide (x.station = e.station)) (fun x => !x.pinned) 512 (h.upper.filter fun x => !same x) e }

/-- The translation of a region put into its station, one of 8,192 entries, with the upper entries that its walk read (R320); those
of a bounded partition stay (R325). -/
def Chip.enterPage (h : Chip) (pid region : Nat) (leaf : Word) (level : Nat) : Chip :=
  let s := stationOf pid region
  let e : StationEntry := { station := s, pid := pid, region := region / regionsOf level * regionsOf level, leaf := leaf, level := level }
  let h := (h.walkPath pid (region * 2 ^ 16)).foldl (fun h x =>
    h.enterUpper { station := s, pid := pid, level := x.1, tag := region / regionsOf x.1, entry := x.2, pinned := (h.part pid).bounded }) h
  { h with stations := enterCapped (fun x : StationEntry => decide (x.station = s)) (fun _ => true) 8192 h.stations e }

/-- Requests that wait for a walk (R323). -/
def Walk.waiting (w : Walk) : Nat := w.waiters.length + w.threads.length

/-- The walks of the station of a region. -/
def Chip.stationWalks (h : Chip) (pid region : Nat) : List Walk :=
  h.walks.filter fun (w : Walk) => decide (stationOf w.pid w.region = stationOf pid region)

/-- The station takes one more request for a region (R320): its buffer of 4,096 has room, and the region's walk is outstanding
or the walker of 128 has room for it. A request that is not taken is held and comes again. -/
def Chip.takesRequest (h : Chip) (pid region : Nat) : Bool :=
  let ws := h.stationWalks pid region
  decide ((ws.map Walk.waiting).sum < 4096) &&
    ((h.walkOf pid region).isSome || decide ((ws.countP fun w => !w.reported) < 128))

/-- The chip after the station has looked up a region: a walk that succeeds at once leaves an entry (log 13). While a
faulted walk of the region is outstanding, requests join it, and where the station takes no request they are held (R320). -/
def Chip.warm (h : Chip) (pid va : Nat) : Chip :=
  let r := regionOf va
  if (h.station pid r).isSome ∨ (h.walkOf pid r).isSome ∨ !h.takesRequest pid r then h
  else
    match h.walk pid va with
    | .ok (leaf, level) => h.enterPage pid r leaf level
    | .error _ => h

/-- A translated byte: its PA, attribute and flags; for a published buffer the record's PA too (R319). -/
structure Leaf where
  pa : Nat
  attr : Attr
  nc : Bool
  pub : Option Nat
  deriving DecidableEq, Repr

/-- The PA of backing n of a publication record (R319). -/
def Chip.backing (h : Chip) (record n : Nat) : Nat := (h.hbm.read64 (record + 24 + 8 * n)).toNat

/-- VIS, NB, BASE and SIZE of a publication record (R319). -/
def Chip.pubVis (h : Chip) (record : Nat) : Nat := (h.hbm.read (record + 16)).toNat
def Chip.pubNb (h : Chip) (record : Nat) : Nat := (h.hbm.read (record + 17)).toNat
def Chip.pubBase (h : Chip) (record : Nat) : Nat := (h.hbm.read64 record).toNat
def Chip.pubSize (h : Chip) (record : Nat) : Nat := (h.hbm.read64 (record + 8)).toNat

/-- The translation that a station entry gives a VA. -/
def Chip.leafAt (h : Chip) (e : StationEntry) (va : Nat) : Leaf :=
  let base := entryAddr e.leaf
  if entryPub e.leaf then
    { pa := h.backing base (h.pubVis base) + (va - h.pubBase base), attr := .coherent, nc := entryNc e.leaf, pub := some base }
  else { pa := base + va % leafSize e.level, attr := entryAttr e.leaf, nc := entryNc e.leaf, pub := none }

/-- The translation of a VA, if its station holds it. -/
def Chip.translate (h : Chip) (pid va : Nat) : Option Leaf := (h.station pid (regionOf va)).map fun e => h.leafAt e va

/-! ## What an access can meet -/

/-- Why an access is not performed: a fault found after issue (deferred-precise), a walk of a region, or a stop of
the instruction itself. -/
inductive Blocked where
  | fault (t : Trap) (tval : Word)
  | walk (pid region : Nat)
  | stop (e : Stop)
  deriving DecidableEq, Repr

/-- The maker of a thread's accesses (R22, R73). -/
def Thread.who (t : Thread) : Who :=
  { uid := t.uid, pid := t.pid, stamp := t.stamp, rejected := t.rejected
    mode := if t.sup then .super else if t.quiet then .quiet else .spec }

/-- The maker of the accesses of an operation, in the mode it was issued in. -/
def Thread.opWho (t : Thread) (op : Op) : Who :=
  { uid := t.uid, pid := t.pid, stamp := t.stamp, rejected := t.rejected
    mode := if op.sup then .super else if t.quiet then .quiet else .spec }

/-- The maker of an access that a handler replays for its suspended task (R132). -/
def Thread.taskWho (t : Thread) : Who :=
  { uid := t.uid, pid := t.pid, stamp := t.stamp, rejected := t.rejected, mode := if t.quiet then .quiet else .spec }

/-- A byte's translation, or the walk it waits for: EPAGE where the driver rejected the region (R324) or the
partition is bounded (R325). -/
def Chip.resolve (h : Chip) (w : Who) (va : Nat) (ea : Word) : Except Blocked Leaf :=
  if w.rejected.contains (regionOf va) then .error (.fault .epage ea)
  else
    match h.translate w.pid va with
    | some l => .ok l
    | none => if (h.part w.pid).bounded then .error (.fault .epage ea) else .error (.walk w.pid (regionOf va))

end Sys2Proof.Machine
end

