-- ==== Sys2Proof/Machine/Memory.lean ====
section
/-! DEFINITION. Accesses to scratch banks and global pages by domain (R73, R74, R78, R81, R82, R184 to R192, R275,
R315, R329 to R334, R337). Each acts on one 64-byte line at most. -/

namespace Sys2Proof.Machine

/-! ## Own reductions (R82) -/

/-- The bytes a reduction form covers (R80). -/
def RedKind.size : RedKind → Nat
  | .faddS => 4
  | _ => 8

/-- The task has a reduction record that covers one of `n` bytes at `a` (a scratch offset of cluster v, or a PA). -/
def Chip.ownReduction (h : Chip) (v uid : Nat) (global : Bool) (a n : Nat) : Bool :=
  h.clusters.any fun k => (global || decide (k.1 = v)) && k.2.log.any fun e =>
    match e.body with
    | .red kd g b _ _ => decide (e.uid = uid) && (g == global) && decide (a < b + kd.size ∧ b < a + n)
    | _ => false

/-! ## Tracked lines (R187, R188) -/

/-- The tag of a scratch line. -/
def Chip.tag (h : Chip) (v line : Nat) : LineTag := (h.cluster v).tags.getOr line {}

/-- Uncommitted writers of the line above the stamp are aborted, one after another, and the line tested again (R188). -/
def Chip.clearWriters (h : Chip) (v line : Nat) (t : Word) : Nat → Chip
  | 0 => h
  | n + 1 =>
    let g := h.tag v line
    if g.u && t.ult g.wts then (h.abort g.writer).clearWriters v line t n else h

/-- The peer-scratch address of a line, as a partition-error record names it (R419). -/
def lineAddr (v line : Nat) : Word := BitVec.ofNat 64 (0x100000000 + v * 2 ^ 21 + 64 * line)

/-- Another uncommitted task with this stamp wrote the line, or (for a write) read it (R346). -/
def Chip.dupAt (h : Chip) (w : Who) (v line : Nat) (write : Bool) : Bool :=
  let g := h.tag v line
  (g.u && g.wts == w.stamp && decide (g.writer ≠ w.uid)) ||
    (write && (h.cluster v).sigs.any fun s =>
      decide (s.uid ≠ w.uid) && (h.stampOf s.uid == w.stamp) && s.lines.contains (scratchKey line) && decide (((h.task? s.uid).map (·.pid)) = some w.pid))

/-- The tags of a line changed. -/
def Chip.modTag (h : Chip) (v line : Nat) (f : LineTag → LineTag) : Chip :=
  h.modCluster v fun k => { k with tags := k.tags.put line (f (k.tags.getOr line {})) }

/-- Lifts a stop of the instruction into what an access meets. -/
def stopOf {α : Type} : Except Stop α → Except Blocked α
  | .ok x => .ok x
  | .error e => .error (.stop e)

/-- A tracked read's effects at a line: later writers aborted, rts raised, the line entered in the signature (R188). -/
def Chip.trackRead (h : Chip) (w : Who) (v line : Nat) (ea : Word) : Except Blocked Chip := do
  let h ← stopOf (h.need v w.uid 0 (!h.hasSig v w.uid) ea)
  let h := h.clearWriters v line w.stamp (h.tasks.length + 1)
  let h := if h.dupAt w v line false then h.dupStamp w.pid v w.stamp (lineAddr v line) else h
  let h := h.modTag v line fun g => { g with rts := if g.rts.ult w.stamp then w.stamp else g.rts }
  .ok (h.modSig v w.uid fun s => { s with lines := addOnce s.lines (scratchKey line) })

/-- The task has an undo record for the line. -/
def Chip.hasUndo (h : Chip) (v uid line : Nat) : Bool := (wroteLines (h.cluster v) uid).contains line

/-- An undo record for the line, unless the task has one (R187, R191). -/
def Chip.makeUndo (h : Chip) (w : Who) (v line : Nat) (ea : Word) : Except Blocked Chip :=
  if h.hasUndo v w.uid line then .ok h
  else do
    let h ← stopOf (h.need v w.uid 3 false ea)
    .ok (h.addRecord v w.uid (.undo line ((h.cluster v).scratch.readBytes (64 * line) 64) (h.tag v line)))

/-- A tracked write's effects at a line before its bytes change: later writers and readers aborted, the undo record
made, wts and U set (R188). `none` says that the partition has stopped with EDUPSTAMP and nothing is written. -/
def Chip.trackWrite (h : Chip) (w : Who) (v line : Nat) (ea : Word) : Except Blocked (Chip × Bool) := do
  let h := h.clearWriters v line w.stamp (h.tasks.length + 1)
  if h.dupAt w v line true then .ok (h.dupStamp w.pid v w.stamp (lineAddr v line), false)
  else
    let readers := (h.cluster v).sigs.filterMap fun s =>
      if sigHolds s.lines (scratchKey line) && w.stamp.ult (h.stampOf s.uid) then some s.uid else none
    let h := if w.stamp.ult (h.tag v line).rts then h.abortTasks readers [] else h
    let h ← h.makeUndo w v line ea
    .ok (h.modTag v line fun g => { g with wts := w.stamp, u := true, writer := w.uid }, true)

/-! ## Scratch banks (R73) -/

/-- The bytes of a scratch bank read or written. -/
def Chip.scratchBytes (h : Chip) (v off n : Nat) : List Byte := (h.cluster v).scratch.readBytes off n
def Chip.putScratch (h : Chip) (v off : Nat) (bs : List Byte) : Chip :=
  h.modCluster v fun k => { k with scratch := k.scratch.writeBytes off bs }

/-- A load's bytes from a scratch bank, with the effects of its domain (R73). -/
def Chip.readScratch (h : Chip) (w : Who) (v off n : Nat) (ea : Word) : Except Blocked (List Byte × Chip) :=
  match (h.cluster v).mode (off / 65536) with
  | .scratch => .ok (h.scratchBytes v off n, h)
  | .scratchT =>
    match w.mode with
    | .super => .ok (h.scratchBytes v off n, h)
    | .quiet => .error (.fault .equiet ea)
    | .spec =>
      if h.ownReduction v w.uid false off n then .error (.fault .eperm ea)
      else do
        let h ← h.trackRead w v (off / 64) ea
        .ok (h.scratchBytes v off n, h)
  | _ => .error (.fault .ebankmode ea)

/-- A store's bytes into a scratch bank, with the effects of its domain (R73). -/
def Chip.writeScratch (h : Chip) (w : Who) (v off : Nat) (bs : List Byte) (ea : Word) : Except Blocked Chip :=
  match (h.cluster v).mode (off / 65536) with
  | .scratch =>
    match w.mode with
    | .spec => do
      let h ← h.makeUndo w v (off / 64) ea
      .ok (h.putScratch v off bs)
    | _ => .ok (h.putScratch v off bs)
  | .scratchT =>
    match w.mode with
    | .super => .ok (h.putScratch v off bs)
    | .quiet => .error (.fault .equiet ea)
    | .spec =>
      if h.ownReduction v w.uid false off bs.length then .error (.fault .eperm ea)
      else do
        let (h, go) ← h.trackWrite w v (off / 64) ea
        .ok (if go then h.putScratch v off bs else h)
  | _ => .error (.fault .ebankmode ea)

/-! ## The cluster cache (R184) and write-throughs (R186, R315) -/

/-- `bs` laid over a list of bytes that begins at `base`, where they begin at `a`. -/
def overlay (base : Nat) (xs : List Byte) (a : Nat) (bs : List Byte) : List Byte :=
  (List.range xs.length).map fun i =>
    let k := base + i
    if a ≤ k ∧ k < a + bs.length then bs.getD (k - a) 0 else xs.getD i 0

/-- The cached copies of a cluster updated by a write to a PA (R184). -/
def Cluster.updateCache (k : Cluster) (pa : Nat) (bs : List Byte) : Cluster :=
  { k with cache := k.cache.map fun c => { c with bytes := overlay c.pa c.bytes pa bs } }

/-- A cluster's cached lines of PRIVATE pages dropped: what other clusters wrote before, in the order of R339, is read anew. -/
def Chip.dropPrivate (h : Chip) (v : Nat) : Chip :=
  h.modCluster v fun k => { k with cache := k.cache.filter fun c => !c.isPrivate }

/-- A line filled at the front, the least recently used line of a full set dropped (R184). -/
def Cluster.fill (k : Cluster) (c : CacheLine) : Cluster :=
  let ways := k.countMode .cache
  if ways = 0 then k
  else
    let rest := k.cache.filter fun x => decide (x.pa ≠ c.pa)
    let inSet := rest.filter fun x => decide (x.pa / 64 % 1024 = c.pa / 64 % 1024)
    let rest := if ways ≤ inSet.length then
        match inSet.getLast? with
        | some l => rest.filter fun x => decide (x.pa ≠ l.pa)
        | none => rest
      else rest
    { k with cache := c :: rest }

/-- The bytes of a line in device memory. -/
def Chip.lineBytes (h : Chip) (pa : Nat) : List Byte := h.hbm.readBytes (pa / 64 * 64) 64

/-- The channel of a device address, its stack, memory die and memory-side slice (R313). -/
def channelOf (pa : Nat) : Nat := (pa / 2 ^ 12 % 2 ^ 10) ^^^ (pa / 2 ^ 22 % 2 ^ 10)
def stackOf (channel : Nat) : Nat := channel / 32
def memoryDieOf (channel : Nat) : Nat := channel / 64
def memorySliceOf (channel : Nat) : Nat := channel / 2

/-- The live slices that SLICESKIP names, in increasing number (R321). -/
def Chip.liveList (h : Chip) : List Nat :=
  (List.range 512).filter fun j => (h.regs.getOr (0x411 + j / 64) (BitVec.allOnes 64)).getLsbD (j % 64)

/-- How many slices are live (R321). -/
def Chip.liveSlices (h : Chip) : Nat := h.liveList.length

/-- The core-side slice of a device address (R314). -/
def Chip.sliceOf (h : Chip) (pa : Nat) : Nat :=
  h.liveList.getD ((crc32c (natToBytes 8 (pa / 64))).toNat * (512 - bits (h.reg 0x410) 0 6) / 2 ^ 32) 0

/-- A line put first into a tier's list of `cap` lines, dirty once written; with it the line that makes room (R312). -/
def enterLine (cap : Nat) (l : List TierLine) (x : TierLine) : List TierLine × Option TierLine :=
  let was := l.any fun y => decide (y.line = x.line) && y.dirty
  let l := { x with dirty := x.dirty || was } :: l.filter fun y => decide (y.line ≠ x.line)
  if cap < l.length then (l.take cap, l.getLast?) else (l, none)

/-- A line that the memory-side tier holds, in the list of its channel: 6 MiB (R312, R313). A dirty line that makes room goes
to HBM4 (R315). -/
def Chip.touchHome (h : Chip) (pa : Nat) (dirty : Bool) : Chip :=
  let c := channelOf pa
  { h with tiers := { h.tiers with
    channels := h.tiers.channels.put c (enterLine 98304 (h.tiers.channels.getOr c []) ⟨pa / 64, dirty⟩).1 } }

/-- A line that the core-side tier holds dirty after a write, or clean after a read, which reads it through the memory-side tier
(R312, R314, R315). A dirty line that makes room goes to the memory-side tier. Host addresses bypass the tiers. Where a
tier is full its oldest line leaves (log 57). -/
def Chip.touch (h : Chip) (pa : Nat) (dirty : Bool) : Chip :=
  if 2 ^ 41 ≤ pa then h
  else
    let i := h.sliceOf pa
    let l := h.tiers.slices.getOr i []
    let h := if dirty || l.any (fun y => decide (y.line = pa / 64)) then h else h.touchHome pa false
    let r := enterLine 32768 l ⟨pa / 64, dirty⟩
    let h : Chip := { h with tiers := { h.tiers with slices := h.tiers.slices.put i r.1 } }
    match r.2 with
    | some y => if y.dirty then h.touchHome (64 * y.line) true else h
    | none => h

/-- A write performed at a PRIVATE line's core-side slice (R315). -/
def Chip.writePrivate (h : Chip) (pa : Nat) (bs : List Byte) : Chip :=
  { h with hbm := h.hbm.writeBytes pa bs }.touch pa true

/-- A write to a COHERENT line at its home memory-side tier; a core-side copy is updated with it (R315). -/
def Chip.writeHome (h : Chip) (pa : Nat) (bs : List Byte) : Chip :=
  { h with hbm := h.hbm.writeBytes pa bs }.touchHome pa true

/-- The oldest write-through of a cluster performed at its slice; a copy that the cluster has cached since is updated, the later
ones laid over it (R184, R186, R315). -/
def Chip.performThrough (h : Chip) (v : Nat) : Chip :=
  match (h.cluster v).throughs with
  | [] => h
  | t :: ts =>
    ((h.modCluster v fun k => { k with throughs := ts }).writePrivate t.pa t.bytes).modCluster v fun k =>
      (t :: ts).foldl (fun k u => k.updateCache u.pa u.bytes) k

/-- Every write-through of the cluster up to the last one of this thread performed, in order. -/
def Chip.drainThroughs (h : Chip) (v uid : Nat) : Nat → Chip
  | 0 => h
  | n + 1 => if (h.cluster v).throughs.any (fun t => decide (t.uid = uid)) then (h.performThrough v).drainThroughs v uid n else h

/-- The thread has write-throughs that are not performed (R186). -/
def Chip.hasThroughs (h : Chip) (v uid : Nat) : Bool := (h.cluster v).throughs.any fun t => decide (t.uid = uid)

/-! ## Leases, notices and the directory (R331 to R334) -/

/-- The greatest stamp that the window of a partition lets run (R331): (GVT.VT + W)·2^24 + 2^24 - 1, at most all ones. -/
def Partition.horizon (q : Partition) : Word :=
  let n := (((q.gvt.getD 0).toNat / 2 ^ 24) + q.w.toNat) * 2 ^ 24 + 2 ^ 24 - 1
  if 2 ^ 64 ≤ n then BitVec.allOnes 64 else BitVec.ofNat 64 n

/-- The greater of two stamps. -/
def maxStamp (a b : Word) : Word := if a.ult b then b else a

/-- The directory's set of a line: 16 ways, 2^20 sets (R334). -/
def dirSet (line : Nat) : Nat := line % 2 ^ 20

/-- An entry for the line made if there is none; a full set evicts its oldest entry and keeps the floor (R334). -/
def Chip.dirEnsure (h : Chip) (line : Nat) : Chip :=
  if h.directory.any (fun e => decide (e.line = line)) then h
  else
    let set := h.directory.filter fun e => decide (dirSet e.line = dirSet line)
    let h := if 16 ≤ set.length then
        match set.head? with
        | some old =>
          { h with
            directory := h.directory.filter fun e => decide (e.line ≠ old.line)
            floors := h.floors.put (dirSet line) (maxStamp (h.floors.getOr (dirSet line) 0) old.rts) }
        | none => h
      else h
    { h with directory := h.directory ++ [⟨line, 0, []⟩] }

/-- `f` applied to the line's entry. -/
def Chip.modDir (h : Chip) (line : Nat) (f : DirEntry → DirEntry) : Chip :=
  let h := h.dirEnsure line
  { h with directory := h.directory.map fun e => if e.line = line then f e else e }

/-- A lease of at least `t` on the line for cluster v (R331). -/
def Chip.grantLease (h : Chip) (pid v line : Nat) (t : Word) : Chip :=
  let l := maxStamp t (h.part pid).horizon
  (h.modDir line fun e => { e with rts := maxStamp e.rts l, holders := addOnce e.holders v }).modCluster v fun k =>
    { k with leases := k.leases.put line l }

/-- The die that holds a VCN's physical cluster (R300, R304). -/
def Chip.dieOf (h : Chip) (v : Nat) : Nat := (h.vmap.getOr v {}).pcn.toNat / 128

/-- A stamp lies above the stamp of a notice; `none` lies below every stamp (a supervisor store at GVT 0, R337). -/
def above (w : Option Word) (x : Word) : Bool :=
  match w with
  | some w => w.ult x
  | none => true

/-- The directory entry of a line written at w: rts at least w (R332). -/
def Chip.raiseDir (h : Chip) (line : Nat) (w : Word) : Chip := h.modDir line fun e => { e with rts := maxStamp e.rts w }

/-- The clusters a commit at w to a line notifies (R332, R334): every cluster of the partition under the floor rule;
the holders with a greater lease; beyond four holders, every cluster of the partition on their dies. -/
def Chip.noticeTargets (h : Chip) (pid line : Nat) (w : Option Word) : List Nat :=
  let vs := (h.part pid).vcns
  if ((h.floors.get (dirSet line)).map (above w)).getD false then vs
  else
    match h.directory.find? fun e => decide (e.line = line) with
    | none => []
    | some e =>
      if e.holders.length ≤ 4 then
        e.holders.filter fun v => (((h.cluster v).leases.get line).map (above w)).getD false
      else vs.filter fun v => (e.holders.map h.dieOf).contains (h.dieOf v)

/-- A conflict notice performed at a cluster (R333): later readers aborted, the lease lowered to w. A buffer notice
names the publication record. -/
def Chip.performNotice (h : Chip) (v line : Nat) (w : Option Word) (buffer : Bool) : Chip :=
  let readers := (h.cluster v).sigs.filterMap fun s =>
    if sigHolds s.lines (if buffer then bufferKey line else coherentKey line) && above w (h.stampOf s.uid) then some s.uid
    else none
  let h := if readers = [] then h else h.abortTasks readers []
  if buffer then h
  else h.modCluster v fun k =>
    match k.leases.get line with
    | some l =>
      if !above w l then k
      else { k with leases := match w with | some w => k.leases.put line w | none => k.leases.erase line }
    | none => k

/-! ## Global pages (R73) -/

/-- A thread's own redo bytes laid over a line's bytes, youngest record last (R74). -/
def Chip.withRedo (h : Chip) (uid pa : Nat) (xs : List Byte) : List Byte :=
  let line := pa / 64 * 64
  let es := (h.recordsOf uid).filterMap fun e =>
    match e.body with
    | .redo l _ _ m => if l = line then some (e.seq, m) else none
    | _ => none
  let es := sortBy (fun a b => decide (a.1 ≤ b.1)) es
  es.foldl (fun xs e => e.2.foldl (fun xs p => overlay pa xs (line + p.1) [p.2]) xs) xs

/-- A cluster's queued write-throughs of this thread laid over bytes at a PA (R75). -/
def Chip.withThroughs (h : Chip) (v uid pa : Nat) (xs : List Byte) : List Byte :=
  (h.cluster v).throughs.foldl (fun xs t => if t.uid = uid then overlay pa xs t.pa t.bytes else xs) xs

/-- Bytes of a line as a load that may use the cluster cache sees them, and the chip after a fill (R184, R331).
`fresh` says that the cached copy may not be used. -/
def Chip.cachedRead (h : Chip) (v : Nat) (l : Leaf) (n : Nat) (fresh : Bool) : List Byte × Chip :=
  let base := l.pa / 64 * 64
  let k := h.cluster v
  match (if l.nc || fresh then none else k.cache.find? fun c => decide (c.pa = base)) with
  | some c =>
    ((c.bytes.drop (l.pa - base)).take n,
      h.modCluster v fun k => { k with cache := c :: k.cache.filter fun x => decide (x.pa ≠ base) })
  | none =>
    let h := h.touch l.pa false
    (h.hbm.readBytes l.pa n,
      if l.nc then h
      else h.modCluster v fun k => k.fill { pa := base, bytes := h.lineBytes l.pa, isPrivate := decide (l.attr = .priv) })

/-- A load's bytes from a global page (R73, R74, R275, R330, R337). -/
def Chip.readGlobal (h : Chip) (w : Who) (v va n : Nat) (ea : Word) : Except Blocked (List Byte × Chip) := do
  let h := h.warm w.pid va
  let l ← h.resolve w va ea
  match l.pub with
  | some rec =>
    match w.mode with
    | .quiet => .error (.fault .equiet ea)
    | .super => .ok (h.hbm.readBytes l.pa n, h)
    | .spec => do
      let h ← stopOf (h.need v w.uid 0 (!h.hasSig v w.uid) ea)
      let h := { h with bufRts := h.bufRts.put rec (maxStamp (h.bufRts.getOr rec 0) w.stamp) }
      let h := h.modSig v w.uid fun s => { s with lines := addOnce s.lines (bufferKey rec) }
      .ok (h.hbm.readBytes l.pa n, h)
  | none =>
    match l.attr with
    | .host => .error (.fault .eperm ea)
    | .readShared => .ok (h.cachedRead v l n false)
    | .priv =>
      let (xs, h) := h.cachedRead v l n false
      let xs := h.withThroughs v w.uid l.pa xs
      match w.mode with
      | .spec => .ok (h.withRedo w.uid l.pa xs, h)
      | _ => .ok (xs, h)
    | .coherent =>
      match w.mode with
      | .quiet => .error (.fault .equiet ea)
      | .super => .ok (h.hbm.readBytes l.pa n, h)
      | .spec =>
        if h.ownReduction v w.uid true l.pa n then .error (.fault .eperm ea)
        else do
          let h ← stopOf (h.need v w.uid 0 (!h.hasSig v w.uid) ea)
          let line := l.pa / 64
          -- the cached copy serves the load up to its lease; any other load goes to the directory (R331)
          let held := (match (h.cluster v).leases.get line with
            | some x => w.stamp.ule x
            | none => false) && !l.nc && (h.cluster v).cache.any fun c => decide (c.pa = l.pa / 64 * 64)
          let h := if held then h else h.grantLease w.pid v line w.stamp
          let (xs, h) := h.cachedRead v l n (!held)
          let h := h.modSig v w.uid fun s => { s with lines := addOnce s.lines (coherentKey line) }
          .ok (h.withRedo w.uid l.pa xs, h)

/-- Bytes merged into the task's redo record of the line, which is made if there is none (R191). -/
def Chip.redoWrite (h : Chip) (w : Who) (v pa : Nat) (coherent : Bool) (va : Nat) (bs : List Byte) (ea : Word) :
    Except Blocked Chip :=
  let line := pa / 64 * 64
  let merge := fun m : Map Byte => (List.range bs.length).foldl (fun m i => m.put (pa - line + i) (bs.getD i 0)) m
  let mine := fun e : LogEntry => decide (e.uid = w.uid) && (match e.body with | .redo l _ _ _ => decide (l = line) | _ => false)
  if (h.recordsOf w.uid).any mine then
    .ok { h with clusters := h.clusters.each fun _ k => { k with log := k.log.map fun e =>
      match e.body with
      | .redo l c a m => if mine e then { e with body := .redo l c a (merge m) } else e
      | _ => e } }
  else do
    let h ← stopOf (h.need v w.uid 3 false ea)
    .ok (h.addRecord v w.uid (.redo line coherent (BitVec.ofNat 64 (va / 64 * 64)) (merge [])))

/-- A supervisor store to a COHERENT line: written at once with the directory updated, and notices at GVT - 1 to the clusters
that hold the line (R73, R337). An idle partition has neither readers nor leases. -/
def Chip.superCoherent (h : Chip) (pid v pa : Nat) (bs : List Byte) : Chip :=
  let line := pa / 64
  let h := (h.writeHome pa bs).modCluster v fun k => k.updateCache pa bs
  match (h.part pid).gvt with
  | none => h.dirEnsure line
  | some g =>
    let w := if g = 0 then none else some (g - 1)
    (h.noticeTargets pid line w).foldl (fun h t => h.send switchDie t (.notice t line w false)) (h.raiseDir line (w.getD 0))

/-- A store's bytes to a global page (R73, R275). -/
def Chip.writeGlobal (h : Chip) (w : Who) (v va : Nat) (bs : List Byte) (ea : Word) : Except Blocked Chip := do
  let h := h.warm w.pid va
  let l ← h.resolve w va ea
  match l.pub with
  | some _ => .error (.fault (if w.mode = .quiet then .equiet else .eperm) ea)
  | none =>
    match l.attr with
    | .host => .error (.fault .eperm ea)
    | .readShared => .error (.fault .eperm ea)
    | .priv =>
      match w.mode with
      | .spec => h.redoWrite w v l.pa false va bs ea
      | _ => .ok (h.modCluster v fun k =>
          { k.updateCache l.pa bs with throughs := k.throughs ++ [⟨w.uid, l.pa, false, bs⟩] })
    | .coherent =>
      match w.mode with
      | .quiet => .error (.fault .equiet ea)
      | .super => .ok (h.superCoherent w.pid v l.pa bs)
      | .spec =>
        if h.ownReduction v w.uid true l.pa bs.length then .error (.fault .eperm ea)
        else h.redoWrite w v l.pa true va bs ea

/-! ## Atomics (R77, R78) and reductions (R80 to R84) -/

/-- The value an AMO writes, if it writes (R77): `z` from memory, `y` the operand, `x` the expected value of a CAS. -/
def AmoKind.apply (k : AmoKind) (z y x : Word) : Option Word :=
  match k with
  | .swap => some y
  | .add => some (z + y)
  | .and => some (z &&& y)
  | .or => some (z ||| y)
  | .xor => some (z ^^^ y)
  | .min => some (if z.sle y then z else y)
  | .max => some (if y.sle z then z else y)
  | .cas => if z = x then some y else none

/-- The bytes a reduction leaves (R80, R83); the flags of a commit's reduction are discarded. -/
def RedKind.apply (k : RedKind) (z : List Byte) (y : Word) : List Byte :=
  let x := BitVec.ofNat 64 (bytesToNat z)
  match k with
  | .add => wordBytes 8 (x + y)
  | .or => wordBytes 8 (x ||| y)
  | .min => wordBytes 8 (if x.sle y then x else y)
  | .max => wordBytes 8 (if y.sle x then x else y)
  | .faddS => natToBytes 4 (sumFp32 [x.toNat, y.toNat % 2 ^ 32]).1

/-- The flags of a reduction that is applied at once (R8, R83). -/
def RedKind.flags (k : RedKind) (z : List Byte) (y : Word) : BitVec 5 :=
  if k = .faddS then (sumFp32 [bytesToNat z, y.toNat % 2 ^ 32]).2 else 0

/-- Flags ORed into FFLAGS of a thread. -/
def Chip.raiseFlags (h : Chip) (uid : Nat) (f : BitVec 5) : Chip :=
  if f = 0 then h else h.mapThread uid fun t => { t with fflags := t.fflags ||| f }

/-- A returning AMO at scratch (R78): the old value and the chip. -/
def Chip.amoScratch (h : Chip) (w : Who) (v off : Nat) (k : AmoKind) (y x : Word) (ea : Word) :
    Except Blocked (Word × Chip) := do
  let (bs, h) ← h.readScratch w v off 8 ea
  let z := BitVec.ofNat 64 (bytesToNat bs)
  match k.apply z y x with
  | none => .ok (z, h)
  | some n =>
    let h ← h.writeScratch w v off (wordBytes 8 n) ea
    .ok (z, h)

/-- A returning AMO at a global page (R78). Quiet tasks and the supervisor act on the slice's value, after their own
earlier stores. -/
def Chip.amoGlobal (h : Chip) (w : Who) (v va : Nat) (k : AmoKind) (y x : Word) (ea : Word) :
    Except Blocked (Word × Chip) := do
  let h := h.warm w.pid va
  let l ← h.resolve w va ea
  if l.pub.isSome then .error (.fault (if w.mode = .quiet then .equiet else .eperm) ea)
  else if l.attr = .host ∨ l.attr = .readShared then .error (.fault .eperm ea)
  else if w.mode = .spec then
    let (bs, h) ← h.readGlobal w v va 8 ea
    let z := BitVec.ofNat 64 (bytesToNat bs)
    match k.apply z y x with
    | none => .ok (z, h)
    | some n =>
      let h ← h.writeGlobal w v va (wordBytes 8 n) ea
      .ok (z, h)
  else if l.attr = .coherent ∧ w.mode = .quiet then .error (.fault .equiet ea)
  else
    let h := h.drainThroughs v w.uid (h.cluster v).throughs.length
    let z := h.hbm.read64 l.pa
    match k.apply z y x with
    | none => .ok (z, h)
    | some n =>
      if l.attr = .coherent then .ok (z, h.superCoherent w.pid v l.pa (wordBytes 8 n))
      else .ok (z, (h.writePrivate l.pa (wordBytes 8 n)).modCluster v fun k => k.updateCache l.pa (wordBytes 8 n))

/-- A RED at scratch (R81): a record, or at once in supervisor mode. -/
def Chip.redScratch (h : Chip) (w : Who) (v off : Nat) (k : RedKind) (y : Word) (ea : Word) : Except Blocked Chip :=
  match (h.cluster v).mode (off / 65536) with
  | .scratch => .error (.fault .eperm ea)
  | .scratchT =>
    match w.mode with
    | .quiet => .error (.fault .equiet ea)
    | .super =>
      let z := h.scratchBytes v off k.size
      .ok ((h.putScratch v off (k.apply z y)).raiseFlags w.uid (k.flags z y))
    | .spec => do
      let h ← stopOf (h.need v w.uid 1 false ea)
      .ok (h.addRecord v w.uid (.red k false off ea y))
  | _ => .error (.fault .ebankmode ea)

/-- A RED at a global page (R81). -/
def Chip.redGlobal (h : Chip) (w : Who) (v va : Nat) (k : RedKind) (y : Word) (ea : Word) : Except Blocked Chip := do
  let h := h.warm w.pid va
  let l ← h.resolve w va ea
  if l.pub.isSome then .error (.fault (if w.mode = .quiet then .equiet else .eperm) ea)
  else if l.attr ≠ .coherent then .error (.fault .eperm ea)
  else
    match w.mode with
    | .quiet => .error (.fault .equiet ea)
    | .super =>
      let z := h.hbm.readBytes l.pa k.size
      .ok ((h.superCoherent w.pid v l.pa (k.apply z y)).raiseFlags w.uid (k.flags z y))
    | .spec => do
      let h ← stopOf (h.need v w.uid 1 false ea)
      .ok (h.addRecord v w.uid (.red k true l.pa ea y))

/-! ## Reads and writes that may span lines -/

/-- `n` bytes from `a`, cut at multiples of 64: first address and length of each part. -/
def linesOf (a n : Nat) : List (Nat × Nat) :=
  (List.range ((a % 64 + n + 63) / 64)).map fun i =>
    let lo := if i = 0 then a else (a / 64 + i) * 64
    (lo, min (a + n) ((a / 64 + i + 1) * 64) - lo)

/-- A load of `n` bytes at a generic address by the maker w on cluster v, line by line. -/
def Chip.readBytes (h : Chip) (w : Who) (v a n : Nat) : Except Blocked (List Byte × Chip) :=
  (linesOf a n).foldlM (fun (acc : List Byte × Chip) part =>
    let ea := BitVec.ofNat 64 part.1
    match accessPlace h.v v part.1 part.2 with
    | some (.here off) => do
      let (bs, h) ← acc.2.readScratch w v off part.2 ea
      .ok (acc.1 ++ bs, h)
    | some (.global va) => do
      let (bs, h) ← acc.2.readGlobal w v va part.2 ea
      .ok (acc.1 ++ bs, h)
    | _ => .error (.fault .ewindow ea)) ([], h)

/-- A store of bytes at a generic address by the maker w on cluster v, line by line. -/
def Chip.writeBytes (h : Chip) (w : Who) (v a : Nat) (bs : List Byte) : Except Blocked Chip :=
  (linesOf a bs.length).foldlM (fun h part =>
    let ea := BitVec.ofNat 64 part.1
    let xs := (bs.drop (part.1 - a)).take part.2
    match accessPlace h.v v part.1 part.2 with
    | some (.here off) => h.writeScratch w v off xs ea
    | some (.global va) => h.writeGlobal w v va xs ea
    | _ => .error (.fault .ewindow ea)) h

end Sys2Proof.Machine
end

