-- ==== Sys2Proof/Machine/Access.lean ====
section
/-! DEFINITION. A scalar memory access from issue to its result: the checks of R8, the interlocks of R212, R240 and
R264, its performance at the memory it names (R73, R75, R78, R81), and its migration (R193 to R195). -/

namespace Sys2Proof.Machine

/-! ## What a word accesses (R70, R77, R80) -/

/-- The scalar accesses. -/
inductive Access where
  | load (size : Nat) (signed : Bool)
  | store (size : Nat)
  | amo (k : AmoKind)
  | red (k : RedKind)
  deriving DecidableEq, Repr

/-- The bytes of an access. -/
def Access.size : Access → Nat
  | .load n _ => n
  | .store n => n
  | .amo _ => 8
  | .red k => k.size

/-- The AMO or RED form of a function value (R77, R80). -/
def atomicOf (fn : Nat) : Option Access :=
  match fn with
  | 0 => some (.amo .swap) | 1 => some (.amo .add) | 2 => some (.amo .and) | 3 => some (.amo .or)
  | 4 => some (.amo .xor) | 5 => some (.amo .min) | 6 => some (.amo .max) | 7 => some (.amo .cas)
  | 16 => some (.red .add) | 17 => some (.red .or) | 18 => some (.red .min) | 19 => some (.red .max)
  | 20 => some (.red .faddS)
  | _ => none

/-- The access of a word, if it is a scalar load, store, AMO or RED (R70). -/
def accessOf (w : Half) : Option Access :=
  match major w with
  | 0x0C => some (.load 1 true)
  | 0x0D => some (.load 1 false)
  | 0x0E => some (.load 2 true)
  | 0x0F => some (.load 2 false)
  | 0x10 => some (.load 4 true)
  | 0x11 => some (.load 4 false)
  | 0x12 => some (.load 8 false)
  | 0x13 => some (.store 1)
  | 0x14 => some (.store 2)
  | 0x15 => some (.store 4)
  | 0x16 => some (.store 8)
  | 0x17 => atomicOf (fld w 0 5).toNat
  | _ => none

/-! ## Performing an access -/

/-- A load's result from its bytes (R70). -/
def loadValue (size : Nat) (signed : Bool) (bs : List Byte) : Word :=
  if signed then sextBytes size (bytesToNat bs) else BitVec.ofNat 64 (bytesToNat bs)

/-- The access at a scratch offset of cluster v: the result and the chip (R73, R78, R81). -/
def Chip.atScratch (h : Chip) (w : Who) (v off : Nat) (a : Access) (op : Op) : Except Blocked (Word × Chip) :=
  match a with
  | .load n sg => do
    let (bs, h) ← h.readScratch w v off n op.ea
    .ok (loadValue n sg bs, h)
  | .store n => do
    let h ← h.writeScratch w v off (wordBytes n op.y) op.ea
    .ok (0, h)
  | .amo k => h.amoScratch w v off k op.y op.z op.ea
  | .red k => do
    let h ← h.redScratch w v off k op.y op.ea
    .ok (0, h)

/-- The access at a global address (R73, R78, R81). -/
def Chip.atGlobal (h : Chip) (w : Who) (v va : Nat) (a : Access) (op : Op) : Except Blocked (Word × Chip) :=
  match a with
  | .load n sg => do
    let (bs, h) ← h.readGlobal w v va n op.ea
    .ok (loadValue n sg bs, h)
  | .store n => do
    let h ← h.writeGlobal w v va (wordBytes n op.y) op.ea
    .ok (0, h)
  | .amo k => h.amoGlobal w v va k op.y op.z op.ea
  | .red k => do
    let h ← h.redGlobal w v va k op.y op.ea
    .ok (0, h)

/-- A bank of cluster v whose region's group has exited (R197). -/
def Chip.goneAt (h : Chip) (v off : Nat) : Bool := ((h.cluster v).banks.getOr (off / 65536) {}).gone

/-- An access of kind `a` at `op.ea` performed by the maker `w` from cluster v. An access at another cluster acts there
(log 14); it does not migrate and so never bounces (R441). -/
def Chip.performAs (h : Chip) (w : Who) (v : Nat) (a : Access) (op : Op) : Except Blocked (Word × Chip) :=
  match accessPlace h.v v op.ea.toNat a.size with
  | none => .error (.fault .ewindow op.ea)
  | some (.here off) => h.atScratch w v off a op
  | some (.remote u off) => h.atScratch w u off a op
  | some (.global va) => h.atGlobal w v va a op

/-- A saved scalar access performed by the maker `w` from cluster v. -/
def Chip.perform (h : Chip) (w : Who) (v : Nat) (op : Op) : Except Blocked (Word × Chip) :=
  match accessOf op.word with
  | none => .error (.fault .eill (tvalWord op.word))
  | some a => h.performAs w v a op

/-! ## Results -/

/-- The KIND of a scalar access in a fault record: an AMO writes, as a store and a RED do (R323). -/
def Access.kind : Access → Nat
  | .load .. => 0
  | _ => 1

/-- A request joined to the walk of its region, which starts if there is none (R320). -/
def Chip.joinWalk (h : Chip) (pid region kind : Nat) (f : Walk → Walk) : Chip :=
  if !h.takesRequest pid region then h
  else
    let h := if (h.walkOf pid region).isSome then h
      else { h with walks := h.walks ++ [{ pid := pid, region := region, kind := kind }] }
    { h with walks := h.walks.map fun (w : Walk) => if w.pid = pid ∧ w.region = region then f w else w }

/-- A request, known by its order number, waits for the walk of a region (R320). -/
def Chip.addWalk (h : Chip) (pid region kind seq : Nat) : Chip :=
  h.joinWalk pid region kind fun w => { w with waiters := addOnce w.waiters seq }

/-- What an access leaves with its thread: its entry of the LDQ, or a pending result; a completed store or RED leaves
nothing (R19, R45, R77, R120). After an AMO into lq the thread goes on (log 43). -/
def Thread.keep (t : Thread) (a : Access) (op : Op) (due : Due) (dest : Dest) (r : Arrival) : Thread :=
  match dest, a with
  | .reg d, .load .. =>
    if d.toNat = 120 then { t with ldq := t.ldq ++ [⟨op, r⟩] } else t.addPend ⟨op, due, dest, r⟩
  | .reg d, .amo _ =>
    if d.toNat = 120 then { t with ldq := t.ldq ++ [⟨op, r⟩] } else t.addPend ⟨op, .next, dest, r⟩
  | _, _ =>
    match r with
    | .landed (.value ..) => t
    | .flying (.value ..) => t
    | _ => t.addPend ⟨op, .memory, .none, r⟩

/-- The thread at a place changed. -/
def Chip.modThread (h : Chip) (p : At) (f : Thread → Thread) : Chip :=
  match h.thread? p with
  | some t => h.setThread p (f t)
  | none => h

/-- The access performed for the thread at `p`, its result kept with the thread. -/
def Chip.launchAccess (h : Chip) (w : Who) (p : At) (a : Access) (op : Op) (due : Due) (dest : Dest) : Except Stop Chip :=
  let store := match a with | .load .. => false | .amo _ => false | _ => true
  match h.perform w p.v op with
  | .ok (x, g) => .ok (g.modThread p fun t => t.keep a op due dest (.flying (.value x 0)))
  | .error (.fault c v) => .ok (h.modThread p fun t => t.keep a op due dest (if store then .landed (.fault c v) else .flying (.fault c v)))
  | .error (.walk pid r) => .ok ((h.addWalk pid r a.kind op.seq).modThread p fun t => t.keep a op due dest .waiting)
  | .error (.stop e) => .error e

/-- A thread that waits at its instruction for the walk of a region (R323). -/
def Chip.waitWalk (h : Chip) (self : Thread) (p : At) (pid region kind : Nat) : Chip :=
  (h.joinWalk pid region kind fun w => { w with threads := addOnce w.threads self.uid }).setThread p self

/-! ## Interlocks -/

/-- A vector memory or mailbox command (R212). -/
def isVectorMemory (w : Half) : Bool := decide (major w = 0x2A) || decide (major w = 0x2E)

/-- The claim of a task at a cluster. -/
def Cluster.claimOf (k : Cluster) (uid : Nat) : Option Claim := k.claims.find? fun c => decide (c.uid = uid)

/-- The operations of a thread and of its suspended task, with how far they have come. -/
def Thread.ops (t : Thread) : List (Op × Arrival) :=
  let of := fun (ps : List Pend) (ls : List LdqEntry) =>
    (ps.map fun q => (q.op, q.arrival)) ++ ls.map fun e => (e.op, e.arrival)
  of t.pend t.ldq ++ match t.suspended with
    | some u => of u.pend u.ldq
    | none => []

/-- An earlier scalar access of the thread waits for its translation. -/
def Thread.accessWaiting (t : Thread) : Bool :=
  t.pend.any (fun q => (accessOf q.op.word).isSome && decide (q.arrival = .waiting)) ||
    t.ldq.any (fun e => decide (e.arrival = .waiting))

/-- Earlier vector memory commands of the task are not performed (R212). -/
def Chip.vectorBusy (h : Chip) (v uid : Nat) : Bool :=
  match (h.cluster v).claimOf uid with
  | some c => c.queue.any fun q => isVectorMemory q.op.word
  | none => false

/-- An incomplete engine command, OLD, ARD or AWR of the task names a byte of the span (R240, R245, R264). -/
def Chip.spanBusy (h : Chip) (uid : Nat) (span : Nat × Nat) : Bool :=
  h.clusters.any fun k =>
    (k.2.cmds.any fun c => decide (c.uid = uid) && (c.srcSpans ++ c.dstSpans).any fun s => overlaps s span) ||
      k.2.gangs.any fun g => g.queue.any fun q => decide (q.uid = uid) && q.spans.any fun s => overlaps s span

/-- The access waits at issue. -/
def Chip.accessHeld (h : Chip) (p : At) (t : Thread) (ea n : Nat) : Bool :=
  t.accessWaiting || h.vectorBusy p.v t.uid || h.spanBusy t.uid (spanOf p.v ea n)

/-! ## Migration (R193, R194) -/

/-- The registers a migration packet carries: the carry window's, the others zero (R194). -/
def carried (t : Thread) (file : Map Word) : List Word :=
  (List.range t.regLim).map fun r =>
    if t.carryBase ≤ r ∧ r < t.carryBase + t.carryCount then readGpr t file r else 0

/-- A store, AMO or RED of the thread, or of the task its handler suspends, has not been accepted by its target; loads under
way are not waited for, and those bound for the LDQ complete without effect (R21, R151). -/
def Thread.unaccepted (t : Thread) : Bool :=
  t.ops.any fun x => decide (x.2 = .waiting) && (match accessOf x.1.word with | some (.load ..) => false | some _ => true | none => false)

/-- The LDQ entries of a thread and of its suspended task. -/
def Thread.entries (t : Thread) : List LdqEntry := t.ldq ++ ((t.suspended.map (·.ldq)).getD [])

/-- The earlier stores of the thread and of its suspended task are accepted and their queues landed: it may leave its cluster
(R193, R194). -/
def Chip.mayLeave (h : Chip) (p : At) (t : Thread) : Bool :=
  !t.accessWaiting && !t.unaccepted && !h.hasThroughs p.v t.uid &&
    t.entries.all (fun e => match e.arrival with | .landed _ => true | _ => false) &&
    (match (h.cluster p.v).claimOf t.uid with | some c => decide (c.queue = []) | none => true)

/-- The thread at `p` leaves for cluster `u` as a migration packet with its vector context; its slot and allocation are
freed (R194, R204). `core` is the index the placement starts from (R195, R196). The instruction has issued, which ends a debug
STEP (log 67). -/
def Chip.migrate (h : Chip) (p : At) (u core : Nat) (access : Option Pend) : Chip :=
  match h.here? p with
  | none => h
  | some x =>
    let q : Parked :=
      { thread := { x.th with stepOnce := false }, regs := carried x.th x.file, core := core, seq := h.nextSeq, access := access
        claim := ((h.cluster p.v).claimOf x.th.uid).map fun c => { c with grant := 0, awaits := false, resident := false } }
    let h := (h.freeSlots p).modCluster p.v fun k =>
      { k with claims := k.claims.filter fun c => decide (c.uid ≠ x.th.uid), gangs := orphanGangs x.th k.gangs }
    h.send (h.routerOf p.v) u (.migration u q)

/-- The banks that loads and stores address (R178). -/
def BankMode.addressable : BankMode → Bool
  | .scratch => true
  | .scratchT => true
  | _ => false

/-- The core index from which a thread that leaves core c for cluster u is placed: its home core where it goes home (R195, R196). -/
def Thread.entersAt (t : Thread) (u c : Nat) : Nat := if u = t.homeV then t.homeC else c

/-- A scalar access of the thread `self` at `p`, after its operands are read: window, alignment, permission of a peer
cluster, local bank mode, and then the access or the migration (R8, R28, R29, R193). Slot 0 acts at a peer cluster
without moving (log 14). -/
def Chip.access (h : Chip) (self : Thread) (p : At) (a : Access) (op : Op) (due : Due) (dest : Dest) : Except Stop Chip :=
  let w := self.who
  match accessPlace h.v p.v op.ea.toNat a.size with
  | none => .error (.trap .ewindow op.ea)
  | some place =>
    if op.ea.toNat % a.size ≠ 0 then .error (.trap .ealign op.ea)
    else
      match place with
      | .here off =>
        if !((h.cluster p.v).mode (off / 65536)).addressable then .error (.trap .ebankmode op.ea)
        else if h.accessHeld p self op.ea.toNat a.size then .error .stall
        else h.launchAccess w p a op due dest
      | .global _ =>
        if h.accessHeld p self op.ea.toNat a.size then .error .stall else h.launchAccess w p a op due dest
      | .remote u _ =>
        if !(h.part (h.pidAt p.v self)).holds u then .error (.trap .eperm op.ea)
        else if h.accessHeld p self op.ea.toNat a.size then .error .stall
        else if p.t = 0 then h.launchAccess w p a op due dest
        else if !h.mayLeave p self then .error .stall
        else .ok (h.migrate p u (self.entersAt u p.c) (some ⟨op, .next, dest, .waiting⟩))

/-- A configuration MBSET takes (R295). -/
def mailboxConfig (y : Word) : Bool :=
  decide (1 ≤ bits y 32 4 ∧ bits y 32 4 ≤ 8 ∧ bits y 36 28 = 0 ∧ bits y 10 2 = 0)

/-- The byte offset of the L format (R71). -/
def byteOff (off : BitVec 8) (size : Nat) : Word := off.signExtend 64 * BitVec.ofNat 64 size

/-- The peer cluster that a word's access at `x` goes to from cluster v, where it passes its window and alignment checks there
(R8, R193, R218, R294). -/
def peerOf (V v : Nat) (w : Half) (x : Word) : Option Nat :=
  let goes := fun (n : Nat) (fits : Bool) =>
    match accessPlace V v x.toNat n with
    | some (.remote u _) => if fits then some u else none
    | _ => none
  match accessOf w with
  | some a => goes a.size (decide (x.toNat % a.size = 0))
  | none =>
    if major w = 0x2E then goes 1 (decide (x.toNat % 65536 ≤ 0xFEF0 ∧ x.toNat % 16 = 0))
    else goes 1 (decide (2 ≤ bits w 20 6 ∨ x.toNat % 4 = 0))

/-- A command of the vector pool has a claim to run on. -/
def Chip.mayCommand (h : Chip) (v uid : Nat) : Bool :=
  match (h.cluster v).claimOf uid with
  | some c => !c.waiting
  | none => false

/-- The thread of the slot in turn as an instruction of this form finds its operands. -/
def State.landed (s : State) (f : Form) : Option Here := (s.chip.here? s.place).map (·.landed f.points)

/-- A source field of the slot in turn as an instruction of this form finds it; 0 where the read stops the instruction. -/
def State.operand (s : State) (f : Form) (a : BitVec 7) : Word :=
  match s.landed f with
  | none => 0
  | some x =>
    match x.read a with
    | .ok (v, _) => v
    | .error _ => 0

/-- An access or command of this form at `x` leaves for a peer cluster: it raises no precise trap where it is issued (R193). -/
def State.departs (s : State) (f : Form) (x : Word) : Bool :=
  let p := s.place
  match s.landed f, peerOf s.chip.v p.v f.word x with
  | some y, some u =>
    decide (p.t ≠ 0) && (checkUses y.th f.uses 0).isNone && (s.chip.part (s.chip.pidAt p.v y.th)).holds u &&
      ((accessOf f.word).isSome ||
        if major f.word = 0x2E ∧ (fld f.word 0 5).toNat = 0 then mailboxConfig (s.operand f (fld f.word 5 7))
        else s.chip.mayCommand p.v y.th.uid)
  | _, _ => false

/-- The form of an access or command whose first byte is at `x`: one that goes to a peer cluster closes every open
window (R193). -/
def peerForm (f : Form) (x : Word) (s : State) : Form := { f with points := { f.points with windows := s.departs f x } }

/-- The form of a scalar access: its points depend on the address, which its base register names as it stands before those
windows close (log 64). -/
def accessForm (w : Half) (uses : List Use) (a : BitVec 7) (off : Word) (s : State) : Form :=
  let f := form w uses
  peerForm f (s.operand f a + off) s

/-- A source field of the thread at `p` read through the chip. -/
def Chip.readAt (h : Chip) (p : At) (r : BitVec 7) : Except Stop (Word × Chip) :=
  match h.here? p with
  | none => .error .stall
  | some x => do
    let (v, x) ← x.read r
    .ok (v, h.putHere p x)

/-- A store's data field read through the chip (R20). -/
def Chip.readDataAt (h : Chip) (p : At) (r : BitVec 7) : Except Stop (Word × Chip) :=
  match h.here? p with
  | none => .error .stall
  | some x => do
    let (v, x) ← x.readData r
    .ok (v, h.putHere p x)

/-- An operation as it is saved at issue (R120). -/
def opOf (self : Thread) (w : Half) (ea y z : Word) (seq : Nat) : Op :=
  { word := w, pc := self.pc, frame := self.frame.isSome, sup := self.sup, ea := ea, y := y, z := z, seq := seq }

/-- A load (R71). -/
def loadForm (w : Half) (d a : BitVec 7) (ahead : BitVec 4) (size : Nat) (signed : Bool) (off : Word) (s : State) :
    Host.Outcome State Fault Refusal :=
  issueChip (accessForm w [.loadDst d, .src a] a off s) s fun self p h => do
    let (x, h) ← h.readAt p a
    h.tick.access self p (.load size signed) (opOf self w (x + off) 0 0 h.nextSeq) (.window ahead.toNat) (.reg d)

/-- A store (R71): the base is read before the data. -/
def storeForm (w : Half) (d a : BitVec 7) (size : Nat) (off : Word) (s : State) : Host.Outcome State Fault Refusal :=
  issueChip (accessForm w [.data d, .src a] a off s) s fun self p h => do
    let (x, h) ← h.readAt p a
    let (y, h) ← h.readDataAt p d
    h.tick.access self p (.store size) (opOf self w (x + off) y 0 h.nextSeq) .memory .none

/-- A returning AMO (R77). -/
def amoForm (w : Half) (d a b : BitVec 7) (k : AmoKind) (s : State) : Host.Outcome State Fault Refusal :=
  let use : Use := if k = .cas then .both d else .loadDst d
  issueChip (accessForm w [use, .src a, .src b] a 0 s) s fun self p h => do
    let (x, h) ← h.readAt p a
    let (y, h) ← h.readAt p b
    let (z, h) ← if k = .cas then h.readAt p d else .ok (0, h)
    h.tick.access self p (.amo k) (opOf self w x y z h.nextSeq) .next (.reg d)

/-- A reduction (R80, R81). -/
def redForm (w : Half) (a b : BitVec 7) (k : RedKind) (s : State) : Host.Outcome State Fault Refusal :=
  issueChip (accessForm w [.src a, .src b] a 0 s) s fun self p h => do
    let (x, h) ← h.readAt p a
    let (y, h) ← h.readAt p b
    h.tick.access self p (.red k) (opOf self w x y 0 h.nextSeq) .memory .none

end Sys2Proof.Machine
end

