-- ==== Sys2Proof/Machine/Frames.lean ====
section
/-! DEFINITION. Fetching an instruction (R68) and repeat frames (R48 to R51). -/

namespace Sys2Proof.Machine

/-! ## Fetch (R68) -/

/-- The word at an address, fetched by the maker w. -/
def Chip.fetchAt (h : Chip) (w : Who) (a : Word) : Except Blocked (Half × Chip) :=
  if windowOf a.toNat ≠ .global then .error (.fault .ewindow a)
  else do
    let h := h.warm w.pid a.toNat
    let l ← h.resolve w a.toNat a
    if l.attr ≠ .readShared ∨ l.pub.isSome then .error (.fault .eperm a)
    else .ok (BitVec.ofNat 32 (bytesToNat (h.hbm.readBytes l.pa 4)), h)

/-! ## The capture (R48, R49) -/

/-- A staggered field of a captured format: its lowest bit and its width. -/
abbrev StagField := Nat × Nat

/-- The fields that sd, sa and sb stagger in the format of a major, or none where a frame may not capture it (R48,
R49). -/
def stagFields (m : Nat) : Option (List (Option StagField)) :=
  if [0x01, 0x02, 0x1D, 0x1E, 0x1F].contains m then some [some (19, 7), some (12, 7), some (5, 7)]
  else if 0x03 ≤ m ∧ m ≤ 0x09 then some [some (19, 7), some (12, 7), none]
  else if [0x28, 0x29, 0x2B, 0x2D].contains m then some [some (15, 5), some (10, 5), some (5, 5)]
  else if m = 0x2C then some [some (19, 7), some (14, 5), some (9, 5)]
  else if m = 0x30 then some [some (20, 3), some (16, 4), some (12, 4)]
  else none

/-- The third field of an assigned word that its entry does not use. -/
def thirdUnused (w : Half) : Bool :=
  let r := bits w 0 5
  let v := bits w 20 6
  let s := bits w 4 5
  match major w with
  | 0x02 => decide (r < 8)
  | 0x1D => r == 4 || r == 10
  | 0x1F => decide (r < 12)
  | 0x28 => decide (7 ≤ v ∧ v < 13)
  | 0x2B => decide ((3 ≤ v ∧ v < 6) ∨ (17 ≤ v ∧ v < 22) ∨ (25 ≤ v ∧ v < 30))
  | 0x2C => decide (8 ≤ s ∧ s < 12)
  | 0x2D => v == 2 || v == 3 || v == 5
  | _ => false

/-- The second field of an assigned word that its entry does not use: VBCAST's. -/
def secondUnused (w : Half) : Bool := decide (major w = 0x2B) && decide (bits w 20 6 = 3)

/-- The strides of a REP word. -/
def repStrides (w : Half) : List Nat := [bits w 16 4, bits w 12 4, bits w 8 4]

/-- A stride that a field cannot take: the field is missing or not used, or its last value leaves its range (R49). -/
def strideRefused (w : Half) (n : Nat) (f : Option StagField) (unused : Bool) (stride : Nat) : Bool :=
  decide (stride ≠ 0) &&
    match f with
    | none => true
    | some (lo, len) => unused || decide (2 ^ len ≤ bits w lo len + (n - 1) * stride)

/-- A captured word that REP refuses (R49). -/
def captureRefused (rep w : Half) : Bool :=
  match stagFields (major w) with
  | none => true
  | some fs =>
    let n := repCount rep
    let s := repStrides rep
    strideRefused w n (fs.getD 0 none) false (s.getD 0 0) ||
      strideRefused w n (fs.getD 1 none) (secondUnused w) (s.getD 1 0) ||
      strideRefused w n (fs.getD 2 none) (thirdUnused w) (s.getD 2 0)

/-- What replay i adds to a captured word (R48). -/
def staggerBy (i : Nat) : List (Option StagField) → List Nat → Nat
  | some (lo, _) :: fs, x :: xs => i * x * 2 ^ lo + staggerBy i fs xs
  | none :: fs, _ :: xs => staggerBy i fs xs
  | _, _ => 0

/-- A captured word as replay i runs it (R48). -/
def stagger (rep w : Half) (i : Nat) : Half :=
  match stagFields (major w) with
  | some fs => w + BitVec.ofNat 32 (staggerBy i fs (repStrides rep))
  | none => w

/-- The captured words checked one after another (R49). A word that cannot be fetched is a trap of REP, which captures
it (log 17). -/
def Chip.capture (h : Chip) (self : Thread) (rep : Half) : Nat → Word → Except Blocked (List Half × Chip)
  | 0, _ => .ok ([], h)
  | n + 1, a => do
    let (w, h) ← h.fetchAt self.who a
    if captureRefused rep w then .error (.fault .erep (w.zeroExtend 64))
    else
      let (ws, h) ← h.capture self rep n (a + 4)
      .ok (w :: ws, h)

/-- REP (R48, R49, R51). -/
def execRep (n : BitVec 6) (sd : BitVec 4) (sa : BitVec 4) (sb : BitVec 4) (len : BitVec 4) (s : State) : Host.Outcome State Fault Refusal :=
  let w := (wordP 33#6 n sd sa sb len 0#4)
  issueChip (form w) s fun self p h =>
    match h.capture self w (repLen w) (self.pc + 4) with
    | .error (.fault t v) => .error (.trap t v)
    | .error (.walk pid r) => .ok (h.waitWalk self p pid r 2)
    | .error (.stop e) => .error e
    | .ok (ws, h) =>
      .ok (h.modThread p fun t => { t with frame := some { word := w, base := self.pc, i := 0, j := 0, words := ws } })

/-- The word a thread issues next: within a frame it comes from the sequencer buffer, staggered for its replay (R48). A
handler that rewrites TCPC does not move a frame that its return resumes: the thread goes on at (i, j) (R51), though its pc
reads TCPC (log 44). -/
def Chip.fetchNext (h : Chip) (t : Thread) : Except Blocked (Half × Chip) :=
  match t.frame with
  | none => h.fetchAt t.who t.pc
  | some f => .ok (stagger f.word (f.words.getD f.j 0) f.i, h)

end Sys2Proof.Machine
end

