-- ==== Sys2Proof/Machine/Transcend.lean ====
section
/-! DEFINITION. The rounded functions of R215: reciprocal, reciprocal square root, 2^p and log2 p, each rounded once to
FP32, RNE. The last two are irrational wherever they are not exact; they are computed to 150 bits or more beyond the
format and rounded with a sticky bit (log 16). -/

namespace Sys2Proof.Machine

/-- VRCP.S: 1/p. -/
def rcp32 (x : Nat) : Nat × BitVec 5 := fp32.div .rne 0x3F800000 x

/-- VRSQ.S: 1/√p. -/
def rsq32 (x : Nat) : Nat × BitVec 5 :=
  match fp32.decode x with
  | .nan s => (fp32.nanPat, flagIf s flNV)
  | .inf s => if s then (fp32.nanPat, flNV) else (0, 0)
  | .fin s m e =>
    if m = 0 then (fp32.signPat s + fp32.infPat, flDZ)
    else if s then (fp32.nanPat, flNV)
    else
      let odd := (e % 2).toNat
      let m2 := m * 2 ^ odd
      let root := isqrt (2 ^ 160 / m2) 81
      fp32.roundMag .rne false root (-80 - (e - odd) / 2) (decide (root * root * m2 ≠ 2 ^ 160))

/-! ## 2^p -/

/-- Fraction bits of the working precision. -/
def expBits : Nat := 192

/-- The product over the set bits of `f` (bit `n - 1` first) of 2^(2^-1), 2^(2^-2), …, in units of 2^-192: `r` is the
current root and `acc` the product so far. -/
def expProduct (f : Nat) : Nat → Nat → Nat → Nat
  | 0, _, acc => acc
  | n + 1, r, acc =>
    let acc := if f.testBit n then acc * r / 2 ^ expBits else acc
    expProduct f n (isqrt (r * 2 ^ expBits) (expBits + 1)) acc

/-- 2^(f / 2^n) for f below 2^n, in units of 2^-192. -/
def expFraction (f n : Nat) : Nat := expProduct f n (isqrt (2 * 2 ^ (2 * expBits)) (expBits + 1)) (2 ^ expBits)

/-- VEXP2.S: 2^p. -/
def exp2f (x : Nat) : Nat × BitVec 5 :=
  match fp32.decode x with
  | .nan s => (fp32.nanPat, flagIf s flNV)
  | .inf s => if s then (0, 0) else (fp32.infPat, 0)
  | .fin s m e =>
    if m = 0 then (0x3F800000, 0)
    else if 8 ≤ Nat.log2 m + e then
      if s then (0, flUF ||| flNX) else (fp32.infPat, flOF ||| flNX)
    else if Nat.log2 m + e < -40 then
      -- 2^p lies within 2^-39 of 1
      if s then fp32.roundMag .rne false (2 ^ 60 - 1) (-60) true else fp32.roundMag .rne false (2 ^ 60) (-60) true
    else
      -- p = (n + f / 2^64), n an integer
      let t : Int := (if s then -1 else 1) * ((m * 2 ^ (e + 64).toNat : Nat) : Int)
      let n := t / 2 ^ 64
      let f := (t % 2 ^ 64).toNat
      if f = 0 then fp32.roundMag .rne false 1 n false
      else fp32.roundMag .rne false (expFraction f 64 / 2 ^ 32) (n - 160) true

/-! ## log2 p -/

/-- The first `k` bits of log2 of y, where y, between 1 and 2, is in units of 2^-320; `acc` holds the bits found. -/
def logBits : Nat → Nat → Nat → Nat
  | 0, _, acc => acc
  | k + 1, y, acc =>
    let q := y * y / 2 ^ 320
    if 2 ^ 321 ≤ q then logBits k (q / 2) (2 * acc + 1) else logBits k q (2 * acc)

/-- VLOG2.S: log2 p. -/
def log2f (x : Nat) : Nat × BitVec 5 :=
  match fp32.decode x with
  | .nan s => (fp32.nanPat, flagIf s flNV)
  | .inf s => if s then (fp32.nanPat, flNV) else (fp32.infPat, 0)
  | .fin s m e =>
    if m = 0 then (fp32.signPat true + fp32.infPat, flDZ)
    else if s then (fp32.nanPat, flNV)
    else
      let top := Nat.log2 m
      let n : Int := top + e
      if m = 2 ^ top then fp32.round .rne (numOf n 0 false)
      else
        let f := logBits 128 (m * 2 ^ (320 - top)) 0
        let t : Int := n * 2 ^ 128 + f
        if 0 ≤ t then fp32.roundMag .rne false t.natAbs (-128) true
        else fp32.roundMag .rne true (t.natAbs - 1) (-128) true

end Sys2Proof.Machine
end

