-- ==== Sys2Proof/Machine/VectorOps.lean ====
section
/-! DEFINITION. The vector compute commands on a context (R210, R214 to R226): each reads every source element before it
writes any (R208). -/

namespace Sys2Proof.Machine

/-- Element e of vN of a context (R198). -/
def vget (v : Map Half) (n e : Nat) : Half := v.getOr (64 * n + e) 0

/-- The 64 elements of vN. -/
def vreg (v : Map Half) (n : Nat) : List Half := (List.range 64).map (vget v n)

/-- vN with the elements that `f` gives a value. -/
def vset (v : Map Half) (n : Nat) (f : Nat → Option Half) : Map Half :=
  (List.range 64).foldl (fun m e =>
    match f e with
    | some x => m.put (64 * n + e) x
    | none => m) v

/-- Flags of several roundings together. -/
def orFlags (fs : List (BitVec 5)) : BitVec 5 := fs.foldl (· ||| ·) 0

/-- vd written element by element with pattern and flags, for the active elements (R210). -/
def vectorMap (v : Map Half) (mask : Word) (d : Nat) (f : Nat → Nat × BitVec 5) : Map Half × BitVec 5 :=
  let rs := (List.range 64).map fun e => if mask.getLsbD e then some (f e) else none
  (vset v d fun e => ((rs.getD e none).map fun r => BitVec.ofNat 32 r.1),
   orFlags (rs.map fun r => (r.map (·.2)).getD 0))

/-! ## VF (R214, R215) -/

/-- VABS and VNEG (R214). -/
def signOp (neg : Bool) (p : Nat) : Nat × BitVec 5 :=
  match fp32.decode p with
  | .nan s => (fp32.nanPat, flagIf s flNV)
  | _ => (if neg then (if p < 2 ^ 31 then p + 2 ^ 31 else p - 2 ^ 31) else p % 2 ^ 31, 0)

/-- One element of a VF form (R214). -/
def vfElem (vfn : Nat) (r : Rnd) (p q c : Nat) : Nat × BitVec 5 :=
  match vfn with
  | 0 => fp32.add r false p q
  | 1 => fp32.add r true p q
  | 2 => fp32.mul r p q
  | 3 => fp32.fma r false false p q c
  | 4 => fp32.fma r false true p q c
  | 5 => fp32.minMax false p q
  | 6 => fp32.minMax true p q
  | 7 => signOp false p
  | 8 => signOp true p
  | 9 => rcp32 p
  | 10 => rsq32 p
  | 11 => exp2f p
  | _ => log2f p

/-! ## VI (R216) -/

/-- One element of a VI form (R216). -/
def viElem (vfn : Nat) (x y : Half) : Half :=
  let s := bits y 0 5
  match vfn with
  | 0 => x + y
  | 1 => x - y
  | 2 => x * y
  | 3 => x &&& y
  | 4 => x ||| y
  | 5 => x ^^^ y
  | 6 => x <<< s
  | 7 => x >>> s
  | _ => BitVec.ofInt 32 (x.toInt / 2 ^ s)

/-! ## VP (R220, R221) -/

/-- Candidate i ranks before candidate j among four elements (R221). -/
def sparseBefore (xs : List Nat) (i j : Nat) : Bool :=
  let a := fp32.decode (xs.getD i 0)
  let b := fp32.decode (xs.getD j 0)
  if a.isNan || b.isNan then (a.isNan && (!b.isNan || decide (i < j)))
  else
    let p := xs.getD i 0 % 2 ^ 31
    let q := xs.getD j 0 % 2 ^ 31
    decide (q < p) || (decide (p = q) && decide (i < j))

/-- Element e of va is one of the two its group of four keeps (R221). -/
def sparseKeeps (xs : List Nat) (e : Nat) : Bool :=
  let g := (xs.drop (e / 4 * 4)).take 4
  decide (((List.range 4).countP fun j => decide (j ≠ e % 4) && sparseBefore g j (e % 4)) < 2)

/-- The active element numbers in rising order (R220). -/
def actives (mask : Word) : List Nat := (List.range 64).filter fun e => mask.getLsbD e

/-- The data-movement forms (R220, R221). -/
def vpRun (vfn : Nat) (v : Map Half) (mask s : Word) (d a b : Nat) : Map Half :=
  let act := fun (f : Nat → Half) => fun e => if mask.getLsbD e then some (f e) else none
  match vfn with
  | 0 => vset v d (act fun e => vget v a (bits (vget v b e) 0 6))
  | 1 => vset v d (act fun e =>
      let j : Int := e + s.toInt
      if j < 0 then vget v b (j + 64).toNat else if j < 64 then vget v a j.toNat else vget v b (j - 64).toNat)
  | 2 => vset v d fun e => some (if mask.getLsbD e then vget v a e else vget v b e)
  | 3 => vset v d (act fun _ => fld s 0 32)
  | 4 => vset v d fun i => ((actives mask)[i]?).map (vget v a)
  | _ =>
    let xs := (vreg v a).map (·.toNat)
    vset v d (act fun e => if sparseKeeps xs e then vget v a e else 0)

/-! ## VCVT (R222) -/

/-- Bits of a packed value of a format code. -/
def packWidth (c : Nat) : Nat :=
  match c with
  | 1 => 16
  | 2 => 16
  | 3 => 8
  | 4 => 8
  | _ => 4

/-- Field e of a packed register, in a format of `w` bits. -/
def packGet (v : Map Half) (n w e : Nat) : Nat := bits (vget v n (e * w / 32)) (e * w % 32) w

/-- Field e of a packed register written. -/
def packPut (v : Map Half) (n w e x : Nat) : Map Half :=
  let i := 64 * n + e * w / 32
  let old := (v.getOr i 0).toNat
  let lo := 2 ^ (e * w % 32)
  v.put i (BitVec.ofNat 32 (old - old / lo % 2 ^ w * lo + x * lo))

/-- Scale and extra of element e's block (R222). -/
def blockParams (s : Word) (e : Nat) : Nat × Nat := (bits s (16 * (e / 32)) 8, bits s (16 * (e / 32) + 8) 8)

/-- The rounding of value e: draw e of the command under SR (R98, R222). -/
def cvtRnd (frm : Nat) (u : Nat → Half) (e : Nat) : Rnd := if frm = 4 then .sr (u e) else rndOf frm

/-- One value narrowed to format code c (R222). -/
def narrowElem (c : Nat) (r : Rnd) (s : Word) (e x : Nat) : Nat × BitVec 5 :=
  if c = 5 then toF4B r (blockParams s e).1 (blockParams s e).2 (fp32.decode x) else convert fp32 (fmtOfCode c) r x

/-- One value widened from format code c (R222). -/
def widenElem (c : Nat) (r : Rnd) (s : Word) (e x : Nat) : Nat × BitVec 5 :=
  if c = 5 then fp32.round r (decodeF4B x (blockParams s e).1 (blockParams s e).2) else convert (fmtOfCode c) fp32 r x

/-- A narrowing conversion: the packed fields of the active elements (R222). -/
def vNarrow (c frm : Nat) (u : Nat → Half) (v : Map Half) (mask s : Word) (d a : Nat) : Map Half × BitVec 5 :=
  let rs := (actives mask).map fun e => (e, narrowElem c (cvtRnd frm u e) s e (vget v a e).toNat)
  (rs.foldl (fun m r => packPut m d (packWidth c) r.1 r.2.1) v,
    orFlags (rs.map fun r => r.2.2))

/-! ## VS (R224 to R226) -/

/-- The truth of a compare at one element (R224). -/
def vsCompare (vfn : Nat) (x y : Half) : Bool × BitVec 5 :=
  match vfn with
  | 0 => fp32.eq x.toNat y.toNat
  | 1 => let r := fp32.eq x.toNat y.toNat
         (!r.1, r.2)
  | 2 => fp32.lt x.toNat y.toNat
  | 3 => fp32.le x.toNat y.toNat
  | 4 => (x == y, 0)
  | 5 => (x != y, 0)
  | 6 => (x.slt y, 0)
  | _ => (x.sle y, 0)

/-- A mask word of 64 truth values. -/
def maskOf (bs : List Bool) : Word := BitVec.ofNat 64 (bs.foldr (fun b n => (if b then 1 else 0) + 2 * n) 0)

/-- The extreme of the numbers among FP32 patterns (R225): the canonical NaN where all are NaN. -/
def vsExtreme (max : Bool) (xs : List Nat) : Nat :=
  (xs.foldl (fun (b : Option Nat) x =>
    if (fp32.decode x).isNan then b
    else
      match b with
      | none => some x
      | some y => some (fp32.minMax max y x).1) none).getD fp32.nanPat

/-- The result of a VS form on elements (R224 to R226). -/
def vsRun (vfn : Nat) (v : Map Half) (a b : Nat) : Word × BitVec 5 :=
  let xs := vreg v a
  let ns := xs.map (·.toNat)
  if vfn < 8 then
    let rs := (List.range 64).map fun e => vsCompare vfn (vget v a e) (vget v b e)
    (maskOf (rs.map (·.1)), orFlags (rs.map (·.2)))
  else
    match vfn with
    | 8 => let r := sumFp32 ns
           (BitVec.ofNat 64 r.1, r.2)
    | 9 => (BitVec.ofNat 64 (vsExtreme true ns), flagIf (ns.any fun x => (fp32.decode x).isSnan) flNV)
    | 10 => (BitVec.ofNat 64 (vsExtreme false ns), flagIf (ns.any fun x => (fp32.decode x).isSnan) flNV)
    | _ => (vget v a 1 ++ vget v a 0, 0)

end Sys2Proof.Machine
end

