-- ==== Sys2Proof/Machine/Gauss.lean ====
section
/-! DEFINITION. Gaussian messages (R283 to R292): information blocks in vector registers, their sums, embedding,
damping, elimination and solution. Every rounding is FP32, RNE. -/

namespace Sys2Proof.Machine

/-! ## The information block (R283, R284) -/

/-- idx(i, j) of the packed triangle, for i at most j (R283). -/
def ibIdx (d i j : Nat) : Nat := i * d - i * (i - 1) / 2 + (j - i)

/-- The elements that hold the triangle and η (R283). -/
def ibLayout (d : Nat) : List Nat := List.range (d * (d + 1) / 2) ++ (List.range d).map (36 + ·)

/-- Element 63: the dimension. -/
def ibDim (xs : List Half) : Nat := (xs.getD 63 0).toNat

/-- Well formed (R284). -/
def ibOk (xs : List Half) : Bool := decide (1 ≤ ibDim xs ∧ ibDim xs ≤ 8)

/-- Λ(i, j) and η(i) of a block, as patterns. -/
def ibLam (xs : List Half) (i j : Nat) : Nat :=
  (xs.getD (if i ≤ j then ibIdx (ibDim xs) i j else ibIdx (ibDim xs) j i) 0).toNat
def ibEta (xs : List Half) (i : Nat) : Nat := (xs.getD (36 + i) 0).toNat

/-- EDIM with both dimensions (R284). -/
def edim (x : List Half) (second : Nat) : Trap × Word :=
  (.edim, BitVec.ofNat 64 (ibDim x * 2 ^ 32 + second % 2 ^ 32))

/-- A block of 64 elements from the patterns that `f` gives; the others are zero (R283). -/
def ibMake (f : Nat → Option Nat) : List Half := (List.range 64).map fun e => BitVec.ofNat 32 ((f e).getD 0)

/-- A result with its flags. -/
abbrev Block := List Half × BitVec 5

/-- A block of dimension d whose layout elements `f` computes. -/
def ibMap (d : Nat) (f : Nat → Nat × BitVec 5) : Block :=
  let rs := (ibLayout d).map fun e => (e, f e)
  (ibMake fun e => if e = 63 then some d else (rs.find? fun r => r.1 == e).map fun r => r.2.1, orFlags (rs.map fun r => r.2.2))

/-! ## VIBADD, VIBSUB, VEMBED (R286, R287) -/

/-- VIBADD and VIBSUB (R286). -/
def ibAdd (sub : Bool) (a b : List Half) : Except (Trap × Word) Block :=
  if ibOk a && ibOk b && decide (ibDim a = ibDim b) then
    .ok (ibMap (ibDim a) fun e => fp32.add .rne sub (a.getD e 0).toNat (b.getD e 0).toNat)
  else .error (edim a (ibDim b))

/-- VEMBED (R287): patterns copied into dimension D at offset o. -/
def ibEmbed (a : List Half) (D o : Nat) : Except (Trap × Word) Block :=
  let d := ibDim a
  if ibOk a && decide (o + d ≤ D) then
    let tri := (List.range d).flatMap fun i => ((List.range d).filter (i ≤ ·)).map fun j =>
      (ibIdx D (o + i) (o + j), ibLam a i j)
    let eta := (List.range d).map fun i => (36 + o + i, ibEta a i)
    .ok (ibMake fun e => if e = 63 then some D else ((tri ++ eta).find? fun r => r.1 == e).map (·.2), 0)
  else .error (edim a D)

/-! ## VDAMP (R288) -/

/-- A value times a small weight, over 16. -/
def weigh (k : Nat) : Num → Num
  | .fin s m e => .fin s (m * k) (e - 4)
  | v => v

/-- One damped element (R288): `n` new, `b` old. -/
def dampElem (k n b : Nat) : Nat × BitVec 5 :=
  let x := fp32.decode n
  let y := fp32.decode b
  if k = 0 then (if x.isNan then (fp32.nanPat, flagIf x.isSnan flNV) else (n, 0))
  else
    match addNum .rne (weigh k y) (weigh (16 - k) x) with
    | none => (fp32.nanPat, flNV)
    | some v => fp32.round .rne v

/-- VDAMP (R288). -/
def ibDamp (k : Nat) (new old : List Half) : Except (Trap × Word) Block :=
  if ibOk new && ibOk old && decide (ibDim new = ibDim old) then
    .ok (ibMap (ibDim new) fun e => dampElem k (new.getD e 0).toNat (old.getD e 0).toNat)
  else .error (edim new (ibDim old))

/-! ## VIBRES (R292) -/

/-- |a - b| of one element, exact; none is a NaN contribution. -/
def residElem (a b : Nat) : Option Num :=
  if a = b then some (.fin false 0 0)
  else
    match addNum .rne (fp32.decode a) (negNum (fp32.decode b)) with
    | none => none
    | some (.nan _) => none
    | some (.inf _) => some (.inf false)
    | some (.fin _ m e) => some (.fin false m e)

/-- VIBRES (R292): the greatest difference, rounded once. -/
def ibResidual (a b : List Half) : Except (Trap × Word) (Nat × BitVec 5) :=
  if ibOk a && ibOk b && decide (ibDim a = ibDim b) then
    let es := (ibLayout (ibDim a)).map fun e => ((a.getD e 0).toNat, (b.getD e 0).toNat)
    let es := es.filter fun p => decide (p.1 ≠ p.2)
    let snan := es.any fun p => (fp32.decode p.1).isSnan || (fp32.decode p.2).isSnan
    if es.any fun p => (residElem p.1 p.2).isNone then .ok (fp32.nanPat, flagIf snan flNV)
    else
      let m := es.foldl (fun (b : Num) p =>
        match residElem p.1 p.2 with
        | some v => if cmpNum b v == .lt then v else b
        | none => b) (.fin false 0 0)
      .ok (fp32.round .rne m)
  else .error (edim a (ibDim b))

/-! ## Elimination (R289 to R291) -/

/-- A table of patterns with the flags raised so far. -/
structure Work where
  t : Map Nat := []
  fl : BitVec 5 := 0
  deriving DecidableEq, Repr

/-- Entry (i, j) of a table. -/
def Work.at (w : Work) (i j : Nat) : Nat := w.t.getOr (8 * i + j) 0

/-- Entry (i, j) set to a rounded value. -/
def Work.set (w : Work) (i j : Nat) (r : Nat × BitVec 5) : Work := { t := w.t.put (8 * i + j) r.1, fl := w.fl ||| r.2 }

/-- fms(t, u, w) = round(t - u·w) (R290), along a list of pairs. -/
def fmsChain (t : Nat) (ps : List (Nat × Nat)) : Nat × BitVec 5 :=
  ps.foldl (fun a p => let r := fp32.fma .rne true false p.1 p.2 a.1
                       (r.1, a.2 ||| r.2)) (t, 0)

/-- round(t / u) after a chain. -/
def divAfter (c : Nat × BitVec 5) (u : Nat) : Nat × BitVec 5 :=
  let r := fp32.div .rne c.1 u
  (r.1, c.2 ||| r.2)

/-- The largest |Λ(j, j)| of the first P variables, 1.0 where it is zero (R290). -/
def pivotScale (a : List Half) (P : Nat) : Nat :=
  let m := (List.range P).foldl (fun m j => max m (ibLam a j j % 2 ^ 31)) 0
  if m = 0 then 0x3F800000 else m

/-- One column of the Cholesky factor; the error is the pivot index (R290). -/
def cholColumn (a : List Half) (P : Nat) (h : Nat) (reg : Bool) (L : Work) (j : Nat) : Except Nat Work :=
  let c := fmsChain (ibLam a j j) ((List.range j).map fun k => (L.at j k, L.at j k))
  let bad := (fp32.decode c.1).isNan || (fp32.le c.1 0).1 || (fp32.lt c.1 h).1
  let hOk := match fp32.decode h with
    | .fin false m _ => decide (m ≠ 0)
    | _ => false
  if bad && !(reg && hOk) then .error j
  else
    let t := if bad then h else c.1
    let L := ({ L with fl := L.fl ||| c.2 } : Work).set j j (fp32.sqrt .rne t)
    .ok (((List.range P).filter (j < ·)).foldl (fun L i =>
      L.set i j (divAfter (fmsChain (ibLam a j i) ((List.range j).map fun k => (L.at i k, L.at j k))) (L.at j j))) L)

/-- The Cholesky factor of the first P variables (R290); the error is TVAL of ESINGULAR. -/
def cholesky (a : List Half) (P tau : Nat) (reg : Bool) : Except (Trap × Word) Work :=
  let finite := (List.range P).all fun i => (List.range P).all fun j =>
    match fp32.decode (ibLam a i j) with
    | .fin .. => true
    | _ => false
  if !finite then .error (.esingular, 0)
  else
    let h := fp32.mul .rne tau (pivotScale a P)
    match (List.range P).foldlM (cholColumn a P h.1 reg) { fl := h.2 } with
    | .ok L => .ok L
    | .error j => .error (.esingular, BitVec.ofNat 64 j)

/-- The forward solution L⁻¹ x of a right side `x`, as column c of a table (R290). -/
def forward (L : Work) (P : Nat) (x : Nat → Nat) (W : Work) (c : Nat) : Work :=
  (List.range P).foldl (fun W i =>
    W.set i c (divAfter (fmsChain (x i) ((List.range i).map fun k => (L.at i k, W.at k c))) (L.at i i))) W

/-- VSCHUR (R289, R290). The columns of W are those of the kept variables; column 0 of Z is z. -/
def ibSchur (a : List Half) (P tau : Nat) (reg : Bool) : Except (Trap × Word) Block :=
  let d := ibDim a
  if !(ibOk a && decide (P < d)) then .error (edim a P)
  else
    match cholesky a P tau reg with
    | .error e => .error e
    | .ok L =>
      let kept := (List.range d).filter (P ≤ ·)
      let W := kept.foldl (fun W c => forward L P (fun i => ibLam a i c) W c) ({} : Work)
      let Z := forward L P (ibEta a) {} 0
      let tri := kept.flatMap fun r => (kept.filter (r ≤ ·)).map fun c =>
        (ibIdx (d - P) (r - P) (c - P), fmsChain (ibLam a r c) ((List.range P).map fun k => (W.at k r, W.at k c)))
      let eta := kept.map fun r => (36 + (r - P), fmsChain (ibEta a r) ((List.range P).map fun k => (W.at k r, Z.at k 0)))
      let all := tri ++ eta
      .ok (ibMake fun e => if e = 63 then some (d - P) else (all.find? fun r => r.1 == e).map fun r => r.2.1,
        L.fl ||| W.fl ||| Z.fl ||| orFlags (all.map fun r => r.2.2))

/-- VSOLVE (R291). -/
def ibSolve (a : List Half) (tau : Nat) (reg : Bool) : Except (Trap × Word) Block :=
  let d := ibDim a
  if !ibOk a then .error (edim a 0)
  else
    match cholesky a d tau reg with
    | .error e => .error e
    | .ok L =>
      let Z := forward L d (ibEta a) {} 0
      let M := (List.range d).reverse.foldl (fun M i =>
        M.set i 0 (divAfter (fmsChain (Z.at i 0) (((List.range d).filter (i < ·)).map fun k => (L.at k i, M.at k 0))) (L.at i i)))
        ({} : Work)
      .ok (ibMake fun e => if e = 63 then some d else if e < d then some (M.at e 0) else none, L.fl ||| Z.fl ||| M.fl)

/-- A VG command on elements: the new vd, or its fault (R285 to R291). -/
def vgRun (vfn : Nat) (a b : List Half) (s : Word) : Except (Trap × Word) Block :=
  match vfn with
  | 0 => ibAdd false a b
  | 1 => ibAdd true a b
  | 2 => ibEmbed a (bits s 0 8) (bits s 8 8)
  | 3 => ibSchur a (bits s 0 4) (bits s 32 32) (s.getLsbD 4)
  | 4 => ibDamp (bits s 0 4) a b
  | _ => ibSolve a (bits s 32 32) (s.getLsbD 4)

/-- What the entry of a VG form refuses at issue (R287 to R291). -/
def vgRefuses (vfn : Nat) (s : Word) : Bool :=
  let tau := fp32.decode (bits s 32 32)
  let tauBad := match tau with
    | .fin neg m _ => neg && decide (m ≠ 0)
    | _ => true
  let tauZero := match tau with
    | .fin _ m _ => decide (m = 0)
    | _ => false
  let elim := decide (bits s 5 27 ≠ 0) || tauBad || (s.getLsbD 4 && tauZero)
  match vfn with
  | 2 => decide (bits s 0 8 = 0 ∨ 8 < bits s 0 8 ∨ 7 < bits s 8 8 ∨ bits s 16 48 ≠ 0)
  | 3 => elim || decide (bits s 0 4 = 0 ∨ 7 < bits s 0 4)
  | 4 => decide (bits s 4 60 ≠ 0)
  | 5 => elim || decide (bits s 0 4 ≠ 0)
  | _ => false

end Sys2Proof.Machine
end

