-- ==== Sys2Proof/Machine/Pool.lean ====
section
/-! DEFINITION. Lanes and contexts of the vector pool (R198 to R205, R172). A claim whose `waiting` is set and whose
grant is not zero has been granted and its CLAIM has not issued again yet. -/

namespace Sys2Proof.Machine

/-- Copies of each claim: two on a screened cluster (R172). -/
def Cluster.copies (k : Cluster) : Nat := if k.screen then 2 else 1

/-- The claim belongs to the floor task (R198). -/
def Chip.floorClaim (h : Chip) (c : Claim) : Bool :=
  match h.task? c.uid with
  | some t => h.floorStamp t.pid t.packet.stamp
  | none => false

/-- The unreserved lanes a claim holds: the floor task's claim holds the 8 reserved lanes first. -/
def Chip.lanesOf (h : Chip) (m : Nat) (c : Claim) : Nat :=
  if h.floorClaim c then m * c.grant - min 8 (m * c.grant) else m * c.grant

/-- Unreserved lanes that no claim of the cluster holds. -/
def Chip.freeLanes (h : Chip) (v : Nat) : Nat :=
  let k := h.cluster v
  152 - (k.claims.map (h.lanesOf k.copies)).sum

/-- A claim waits for lanes or a context (R206). -/
def Claim.waits (c : Claim) : Bool := c.awaits && decide (c.grant = 0)

/-- The grant that the rule of R200 gives a claim now. The floor task's claim always has the 8 reserved lanes (R205). -/
def Chip.grantFor (h : Chip) (v : Nat) (c : Claim) : Nat :=
  let k := h.cluster v
  let m := k.copies
  let others := k.claims.filter fun x => decide (x.uid ≠ c.uid)
  let n := 1 + others.countP fun x => decide (x.grant ≠ 0) || x.waits
  let spare := h.freeLanes v + (if h.floorClaim c ∧ m * c.grant < 8 then 8 - m * c.grant else 0)
  let cap := if others.any Claim.waits then max (if h.floorClaim c then 8 else 0) (8 * (152 / (8 * n * m))) else 64
  let g := min c.request (min (c.grant + spare / m) cap) / 8 * 8
  if c.grant ≠ 0 ∧ g < 8 then 8 else g

/-- Contexts that claims other than the given one hold. -/
def Chip.contextsUsed (h : Chip) (v uid : Nat) : Nat :=
  let k := h.cluster v
  k.copies * k.claims.countP fun x => x.resident && decide (x.uid ≠ uid)

/-- The floor task's claim, another one than the given one, holds the reserved context. -/
def Chip.reserveHeld (h : Chip) (v uid : Nat) : Bool :=
  (h.cluster v).claims.any fun x => x.resident && decide (x.uid ≠ uid) && h.floorClaim x

/-- A context is free for the claim (R198, R204): one context is the floor task's. -/
def Chip.contextFree (h : Chip) (v : Nat) (c : Claim) : Bool :=
  decide (h.contextsUsed v c.uid + (h.cluster v).copies ≤ if h.floorClaim c || h.reserveHeld v c.uid then 32 else 31)

/-- `f` applied to the claim of a task at a cluster. -/
def Chip.modClaim (h : Chip) (v uid : Nat) (f : Claim → Claim) : Chip :=
  h.modCluster v fun k => { k with claims := k.claims.map fun c => if c.uid = uid then f c else c }

/-- The parked context with the greatest stamp spilled to the reserved region (R204). -/
def Chip.spill (h : Chip) (v : Nat) : Chip :=
  let k := h.cluster v
  let cs := k.claims.filter fun c => c.resident && (k.parked.any fun q => decide (q.thread.uid = c.uid))
  match cs.foldl (fun b c =>
      match b with
      | none => some c
      | some x => if (h.stampOf x.uid).ult (h.stampOf c.uid) then some c else b) (none : Option Claim) with
  | none => h
  | some c => h.modClaim v c.uid fun c => { c with resident := false }

/-- A context made ready for a claim where one is free or can be spilled; the claim tells whether it is resident. -/
def Chip.takeContext (h : Chip) (v uid : Nat) : Chip :=
  match (h.cluster v).claimOf uid with
  | none => h
  | some c =>
    if c.resident then h
    else
      let h := if h.contextFree v c then h else h.spill v
      if h.contextFree v c then h.modClaim v uid fun c => { c with resident := true } else h

/-- One claim evaluated: it takes the grant of the rule, with a context where one is free; otherwise it awaits lanes. -/
def Chip.evaluate (h : Chip) (v uid : Nat) : Chip :=
  match (h.cluster v).claimOf uid with
  | none => h
  | some c =>
    let g := h.grantFor v c
    let h := if g < 8 then h else h.takeContext v uid
    h.modClaim v uid fun c => if 8 ≤ g ∧ c.resident then { c with grant := g, awaits := false } else { c with awaits := true }

/-- The waiting claims in the order in which their CLAIMs issued (R200). -/
def Cluster.waitingClaims (k : Cluster) : List Claim :=
  sortBy (fun (a b : Claim) => decide (a.seq ≤ b.seq)) (k.claims.filter Claim.waits)

/-- The waiting claims served in the order of their CLAIMs (R200). -/
def Chip.serveClaims (h : Chip) (v : Nat) : Chip :=
  (h.cluster v).waitingClaims.foldl (fun h c => h.evaluate v c.uid) h

/-- A re-negotiation point of a claim (R201): claims that wait for lanes that have freed are served before it, and after it for
those that it frees. -/
def Chip.renegotiate (h : Chip) (v uid : Nat) : Chip :=
  match (h.cluster v).claimOf uid with
  | none => h
  | some _ => ((h.serveClaims v).evaluate v uid).serveClaims v

/-- The resume of a cluster after its rotation (R201, R393): a re-negotiation point of the claims of the eight dispatchers, whose
threads stayed in slot 0; the parked threads' claims have theirs when they resume. -/
def Chip.renegotiateZero (h : Chip) (v : Nat) : Chip :=
  ((List.range 8).foldl (fun h c => h.renegotiate v (8 * v + c)) h).serveClaims v

/-- The claim of a task released (R203). -/
def Chip.releaseClaim (h : Chip) (v uid : Nat) : Chip :=
  (h.modCluster v fun k => { k with claims := k.claims.filter fun c => decide (c.uid ≠ uid) }).serveClaims v

/-- A free context waits for the claim that an arrival brings (R204). -/
def Chip.arrivalContext (h : Chip) (v : Nat) (claim : Option Claim) : Option Chip :=
  match claim with
  | none => some h
  | some c =>
    if h.contextFree v c then some h
    else
      let g := h.spill v
      if g.contextFree v c then some g else none

/-- Packets that stand at the cluster with a claim for which no context is free: they wait for one (R204, R206). -/
def Chip.contextWaits (h : Chip) (v : Nat) : Nat :=
  h.flights.countP fun f =>
    f.2.there && match f.2.body with
    | .migration u q => decide (u = v) && q.claim.isSome && (h.arrivalContext v q.claim).isNone
    | _ => false

/-- VPOOL (R206). -/
def Chip.vpool (h : Chip) (v : Nat) : Word :=
  let k := h.cluster v
  BitVec.ofNat 64 (min 63 (k.claims.countP Claim.waits + h.contextWaits v) * 2 ^ 40 +
    (32 - k.copies * k.claims.countP (·.resident)) * 2 ^ 32 + (160 - k.copies * (k.claims.map (·.grant)).sum))

end Sys2Proof.Machine
end

