-- ==== Sys2Proof/Machine/VectorRun.lean ====
section
/-! DEFINITION. Vector commands from issue to completion (R207 to R213, R217 to R219) and the mailbox commands of the pool
(R294 to R297). -/

namespace Sys2Proof.Machine

/-! ## What a command gives -/

/-- The context after a command, with its scalar result and its flags. -/
structure VDone where
  regs : Map Half
  value : Word := 0
  flags : BitVec 5 := 0
  deriving DecidableEq, Repr

/-- Fields of the V and VS formats as numbers (R34). -/
def vFn (w : Half) : Nat := bits w 20 6
def vD (w : Half) : Nat := bits w 15 5
def vA (w : Half) : Nat := bits w 10 5
def vB (w : Half) : Nat := bits w 5 5
def vsFn (w : Half) : Nat := bits w 4 5
def vsA (w : Half) : Nat := bits w 14 5
def vsB (w : Half) : Nat := bits w 9 5

/-- Draw e of a command (R98). -/
def Chip.opDraw (h : Chip) (t : Thread) (op : Op) (e : Nat) : Half :=
  let lcn := if t.isTask then 8 * t.homeV + t.homeC else t.uid
  philox0 (h.part (h.pidAt (t.uid / 8) t)).seed (drawCounter (if op.sup then 0 else t.stamp) lcn (op.draw + e))

/-! ## Vector memory (R217 to R219) -/

/-- The address of element e of a VM command (R217). -/
def vmAddr (w : Half) (regs : Map Half) (s : Word) (e : Nat) : Word :=
  match vFn w with
  | 0 => s + BitVec.ofNat 64 (4 * e)
  | 1 => s + BitVec.ofNat 64 (4 * e)
  | 2 => s + BitVec.ofNat 64 e * (vget regs (vB w) 0).signExtend 64
  | 3 => s + BitVec.ofNat 64 e * (vget regs (vB w) 0).signExtend 64
  | _ => s + (vget regs (vB w) e).signExtend 64

/-- An element lies wholly in the window of `s`, and at the same VCN in peer scratch (R218). -/
def vmInWindow (s a : Nat) : Bool :=
  decide (windowOf a = windowOf s ∧ windowOf (a + 3) = windowOf s) &&
    (decide (windowOf s ≠ .peer) || decide (peerVcn a = peerVcn s ∧ peerVcn (a + 3) = peerVcn s))

/-- One element of a VM command performed as a 4-byte access (R218). -/
def Chip.vmElem (h : Chip) (w : Who) (v : Nat) (store : Bool) (s : Word) (op : Op) : Except Blocked (Word × Chip) :=
  if !vmInWindow s.toNat op.ea.toNat then .error (.fault .ewindow op.ea)
  else if op.ea.toNat % 4 ≠ 0 then .error (.fault .ealign op.ea)
  else h.performAs w v (if store then .store 4 else .load 4 false) op

/-- A VM command: every active element in increasing order; a fault or a walk leaves no effect (R213, R218). -/
def Chip.vmRun (h : Chip) (w : Who) (v : Nat) (regs : Map Half) (q : VCmd) : Except Blocked (VDone × Chip) := do
  let d := vD q.op.word
  let store := decide (vFn q.op.word % 2 = 1)
  let (xs, h) ← (actives q.mask).foldlM (fun (acc : List (Nat × Word) × Chip) e => do
    let a := vmAddr q.op.word regs q.scalar e
    let (x, h) ← acc.2.vmElem w v store q.scalar { q.op with ea := a, y := (vget regs d e).zeroExtend 64 }
    .ok (acc.1 ++ [(e, x)], h)) ([], h)
  if store then .ok ({ regs := regs }, h)
  else .ok ({ regs := vset regs d fun e => (xs.find? fun p => p.1 == e).map fun p => fld p.2 0 32 }, h)

/-! ## Mailboxes (R293 to R297) -/

/-- The bytes of a mailbox record (R293). -/
def mailboxSize : Nat := 272

/-- Bytes at a scratch place of the record's bank read line by line. -/
def Chip.readRecord (h : Chip) (w : Who) (v off n : Nat) (x : Word) : Except Blocked (List Byte × Chip) :=
  (linesOf off n).foldlM (fun (acc : List Byte × Chip) part => do
    let (bs, h) ← acc.2.readScratch w v part.1 part.2 x
    .ok (acc.1 ++ bs, h)) ([], h)

/-- Bytes of the record written line by line. -/
def Chip.writeRecord (h : Chip) (w : Who) (v off : Nat) (bs : List Byte) (x : Word) : Except Blocked Chip :=
  (linesOf off bs.length).foldlM (fun h part => h.writeScratch w v part.1 ((bs.drop (part.1 - off)).take part.2) x) h

/-- The scratch place of a mailbox: its cluster and offset, or why it cannot be reached (R294). Only SCRATCH-T banks hold
mailboxes. -/
def Chip.mailboxAt (h : Chip) (w : Who) (v : Nat) (x : Word) : Except Blocked (Nat × Nat) :=
  let go := fun u off =>
    if (h.cluster u).mode (off / 65536) ≠ .scratchT then Except.error (Blocked.fault .ebankmode x)
    else if w.mode = .quiet then .error (.fault .equiet x)
    else .ok (u, off)
  match accessPlace h.v v x.toNat mailboxSize with
  | some (.here off) => go v off
  | some (.remote u off) => go u off
  | _ => .error (.fault .ewindow x)

/-- The block a record holds (R293). -/
def recordBlock (bs : List Byte) : List Half :=
  (List.range 64).map fun e => BitVec.ofNat 32 (bytesToNat ((bs.drop (16 + 4 * e)).take 4))

/-- A record's bytes. -/
def recordBytes (last : Word) (res : Nat) (cfg : Nat) (ib : List Half) : List Byte :=
  wordBytes 8 last ++ natToBytes 4 res ++ natToBytes 4 cfg ++ ib.flatMap fun x => natToBytes 4 x.toNat

/-- MBLD in the pool (R296). -/
def Chip.mbldRun (h : Chip) (w : Who) (v : Nat) (regs : Map Half) (q : VCmd) : Except Blocked (VDone × Chip) := do
  let x := q.scalar
  let (u, off) ← h.mailboxAt w v x
  let (bs, h) ← h.readRecord w u off mailboxSize x
  let ib := recordBlock bs
  if !(BitVec.ofNat 32 (recordField bs 12 4)).getLsbD 11 then .error (.fault .egbpcfg x)
  else if !ibOk ib then .error (.fault .edim (edim ib 0).2)
  else .ok ({ regs := vset regs (bits q.op.word 19 5) fun e => ib[e]? }, h)

/-- MBUPD in the pool (R297). -/
def Chip.mbupdRun (h : Chip) (w : Who) (v : Nat) (regs : Map Half) (q : VCmd) : Except Blocked (VDone × Chip) := do
  let x := q.scalar
  let b := bits q.op.word 5 5
  let (u, off) ← h.mailboxAt w v x
  let (bs, h) ← h.readRecord w u off mailboxSize x
  let cfg := recordField bs 12 4
  let old := recordBlock bs
  let new := vreg regs b
  if !(BitVec.ofNat 32 cfg).getLsbD 11 then .error (.fault .egbpcfg x)
  else
    match ibDamp (cfg / 2 ^ 12 % 16) new old with
    | .error e => .error (.fault e.1 e.2)
    | .ok n =>
      match ibResidual n.1 old with
      | .error e => .error (.fault e.1 e.2)
      | .ok r => do
        let h ← h.writeRecord w u off (recordBytes (if w.mode = .super then 0 else w.stamp) r.1 cfg n.1) x
        .ok ({ regs := vset regs b fun e => n.1[e]?, value := BitVec.ofNat 64 r.1, flags := n.2 ||| r.2 }, h)

/-! ## Running a command (R208 to R210) -/

/-- A command of a context run: the context, scalar result and flags it gives. -/
def Chip.vectorRun (h : Chip) (t : Thread) (v : Nat) (regs : Map Half) (q : VCmd) : Except Blocked (VDone × Chip) :=
  let w := q.op.word
  let who := t.opWho q.op
  let el := fun n e => (vget regs n e).toNat
  match major w with
  | 0x28 =>
    let r := vectorMap regs q.mask (vD w) fun e => vfElem (vFn w) (rndOf q.op.frm) (el (vA w) e) (el (vB w) e) (el (vD w) e)
    .ok ({ regs := r.1, flags := r.2 }, h)
  | 0x29 =>
    let r := vset regs (vD w) fun e =>
      if q.mask.getLsbD e then some (viElem (vFn w) (vget regs (vA w) e) (vget regs (vB w) e)) else none
    .ok ({ regs := r }, h)
  | 0x2A => h.vmRun who v regs q
  | 0x2B =>
    if vFn w < 16 then .ok ({ regs := vpRun (vFn w) regs q.mask q.scalar (vD w) (vA w) (vB w) }, h)
    else if vFn w < 24 then
      let r := vNarrow (vFn w - 16) q.op.frm (h.opDraw t q.op) regs q.mask q.scalar (vD w) (vA w)
      .ok ({ regs := r.1, flags := r.2 }, h)
    else
      let c := vFn w - 24
      let r := vectorMap regs q.mask (vD w) fun e =>
        widenElem c (rndOf q.op.frm) q.scalar e (packGet regs (vA w) (packWidth c) e)
      .ok ({ regs := r.1, flags := r.2 }, h)
  | 0x2C =>
    if vsFn w = 12 then
      match ibResidual (vreg regs (vsA w)) (vreg regs (vsB w)) with
      | .ok r => .ok ({ regs := regs, value := BitVec.ofNat 64 r.1, flags := r.2 }, h)
      | .error e => .error (.fault e.1 e.2)
    else
      let r := vsRun (vsFn w) regs (vsA w) (vsB w)
      .ok ({ regs := regs, value := r.1, flags := r.2 }, h)
  | 0x2D =>
    match vgRun (vFn w) (vreg regs (vA w)) (vreg regs (vB w)) q.scalar with
    | .ok r => .ok ({ regs := vset regs (vD w) fun e => r.1[e]?, flags := r.2 }, h)
    | .error e => .error (.fault e.1 e.2)
  | _ => if bits w 0 5 = 1 then h.mbldRun who v regs q else h.mbupdRun who v regs q

/-- A result arrived for the pending operation of this order number, wherever it stands (R163). -/
def Thread.arrive (t : Thread) (seq : Nat) (r : Result) : Thread :=
  t.mapPend (fun q => if q.op.seq = seq then { q with arrival := .landed r } else q)
    (fun e => if e.op.seq = seq then { e with arrival := .landed r } else e)

/-- The pending operation of this order number completed without anything to report. -/
def Thread.settle (t : Thread) (seq : Nat) : Thread :=
  { t with
    pend := t.pend.filter fun q => decide (q.op.seq ≠ seq)
    suspended := t.suspended.map fun u => { u with pend := u.pend.filter fun q => decide (q.op.seq ≠ seq) } }

/-- The command writes a scalar at its consumption point (R227, R297). -/
def givesScalar (w : Half) : Bool := decide (major w = 0x2C) || (decide (major w = 0x2E) && decide (bits w 0 5 = 2))

/-- The head of the queue removed; a parked thread's claim with an empty queue gives up its lanes (R201). -/
def Chip.popVector (h : Chip) (v uid : Nat) : Chip :=
  let h := h.modClaim v uid fun c => { c with queue := c.queue.drop 1 }
  if (h.cluster v).parked.any fun q => decide (q.thread.uid = uid) then
    (h.modCluster v fun k => { k with claims := releaseLanes uid k.claims }).serveClaims v
  else h

/-- A context made ready to run its next command: claims that wait for lanes that have freed are served, and a spilled context of
a thread that holds a slot comes back (R200, R204). -/
def Chip.readyContext (h : Chip) (v uid : Nat) : Chip :=
  match (h.cluster v).claimOf uid with
  | some c => if c.resident && decide (c.grant ≠ 0) then h else (h.serveClaims v).takeContext v uid
  | none => h

/-- MBUPD's consumption point will find the SDQ full (R227, R297): what the queue holds, and what older windows that end with it
push. -/
def Thread.pushOverflows (t : Thread) (closes : Bool) (seq : Nat) : Bool :=
  let full := fun (ps : List Pend) (sdq : List Word) =>
    ps.any (fun q => decide (q.op.seq = seq ∧ q.dest = .reg 121)) &&
      decide (16 ≤ sdq.length + ps.countP fun q => decide (q.op.seq < seq ∧ q.dest = .reg 121) &&
        (match q.due with | .window n => closes || n == 0 | _ => false))
  full t.pend t.sdq || match t.suspended with
    | some u => full u.pend u.sdq
    | none => false

/-- The instruction the thread issues next closes every open window: one of R47, or a scalar access to a peer cluster (R193). -/
def Chip.nextCloses (h : Chip) (t : Thread) : Bool :=
  match h.fetchNext t with
  | .error _ => false
  | .ok (w, _) =>
    closesWindows (major w) ||
      match h.placeOf t.uid with
      | none => false
      | some p =>
        match h.here? p, accessOf w with
        | some x, some a =>
          let off := if major w = 0x17 then 0 else byteOff (fld w 0 8) a.size
          decide (p.t ≠ 0) && (peerOf h.v p.v w (readGpr t x.file (fld w 12 7).toNat + off)).isSome
        | _, _ => false

/-- A command that would push a scalar at its consumption point onto a full SDQ, and writes nothing where it faults: MBUPD. -/
def Chip.runCommand (h : Chip) (t : Thread) (v : Nat) (regs : Map Half) (q : VCmd) : Except Blocked (VDone × Chip) := do
  let r ← h.vectorRun t v regs q
  if major q.op.word = 0x2E ∧ t.pushOverflows (h.nextCloses t) q.op.seq then .error (.fault .ereg 121) else .ok r

/-- What a command wrote into a context: keys whose value changed. -/
def written (old new : Map Half) : List Nat := (new.map (·.1)).filter fun k => new.getOr k 0 != old.getOr k 0

/-- The trailing thread's copy of a command agrees with the leading thread's (R172, R175): every element that either wrote, every
active element of the destination, the scalar and the flags, and what left the pool; or the same fault. -/
def Chip.copyAgrees (h : Chip) (t : Thread) (v : Nat) (c : Claim) (q : VCmd) (r : Except Blocked (VDone × Chip)) : Bool :=
  match c.second with
  | none => true
  | some w =>
    match r, h.runCommand t v w q with
    | .ok (d, g), .ok (e, f) =>
      let active := if givesScalar q.op.word then [] else
        ((List.range 64).filter fun n => q.mask.getLsbD n).map fun n => 64 * vD q.op.word + n
      decide (d.value = e.value ∧ d.flags = e.flags ∧ g = f) &&
        (active ++ written c.v d.regs ++ written w e.regs).all fun k => d.regs.getOr k 0 == e.regs.getOr k 0
    | .error x, .error y => decide (x = y)
    | _, _ => false

/-- The trailing thread's context after its copy of a command. -/
def Chip.secondAfter (h : Chip) (t : Thread) (v : Nat) (c : Claim) (q : VCmd) : Option (Map Half) :=
  c.second.map fun w =>
    match h.runCommand t v w q with
    | .ok (e, _) => e.regs
    | .error _ => w

/-- A mismatch of the pair whose leading thread has this task (R175): its machine check is raised with this kind of difference. A
parked pair has no slot: the record names its core and pair 0 (log 50). -/
def Chip.mismatched (h : Chip) (uid kind : Nat) : Chip :=
  match h.placeOf uid with
  | some p => h.modCluster p.v fun k => { k with mismatch := some (p.c, p.t, kind) }
  | none =>
    { h with
      clusters := h.clusters.each fun _ k =>
        match k.parked.find? fun q => decide (q.thread.uid = uid) with
        | some q => { k with mismatch := some (q.core, 0, kind) }
        | none => k }

/-- The head of a context's queue run to its end (R208, R211, R213): it stays where it waits for lanes, a walk or LOG
space. On a screened cluster both copies run, and a difference between them keeps the command's results in the core (R172,
R175). -/
def Chip.completeVector (h : Chip) (v uid : Nat) : Chip :=
  let h := h.readyContext v uid
  match (h.cluster v).claimOf uid, h.findThread uid with
  | some c, some t =>
    match c.queue with
    | [] => h
    | q :: _ =>
      if !c.resident || decide (c.grant = 0) then h
      else
        let seq := q.op.seq
        let r := h.runCommand t v c.v q
        if !h.copyAgrees t v c q r then h.mismatched uid 1
        else
        match r with
        | .ok (d, g) =>
          let g := (g.modClaim v uid fun c => { c with v := d.regs, second := h.secondAfter t v c q }).popVector v uid
          if givesScalar q.op.word then g.mapThread uid fun t => t.arrive seq (.value d.value d.flags)
          else g.mapThread uid fun t => { t.settle seq with fflags := t.fflags ||| d.flags }
        | .error (.fault e x) => (h.popVector v uid).mapThread uid fun t => t.arrive seq (.fault e x)
        | .error (.stop (.trap e x)) => (h.popVector v uid).mapThread uid fun t => t.arrive seq (.fault e x)
        | .error (.walk pid r) => h.addWalk pid r (if decide (vFn q.op.word % 2 = 1) then 5 else 4) seq
        | .error (.stop _) => h
  | _, _ => h

/-! ## Issue (R207) -/

/-- The thread's claim, or ELANE (R207). -/
def Chip.laneCheck (h : Chip) (p : At) (uid : Nat) : Except Stop Claim :=
  match (h.cluster p.v).claimOf uid with
  | some c => if c.waiting then .error (.trap .elane 0) else .ok c
  | none => .error (.trap .elane 0)

/-- A command put into its context's queue, with the pending operation the thread keeps for it (R207, R213, R227). -/
def Chip.pushVector (h : Chip) (p : At) (uid : Nat) (q : VCmd) (keep : Option (Due × Dest)) : Except Stop Chip := do
  let c ← h.laneCheck p uid
  if 8 ≤ c.queue.length then .error .stall
  else
    let h := h.modClaim p.v uid fun c => { c with queue := c.queue ++ [q] }
    match keep with
    | none => .ok h
    | some (due, dest) => .ok (h.modThread p fun t => t.addPend ⟨q.op, due, dest, .waiting⟩)

/-- The operation of a vector command as it is saved at issue. -/
def vectorOp (self : Thread) (w : Half) (mask s : Word) (seq : Nat) : Op :=
  { opOf self w s mask 0 seq with frm := self.frm.toNat, draw := self.counters.draw }

/-- The mask and scalar a V-format word carries (R42). -/
def Chip.maskAt (h : Chip) (p : At) (gp : BitVec 5) : Word × Word :=
  match h.here? p with
  | some x => x.pair gp
  | none => (0, 0)

/-- A V-format compute command: `refuses` is the entry's own check of the scalar, `draws` the draw indices it takes under
SR, `faults` says that it can fault in the pool (R285). -/
def vectorForm (w : Half) (gp : BitVec 5) (refuses : Word → Bool) (draws : Nat) (faults : Bool) (s : State) :
    Host.Outcome State Fault Refusal :=
  issueChip (form w [.pair gp]) s fun self p h => do
    let _ ← h.laneCheck p self.uid
    let (mask, x) := h.maskAt p gp
    if refuses x then .error (.trap .eill (tvalWord w))
    else
      let op := vectorOp self w mask x h.nextSeq
      let h ← h.tick.pushVector p self.uid ⟨op, mask, x, false⟩ (if faults then some (.vector, .none) else none)
      if self.frm = 4 then
        .ok (h.modThread p fun t => { t with counters := { t.counters with draw := t.counters.draw + draws } })
      else .ok h

/-- A VS instruction: a window with its ahead field (R227). -/
def vsForm (w : Half) (d : BitVec 7) (ahead : BitVec 4) (s : State) : Host.Outcome State Fault Refusal :=
  issueChip (form w [.vsDst d]) s fun self p h => do
    let op := vectorOp self w (BitVec.allOnes 64) 0 h.nextSeq
    h.tick.pushVector p self.uid ⟨op, BitVec.allOnes 64, 0, false⟩ (some (.window ahead.toNat, .reg d))

/-- A vector memory access waits for incomplete engine commands and operand fills of its task that it may overlap (R240,
R264): the 256 bytes of VLD and VST are known, any other command waits for all of them. -/
def Chip.vmHeld (h : Chip) (p : At) (t : Thread) (w : Half) (s : Word) : Bool :=
  t.accessWaiting || h.spanBusy t.uid (if vFn w < 2 then spanOf p.v s.toNat 256 else (0, 2 ^ 62))

/-- A command of the pool at the address `x`, issued here or, for a peer cluster, after the migration (R193, R218). -/
def Chip.pushAt (h : Chip) (self : Thread) (p : At) (q : VCmd) (x : Word) (keep : Due × Dest) : Except Stop Chip :=
  match accessPlace h.v p.v x.toNat 1 with
  | none => .error (.trap .ewindow x)
  | some (.remote u _) =>
    if !(h.part (h.pidAt p.v self)).holds u then .error (.trap .eperm x)
    else if p.t = 0 then h.pushVector p self.uid q (some keep)
    else if !h.mayLeave p self then .error .stall
    else .ok (h.migrate p u (self.entersAt u p.c) (some ⟨q.op, keep.1, keep.2, .waiting⟩))
  | some _ => h.pushVector p self.uid q (some keep)

/-- The form of a VM command: its points depend on the scalar operand. -/
def vmPoints (w : Half) (gp : BitVec 5) (s : State) : Form :=
  let f := form w [.pair gp]
  peerForm f (((s.landed f).map fun x => (x.pair gp).2).getD 0) s

/-- A VM command (R217, R218). -/
def vmForm (w : Half) (gp : BitVec 5) (s : State) : Host.Outcome State Fault Refusal :=
  issueChip (vmPoints w gp s) s fun self p h => do
    let _ ← h.laneCheck p self.uid
    let (mask, x) := h.maskAt p gp
    if (accessPlace h.v p.v x.toNat 1).isNone then .error (.trap .ewindow x)
    else if vFn w < 2 ∧ x.toNat % 4 ≠ 0 then .error (.trap .ealign x)
    else if h.vmHeld p self w x then .error .stall
    else h.tick.pushAt self p ⟨vectorOp self w mask x h.nextSeq, mask, x, false⟩ x (.vector, .none)

end Sys2Proof.Machine
end

