-- ==== Sys2Proof/Machine/Engine.lean ====
section
/-! DEFINITION. The copy engines (13): data commands, chains, counted bytes, and the shadows of published buffers. -/

namespace Sys2Proof.Machine

/-! ## Descriptors (R259, R260) -/

def Desc.len (d : Desc) : Nat := bits d.c0 0 32
def Desc.rows (d : Desc) : Nat := bits d.c0 32 16 + 1
def Desc.mask (d : Desc) : Nat := bits d.c0 32 16
def Desc.bc (d : Desc) : Bool := d.c0.getLsbD 50
def Desc.bcAddr (d : Desc) : Nat := bits d.c1 0 21
def Desc.sstride (d : Desc) : Int := (d.c1.extractLsb' 32 32).toInt
def Desc.dstride (d : Desc) : Int := (d.c1.extractLsb' 0 32).toInt

/-- A descriptor as it is kept with a saved operation (R120): nine words. -/
def Desc.pack (d : Desc) : List Half :=
  let two := fun x : Word => [x.extractLsb' 0 32, x.extractLsb' 32 32]
  BitVec.ofNat 32 d.fn :: (two d.x ++ two d.y ++ two d.c0 ++ two d.c1)

/-- The descriptors of a saved operation. -/
def descsOf : List Half → List Desc
  | f :: a :: b :: c :: d :: e :: g :: i :: j :: rest =>
    { fn := f.toNat, x := b ++ a, y := d ++ c, c0 := g ++ e, c1 := j ++ i } :: descsOf rest
  | _ => []

/-- Bytes of an element of GATH and SCAT. -/
def Desc.esize (d : Desc) : Nat :=
  match bits d.c0 48 2 with
  | 0 => 4
  | 1 => 8
  | _ => 64

/-- An address raised by a signed distance, modulo 2^64. -/
def shiftAddr (a : Word) (n : Int) : Nat := (a + BitVec.ofInt 64 n).toNat

/-- The receivers of a CPYMC: VCN and address of y there (R271). -/
def Desc.receivers (d : Desc) (v : Nat) : List (Nat × Nat) :=
  let base := if windowOf d.y.toNat = .peer then peerVcn d.y.toNat else v
  ((List.range 16).filter fun i => d.mask.testBit i).map fun i =>
    (base + i, 0x100000000 + (base + i) * 2 ^ 21 + scratchOff d.y.toNat)

/-- The parts of a command in the order of R260: source, destination, bytes. `idx` are the offsets of GATH and SCAT. -/
def Desc.parts (d : Desc) (v : Nat) (idx : List Int) : List (Nat × Nat × Nat) :=
  match d.fn with
  | 0 => [(d.x.toNat, d.y.toNat, d.len)]
  | 1 => (List.range d.rows).map fun r => (shiftAddr d.x (r * d.sstride), shiftAddr d.y (r * d.dstride), d.len)
  | 2 => (d.receivers v).map fun r => (d.x.toNat, r.2, d.len)
  | 3 => (List.range d.len).map fun i => (shiftAddr d.x (idx.getD i 0), shiftAddr d.y ((i * d.esize : Nat) : Int), d.esize)
  | _ => (List.range d.len).map fun i => (shiftAddr d.x ((i * d.esize : Nat) : Int), shiftAddr d.y (idx.getD i 0), d.esize)

/-- The clusters whose scratch holds the `n` bytes at `a`, with how many of them each holds. -/
def clusterBytes (v a n : Nat) : List (Nat × Nat) :=
  if windowOf a = .peer then
    (List.range ((a % 2 ^ 21 + n + (2 ^ 21 - 1)) / 2 ^ 21)).map fun i =>
      let lo := max a ((a / 2 ^ 21 + i) * 2 ^ 21)
      (peerVcn lo, min (a + n) ((a / 2 ^ 21 + i + 1) * 2 ^ 21) - lo)
  else [(v, n)]

/-- The clusters that receive counted bytes, with the bytes that each receives (R272). -/
def Desc.counted (d : Desc) (v : Nat) : Map Nat :=
  if !d.bc then []
  else
    let ends := if d.fn = 2 then (d.receivers v).map (·.2) else [d.y.toNat]
    (ends.flatMap fun a => clusterBytes v a d.len).foldl (fun m c => m.put c.1 (m.getOr c.1 0 + c.2)) []

/-- A field that breaks R259 (R261, 1). -/
def Desc.refused (d : Desc) : Bool :=
  let bytes := decide (d.fn = 0 ∨ d.fn = 2)
  decide (4 < d.fn ∨ bits d.c0 51 9 ≠ 0 ∨ d.len = 0) ||
    (d.bc && !bytes) || (decide (bits d.c0 48 2 ≠ 0) && decide (d.fn < 3)) || decide (bits d.c0 48 2 = 3) ||
    (decide (bits d.c0 32 16 ≠ 0) && decide (d.fn ≠ 1 ∧ d.fn ≠ 2)) || (decide (d.fn = 2) && decide (d.mask = 0)) ||
    (bytes && (if d.bc then decide (bits d.c1 21 43 ≠ 0) else decide (d.c1 ≠ 0))) ||
    (d.bc && decide (windowOf d.y.toNat ≠ .scratch ∧ windowOf d.y.toNat ≠ .peer))

/-- The first of some addresses whose window does not exist (R27). -/
def badWindow (V v : Nat) (as : List Word) : Option Word := as.find? fun a => (accessPlace V v a.toNat 1).isNone

/-- The partition that the maker of an access works for (`Chip.pidAt`). -/
def Chip.whoPid (h : Chip) (w : Who) : Nat := if 16384 ≤ w.uid then w.pid else (h.cluster (w.uid / 8)).pid.getD w.pid

/-- The precise checks of a data command (R261), in order; the EILL's TVAL is `w`. -/
def Chip.descTrap (h : Chip) (v : Nat) (who : Who) (w : Word) (d : Desc) : Option (Trap × Word) :=
  let ends := (if d.fn = 2 then (d.receivers v).map fun r => BitVec.ofNat 64 r.2 else [d.y])
  let gather := decide (3 ≤ d.fn)
  let peers := (d.x :: d.y :: ends).find? fun a =>
    decide (windowOf a.toNat = .peer) && !(h.part (h.whoPid who)).holds (peerVcn a.toNat)
  let aligned := [d.x, d.y] ++
    (if d.fn = 1 then [BitVec.ofInt 64 d.sstride, BitVec.ofInt 64 d.dstride] else []) ++
    (if gather then [d.c1] else []) ++ (if d.fn < 3 then [BitVec.ofNat 64 d.len] else [])
  if d.refused then some (.eill, w)
  else
    match badWindow h.v v [d.x, d.y] with
    | some a => some (.ewindow, a)
    | none =>
      if gather ∧ windowOf d.c1.toNat ≠ .scratch then some (.ewindow, d.c1)
      else if d.fn = 2 ∧ windowOf d.y.toNat = .global then some (.ewindow, d.y)
      else
        match badWindow h.v v ends with
        | some a => some (.ewindow, a)
        | none =>
          match aligned.find? fun a => decide (a.toNat % 4 ≠ 0) with
          | some a => some (.ealign, a)
          | none =>
            if d.bc ∧ d.bcAddr % 16 ≠ 0 then some (.ealign, BitVec.ofNat 64 d.bcAddr)
            else
              match peers with
              | some a => some (.eperm, a)
              | none => if who.mode = .spec ∧ (d.bc ∨ d.fn = 2) then some (.eperm, d.y) else none

/-! ## Spans (R263, R264) -/

/-- Every address. -/
def anySpan : Nat × Nat := (0, 2 ^ 62)

/-- The span of rows: from the lowest to the highest byte. -/
def rowSpan (v : Nat) (a : Word) (rows : Nat) (stride : Int) (n : Nat) : Nat × Nat :=
  let far : Int := a.toNat + (rows - 1 : Nat) * stride
  let lo := min (a.toNat : Int) far
  let hi := max (a.toNat : Int) far
  if lo < 0 ∨ 2 ^ 64 ≤ hi then anySpan else (addrKey v lo.toNat, addrKey v hi.toNat + n - 1)

/-- Source and destination spans of a descriptor; scattered bytes may lie anywhere. -/
def Desc.spans (d : Desc) (v : Nat) : List (Nat × Nat) × List (Nat × Nat) :=
  match d.fn with
  | 0 => ([spanOf v d.x.toNat d.len], [spanOf v d.y.toNat d.len])
  | 1 => ([rowSpan v d.x d.rows d.sstride d.len], [rowSpan v d.y d.rows d.dstride d.len])
  | 2 => ([spanOf v d.x.toNat d.len], (d.receivers v).map fun r => spanOf v r.2 d.len)
  | 3 => ([anySpan, spanOf v d.c1.toNat (4 * d.len)], [spanOf v d.y.toNat (d.len * d.esize)])
  | _ => ([spanOf v d.x.toNat (d.len * d.esize), spanOf v d.c1.toNat (4 * d.len)], [anySpan])

/-- A command waits for an earlier one of its task (R263). -/
def EngCmd.waitsFor (c e : EngCmd) : Bool :=
  decide (c.uid = e.uid ∧ e.seq < c.seq) &&
    (((c.srcSpans ++ c.dstSpans).any fun s => e.dstSpans.any fun t => overlaps s t) ||
      c.dstSpans.any fun s => e.srcSpans.any fun t => overlaps s t)

/-- The command may act now. -/
def Chip.engReady (h : Chip) (c : EngCmd) : Bool := !h.clusters.any fun k => k.2.cmds.any fun e => c.waitsFor e

/-! ## Bytes (R262) -/

/-- The device may send a request for host bytes (R417). -/
def Chip.hostCovers (h : Chip) (a n : Nat) : Bool :=
  let base := (h.reg 0x4A1).toNat / 4096 * 4096
  decide (base ≤ a ∧ a + n ≤ base + (h.reg 0x4A2).toNat / 4096 * 4096)

/-- The byte lies in the window of the command's first byte (R28). -/
def inWindow (first a n : Nat) : Bool := decide (windowOf a = windowOf first ∧ windowOf (a + n - 1) = windowOf first)

/-- The scratch place of an engine access: its cluster and offset (R28, R261); it never bounces (R441). -/
def Chip.engScratch (h : Chip) (w : Who) (u off : Nat) (a : Word) : Except Blocked (Nat × Nat) :=
  if !((h.part (h.whoPid w)).holds u) then .error (.fault .eperm a)
  else .ok (u, off)

/-- One line of a command's source read by the engine (R262). -/
def Chip.engRead (h : Chip) (w : Who) (v first a n : Nat) : Except Blocked (List Byte × Chip) :=
  let ea := BitVec.ofNat 64 a
  if !inWindow first a n then .error (.fault .ewindow ea)
  else
    match accessPlace h.v v a n with
    | none => .error (.fault .ewindow ea)
    | some (.here off) => h.readScratch w v off n ea
    | some (.remote u off) => do
      let (u, off) ← h.engScratch w u off ea
      h.readScratch w u off n ea
    | some (.global va) => do
      let h := h.warm w.pid va
      let l ← h.resolve w va ea
      if w.mode = .spec ∨ l.pub.isSome ∨ l.attr = .coherent then h.readGlobal w v va n ea
      else if l.attr = .host then
        if h.hostCovers (l.pa % 2 ^ 47) n then .ok (h.host.readBytes (l.pa % 2 ^ 47) n, h) else .error (.fault .eperm ea)
      else .ok (h.hbm.readBytes l.pa n, h.touch l.pa false)

/-- Bytes of a scratch bank written by the engine (R262). -/
def Chip.engPut (h : Chip) (w : Who) (v off : Nat) (bs : List Byte) (ea : Word) : Except Blocked Chip :=
  match (h.cluster v).mode (off / 65536), w.mode with
  | .scratch, .spec => .error (.fault .eperm ea)
  | .scratchT, .spec => .error (.fault .eperm ea)
  | .scratch, _ => .ok (h.putScratch v off bs)
  | .scratchT, .quiet => .error (.fault .equiet ea)
  | .scratchT, .super => .ok (h.putScratch v off bs)
  | _, _ => .error (.fault .ebankmode ea)

/-- One line of a command's destination written by the engine (R262, R277). -/
def Chip.engWrite (h : Chip) (w : Who) (v first a : Nat) (bs : List Byte) : Except Blocked Chip :=
  let ea := BitVec.ofNat 64 a
  if !inWindow first a bs.length then .error (.fault .ewindow ea)
  else
    match accessPlace h.v v a bs.length with
    | none => .error (.fault .ewindow ea)
    | some (.here off) => h.engPut w v off bs ea
    | some (.remote u off) => do
      let (u, off) ← h.engScratch w u off ea
      h.engPut w u off bs ea
    | some (.global va) => do
      let h := h.warm w.pid va
      let l ← h.resolve w va ea
      match l.pub, w.mode with
      | some rec_, .spec =>
        match h.shadows.find? fun x => decide (x.uid = w.uid ∧ x.record = rec_) with
        | some x => .ok { h with hbm := h.hbm.writeBytes (h.backing rec_ x.backing + (va - h.pubBase rec_)) bs }
        | none => .error (.fault .eperm ea)
      | some _, .quiet => .error (.fault .equiet ea)
      | some _, .super => .error (.fault .eperm ea)
      | none, .spec => .error (.fault .eperm ea)
      | none, m =>
        match l.attr with
        | .readShared => .error (.fault .eperm ea)
        | .coherent => if m = .quiet then .error (.fault .equiet ea) else .ok (h.superCoherent w.pid v l.pa bs)
        | .host =>
          if h.hostCovers (l.pa % 2 ^ 47) bs.length then .ok { h with host := h.host.writeBytes (l.pa % 2 ^ 47) bs }
          else .error (.fault .eperm ea)
        | .priv => .ok ((h.writePrivate l.pa bs).modCluster v fun k => k.updateCache l.pa bs)

/-- `n` bytes from `a` read line by line. -/
def Chip.engReadAll (h : Chip) (w : Who) (v first a n : Nat) : Except Blocked (List Byte × Chip) :=
  (linesOf a n).foldlM (fun (acc : List Byte × Chip) part => do
    let (bs, h) ← acc.2.engRead w v first part.1 part.2
    .ok (acc.1 ++ bs, h)) ([], h)

/-- Bytes written line by line. -/
def Chip.engWriteAll (h : Chip) (w : Who) (v first a : Nat) (bs : List Byte) : Except Blocked Chip :=
  (linesOf a bs.length).foldlM (fun h part => h.engWrite w v first part.1 ((bs.drop (part.1 - a)).take part.2)) h

/-- The offsets of GATH and SCAT (R260). A non-quiet task's reads are cut to bytes, so that a byte of its own reductions (R82) is named
exactly. -/
def Chip.engIndex (h : Chip) (w : Who) (v : Nat) (d : Desc) : Except Blocked (List Int × Chip) :=
  if d.fn < 3 then .ok ([], h)
  else do
    let a := d.c1.toNat
    let parts := if w.mode = .spec then (List.range (4 * d.len)).map fun i => (a + i, 1) else linesOf a (4 * d.len)
    let (bs, h) ← parts.foldlM (fun (acc : List Byte × Chip) part => do
      let (bs, h) ← acc.2.engRead w v a part.1 part.2
      .ok (acc.1 ++ bs, h)) ([], h)
    .ok ((List.range d.len).map fun i => (BitVec.ofNat 32 (recordField bs (4 * i) 4)).toInt, h)

/-- The first address that a part's destination is held against: a CPYMC raises it at each receiver (R28, R271). -/
def Desc.firstOf (d : Desc) (b : Nat) : Nat := if d.fn = 2 then b else d.y.toNat

/-- One descriptor carried out: every source byte is read before the first write (R260, R262). -/
def Chip.engRun (h : Chip) (w : Who) (v : Nat) (d : Desc) : Except Blocked Chip := do
  let (idx, h) ← h.engIndex w v d
  let ps := d.parts v idx
  let (data, h) ← ps.foldlM (fun (acc : List (List Byte) × Chip) p => do
    let (bs, h) ← acc.2.engReadAll w v d.x.toNat p.1 p.2.2
    .ok (acc.1 ++ [bs], h)) ([], h)
  (ps.zip data).foldlM (fun h q => h.engWriteAll w v (d.firstOf q.1.2.1) q.1.2.1 q.2) h

/-- A part cut so that no piece leaves its line at either end: source, destination, bytes. The reads of a non-quiet task are
cut to bytes, as those of its offsets are. -/
def pieces (m : Mode) (p : Nat × Nat × Nat) : List (Nat × Nat × Nat) :=
  if m = .spec then (List.range p.2.2).map fun i => (p.1 + i, p.2.1 + i, 1)
  else (linesOf p.1 p.2.2).flatMap fun s => (linesOf (p.2.1 + (s.1 - p.1)) s.2).map fun t => (p.1 + (t.1 - p.2.1), t.1, t.2)

/-- A step of a check that fails at a read (false) or a write (true). -/
def during {α : Type} (write : Bool) (r : Except Blocked α) : Except (Bool × Blocked) α :=
  match r with
  | .ok x => .ok x
  | .error e => .error (write, e)

/-- A scattered element's address is a multiple of 4 (R260). -/
def scatterAligned (scattered : Bool) (a : Nat) : Except Blocked Unit :=
  if scattered && decide (a % 4 ≠ 0) then .error (.fault .ealign (BitVec.ofNat 64 a)) else .ok ()

/-- The checks of R262 for one descriptor in the order of R260, so that the first failure is the lowest failing address; then what the
descriptor leaves, for those that follow it in a chain to be checked on. -/
def Chip.engTry (h : Chip) (w : Who) (v : Nat) (d : Desc) : Except (Bool × Blocked) Chip := do
  let (idx, g) ← during false (h.engIndex w v d)
  let _ ← (d.parts v idx).foldlM (fun g p => do
    during false (scatterAligned (d.fn == 3) p.1)
    during true (scatterAligned (d.fn == 4) p.2.1)
    (pieces w.mode p).foldlM (fun g q => do
      let (bs, g) ← during false (g.engRead w v d.x.toNat q.1 q.2.2)
      during true (g.engWrite w v (d.firstOf p.2.1) q.2.1 bs)) g) g
  during true (h.engRun w v d)

/-- A counter object that a counted command cannot add to (R262, R272): it lies in a SCRATCH bank, and a quiet task that names
a SCRATCH-T bank raises EQUIET. -/
def Chip.counterTrap (h : Chip) (w : Who) (v : Nat) (d : Desc) : Option (Trap × Word) :=
  ((d.counted v).map fun u => (h.cluster u.1).mode (d.bcAddr / 65536)).findSome? fun m =>
    match m with
    | .scratch => none
    | .scratchT => some (if w.mode = .quiet then .equiet else .ebankmode, BitVec.ofNat 64 d.bcAddr)
    | _ => some (.ebankmode, BitVec.ofNat 64 d.bcAddr)

/-- Every descriptor of a command checked, one after another, on a chip that is then put away (R262, R269). -/
def Chip.engTrial (h : Chip) (c : EngCmd) (v : Nat) : Except (Bool × Blocked) Unit := do
  let _ ← (List.range c.descs.length).foldlM (fun (h : Chip) i =>
    match c.descs[i]? with
    | none => .ok h
    | some d =>
      let at_ := if c.chain then c.op.ea + BitVec.ofNat 64 (32 * i) else tvalWord c.op.word
      match h.descTrap v c.who at_ d with
      | some (t, x) => .error (false, .fault t (if c.chain then at_ else x))
      | none =>
        match h.counterTrap c.who v d with
        | some (t, x) => .error (true, .fault t x)
        | none => h.engTry c.who v d) h
  .ok ()

/-! ## Completion (R264, R270, R272) -/

/-- `f` applied to a command, wherever it is queued. -/
def Chip.modCmd (h : Chip) (seq : Nat) (f : EngCmd → EngCmd) : Chip :=
  { h with clusters := h.clusters.each fun _ k => { k with cmds := k.cmds.map fun c => if c.seq = seq then f c else c } }

/-- A command removed; its groups may now exit (R265). -/
def Chip.dropCmd (h : Chip) (c : EngCmd) : Chip :=
  let h := { h with clusters := h.clusters.each fun _ k => { k with cmds := k.cmds.filter fun e => decide (e.seq ≠ c.seq) } }
  c.groups.foldl (fun h g => h.exitIfDone c.who.pid g) h

/-- One more descriptor of the command is complete (R270). -/
def Chip.engAdvance (h : Chip) (seq : Nat) : Chip :=
  match (h.clusters.flatMap fun k => k.2.cmds).find? fun c => decide (c.seq = seq) with
  | none => h
  | some c =>
    if c.descs.length ≤ c.completed + 1 then h.dropCmd c
    else h.modCmd seq fun c => { c with completed := c.completed + 1, counting := false }

/-- A failed command: it writes nothing and its thread reports the fault (R262). -/
def Chip.engFail (h : Chip) (c : EngCmd) (t : Trap) (x : Word) : Chip :=
  let seq := c.op.seq
  (h.dropCmd c).mapThread c.uid fun th => th.arrive seq (.fault t x)

/-- What the engine does where a command cannot go on at a read or a write: it fails, or waits for a walk (R323) or for LOG
space. -/
def Chip.engBlocked (h : Chip) (c : EngCmd) (write : Bool) : Blocked → Chip
  | .fault t x => h.engFail c t x
  | .stop (.trap t x) => h.engFail c t x
  | .walk pid r => h.addWalk pid r (if write then 5 else 4) c.seq
  | .stop _ => h

/-- The fill of a shadow (R276): zeros, or the visible backing as a read at the task's stamp (R275). -/
def Chip.engFill (h : Chip) (c : EngCmd) (v : Nat) : Except Blocked Chip :=
  match h.shadows.find? fun x => decide (x.uid = c.uid ∧ x.base = c.op.ea.toNat) with
  | none => .ok h
  | some x =>
    let n := h.pubSize x.record
    if c.op.y.getLsbD 0 then do
      let (bs, h) ← h.readGlobal c.who v x.base n c.op.ea
      .ok { h with hbm := h.hbm.writeBytes (h.backing x.record x.backing) bs }
    else .ok { h with hbm := h.hbm.writeBytes (h.backing x.record x.backing) (List.replicate n 0) }

/-- The thread has nothing more to report of a command: every check of it has passed (R265). -/
def Chip.engPassed (h : Chip) (c : EngCmd) : Chip :=
  let seq := c.op.seq
  (h.modCmd c.seq fun c => { c with checked := true }).mapThread c.uid fun t => t.settle seq

/-- The next descriptor of a checked command carried out, its counts sent (R270, R272). -/
def Chip.engCarry (h : Chip) (v : Nat) (c : EngCmd) : Chip :=
  match c.descs[c.completed]? with
  | none => h.dropCmd c
  | some d =>
    match h.engRun c.who v d with
    | .error b => h.engBlocked c (match h.engTry c.who v d with | .error (w, _) => w | .ok _ => true) b
    | .ok h =>
      match d.counted v with
      | [] => h.engAdvance c.seq
      | us =>
        us.foldl (fun h u => h.send (h.routerOf v) u.1 (.count u.1 d.bcAddr u.2 c.seq)) (h.modCmd c.seq fun c => { c with counting := true })

/-- The k-th command of a cluster's queue acts (R262 to R264, R270): a data command or a fill, or the next descriptor
of a chain. It is checked in full before anything of it is written. -/
def Chip.engStep (h : Chip) (v k : Nat) (chain : Bool) : Chip :=
  match (h.cluster v).cmds[k]? with
  | none => h
  | some c =>
    if c.chain != chain || c.counting || !h.engReady c then h
    else
      -- the task's earlier write-throughs are performed first (R264)
      let h := h.drainThroughs v c.uid (h.cluster v).throughs.length
      let c := { c with who := { c.who with rejected := ((h.findThread c.uid).map (·.rejected)).getD c.who.rejected } }
      if c.checked then h.engCarry v c
      else if c.descs.isEmpty then
        -- a fill is checked by the read of the backing it copies
        match h.engFill c v with
        | .error b => h.engBlocked c false b
        | .ok h => (h.engPassed c).engCarry v c
      else
        match h.engTrial c v with
        | .error (w, b) => h.engBlocked c w b
        | .ok () => (h.engPassed c).engCarry v c

/-- Counted bytes added to their counter object; the last addition completes the descriptor (R272). -/
def Chip.countAdd (h : Chip) (k : Nat) : Chip :=
  match ((h.flights.get k).map fun f : Flight => f.body : Option Packetry) with
  | some (.count u a n cmd) =>
    let x := (h.cluster u).scratch.read64 a
    let h := { h with flights := h.flights.erase k }.putScratch u a (wordBytes 8 (x + BitVec.ofNat 64 n))
    if h.flights.any fun f => match f.2.body with | .count _ _ _ c => c == cmd | _ => false then h else h.engAdvance cmd
  | _ => h

/-! ## Issue (R258, R266, R267) -/

/-- A command accepted: it takes a token, an entry of the scoreboard and one of the queue (R266, R267). -/
def Chip.engAccept (h : Chip) (self : Thread) (p : At) (d : BitVec 7) (c : EngCmd) : Except Stop Chip :=
  if 16 ≤ h.openCmds self.uid ∨ 64 ≤ (h.cluster p.v).cmds.length then .error .stall
  else
    let token := self.counters.engine + 1
    let op := { c.op with seq := h.nextSeq, vec := c.descs.flatMap Desc.pack }
    let c := { c with token := token, seq := h.nextSeq, op := op, groups := groupIds self.grps }
    let h := (h.modCluster p.v fun k => { k with cmds := k.cmds ++ [c] }).tick.modThread p fun t =>
      { t.addPend ⟨op, .engine token, .none, .waiting⟩ with
        counters := { t.counters with engine := token }
        chains := if c.chain then t.chains.put token c.descs.length else t.chains }
    .ok (h.writeDst p d (BitVec.ofNat 64 token))

/-- Earlier accesses of the thread are not performed (R264). -/
def Chip.engHeld (h : Chip) (self : Thread) (p : At) : Bool := self.accessWaiting || h.vectorBusy p.v self.uid

/-- A data command (R258 to R261). -/
def dataForm (w : Half) (fn : Nat) (d a b : BitVec 7) (s : State) : Host.Outcome State Fault Refusal :=
  issueChip (form w [.ctrl d, .src a, .src b]) s fun self p h => do
    let (x, h) ← h.readAt p a
    let (y, h) ← h.readAt p b
    let (c0, h) ← h.readAt p d
    let (c1, h) ← h.readAt p (d + 1)
    let desc : Desc := { fn := fn, x := x, y := y, c0 := c0, c1 := c1 }
    if bits c0 60 4 ≠ 0 then .error (.trap .eill (tvalWord w))
    else
      match h.descTrap p.v self.who (tvalWord w) desc with
      | some (t, v) => .error (.trap t v)
      | none =>
        if h.engHeld self p then .error .stall
        else
          let sp := desc.spans p.v
          h.engAccept self p d
            { uid := self.uid, token := 0, seq := 0, op := opOf self w x y 0 0, who := self.who, descs := [desc]
              srcSpans := sp.1, dstSpans := sp.2 }

/-- The descriptors of a chain as they stand in scratch (R269). -/
def chainDescs (m : Mem) (off n : Nat) : List Desc :=
  (List.range n).map fun i =>
    let a := off + 32 * i
    let c0 := m.read64 (a + 16)
    { fn := bits c0 60 4, x := m.read64 a, y := m.read64 (a + 8), c0 := c0, c1 := m.read64 (a + 24) }

/-- A chain at issue (R269). -/
def Chip.chainIssue (h : Chip) (self : Thread) (p : At) (w : Half) (d : BitVec 7) (x y : Word) : Except Stop Chip :=
  let n := y.toNat
  if n = 0 ∨ 4096 < n then .error (.trap .eill (tvalWord w))
  else if windowOf x.toNat ≠ .scratch ∨ windowOf (x.toNat + 32 * n - 1) ≠ .scratch then .error (.trap .ewindow x)
  else if x.toNat % 32 ≠ 0 then .error (.trap .ealign x)
  else
    match (List.range n).find? fun i => decide ((h.cluster p.v).mode ((x.toNat + 32 * i) / 65536) ≠ .scratch) with
    | some i => .error (.trap .ebankmode (x + BitVec.ofNat 64 (32 * i)))
    | none =>
      if h.engHeld self p || h.spanBusy self.uid (spanOf p.v x.toNat (32 * n)) then .error .stall
      else
        let ds := chainDescs (h.cluster p.v).scratch x.toNat n
        let sps := ds.map fun d => d.spans p.v
        h.engAccept self p d
          { uid := self.uid, token := 0, seq := 0, op := opOf self w x y 0 0, who := self.who, descs := ds, chain := true
            srcSpans := sps.flatMap (·.1), dstSpans := sps.flatMap (·.2) }

/-! ## EWAIT (R268) -/

/-- The pending reports of a thread's engine commands with a token up to x; every one where x is 0. -/
def engineReports (t : Thread) (x : Nat) : List Pend :=
  t.pend.filter fun q => match q.due with | .engine k => decide (x = 0 ∨ k ≤ x) | _ => false

/-- The command or chain with token x has not come so far as EWAIT asks. -/
def Chip.engineBusy (h : Chip) (uid x y : Nat) : Bool :=
  (h.clusters.flatMap fun k => k.2.cmds).any fun c =>
    decide (c.uid = uid) && (decide (x = 0) ||
      (decide (c.token = x) && (!c.chain || decide (c.completed < (if y = 0 then c.descs.length else y)))))

/-- EWAIT (R268). -/
def Chip.ewaitIssue (h : Chip) (self : Thread) (w : Half) (x y : Word) : Except Stop Chip :=
  let most := match self.chains.get x.toNat with | some n => n | none => 1
  if self.counters.engine < x.toNat ∨ (x = 0 ∧ y ≠ 0) ∨ (x ≠ 0 ∧ most < y.toNat) then .error (.trap .eill (tvalWord w))
  else if h.engineBusy self.uid x.toNat y.toNat then .error .stall
  else .ok h

/-! ## Shadows (R276 to R280) -/

/-- Backings of a published buffer that are neither visible nor owned (R280). -/
def Chip.freeBackings (h : Chip) (record : Nat) : List Nat :=
  (List.range (h.pubNb record)).filter fun n =>
    decide (n ≠ h.pubVis record) && !h.shadows.any fun x => decide (x.record = record ∧ x.backing = n)

/-- The owner with the greatest stamp among a buffer's shadows (R280). -/
def Chip.greatestOwner (h : Chip) (record : Nat) : Option Nat :=
  ((h.shadows.filter fun x => decide (x.record = record)).map (·.uid)).foldl (fun best u =>
    match best with
    | none => some u
    | some b => if (h.stampOf b).ult (h.stampOf u) then some u else best) none

/-- The floor task frees a backing by aborting owners (R280). -/
def Chip.evictOwners (h : Chip) (record : Nat) : Nat → Chip
  | 0 => h
  | n + 1 =>
    match h.freeBackings record with
    | _ :: _ => h
    | [] =>
      match h.greatestOwner record with
      | some u => (h.abort u).evictOwners record n
      | none => h

/-- SHOPEN (R276, R280). -/
def Chip.shopenIssue (h : Chip) (self : Thread) (p : At) (w : Half) (d : BitVec 7) (x y : Word) : Except Stop Chip :=
  if self.sup then .error (.trap .eill (tvalWord w))
  else if self.quiet then .error (.trap .equiet x)
  else if bits y 1 63 ≠ 0 then .error (.trap .eill (tvalWord w))
  else if windowOf x.toNat ≠ .global then .error (.trap .eperm x)
  else
    let h := h.warm self.pid x.toNat
    match h.resolve self.who x.toNat x with
    | .error (.fault t v) => .error (.trap t v)
    | .error (.walk pid r) => .ok (h.waitWalk self p pid r 4)
    | .error (.stop e) => .error e
    | .ok l =>
      match l.pub with
      | none => .error (.trap .eperm x)
      | some rec_ =>
        let mine := h.shadows.filter fun z => decide (z.uid = self.uid)
        if h.pubBase rec_ ≠ x.toNat then .error (.trap .eperm x)
        else if 4 ≤ mine.length ∨ mine.any (fun z => decide (z.record = rec_)) then .error (.trap .eperm x)
        else if h.engHeld self p then .error .stall
        else
          let h := if h.floorStamp self.pid self.stamp then h.evictOwners rec_ 8 else h
          match h.freeBackings rec_ with
          | [] => .error .stall
          | n :: _ => do
            let h : Chip := { h with shadows := h.shadows ++
              [{ uid := self.uid, v := p.v, record := rec_, base := x.toNat, backing := n }] }
            h.engAccept self p d
              { uid := self.uid, token := 0, seq := 0, op := opOf self w x y 0 0, who := self.who, fill := true
                dstSpans := [spanOf p.v x.toNat (h.pubSize rec_)] }

/-! ## Counter objects (R273, R274) -/

/-- The checks of BCARM and BCWAIT (R273). -/
def Chip.counterCheck (h : Chip) (self : Thread) (p : At) (x : Word) : Except Stop Unit :=
  if windowOf x.toNat ≠ .scratch then .error (.trap .ewindow x)
  else if x.toNat % 16 ≠ 0 then .error (.trap .ealign x)
  else
    match (h.cluster p.v).mode (x.toNat / 65536) with
    | .scratch => if !self.sup && !self.quiet then .error (.trap .eperm x) else .ok ()
    | .scratchT => .error (.trap .eperm x)
    | _ => .error (.trap .ebankmode x)

end Sys2Proof.Machine
end

