-- ==== Sys2Proof/Machine/Banks.lean ====
section
/-! DEFINITION. Bank modes and the cluster cache as the SYS major reaches them (R178 to R186), and HOME (R196). -/

namespace Sys2Proof.Machine

/-! ## Bank modes (R178 to R182) -/

/-- The code of a bank mode (R178). -/
def BankMode.code : BankMode → Nat
  | .scratch => 0
  | .scratchT => 1
  | .cache => 2
  | .fifo => 3
  | .log => 4
  | .cairn => 5

/-- The mode of a code. -/
def bankModeOf (n : Nat) : BankMode :=
  match n with
  | 0 => .scratch
  | 1 => .scratchT
  | 2 => .cache
  | 3 => .fifo
  | 4 => .log
  | _ => .cairn

/-- BMAPLO and BMAPHI: the modes of the 16 banks from `b` on (R179). -/
def Cluster.bankMap (k : Cluster) (b : Nat) : Word :=
  BitVec.ofNat 64 ((List.range 16).map fun i => (k.mode (b + i)).code * 16 ^ i).sum

/-- GVT of the partition that holds a cluster; all ones while it is idle or where there is none. -/
def Chip.gvtAt (h : Chip) (v : Nat) : Word :=
  match (h.cluster v).pid with
  | some p => (h.part p).gvt.getD (BitVec.allOnes 64)
  | none => BitVec.allOnes 64

/-- 64-byte payload units that a cluster's FIFO banks hold: of messages in its pending set, and of messages it sent
that are not acknowledged (R181, R353). -/
def Chip.fifoUnits (h : Chip) (v : Nat) : Nat :=
  let units := fun m : Message => (m.payload.length + 63) / 64
  -- a frame carries a message as thirteen words and its payload bytes (R429)
  (h.unacked.map fun f => if f.2.kind = 1 ∧ f.2.body.getD 7 0 = BitVec.ofNat 64 v then (f.2.body.length - 13 + 63) / 64 else 0).sum +
    (((h.cluster v).pending.filter (!·.overflow)).map fun x => units x.message).sum +
    (h.flights.map fun f =>
      match f.2.body with
      | .message m => if m.srcV = v then units m else 0
      | .ack _ u _ n => if u = v then n else 0
      | _ => 0).sum

/-- The set has a header and payload room for the message; eight headers and 32 units are kept for messages whose sender was
the floor task, and for a message whose own task has become the floor task (R353, R359; log 40). -/
def Chip.pendingRoom (h : Chip) (v : Nat) (m : Message) : Bool :=
  let k := h.cluster v
  let keep := if m.floor || h.floorStamp m.pid m.stamp then 0 else 8
  let units := (m.payload.length + 63) / 64
  decide (k.pending.countP (fun x => !x.overflow) + 1 + keep ≤ 4096) &&
    (decide (units = 0) || decide (h.fifoUnits v + units + 4 * keep ≤ 1024 * k.countMode .fifo))

/-- The first of some overflow messages moved into the set, and the next ones after it, while there is room. -/
def Chip.enterPending (h : Chip) (v : Nat) : List Header → Chip
  | [] => h
  | x :: xs =>
    let enter := fun y : Header => if (antiOf x.message).names y.message then { y with overflow := false } else y
    if h.pendingRoom v x.message then (h.modCluster v fun k => { k with pending := k.pending.map enter }).enterPending v xs
    else h

/-- Messages of the overflow area move into the set, in stamp order, as room frees (R353). -/
def Chip.fillPending (h : Chip) (v : Nat) : Chip :=
  h.enterPending v
    (sortBy (fun (a b : Header) => a.message.stamp.ule b.message.stamp) ((h.cluster v).pending.filter (·.overflow)))

/-- FIFO banks below a bank: payloads fill the FIFO banks from the lowest one up (log 18). -/
def Cluster.fifoBelow (k : Cluster) (b : Nat) : Nat := (List.range b).countP fun i => k.mode i == .fifo

/-- A bank holds live state (R181). -/
def Chip.bankLive (h : Chip) (v b : Nat) : Bool :=
  let k := h.cluster v
  let inBank := fun l : Nat => decide (l / 1024 = b)
  (k.log.any fun e => match e.body with | .undo l _ _ => inBank l | _ => false) ||
    (k.mode b == .scratchT && k.tags.any fun g => inBank g.1 && (g.2.u || (h.gvtAt v).ult g.2.rts)) ||
    (k.mode b == .log && !k.log.isEmpty) ||
    (k.mode b == .fifo && decide (1024 * k.fifoBelow b < h.fifoUnits v)) ||
    ((k.banks.getOr b {}).region.isSome && !(k.banks.getOr b {}).gone) ||
    ((k.mailboxes.any fun a => decide (a / 65536 = b) && (k.scratch.read (a + 13)).getLsbD 3) &&
      decide (h.gvtAt v ≠ BitVec.allOnes 64))

/-- A bank put into a mode, zero-filled with its tags (R180, R187). Lines of CACHE banks are dropped (R181). -/
def Cluster.switchBank (k : Cluster) (b : Nat) (m : BankMode) : Cluster :=
  { k with
    cache := if k.mode b = .cache ∨ m = .cache then [] else k.cache
    banks := k.banks.put b { k.banks.getOr b {} with mode := m }
    scratch := k.scratch.filter fun c => decide (c.1 / 65536 ≠ b)
    tags := k.tags.filter fun g => decide (g.1 / 1024 ≠ b)
    mailboxes := k.mailboxes.filter fun a => decide (a / 65536 ≠ b) }

/-- The keys of a bank's bytes. -/
def bankSpan (v b : Nat) : Nat × Nat := (2 ^ 60 + v * 2 ^ 21 + b * 65536, 2 ^ 60 + v * 2 ^ 21 + b * 65536 + 65535)

/-- The counter objects, by cluster, that the descriptors of a command at cluster v add to (R272). -/
def EngCmd.counters (c : EngCmd) (v : Nat) : List (Nat × Nat) :=
  c.descs.flatMap fun d => (d.counted v).map fun u => (u.1, d.bcAddr)

/-- A command of the pool addresses the bank from cluster v. -/
def VCmd.names (q : VCmd) (regs : Map Half) (v u b : Nat) : Bool :=
  let xs := if major q.op.word = 0x2A then (actives q.mask).map fun e => (vmAddr q.op.word regs q.scalar e, 4)
    else [(q.scalar, mailboxSize)]
  xs.any fun x => overlaps (spanOf v x.1.toNat x.2) (bankSpan u b)

/-- An access that has been checked against the bank is not complete (R182): a checked engine command, the counts it sends,
or a vector command checked on its thread's arrival. -/
def Chip.bankInUse (h : Chip) (v b : Nat) : Bool :=
  (h.clusters.any fun k =>
    (k.2.cmds.any fun c => c.checked &&
      ((c.srcSpans ++ c.dstSpans).any (fun s => overlaps s (bankSpan v b)) ||
        (c.counters k.1).any fun u => decide (u.1 = v ∧ u.2 / 65536 = b))) ||
    (k.2.gangs.any fun g => g.queue.any fun q => q.checked && q.spans.any fun s => overlaps s (bankSpan v b)) ||
    k.2.claims.any fun c => c.queue.any fun q => q.arrived && q.names c.v k.1 v b) ||
  h.flights.any fun f => match f.2.body with
    | .count u a _ _ => decide (u = v ∧ a / 65536 = b)
    | _ => false

/-- The banks a mask selects. -/
def maskBanks (x : Word) : List Nat := (List.range 32).filter fun b => x.getLsbD b

/-- BMODE at a cluster (R180): the word written to g(d). -/
def Chip.bmode (h : Chip) (v : Nat) (w : Half) (x y : Word) : Except Stop (Word × Chip) :=
  let bs := maskBanks x
  if x = 0 ∨ bits x 32 32 ≠ 0 ∨ 5 < y.toNat then .error (.trap .eill (tvalWord w))
  else if y = 5 ∨ bs.any (fun b => (h.cluster v).mode b == .cairn) then .error (.trap .eperm x)
  else
    let busy := bs.filter (h.bankLive v)
    if busy ≠ [] then .ok (BitVec.ofNat 64 (busy.map fun b => 2 ^ b).sum, h)
    else if bs.any (h.bankInUse v) then .error .stall
    else
      .ok (0, (h.modCluster v fun k => bs.foldl (fun k b => k.switchBank b (bankModeOf y.toNat)) k).fillPending v)

/-- BMODE (R180). -/
def execBmode (d : BitVec 7) (a : BitVec 7) (b : BitVec 7) (s : State) : Host.Outcome State Fault Refusal :=
  let w := (wordR 34#6 d a b 7#5)
  issueChip (form w [.dst d, .src a, .src b] true) s fun _ p h => do
    let (x, h) ← h.readAt p a
    let (y, h) ← h.readAt p b
    let (r, h) ← h.bmode p.v w x y
    .ok (h.writeDst p d r)

/-! ## The cluster cache (R185, R186) -/

/-- CFLUSH (R186). -/
def execCflush (s : State) : Host.Outcome State Fault Refusal :=
  issueChip (form (wordR 34#6 0#7 0#7 0#7 8#5)) s fun self p h =>
    if h.hasThroughs p.v self.uid then .error .stall else .ok h

/-- The addresses that a partition's station entries give the line of a PA. -/
def Chip.linesAt (h : Chip) (pid pa : Nat) : List Nat :=
  h.stations.filterMap fun e =>
    let base := (h.leafAt e (65536 * e.region)).pa
    if e.pid = pid ∧ base ≤ pa ∧ pa < base + leafSize e.level then some (65536 * e.region + (pa - base)) else none

/-- The PA that a region begins at, as its station entry or its tables give it. -/
def Chip.regionBase (h : Chip) (pid r : Nat) : Option Nat :=
  match h.translate pid (65536 * r) with
  | some l => some l.pa
  | none =>
    match h.walk pid (65536 * r) with
    | .ok (leaf, level) => some (h.leafAt ⟨0, pid, r, leaf, level⟩ (65536 * r)).pa
    | .error _ => none

/-- CINV drops a line (R185): an address of the range is translated into it, or no translation of it is known any more. -/
def Chip.invalidates (h : Chip) (pid x n pa : Nat) : Bool :=
  (h.linesAt pid pa).isEmpty || (List.range ((x + n - 1) / 65536 + 1 - x / 65536)).any fun i =>
    let r := x / 65536 + i
    match h.regionBase pid r with
    | some base => decide (base ≤ pa ∧ pa < base + 65536) &&
        decide (65536 * r + (pa - base) < x + n ∧ x < 65536 * r + (pa - base) + 64)
    | none => false

/-- CINV (R185). -/
def execCinv (a : BitVec 7) (b : BitVec 7) (s : State) : Host.Outcome State Fault Refusal :=
  issueChip (form (wordR 34#6 0#7 a b 9#5) [.src a, .src b]) s fun self p h => do
    let (x, h) ← h.readAt p a
    let (y, h) ← h.readAt p b
    if y = 0 ∨ 2 ^ 32 < y.toNat ∨ windowOf x.toNat ≠ .global ∨ windowOf (x.toNat + y.toNat - 1) ≠ .global then .ok h
    else .ok (h.modCluster p.v fun k => { k with cache := k.cache.filter fun c => !h.invalidates self.pid x.toNat y.toNat c.pa })

/-! ## HOME (R196) -/

/-- HOME (R196): a thread that is away migrates to its home cluster and core. -/
def execHome (s : State) : Host.Outcome State Fault Refusal :=
  issueChip (form (wordR 34#6 0#7 0#7 0#7 10#5)) s fun self p h =>
    if !self.away then .ok h
    else if !h.mayLeave p self then .error .stall
    else .ok (h.migrate p self.homeV self.homeC none)

end Sys2Proof.Machine
end

