-- ==== Sys2Proof/Machine/Queue.lean ====
section
/-! DEFINITION. The inbound queue of a core (R140 to R142), register allocation (R143), and the start of a thread on a
slot (R26, R148, R164, R167, R348, R349). -/

namespace Sys2Proof.Machine

/-! ## Register allocation (R143, R167) -/

/-- The file range a slot holds. -/
def Slot.alloc : Slot → Option (Nat × Nat)
  | .free => none
  | .live t => some (t.regBase, t.regLim)
  | .halted t => some (t.regBase, t.regLim)
  | .trailing t _ => some (t.regBase, t.regLim)
  | .ended b l _ _ => some (b, l)

/-- The file ranges a core's slots hold. -/
def Chip.allocs (h : Chip) (v c : Nat) : List (Nat × Nat) :=
  (List.range 16).filterMap fun t => (h.slot ⟨v, c, t⟩).alloc

/-- A range of `n` entries from `base` meets none of the given ranges. -/
def rangeFree (as : List (Nat × Nat)) (base n : Nat) : Bool :=
  as.all fun a => decide (base + n ≤ a.1 ∨ a.1 + a.2 ≤ base)

/-- The lowest base, a multiple of 8, of `n` free entries below `top` (R143). -/
def lowestBase (as : List (Nat × Nat)) (n top : Nat) : Option Nat :=
  ((List.range 256).map (8 * ·)).find? fun b => decide (b + n ≤ top) && rangeFree as b n

/-- The base of an allocation: outside the floor reserve first; the floor task may use the reserve too (R143, R167). -/
def allocBase (as : List (Nat × Nat)) (n : Nat) (floor screen : Bool) : Option Nat :=
  match lowestBase as n (if screen then 1808 else 1928) with
  | some b => some b
  | none => if floor then lowestBase as n 2048 else none

/-- The bases of a start: one, or two where the core is screened (R167). -/
def allocPair (as : List (Nat × Nat)) (n : Nat) (floor screen : Bool) : Option (Nat × Option Nat) :=
  match allocBase as n floor screen with
  | none => none
  | some b =>
    if screen then (allocBase ((b, n) :: as) n floor screen).map fun b2 => (b, some b2)
    else some (b, none)

/-- The lowest-numbered FREE slot that a task may take: 1 to 15, or 1 to 7 on a screened core (R148, R167). -/
def Chip.freeSlot (h : Chip) (v c : Nat) : Option Nat :=
  ((List.range (if (h.core v c).screened then 7 else 15)).map (· + 1)).find? fun t =>
    match h.slot ⟨v, c, t⟩ with
    | .free => true
    | _ => false

/-! ## The order of the queue (R141, R142) -/

/-- What the queue's order and the start of an entry read. -/
structure Ticket where
  entry : Entry
  pid : Nat
  stamp : Word
  priority : Nat
  need : Nat
  floor : Bool
  deriving DecidableEq, Repr

/-- The saved context of a task at a cluster. -/
def Cluster.context (k : Cluster) (uid : Nat) : Option Parked := k.parked.find? fun q => decide (q.thread.uid = uid)

/-- The ticket of an entry, if its task or context exists. -/
def Chip.ticket (h : Chip) (v : Nat) (e : Entry) : Option Ticket :=
  if e.arrival then
    ((h.cluster v).context e.uid).map fun q =>
      { entry := e, pid := q.thread.pid, stamp := q.thread.stamp, priority := q.thread.priority, need := q.thread.regLim
        floor := h.floorStamp q.thread.pid q.thread.stamp }
  else
    (h.task? e.uid).map fun t =>
      { entry := e, pid := t.pid, stamp := t.packet.stamp, priority := t.packet.priority, need := 8 * t.packet.regn
        floor := h.floorStamp t.pid t.packet.stamp }

/-- Ticket a comes before ticket b or beside it (R141). -/
def Ticket.before (a b : Ticket) : Bool :=
  if a.floor != b.floor then a.floor
  else if a.entry.arrival != b.entry.arrival then a.entry.arrival
  else if a.entry.arrival then decide (a.entry.seq ≤ b.entry.seq)
  else if a.priority ≠ b.priority then decide (b.priority < a.priority)
  else if a.stamp ≠ b.stamp then a.stamp.ult b.stamp
  else decide (a.entry.seq ≤ b.entry.seq)

/-- The window of virtual time admits a stamp (R142). -/
def Partition.inWindow (q : Partition) (stamp : Word) : Bool :=
  match q.gvt with
  | none => true
  | some g => decide (bits stamp 24 40 ≤ bits g 24 40 + q.w.toNat)

/-- The co-resident groups and the gang of a task, whose placement must be granted (R142, R381, R382). -/
def Chip.boundGroups (h : Chip) (t : Task) : List Nat :=
  (groupIds t.packet.grps).filter fun g =>
    t.packet.cores || (h.group t.pid g).cores || (t.packet.quiet && (h.group t.pid g).gang)

/-- The task belongs to a co-resident group or a gang (R142). -/
def Chip.needsGrant (h : Chip) (t : Task) : Bool := !(h.boundGroups t).isEmpty

/-- The placement of a task is granted by every co-resident group and gang that it belongs to (R142). -/
def Chip.isGranted (h : Chip) (uid : Nat) (t : Task) : Bool :=
  (h.boundGroups t).all fun g => (h.group t.pid g).granted.contains uid

/-- The cluster's gang reservation keeps a thread out: it is no member of the group it is for (R383). -/
def Chip.keptOut (h : Chip) (v pid uid : Nat) : Bool :=
  match (h.cluster v).reserved with
  | none => false
  | some (p, g) => !(decide (p = pid) && (h.group p g).members.contains uid)

/-- The context of an arrival waits at a barrier that has not completed (R142). -/
def Parked.atBarrier (q : Parked) : Bool :=
  match q.thread.wait with
  | .barrier .. => true
  | _ => false

/-- The entry may start (R142, R383, R388). -/
def Chip.mayStart (h : Chip) (v : Nat) (k : Ticket) : Bool :=
  let q := h.part k.pid
  !q.halted && !q.off && !(h.cluster v).paused && !(h.cluster v).stopped && !h.keptOut v k.pid k.entry.uid &&
    (if k.entry.arrival then
      match (h.cluster v).context k.entry.uid with
      | some c => !c.atBarrier && (!c.thread.held.isSome || k.floor)
      | none => false
    else
      match h.task? k.entry.uid with
      | none => false
      | some t =>
        (k.floor || (q.inWindow k.stamp && decide (t.aborts ≤ q.cap.toNat))) && h.isGranted k.entry.uid t)

/-- The tickets of a core's queue in its order (R141). -/
def Chip.tickets (h : Chip) (v c : Nat) : List Ticket :=
  sortBy Ticket.before ((h.core v c).queue.filterMap (h.ticket v))

/-- FREE slots of a core that tasks may take. -/
def Chip.freeCount (h : Chip) (v c : Nat) : Nat :=
  ((List.range (if (h.core v c).screened then 8 else 16)).drop 1).countP fun t =>
    match h.slot ⟨v, c, t⟩ with
    | .free => true
    | _ => false

/-- Allocations of these sizes all fit beside the given ones (R143). -/
def fitAll (screen : Bool) : List (Nat × Nat) → List (Nat × Bool) → Bool
  | _, [] => true
  | as, (n, floor) :: ns =>
    match allocPair as n floor screen with
    | some (b, some c) => fitAll screen ((b, n) :: (c, n) :: as) ns
    | some (b, none) => fitAll screen ((b, n) :: as) ns
    | none => false

/-- The entry is a member whose placement is granted: it starts at a next TAKE (R381). -/
def Chip.grantedEntry (h : Chip) (k : Ticket) : Bool :=
  !k.entry.arrival && match h.task? k.entry.uid with
    | some t => h.needsGrant t && h.isGranted k.entry.uid t
    | none => false

/-- The members whose placement is granted on a core keep their slots and registers until they start: another entry starts only
beside them (R381, R382). -/
def Chip.leavesRoom (h : Chip) (v c : Nat) (k : Ticket) : Bool :=
  let mine := (h.tickets v c).filter fun x => h.grantedEntry x && h.mayStart v x
  h.grantedEntry k || mine.isEmpty ||
    (decide (mine.length < h.freeCount v c) &&
      fitAll (h.core v c).screened (h.allocs v c) ((k.need, k.floor) :: mine.map fun x => (x.need, x.floor)))

/-- The head of a core's queue: its first packet that may start (R142). -/
def Chip.head (h : Chip) (v c : Nat) : Option Ticket := (h.tickets v c).find? fun k => h.mayStart v k && h.leavesRoom v c k

/-! ## Receive buffers (R348, R349) -/

/-- The handler-store entry of a cluster. -/
def Cluster.handler (k : Cluster) (i : Nat) : Handler := k.handlers.getOr i {}

/-- The fields of HNDCFG (R347). -/
def Handler.valid (x : Handler) : Bool := x.cfg.getLsbD 31
def Handler.rxBank (x : Handler) : Nat := bits x.cfg 24 5
def Handler.rxOff (x : Handler) : Nat := bits x.cfg 16 8
def Handler.rxLog (x : Handler) : Nat := bits x.cfg 12 3
def Handler.core (x : Handler) : Nat := bits x.cfg 8 3
def Handler.regn (x : Handler) : Nat := bits x.cfg 0 4

/-- The local-scratch address of the receive buffer of a message (R348). -/
def Handler.buffer (x : Handler) (stamp : Word) : Nat :=
  x.rxBank * 65536 + 256 * (x.rxOff + bits stamp 0 24 % 2 ^ x.rxLog)

/-- The receive buffer of a message task at its destination. -/
def Chip.bufferOf (h : Chip) (m : Message) : Nat := ((h.cluster m.destV).handler m.handler).buffer m.stamp

/-- The running task of a partition that holds the receive buffer at this address of cluster v (R349). -/
def Chip.bufferHolder (h : Chip) (pid v addr : Nat) : Option Nat :=
  (h.tasks.find? fun t =>
    match t.2.packet.message with
    | some m => decide (t.2.stage = .running ∧ t.2.pid = pid ∧ m.destV = v) && h.bufferOf m == addr
    | none => false).map (·.1)

/-- The entry is a message packet whose receive buffer is held: by this task (R349). -/
def Chip.bufferBlock (h : Chip) (k : Ticket) : Option Nat :=
  if k.entry.arrival then none
  else
    match (h.task? k.entry.uid).bind fun t => t.packet.message with
    | some m => h.bufferHolder m.pid m.destV (h.bufferOf m)
    | none => none

/-! ## Starting a thread (R26, R148) -/

/-- A new thread from a packet (R26). -/
def newThread (uid : Nat) (t : Task) (base : Nat) : Thread :=
  let k := t.packet
  { uid := uid, pid := t.pid, pc := k.pc, regBase := base, regLim := 8 * k.regn, stamp := k.stamp
    fmtA := k.fmtA, fmtB := k.fmtB, fmtC := k.fmtC, grps := k.grps, quiet := k.quiet, cores := k.cores
    traps := { vec := k.tvec }, priority := k.priority, homeV := k.homeV, homeC := k.homeC
    carryCount := min 32 (8 * k.regn) }

/-- g3 to g6 of a message task: the sender's home VCN, of a fabric send with its package above it (R348, R429). -/
def messageArgs (h : Chip) (m : Message) : List Word :=
  [BitVec.ofNat 64 (h.bufferOf m), BitVec.ofNat 64 m.payload.length,
   BitVec.ofNat 64 ((if m.srcPkg = (h.part m.pid).pkg then 0 else m.srcPkg * 2 ^ 11) + m.srcV),
   BitVec.ofNat 64 (m.senderStamp.toNat % 2 ^ 48 * 2 ^ 16 + m.sendIdx % 2 ^ 16)]

/-- The registers a new thread starts with, g0 first (R26). -/
def startRegs (h : Chip) (k : Packet) : List Word :=
  [0, 0, 0] ++ (match k.message with | some m => messageArgs h m | none => k.args)

/-- The kind that TAKE reports (R148). -/
def Origin.kind : Origin → Nat
  | .launch => 0
  | .spawn => 1
  | .message => 2

/-- The thread placed LIVE in a slot with its registers; on a screened core its trailing half too (R148, R167). -/
def Chip.place (h : Chip) (p : At) (t : Thread) (bases : Nat × Option Nat) (regs : List Word) : Chip :=
  let t := { t with regBase := bases.1 }
  let h := (h.setSlot p (.live t)).modCore p.v p.c fun k =>
    { k with file := loadFile k.file bases.1 t.regLim regs, vacating := k.vacating.filter (· ≠ p.t) }
  match bases.2 with
  | none => h
  | some b =>
    (h.setSlot p.trail (.trailing { t with regBase := b } {})).modCore p.v p.c fun k =>
      { k with file := loadFile k.file b t.regLim regs }

/-- The trailing half of a resumed pair as it was saved, on its new registers (R176). -/
def Chip.placeTrail (h : Chip) (p : At) (q : Parked) : Chip :=
  match q.trail, h.pairAt p with
  | some (u, regs, pair), some (x, _) =>
    (h.setSlot p.trail (.trailing { u with regBase := x.regBase } pair)).modCore p.v p.c fun k =>
      { k with file := loadFile k.file x.regBase u.regLim regs }
  | _, _ => h

/-- The entry of a task removed from a core's queue. -/
def Chip.dequeue (h : Chip) (v c uid : Nat) : Chip :=
  h.modCore v c fun k => { k with queue := k.queue.filter fun e => decide (e.uid ≠ uid) }

/-- A held trap delivered on the slot its thread resumed on (R122). -/
def Chip.deliverHeld (h : Chip) (p : At) : Chip :=
  match h.thread? p with
  | none => h
  | some t =>
    match t.held with
    | none => h
    | some (cause, epc, cpc, val) =>
      let t' := { t with held := none, traps := { t.traps with cause := cause, epc := epc, cpc := cpc, val := val } }
      if t.traps.vec ≠ 0 then
        h.setThread p { t' with
          sup := true, pc := t.traps.vec
          suspended := some { ldq := t.ldq, sdq := t.sdq, pend := t.pend, frame := t.frame, draw := t.counters.draw }
          ldq := [], sdq := [], pend := [], frame := none, counters := { t.counters with draw := 0 } }
      else
        (h.haltAt p { t' with pc := cpc }).notify p (notice p.t false true (cause.getLsbD 8) (bits cause 0 8))

/-- An arrival resumed in a slot, LIVE whatever it was before (R138, R148, R162, R164; log 19). -/
def Chip.resume (h : Chip) (p : At) (q : Parked) (bases : Nat × Option Nat) : Chip :=
  let h := h.modCluster p.v fun k => { k with parked := k.parked.filter fun x => decide (x.thread.uid ≠ q.thread.uid) }
  ((((h.place p q.thread bases q.regs).placeTrail p q).renegotiate p.v q.thread.uid)).deliverHeld p

/-- A packet's task started in a slot: for a message, the payload goes to the receive buffer, or the task starts with
EBANKMODE where that bank is no SCRATCH bank (R348, R349). -/
def Chip.start (h : Chip) (p : At) (uid : Nat) (t : Task) (bases : Nat × Option Nat) : Chip :=
  let h := h.place p (newThread uid t bases.1) bases (startRegs h t.packet)
  let h := if t.packet.origin = .launch then h.dropPrivate p.v else h
  let h := { h with tasks := h.tasks.put uid { t with stage := .running, ran := addOnce t.ran p.v } }
  match t.packet.message with
  | none => h
  | some m =>
    let a := h.bufferOf m
    if (h.cluster p.v).mode (a / 65536) = .scratch then h.putScratch p.v a m.payload
    else h.takeTrap p { trap := .ebankmode, tval := BitVec.ofNat 64 a, epc := t.packet.pc, cpc := t.packet.pc }

/-- The slot and allocation the head would take now, if it can start (R148). -/
def Chip.startable (h : Chip) (v c : Nat) : Option (Ticket × Nat × (Nat × Option Nat)) :=
  match h.head v c with
  | none => none
  | some k =>
    match h.freeSlot v c, allocPair (h.allocs v c) k.need k.floor (h.core v c).screened, h.bufferBlock k with
    | some s, some b, none => some (k, s, b)
    | _, _, _ => none

/-- The head started: the chip, and the kind and slot that TAKE reports. -/
def Chip.takeHead (h : Chip) (v c : Nat) : Option (Chip × Nat × Nat) :=
  match h.startable v c with
  | none => none
  | some (k, s, b) =>
    let g := h.dequeue v c k.entry.uid
    if k.entry.arrival then
      ((h.cluster v).context k.entry.uid).map fun q => (g.resume ⟨v, c, s⟩ q b, 3, s)
    else (h.task? k.entry.uid).map fun t => (g.start ⟨v, c, s⟩ k.entry.uid t b, t.packet.origin.kind, s)

/-- The head is held only by its receive buffer, it is the floor task, and this task holds the buffer (R349). -/
def Chip.floorBuffer (h : Chip) (v c : Nat) : Option Nat :=
  match h.head v c with
  | some k => if k.floor then h.bufferBlock k else none
  | none => none

end Sys2Proof.Machine
end

