-- ==== Sys2Proof/Machine/Post.lean ====
section
/-! DEFINITION. Sending: messages within the package and across the fabric (R352, R427 to R430), and launches handed to
the command processor (R379). -/

namespace Sys2Proof.Machine

/-- A message put on its way: to a cluster of this package, or as a frame of the fabric (R352, R429). -/
def Chip.post (h : Chip) (m : Message) : Chip :=
  match m.toPkg with
  | some dest => h.sendFrame 1 m.pid dest (frameBody m)
  | none => h.send (h.routerOf m.srcV) m.destV (.message m)

/-! ## Publications to another package (R430) -/

/-- The links that name a published buffer, each with the package it leads to. -/
def Partition.linksOf (q : Partition) (base : Nat) : List (Nat × Nat) :=
  if q.pkgCount = 0 then []
  else (q.links.filter fun l => l.2.getLsbD 63 && decide (bits l.2 8 40 * 65536 = base)).map fun l => (l.1, bits l.2 0 8)

/-- The fabric publication of a shadow as it stands, over link n to package `dest` (R430). -/
def Chip.publicationOf (h : Chip) (t : Thread) (x : Shadow) (n dest : Nat) : Message :=
  { sender := t.uid, sendIdx := 2 ^ 16 + 256 * n + dest, incarnation := ((h.task? t.uid).map (·.aborts)).getD 0
    senderStamp := t.stamp, srcV := t.homeV, pid := t.pid, destV := t.homeV, handler := publicationHandler
    stamp := t.stamp + 0x1000000#64, payload := h.hbm.readBytes (h.backing x.record x.backing) (h.pubSize x.record)
    fmtA := BitVec.ofNat 64 x.base, fmtB := 0, fmtC := 0, priority := t.priority, srcPkg := (h.part t.pid).pkg, toPkg := some dest }

/-- The shadows a thread's task publishes to other packages, with their links and those packages. -/
def Chip.linkedShadows (h : Chip) (t : Thread) : List ((Nat × Nat) × Shadow) :=
  (h.shadows.filter fun x => decide (x.uid = t.uid) && x.marked.isSome).flatMap fun x =>
    ((h.part t.pid).linksOf x.base).map fun d => (d, x)

/-- The fabric publications of an ending task sent, each with its send record (R430). -/
def Chip.fabricPublish (h : Chip) (p : At) (t : Thread) : Except Stop Chip :=
  (h.linkedShadows t).foldlM (fun h x => do
    let h ← h.need p.v t.uid 1 false 0
    let m := h.publicationOf t x.2 x.1.1 x.1.2
    .ok ((h.addRecord p.v t.uid (.send m)).sendFrame 4 t.pid x.1.2 (BitVec.ofNat 64 x.2.base :: frameBody m))) h

/-! ## Launches of tasks (R372, R379) -/

/-- The groups a launch record names. -/
def recordGroups (r : List Byte) : List Nat :=
  groupIds (BitVec.ofNat 36 (recordField r 28 1 % 16 * 2 ^ 32 + recordField r 24 4))

/-- A launch of a device put behind those of the host and of devices that wait, but before a device's with a greater stamp (R369). -/
def insertReq (r : LaunchReq) : List LaunchReq → List LaunchReq
  | [] => [r]
  | x :: xs => if x.slot.isNone && !x.forwarded && r.stamp.ult x.stamp then r :: x :: xs else x :: insertReq r xs

/-- The LAUNCHes of a task handed to the command processor in the order they were issued (R379). -/
def Chip.handLaunches (h : Chip) (pid uid : Nat) : Chip :=
  let reqs := (h.launchesOf uid).map fun x =>
    { slot := none, record := x.1, block := x.2.1, tvec := x.2.2, stamp := h.stampOf uid : LaunchReq }
  let h := h.modPart pid fun q => { q with reqs := reqs.foldl (fun rs r => insertReq r rs) q.reqs }
  let kept := fun e : LogEntry =>
    match e.body with
    | .launch .. => decide (e.uid ≠ uid)
    | _ => true
  { h with clusters := h.clusters.each fun _ k => { k with log := k.log.filter kept } }.modTask uid fun t =>
    { t with launches := [] }

end Sys2Proof.Machine
end

