-- ==== Sys2Proof/Machine/Record.lean ====
section
/-! DEFINITION. Launch records and argument blocks (R364 to R366), and the operations of barriers and reductions (R375). -/

namespace Sys2Proof.Machine

/-! ## Launch records (R364) -/

def recEntry (r : List Byte) : Nat := recordField r 0 8
def recCount (r : List Byte) : Nat := recordField r 8 4
def recFlags (r : List Byte) : Nat := recordField r 12 4
def recQuiet (r : List Byte) : Bool := (recFlags r).testBit 0
def recBounded (r : List Byte) : Bool := (recFlags r).testBit 1
def recCores (r : List Byte) : Bool := (recFlags r).testBit 2
def recBlack (r : List Byte) : Bool := (recFlags r).testBit 3
def recPrio (r : List Byte) : Nat := recFlags r / 16 % 4
def recRegn (r : List Byte) : Nat := recFlags r / 256 % 16
def recVt (r : List Byte) : Nat := recordField r 16 5
def recGvalid (r : List Byte) : Nat := recordField r 28 1
def recBankmap (r : List Byte) : Nat := recordField r 32 16
def recArgs (r : List Byte) : Nat := recordField r 48 8
def recBudget (r : List Byte) : Nat := recordField r 56 4
def recDeadline (r : List Byte) : Nat := recordField r 60 4

/-- GRPS of the record's tasks (R366). -/
def recGrps (r : List Byte) : BitVec 36 := BitVec.ofNat 36 (recGvalid r % 16 * 2 ^ 32 + recordField r 24 4)

/-- The bank-map code of a bank (R364). -/
def bankCode (r : List Byte) (b : Nat) : Nat := recBankmap r / 16 ^ b % 16

/-- The stamp of index i (R345, R366). -/
def indexStamp (r : List Byte) (i : Nat) : Word := BitVec.ofNat 64 ((recVt r + i / 2 ^ 24) * 2 ^ 24 + i % 2 ^ 24)

/-- The VT of the last index is beyond 40 bits. -/
def beyondTime (r : List Byte) : Bool := decide (2 ^ 40 ≤ recVt r + (recCount r - 1) / 2 ^ 24)

/-- A malformed record (R364). The bank-map code 6, which would be CAIRN, has a refusal of its own (R368). -/
def recMalformed (r : List Byte) : Bool :=
  decide (recEntry r % 4 ≠ 0 ∨ recCount r = 0 ∨ recRegn r = 0 ∨ recFlags r / 64 % 4 ≠ 0 ∨ 4096 ≤ recFlags r ∨
    recordField r 23 1 ≠ 0 ∨ 16 ≤ recGvalid r ∨ recordField r 31 1 ≠ 0 ∨ recArgs r % 32 ≠ 0) ||
    (recBounded r && decide (recBudget r = 0 ∨ recDeadline r = 0)) ||
    (List.range 32).any fun b => decide (6 < bankCode r b)

/-! ## Argument blocks (R365) -/

def blkFmt (b : List Byte) (n : Nat) : Word := BitVec.ofNat 64 (recordField b (8 * n) 8)
def blkArgs (b : List Byte) : List Word := (List.range 8).map fun i => BitVec.ofNat 64 (recordField b (24 + 8 * i) 8)
def blkImages (b : List Byte) : Nat := recordField b 88 8
def blkTvec (b : List Byte) : Word := BitVec.ofNat 64 (recordField b 96 8)

/-- A malformed argument block; the TVEC of a LAUNCH's block is ignored (R365, R379). -/
def blkMalformed (b : List Byte) (host : Bool) : Bool :=
  (List.range 3).any (fun n => decide (2 ^ 52 ≤ (blkFmt b n).toNat)) ||
    (host && decide ((blkTvec b).toNat % 4 ≠ 0)) || (b.drop 104).any (fun x => decide (x ≠ 0))

/-! ## Combining (R375) -/

/-- The combination of two contributions; operation 5 is kept term by term. -/
def combine (k : Nat) (a b : Word) : Word :=
  match k with
  | 0 => a + b
  | 1 => if a.sle b then a else b
  | 2 => if b.sle a then a else b
  | 3 => a ||| b
  | _ => a &&& b

/-- The value an operation yields with no term. -/
def identityOf (k : Nat) : Word :=
  match k with
  | 1 => 0x7FFFFFFFFFFFFFFF#64
  | 2 => 0x8000000000000000#64
  | 4 => BitVec.allOnes 64
  | _ => 0

/-- Contributions combined by an operation, with the flags of an FP32 sum. -/
def combineAll (k : Nat) (xs : List Word) : Word × BitVec 5 :=
  if k = 5 then
    if xs = [] then (0, 0)
    else
      let r := sumFp32 (xs.map fun x => x.toNat % 2 ^ 32)
      (BitVec.ofNat 64 r.1, r.2)
  else (xs.foldl (combine k) (identityOf k), 0)

/-- A contribution to a group's reduction (R377). -/
def Group.contribute (g : Group) (x : Word) : Group :=
  if g.rop = 5 then { g with terms := g.terms ++ [fld x 0 32] } else { g with red := combine g.rop g.red x }

/-- The value of a group's reduction, with the flags of an FP32 sum. -/
def Group.combined (g : Group) : Word × BitVec 5 :=
  if g.rop = 5 then combineAll 5 (g.terms.map fun x => x.zeroExtend 64) else (g.red, 0)

/-- The value of a group's reduction. -/
def Group.reduction (g : Group) : Word := g.combined.1

end Sys2Proof.Machine
end

