-- ==== Sys2Proof/Machine/Grp.lean ====
section
/-! DEFINITION. The GRP major (R374 to R380). -/

namespace Sys2Proof.Machine

/-- The group that slot n of GRPS names (R374). -/
def slotGroup (t : Thread) (n : Nat) : Option Nat :=
  if n < 4 ∧ t.grps.getLsbD (32 + n) then some (bits t.grps (8 * n) 8) else none

/-- The group of a slot in task mode, or EILL (R374). -/
def groupOr (self : Thread) (w : Half) (n : Nat) : Except Stop Nat :=
  if self.sup then .error (.trap .eill (tvalWord w))
  else
    match slotGroup self n with
    | some g => .ok g
    | none => .error (.trap .eill (tvalWord w))

/-- A barrier instruction of the thread `self` (R376): it stands there until the barrier has completed; `finish` gives
the effect of its release. -/
def Chip.barrierStep (h : Chip) (self : Thread) (p : At) (w : Half) (gid : Nat) (op : Option Nat) (x : Word)
    (finish : Chip → Word → BitVec 5 → Chip) : Except Stop Chip :=
  if !self.quiet then .error (.trap .equiet 0)
  else
    match self.wait with
    | .released r f mixed =>
      if mixed && op.isSome then
        .ok ((h.setThread p { self with wait := .none }).takeTrap p (raisedBy self .eill (tvalWord w)))
      else .ok (finish (h.modThread p fun t => { t with wait := .none }) r f)
    | .barrier .. => .error .stall
    | _ => .ok (h.setThread p { self with wait := .barrier gid op x })

/-- BAR (R376). -/
def execBar (n : BitVec 7) (s : State) : Host.Outcome State Fault Refusal :=
  let w := (wordR 35#6 0#7 0#7 n 0#5)
  issueChip (form w) s fun self p h => do
    let gid ← groupOr self w n.toNat
    h.barrierStep self p w gid none 0 fun h _ _ => h

/-- BARV (R375, R376). -/
def execBarv (d : BitVec 7) (a : BitVec 7) (op : BitVec 3) (n : BitVec 2) (s : State) : Host.Outcome State Fault Refusal :=
  let w := (wordR 35#6 d a (0#2 ++ op ++ n) 1#5)
  issueChip (form w [.dst d, .src a]) s fun self p h => do
    let (x, h) ← h.readAt p a
    let gid ← groupOr self w n.toNat
    if 5 < op.toNat then .error (.trap .eill (tvalWord w))
    else
      h.barrierStep self p w gid (some op.toNat) x fun h r f =>
        (h.modThread p fun t => { t with fflags := t.fflags ||| f }).writeDst p d r

/-- GRED (R377): a record of a non-quiet task, or the contribution at once. -/
def execGred (a : BitVec 7) (n : BitVec 7) (s : State) : Host.Outcome State Fault Refusal :=
  let w := (wordR 35#6 0#7 a n 2#5)
  issueChip (form w [.src a]) s fun self p h => do
    let (x, h) ← h.readAt p a
    let gid ← groupOr self w n.toNat
    if self.quiet then .ok (h.modGroup self.pid gid fun g => g.contribute x)
    else
      let h ← h.need p.v self.uid 1 false 0
      .ok (h.addRecord p.v self.uid (.gred gid x))

/-- GLEAVE (R378): a non-quiet task stays a member until it commits. -/
def execGleave (n : BitVec 7) (s : State) : Host.Outcome State Fault Refusal :=
  let w := (wordR 35#6 0#7 0#7 n 3#5)
  issueChip (form w) s fun self p h => do
    let gid ← groupOr self w n.toNat
    if (h.group self.pid gid).gang then .error (.trap .eperm (n.zeroExtend 64))
    else
      let h := h.modThread p fun t => { t with grps := t.grps &&& ~~~(1#36 <<< (32 + n.toNat)) }
      .ok (if self.quiet then h.leaveGroup self.pid self.uid gid else h)

/-- A record or block that LAUNCH reads lies wholly in the local-scratch or the global window (R379). -/
def launchWindow (x : Word) (n : Nat) : Bool :=
  decide (windowOf x.toNat = windowOf (x.toNat + n - 1)) && (decide (windowOf x.toNat = .scratch) || decide (windowOf x.toNat = .global))

/-- Bytes that an instruction reads before it completes: its faults are precise, and a walk parks the thread at it
(R323, R379). -/
def Chip.readNow (h : Chip) (self : Thread) (p : At) (x : Word) (n : Nat) (go : List Byte → Chip → Except Stop Chip) :
    Except Stop Chip :=
  match h.readBytes self.who p.v x.toNat n with
  | .ok (bs, h) => go bs h
  | .error (.fault t v) => .error (.trap t v)
  | .error (.walk pid r) => .ok (h.waitWalk self p pid r 0)
  | .error (.stop e) => .error e

/-- A launch record that LAUNCH refuses: malformed, or with a field that only a host launch may set (R379). -/
def launchRefused (r : List Byte) : Bool :=
  recMalformed r || decide (recBankmap r ≠ 0) || recBounded r || recCores r || recBlack r

/-- A LAUNCH kept until its task commits or ends: 6 LOG units of a non-quiet task; a quiet task has no records
(R191, R379). -/
def Chip.keepLaunch (h : Chip) (self : Thread) (p : At) (r b : List Byte) : Except Stop Chip :=
  if self.quiet then
    .ok (h.modTask self.uid fun t => { t with launches := t.launches ++ [(r, b, self.traps.vec)] })
  else (h.need p.v self.uid 6 false 0).map fun h => h.addRecord p.v self.uid (.launch r b self.traps.vec)

/-- A LAUNCH whose record and block are read (R379). -/
def Chip.launchIssue (h : Chip) (self : Thread) (p : At) (w : Half) (d : BitVec 7) (r b : List Byte) : Except Stop Chip :=
  let mine := groupIds self.grps
  let named := recordGroups r
  let base := BitVec.ofNat 64 (recVt r * 2 ^ 24)
  if blkMalformed b false ∨ blkImages b ≠ 0 then .error (.trap .eill (tvalWord w))
  else if named.any fun g => !mine.contains g || (h.group self.pid g).gang then .error (.trap .eperm (tvalWord w))
  else if recVt r ≤ bits self.stamp 24 40 ∨ beyondTime r then .error (.trap .estamp base)
  else if (h.part self.pid).bounded then .error (.trap .eperm (tvalWord w))
  else do
    let h ← h.keepLaunch self p r b
    let h := named.foldl (fun h g => h.modGroup self.pid g fun x => { x with named := x.named + 1 }) h
    let n := self.counters.launch + 1
    .ok ((h.modThread p fun t => { t with counters := { t.counters with launch := n } }).writeDst p d (BitVec.ofNat 64 n))

/-- LAUNCH (R379). It waits for the thread's write-throughs, which happen before the accesses of the tasks it starts (R339). -/
def execLaunch (d : BitVec 7) (a : BitVec 7) (s : State) : Host.Outcome State Fault Refusal :=
  let w := (wordR 35#6 d a 0#7 4#5)
  issueChip (form w [.dst d, .src a]) s fun self p h => do
    let (x, h) ← h.readAt p a
    if self.sup then .error (.trap .eill (tvalWord w))
    else if !launchWindow x 64 then .error (.trap .ewindow x)
    else if x.toNat % 64 ≠ 0 then .error (.trap .ealign x)
    else if h.accessHeld p self x.toNat 64 || h.hasThroughs p.v self.uid then .error .stall
    else
      h.readNow self p x 64 fun r h =>
        let args := BitVec.ofNat 64 (recArgs r)
        if launchRefused r then .error (.trap .eill (tvalWord w))
        else if !launchWindow args 128 then .error (.trap .ewindow args)
        else if h.accessHeld p self args.toNat 128 then .error .stall
        else h.readNow self p args 128 fun b h => h.launchIssue self p w d r b

/-- GQRY (R380). The flags of an FP32 reduction go to its reader (R102). -/
def execGqry (d : BitVec 7) (a : BitVec 7) (s : State) : Host.Outcome State Fault Refusal :=
  let w := (wordR 35#6 d a 0#7 5#5)
  issueChip (form w [.dst d, .src a]) s fun self p h => do
    let (x, h) ← h.readAt p a
    let gid ← groupOr self w (bits x 0 2)
    let field := bits x 4 3
    let g := h.group self.pid gid
    if bits x 2 2 ≠ 0 ∨ bits x 7 57 ≠ 0 ∨ 3 < field then .error (.trap .eill (tvalWord w))
    else if field = 3 ∧ !self.quiet then .error (.trap .equiet 0)
    else
      let v : Word × BitVec 5 :=
        match field with
        | 0 => (BitVec.ofNat 64 (gid + (if g.gang then 256 else 0) + (if g.cores then 512 else 0)), 0)
        | 1 => (BitVec.ofNat 64 (g.vcn0.toNat % 2048 + g.vcnn.toNat % 2048 * 2 ^ 16 + g.banks.toNat * 2 ^ 32), 0)
        | 2 => (g.arrive.zeroExtend 64, 0)
        | _ => g.total.getD g.combined
      .ok ((h.raiseFlags self.uid v.2).writeDst p d v.1)

end Sys2Proof.Machine
end

