-- ==== Sys2Proof/Machine/ThreadEnd.lean ====
section
/-! DEFINITION. The end of a thread by TEND, TABORT or debug ABORT (R151 to R153, R203, R234, R371, R372). -/

namespace Sys2Proof.Machine

/-- The gang of a task: the first of its group slots whose group has the gang flag (R230). -/
def Chip.gangOf (h : Chip) (t : Thread) : Option Nat := (groupIds t.grps).find? fun g => (h.group t.pid g).gang

/-- The thread belongs to a co-resident group or to a gang (R144, R145, R155). -/
def Chip.bound (h : Chip) (t : Thread) : Bool :=
  t.cores || (groupIds t.grps).any (fun g => (h.group t.pid g).cores) || (t.quiet && (h.gangOf t).isSome)

/-- An operation of the thread or of its suspended task has not reached its consumption point (R45, R151). -/
def Thread.windowsOpen (t : Thread) : Bool :=
  (t.pend ++ (match t.suspended with | some u => u.pend | none => [])).any fun q => !q.arrived

/-- The oldest fault of the suspended task that a handler's end would report (R120, R151). -/
def Thread.endFault (t : Thread) : Option Pend :=
  (sortBy (fun (a b : Pend) => decide (a.op.seq ≤ b.op.seq))
    (match t.suspended with | some u => u.pend | none => [])).find? (·.faulted)

/-- Operations of the thread that its end waits for: stores, AMOs and REDs, its vector queue, engine commands not yet checked
(R265), the OLDs, ARDs and AWRs of a gang member (R252), and what its suspended task has under way. -/
def Chip.endHeld (h : Chip) (p : At) (t : Thread) : Bool :=
  t.unaccepted || (t.suspended.isSome && t.windowsOpen) ||
    (match (h.cluster p.v).claimOf t.uid with
     | some c => decide (c.queue ≠ [])
     | none => false) ||
    (h.clusters.any fun k => k.2.cmds.any fun c => decide (c.uid = t.uid) && !c.checked) ||
    h.clusters.any fun k => k.2.gangs.any fun g => g.queue.any fun q =>
      decide (q.uid = t.uid) && [2, 3, 4].contains (fld q.op.word 0 5).toNat && decide (major q.op.word = 0x31)

/-- The slot becomes ENDED and the thread's claim is released; its write-throughs are performed, so that a later launch sees
them (R339); the count of its gang instructions stays with its gang (R203, R234). -/
def Chip.leaveSlot (h : Chip) (p : At) (t : Thread) (aborted : Bool) : Chip :=
  let h := h.drainThroughs p.v t.uid (h.cluster p.v).throughs.length
  let h := (h.setSlot p (.ended t.regBase t.regLim false aborted)).releaseClaim p.v t.uid
  match h.gangOf t with
  | some g => h.modGroup t.pid g fun x => { x with gone := x.gone ++ [(t.homeC, t.counters.gang)] }
  | none => h

/-- A quiet task that has ended, all its engine commands performed: its LAUNCHes are handed over, and its launch may be DONE (R339,
R372, R379). -/
def Chip.finishQuiet (h : Chip) (pid uid : Nat) : Chip :=
  let h := h.handLaunches pid uid
  let l := (h.task? uid).bind (·.launch)
  { h with tasks := h.tasks.erase uid }.launchLive pid l false

/-- A quiet task's end: it leaves its groups. What its launch and its LAUNCHes order comes after its engine commands (R339), so the
task stays until they are complete. -/
def Chip.endQuiet (h : Chip) (t : Thread) : Chip :=
  if h.openCmds t.uid = 0 then
    let h := (h.handLaunches t.pid t.uid).leaveGroups t.pid t.uid t.grps
    let l := (h.task? t.uid).bind (·.launch)
    { h with tasks := h.tasks.erase t.uid }.launchLive t.pid l false
  else (h.modTask t.uid fun k => { k with stage := .ended }).leaveGroups t.pid t.uid t.grps

/-- Quiet tasks that have ended and whose engine commands are now complete. -/
def Chip.settleQuiet (h : Chip) : Chip :=
  (h.tasks.filter fun t => t.2.packet.quiet && decide (t.2.stage = .ended) && decide (h.openCmds t.1 = 0)).foldl
    (fun h t => h.finishQuiet t.2.pid t.1) h

/-- A task's end by TEND (R151): a non-quiet task stays until it commits. -/
def Chip.endTask (h : Chip) (p : At) (t : Thread) : Chip :=
  let h := h.leaveSlot p t false
  if t.quiet then h.endQuiet t
  else
    match h.task? t.uid with
    | some k => { h with tasks := h.tasks.put t.uid { k with stage := .ended } }
    | none => h

/-- A task's end by TABORT or debug ABORT (R135, R152). -/
def Chip.abortSelf (h : Chip) (p : At) (t : Thread) (code : Nat) : Chip :=
  let h := h.leaveSlot p t true
  if t.quiet then (h.noteAbort t.pid t.grps t.stamp code).endQuiet t
  else
    match h.task? t.uid with
    | some k =>
      let h := { h with tasks := h.tasks.put t.uid { k with stage := .selfAborted, exitCode := some code } }
      h.abortTasks [t.uid] []
    | none => h

end Sys2Proof.Machine
end

