-- ==== Sys2Proof/Machine/Thr.lean ====
section
/-! DEFINITION. The THR major (R146 to R158, R409, R410): tasks made, taken, reaped and ended, common registers, and
what a thread can ask about itself and the grid. -/

namespace Sys2Proof.Machine

/-! ## SPAWN (R146, R147) -/

/-- The child's packet (R147). -/
def childPacket (t : Thread) (x y c : Word) (args : List Word) : Packet :=
  { origin := .spawn, pc := x, stamp := y, regn := bits c 16 4, args := args, fmtA := t.fmtA, fmtB := t.fmtB, fmtC := t.fmtC
    grps := t.grps, quiet := t.quiet, cores := t.cores, tvec := t.traps.vec, priority := t.priority
    homeV := t.homeV, homeC := bits c 0 3 }

/-- A task's packet made: its number, its groups, its launch, and the packet under way to its core from a router (R140, R372). -/
def Chip.newTask (h : Chip) (src pid : Nat) (k : Packet) (launch : Option Nat) : Chip :=
  let uid := h.nextUid
  let h := { h with nextUid := uid + 1, tasks := h.tasks.put uid { pid := pid, packet := k, launch := launch } }
  let h := (h.joinGroups pid uid k.grps).launchLive pid launch true
  h.send src k.homeV (.task k.homeV k.homeC uid)

/-- A child recorded with its creator, whose abort cancels it (R354). -/
def Chip.addChild (h : Chip) (uid child : Nat) : Chip :=
  match h.task? uid with
  | some k => { h with tasks := h.tasks.put uid { k with children := k.children ++ [child] } }
  | none => h

/-- SPAWN (R146, R147). -/
def execSpawn (d : BitVec 7) (a : BitVec 7) (b : BitVec 7) (s : State) : Host.Outcome State Fault Refusal :=
  let w := (wordR 32#6 d a b 0#5)
  issueChip (form w [.both d, .src a, .src b]) s fun self p h => do
    if self.sup then .error (.trap .eill (tvalWord w))
    else
      let (x, h) ← h.readAt p a
      let (y, h) ← h.readAt p b
      let (c, h) ← h.readAt p d
      let n := bits c 11 5
      let base := bits c 4 7
      if bits c 20 44 ≠ 0 ∨ bits c 3 1 ≠ 0 ∨ bits c 16 4 = 0 ∨ 16 < n then .error (.trap .eill (tvalWord w))
      else if 8 * bits c 16 4 < 3 + n then .error (.trap .eill (tvalWord w))
      else if 0 < n ∧ self.regLim < base + n then .error (.trap .ereg (BitVec.ofNat 64 (base + n - 1)))
      else if y.ule self.stamp then .error (.trap .estamp y)
      else if bits x 0 2 ≠ 0 then .error (.trap .ealign x)
      else
        let file := (h.core p.v p.c).file
        let args := (List.range n).map fun i => readGpr self file (base + i)
        let launch := (h.task? self.uid).bind (·.launch)
        let h := (h.addChild self.uid h.nextUid).newTask (h.routerOf p.v) self.pid (childPacket self x y c args) launch
        let h := h.modThread p fun t => { t with counters := { t.counters with spawn := t.counters.spawn + 1 } }
        .ok (h.writeDst p d (BitVec.ofNat 64 self.counters.spawn))

/-! ## TAKE and REAP (R148, R150) -/

/-- TAKE and REAP take 0 or 1 as operand, and only in slot 0 (R139, R148, R150). -/
def slotZero (w : Half) (p : At) (x : Word) : Except Stop Unit :=
  if p.t ≠ 0 ∨ bits x 1 63 ≠ 0 then .error (.trap .eill (tvalWord w)) else .ok ()

/-- TAKE (R148, R349): a floor task held only by its receive buffer has the buffer's holder aborted. -/
def execTake (d : BitVec 7) (a : BitVec 7) (s : State) : Host.Outcome State Fault Refusal :=
  let w := (wordR 32#6 d a 0#7 1#5)
  issueChip (form w [.dst d, .src a] true) s fun _ p h => do
    let (x, h) ← h.readAt p a
    slotZero w p x
    let h := match h.floorBuffer p.v p.c with
      | some u => h.abort u
      | none => h
    match h.takeHead p.v p.c with
    | some (h, kind, slot) => .ok (h.writeDst p d (BitVec.ofNat 64 (2 ^ 63 + kind * 16 + slot)))
    | none => if x = 1 then .ok (h.writeDst p d 0) else .error .stall

/-- The lowest-numbered ENDED slot, with its REQUEUED and ABORTED flags. -/
def Chip.endedSlot (h : Chip) (v c : Nat) : Option (Nat × Bool × Bool) :=
  (List.range 16).findSome? fun t =>
    match h.slot ⟨v, c, t⟩ with
    | .ended _ _ r ab => some (t, r, ab)
    | _ => none

/-- REAP (R150). -/
def execReap (d : BitVec 7) (a : BitVec 7) (s : State) : Host.Outcome State Fault Refusal :=
  let w := (wordR 32#6 d a 0#7 2#5)
  issueChip (form w [.dst d, .src a] true) s fun _ p h => do
    let (x, h) ← h.readAt p a
    slotZero w p x
    match h.endedSlot p.v p.c with
    | some (t, r, ab) =>
      let v := 2 ^ 63 + (if r then 32 else 0) + (if ab then 16 else 0) + t
      .ok ((h.setSlot ⟨p.v, p.c, t⟩ .free).writeDst p d (BitVec.ofNat 64 v))
    | none => if x = 1 then .ok (h.writeDst p d 0) else .error .stall

/-! ## TEND, TABORT, YIELD (R151 to R155) -/

/-- TEND (R151). A handler ends its suspended task (R51); slot 0 holds no task to end (log 15). -/
def execTend (s : State) : Host.Outcome State Fault Refusal :=
  let w := (wordR 32#6 0#7 0#7 0#7 3#5)
  issueChip (form w) s fun self p h => do
    if self.sup && self.suspended.isNone then .error (.trap .eill (tvalWord w))
    else if h.endHeld p self then .error .stall
    else
      match self.endFault with
      | some q => .error (.deferred q false)
      | none => do
        let h ← h.fabricPublish p self
        .ok (h.endTask p self)

/-- An LDQ entry whose fault is discarded: a pop finds a value the spec does not state (log 8). -/
def LdqEntry.pardon (x : Word) (e : LdqEntry) : LdqEntry :=
  if e.pend.faulted then { e with arrival := .landed (.value x 0) } else e

/-- The thread with its faults discarded, those of its suspended task too. -/
def Thread.pardon (t : Thread) (x : Word) : Thread :=
  { t with
    pend := t.pend.filter fun q => !q.faulted
    ldq := t.ldq.map (·.pardon x)
    suspended := t.suspended.map fun u => { u with pend := u.pend.filter fun q => !q.faulted } }

/-- A TABORT of a non-quiet task, from its handler too, waits for the windows and for what its end waits for, before any fault of
theirs would be reported (R152, R153). -/
def tabortWaits (a : BitVec 7) (s : State) : Bool :=
  match s.chip.thread? s.place with
  | some t => t.isTask && !t.quiet && (checkUses t [.src a] 0).isNone && (t.windowsOpen || s.chip.endHeld s.place t)
  | none => false

/-- The state in which a TABORT of a non-quiet task, from its handler too, finds the faults it would report discarded (R153). -/
def discardFaults (a : BitVec 7) (s : State) : State :=
  let p := s.place
  match s.chip.thread? p with
  | none => s
  | some t =>
    if t.isTask && !t.quiet && (checkUses t [.src a] 0).isNone then
      let (x, h) := s.chip.takeFree
      { s with chip := h.setThread p (t.pardon x) }
    else s

/-- TABORT (R152, R153). A handler ends its suspended task; slot 0 holds no task to end (log 15). -/
def execTabort (a : BitVec 7) (s : State) : Host.Outcome State Fault Refusal :=
  let w := (wordR 32#6 0#7 a 0#7 4#5)
  if tabortWaits a s then .next s
  else issueChip (form w [.src a]) (discardFaults a s) fun self p h => do
    if self.sup && self.suspended.isNone then .error (.trap .eill (tvalWord w))
    else
      let (x, h) ← h.readAt p a
      if h.endHeld p self then .error .stall
      else
        match self.endFault with
        | some q => .error (.deferred q false)
        | none => .ok (h.abortSelf p self (bits x 0 16))

/-- The core's queue has a head that waits only for a free slot (R145, R155). -/
def Chip.headWantsSlot (h : Chip) (v c : Nat) : Bool :=
  match h.head v c with
  | none => false
  | some k =>
    (h.freeSlot v c).isNone && (h.bufferBlock k).isNone &&
      (allocPair (h.allocs v c) k.need k.floor (h.core v c).screened).isSome

/-- YIELD (R155). Slot 0 is never pre-empted (R139). -/
def execYield (s : State) : Host.Outcome State Fault Refusal :=
  issueChip (form (wordR 32#6 0#7 0#7 0#7 5#5)) s fun self p h =>
    -- the instruction has issued, which ends a debug STEP (log 67)
    if p.t ≠ 0 ∧ h.headWantsSlot p.v p.c ∧ !(self.quiet && h.bound self) then
      .ok ((h.modThread p fun t => { t with stepOnce := false }).park p true)
    else .ok h

/-! ## Common registers (R157, R158) -/

/-- MFC (R157): the value that held at the start of the rotation. -/
def execMfc (d : BitVec 7) (n : BitVec 7) (s : State) : Host.Outcome State Fault Refusal :=
  let w := (wordR 32#6 d 0#7 n 6#5)
  issueChip (form w [.dst d]) s fun _ p h =>
    if 16 ≤ n.toNat then .error (.trap .eill (tvalWord w))
    else .ok (h.writeDst p d ((h.core p.v p.c).common.getOr n.toNat 0))

/-- MTC (R157): the write waits for the rotation boundary. -/
def execMtc (a : BitVec 7) (n : BitVec 7) (s : State) : Host.Outcome State Fault Refusal :=
  let w := (wordR 32#6 0#7 a n 7#5)
  issueChip (form w [.src a]) s fun _ p h => do
    let (x, h) ← h.readAt p a
    if 16 ≤ n.toNat then .error (.trap .eill (tvalWord w))
    else .ok (h.modCore p.v p.c fun k => { k with pendingCommon := k.pendingCommon ++ [(n.toNat, p.t, x)] })

/-! ## SELF, GRADE, TOPO (R156, R409, R410) -/

/-- The word SELF writes (R156). -/
def Chip.selfWord (h : Chip) (t : Thread) (p : At) : Word :=
  if t.sup then BitVec.ofNat 64 (8 * p.v + p.c)
  else BitVec.ofNat 64 ((if (h.part t.pid).bounded then 2 ^ 19 else 0) + (if t.quiet then 2 ^ 18 else 0) + 8 * t.homeV + t.homeC)

/-- SELF (R156). -/
def execSelf (d : BitVec 7) (s : State) : Host.Outcome State Fault Refusal :=
  issueChip (form (wordR 32#6 d 0#7 0#7 8#5) [.dst d]) s fun self p h => .ok (h.writeDst p d (h.selfWord self p))

/-- Rows of the grid: ceil(V/64) (R409, R410). -/
def gridHeight (V : Nat) : Nat := (V + 63) / 64

/-- Clusters in a state of the pool. -/
def Pool.count (q : Pool) (f : PcState → Bool) : Nat := q.phys.countP fun x => f x.2.state

/-- The grade code, and V of the grade (R2). -/
def Chip.gradeCode (h : Chip) : Nat := if h.gradeB then 0x18 else 0x19
def Chip.gradeV (h : Chip) : Nat := if h.gradeB then 1800 else 1920

/-- The current GRADE word (R409). -/
def State.gradeWord (s : State) : Word :=
  let V := s.chip.v
  BitVec.ofNat 64 ((if s.chip.reduced then 2 ^ 56 else 0) +
    s.pool.count (fun x => decide (x = .fallow)) % 256 * 2 ^ 48 +
    (2048 - s.pool.count fun x => decide (x = .retired)) % 4096 * 2 ^ 36 +
    s.chip.gradeCode * 2 ^ 28 + gridHeight V % 256 * 2 ^ 20 + 64 * 2 ^ 12 + V % 4096)

/-- GRADE (R409): a task reads the word of its partition's creation, the supervisor the current one. -/
def execGrade (d : BitVec 7) (s : State) : Host.Outcome State Fault Refusal :=
  issueChip (form (wordR 32#6 d 0#7 0#7 9#5) [.dst d]) s fun self p h =>
    .ok (h.writeDst p d (if self.sup then s.gradeWord else (h.part self.pid).grade))

/-- Clusters in row r of the grid (R410). -/
def rowWidth (V r : Nat) : Nat := if r + 1 < gridHeight V then 64 else V - 64 * (gridHeight V - 1)

/-- The word TOPO writes for VCN x (R410). -/
def topoWord (V x : Nat) : Word :=
  let H := gridHeight V
  let row := x / 64
  let col := x % 64
  let east := decide (col + 1 < rowWidth V row)
  let west := decide (0 < col)
  let north := decide (0 < row)
  let south := decide (row + 1 < H ∧ col < rowWidth V (row + 1))
  let e := if east then x + 1 else 64 * row
  let w := if west then x - 1 else 64 * row + rowWidth V row - 1
  let n := if north then x - 64 else 64 * (if col < rowWidth V (H - 1) then H - 1 else H - 2) + col
  let z := if south then x + 64 else col
  BitVec.ofNat 64 (col + row * 2 ^ 6 + e * 2 ^ 11 + w * 2 ^ 22 + n * 2 ^ 33 + z * 2 ^ 44 +
    (if east then 0 else 2 ^ 55) + (if west then 0 else 2 ^ 56) + (if north then 0 else 2 ^ 57) + (if south then 0 else 2 ^ 58))

/-- TOPO (R410): a task reads the grid of its partition's creation (R424). -/
def execTopo (d : BitVec 7) (a : BitVec 7) (s : State) : Host.Outcome State Fault Refusal :=
  let w := (wordR 32#6 d a 0#7 10#5)
  issueChip (form w [.dst d, .src a]) s fun self p h => do
    let (x, h) ← h.readAt p a
    let V := if self.sup then h.v else bits (h.part self.pid).grade 0 12
    if bits x 11 53 ≠ 0 then .error (.trap .eill (tvalWord w))
    else if V ≤ x.toNat then .error (.trap .ewindow x)
    else .ok (h.writeDst p d (topoWord V x.toNat))

end Sys2Proof.Machine
end

