-- ==== Sys2Proof/Machine/Preempt.lean ====
section
/-! DEFINITION. Pre-emption of one slot (R144, R145, R161, R162) and of a partition (R385). -/

namespace Sys2Proof.Machine

/-- A slot that pre-emption may take: it holds a thread, and it is neither slot 0 nor the trailing half of a pair (R139,
R160, R167). -/
def Chip.preemptible (h : Chip) (p : At) : Bool :=
  decide (p.t ≠ 0) && match h.slot p with
    | .live _ => true
    | .halted _ => true
    | _ => false

/-- A slot pre-empted: its thread is parked and queued as an arrival on its core (R161). A core whose dispatch has stopped
keeps its slots as they are (R138). -/
def Chip.preempt (h : Chip) (p : At) : Chip :=
  let h := h.modCore p.v p.c fun k => { k with vacating := k.vacating.filter (· ≠ p.t) }
  if h.preemptible p && !(h.core p.v p.c).stopped then h.park p true else h

/-- The vacates still in progress: a marked slot whose thread ended first has none (R160). -/
def Chip.vacates (h : Chip) (v c : Nat) : List Nat := (h.core v c).vacating.filter fun t => h.preemptible ⟨v, c, t⟩

/-- Slots marked to be vacated: their threads issue nothing further (R160, R161). -/
def Chip.vacate (h : Chip) (v c : Nat) (ts : List Nat) : Chip :=
  h.modCore v c fun k => { k with vacating := ts.foldl addOnce k.vacating }

/-- The threads in slots 1 to 15 of a core, with their slots. -/
def Chip.threadsOf (h : Chip) (v c : Nat) : List (Nat × Thread) :=
  ((List.range 16).drop 1).filterMap fun t =>
    if h.preemptible ⟨v, c, t⟩ then (h.thread? ⟨v, c, t⟩).map fun x => (t, x) else none

/-- The thread stands at a barrier that it has arrived at (R376). -/
def Chip.barrierWaiter (h : Chip) (t : Thread) : Bool :=
  match t.wait with
  | .barrier g _ _ => (h.group t.pid g).arrivals.any fun a => decide (a.1 = t.uid)
  | _ => false

/-- The slot whose thread has the greatest stamp. -/
def greatestStamp (xs : List (Nat × Thread)) : Option Nat :=
  (xs.foldl (fun best x =>
    match best with
    | none => some x
    | some b => if b.2.stamp.ult x.2.stamp then some x else best) (none : Option (Nat × Thread))).map (·.1)

/-- The slot a floor task's displacement takes (R144). -/
def Chip.displaced (h : Chip) (v c : Nat) : Option Nat :=
  let all := h.threadsOf v c
  let free := all.filter fun x => !h.bound x.2
  let xs := if free = [] then all else free
  (greatestStamp (xs.filter fun x => !x.2.quiet)).or
    ((greatestStamp (xs.filter fun x => x.2.quiet && h.barrierWaiter x.2)).or (greatestStamp (xs.filter (·.2.quiet))))

/-- Displacement at a core (R144): the floor task at the head finds no FREE slot. -/
def Chip.displace (h : Chip) (v c : Nat) : Chip :=
  match h.head v c with
  | none => h
  | some k =>
    if k.floor && (h.freeSlot v c).isNone && (h.vacates v c).isEmpty && !(h.core v c).stopped then
      match h.displaced v c with
      | some t => h.preempt ⟨v, c, t⟩
      | none => h
    else h

/-- Barrier yield at a core (R145). -/
def Chip.barrierYield (h : Chip) (v c : Nat) : Chip :=
  if h.headWantsSlot v c && !(h.core v c).stopped then
    match greatestStamp ((h.threadsOf v c).filter fun x => x.2.quiet && h.barrierWaiter x.2 && !h.bound x.2) with
    | some t => h.preempt ⟨v, c, t⟩
    | none => h
  else h

end Sys2Proof.Machine
end

