-- ==== Sys2Proof/Machine/Eng.lean ====
section
/-! DEFINITION. The ENG major (R258 to R280). -/

namespace Sys2Proof.Machine

/-- CPY (R258 to R261). -/
def execCpy (d : BitVec 7) (a : BitVec 7) (b : BitVec 7) (s : State) : Host.Outcome State Fault Refusal :=
  dataForm (wordR 37#6 d a b 0#5) 0 d a b s

/-- CPY2D (R258 to R261). -/
def execCpy2d (d : BitVec 7) (a : BitVec 7) (b : BitVec 7) (s : State) : Host.Outcome State Fault Refusal :=
  dataForm (wordR 37#6 d a b 1#5) 1 d a b s

/-- CPYMC (R258 to R261). -/
def execCpymc (d : BitVec 7) (a : BitVec 7) (b : BitVec 7) (s : State) : Host.Outcome State Fault Refusal :=
  dataForm (wordR 37#6 d a b 2#5) 2 d a b s

/-- GATH (R258 to R261). -/
def execGath (d : BitVec 7) (a : BitVec 7) (b : BitVec 7) (s : State) : Host.Outcome State Fault Refusal :=
  dataForm (wordR 37#6 d a b 3#5) 3 d a b s

/-- SCAT (R258 to R261). -/
def execScat (d : BitVec 7) (a : BitVec 7) (b : BitVec 7) (s : State) : Host.Outcome State Fault Refusal :=
  dataForm (wordR 37#6 d a b 4#5) 4 d a b s

/-- CHAIN (R269). -/
def execChain (d : BitVec 7) (a : BitVec 7) (b : BitVec 7) (s : State) : Host.Outcome State Fault Refusal :=
  let w := (wordR 37#6 d a b 5#5)
  issueChip (form w [.dst d, .src a, .src b]) s fun self p h => do
    let (x, h) ← h.readAt p a
    let (y, h) ← h.readAt p b
    h.chainIssue self p w d x y

/-- The form of EWAIT: it is a consumption point for the engine commands that its token names (R121, R268). -/
def ewaitForm (w : Half) (a b : BitVec 7) (s : State) : Form :=
  let f := form w [.src a, .src b]
  { f with points := { f.points with engine := some (s.operand f a).toNat } }

/-- EWAIT (R268). -/
def execEwait (a : BitVec 7) (b : BitVec 7) (s : State) : Host.Outcome State Fault Refusal :=
  let w := (wordR 37#6 0#7 a b 6#5)
  issueChip (ewaitForm w a b s) s fun self p h => do
    let (x, h) ← h.readAt p a
    let (y, h) ← h.readAt p b
    h.ewaitIssue self w x y

/-- SHOPEN (R276). -/
def execShopen (d : BitVec 7) (a : BitVec 7) (b : BitVec 7) (s : State) : Host.Outcome State Fault Refusal :=
  let w := (wordR 37#6 d a b 7#5)
  issueChip (form w [.dst d, .src a, .src b]) s fun self p h => do
    let (x, h) ← h.readAt p a
    let (y, h) ← h.readAt p b
    h.shopenIssue self p w d x y

/-- PUBL (R278). -/
def execPubl (a : BitVec 7) (s : State) : Host.Outcome State Fault Refusal :=
  let w := (wordR 37#6 0#7 a 0#7 8#5)
  issueChip (form w [.src a]) s fun self p h => do
    let (x, h) ← h.readAt p a
    if !h.shadows.any fun z => decide (z.uid = self.uid ∧ z.base = x.toNat) then .error (.trap .eperm x)
    else
      -- a shadow that is marked keeps its place among the task's lazy writes
      let mark := fun z : Shadow => if z.uid = self.uid ∧ z.base = x.toNat then { z with marked := z.marked.or (some h.nextSeq) } else z
      .ok { h with shadows := h.shadows.map mark }.tick

/-- BCARM (R273). -/
def execBcarm (a : BitVec 7) (b : BitVec 7) (s : State) : Host.Outcome State Fault Refusal :=
  let w := (wordR 37#6 0#7 a b 9#5)
  issueChip (form w [.src a, .src b]) s fun self p h => do
    let (x, h) ← h.readAt p a
    let (y, h) ← h.readAt p b
    if y = 0 then .error (.trap .eill (tvalWord w))
    else
      h.counterCheck self p x
      if h.accessHeld p self x.toNat 16 then .error .stall
      else .ok (h.putScratch p.v (x.toNat + 8) (wordBytes 8 y))

/-- BCWAIT (R274): it stalls until COUNT reaches EXPECT. -/
def execBcwait (a : BitVec 7) (s : State) : Host.Outcome State Fault Refusal :=
  let w := (wordR 37#6 0#7 a 0#7 10#5)
  issueChip (form w [.src a]) s fun self p h => do
    let (x, h) ← h.readAt p a
    h.counterCheck self p x
    let m := (h.cluster p.v).scratch
    if h.accessHeld p self x.toNat 16 || (m.read64 x.toNat).ult (m.read64 (x.toNat + 8)) then .error .stall
    else .ok (h.dropPrivate p.v)

end Sys2Proof.Machine
end

