-- ==== Sys2Proof/Machine/Lane.lean ====
section
/-! DEFINITION. The LANE major (R199 to R203) and the MBX major (R294 to R297). -/

namespace Sys2Proof.Machine

/-! ## Claims -/

/-- A request of lanes (R199). -/
def isRequest (x : Word) : Bool := decide (x.toNat % 8 = 0 ∧ 8 ≤ x.toNat ∧ x.toNat ≤ 64)

/-- The request of a claim changed at a re-negotiation point (R201, R202). -/
def Chip.requestLanes (h : Chip) (v uid : Nat) (x : Word) : Chip :=
  (h.modClaim v uid fun c => { c with request := x.toNat }).renegotiate v uid

/-- A granted CLAIM completes: its waiting ends (R199). -/
def Chip.finishClaim (h : Chip) (p : At) (uid : Nat) : Chip :=
  (h.modClaim p.v uid fun c => { c with waiting := false }).modThread p fun t => { t with wait := .none }

/-- The waiting claims evaluated in order, that of the thread among them: the CLAIM completes once it is granted, and until then
the thread stands at it (`self`). -/
def Chip.claimStep (h : Chip) (self : Thread) (p : At) : Chip :=
  let h := h.serveClaims p.v
  match (h.cluster p.v).claimOf self.uid with
  | some c => if c.grant ≠ 0 then h.finishClaim p self.uid else h.setThread p { self with wait := .claim }
  | none => h

/-- A waiting claim made for a thread. -/
def Chip.newClaim (h : Chip) (v uid : Nat) (x : Word) : Chip :=
  (h.modCluster v fun k =>
    { k with claims := k.claims ++
        [{ uid := uid, request := x.toNat, waiting := true, awaits := true, resident := false, seq := h.nextSeq
           second := if k.screen then some [] else none }] }).tick

/-- CLAIM (R199). -/
def execClaim (a : BitVec 7) (s : State) : Host.Outcome State Fault Refusal :=
  let w := (wordR 38#6 0#7 a 0#7 0#5)
  issueChip (form w [.src a]) s fun self p h => do
    let (x, h) ← h.readAt p a
    if !isRequest x then .error (.trap .eill (tvalWord w))
    else
      match (h.cluster p.v).claimOf self.uid with
      | none => .ok ((h.newClaim p.v self.uid x).claimStep self p)
      | some c =>
        if c.waiting then
          .ok ((h.modClaim p.v self.uid fun c => { c with awaits := decide (c.grant = 0) }).claimStep self p)
        else if c.queue ≠ [] then .error .stall
        else .ok (h.requestLanes p.v self.uid x)

/-- The waits of RENEG and VREL: a claim is held and every vector command of the thread has completed (R202, R203). -/
def Chip.laneFence (h : Chip) (p : At) (uid : Nat) : Except Stop Unit := do
  let c ← h.laneCheck p uid
  if c.queue ≠ [] then .error .stall else .ok ()

/-- VREL (R203). -/
def execVrel (s : State) : Host.Outcome State Fault Refusal :=
  issueChip (form (wordR 38#6 0#7 0#7 0#7 1#5)) s fun self p h => do
    h.laneFence p self.uid
    .ok (h.releaseClaim p.v self.uid)

/-- RENEG, and VFENCE where its operand is 0 (R202). -/
def execReneg (a : BitVec 7) (s : State) : Host.Outcome State Fault Refusal :=
  let w := (wordR 38#6 0#7 a 0#7 2#5)
  issueChip (form w [.src a]) s fun self p h => do
    let (x, h) ← h.readAt p a
    if x ≠ 0 ∧ !isRequest x then .error (.trap .eill (tvalWord w))
    else do
      h.laneFence p self.uid
      .ok (if x = 0 then h else h.requestLanes p.v self.uid x)

/-! ## Mailboxes -/

/-- The precise checks of a mailbox address (R294). -/
def mailboxCheck (V v : Nat) (x : Word) : Except Stop Place :=
  match accessPlace V v x.toNat 1 with
  | some (.global _) => .error (.trap .ewindow x)
  | none => .error (.trap .ewindow x)
  | some place =>
    if 0xFEF0 < x.toNat % 65536 then .error (.trap .ewindow x)
    else if x.toNat % 16 ≠ 0 then .error (.trap .ealign x)
    else .ok place

/-- A mailbox address at a peer cluster lies in the partition (R29). -/
def Chip.mailboxMine (h : Chip) (pid : Nat) (x : Word) : Place → Except Stop Unit
  | .remote u _ => if (h.part pid).holds u then .ok () else .error (.trap .eperm x)
  | _ => .ok ()

/-- The record MBSET writes (R295). -/
def mailboxFresh (y : Word) : List Byte :=
  recordBytes 0 0 (bits y 12 20 * 4096 + 2048 + bits y 0 10) (ibMake fun e => if e = 63 then some (bits y 32 4) else none)

/-- MBSET performed at its record (R294, R295). -/
def Chip.mbsetRun (h : Chip) (w : Who) (v : Nat) (op : Op) : Except Blocked Chip := do
  let (u, off) ← h.mailboxAt w v op.ea
  let h ← h.writeRecord w u off (mailboxFresh op.y) op.ea
  .ok (h.modCluster u fun k => { k with mailboxes := addOnce k.mailboxes off })

/-- A saved scalar access or MBSET performed by the maker `w` from cluster v. -/
def Chip.performAny (h : Chip) (w : Who) (v : Nat) (op : Op) : Except Blocked (Word × Chip) :=
  if major op.word = 0x2E then (h.mbsetRun w v op).map fun g => (0, g) else h.perform w v op

/-- MBSET (R294, R295): a store of the whole record. -/
def execMbset (a : BitVec 7) (b : BitVec 7) (s : State) : Host.Outcome State Fault Refusal :=
  let w := (wordR 46#6 0#7 a b 0#5)
  issueChip (accessForm w [.src a, .src b] a 0 s) s fun self p h => do
    let (x, h) ← h.readAt p a
    let (y, h) ← h.readAt p b
    let place ← mailboxCheck h.v p.v x
    h.mailboxMine (h.pidAt p.v self) x place
    if !mailboxConfig y then .error (.trap .egbpcfg x)
    else if h.accessHeld p self x.toNat mailboxSize then .error .stall
    else
      let op := opOf self w x y 0 h.nextSeq
      let h := h.tick
      let act := fun _ : Unit => match h.mbsetRun self.who p.v op with
        | .ok g => Except.ok g
        | .error (.fault c v) => .ok (h.modThread p fun t => t.addPend ⟨op, .memory, .none, .landed (.fault c v)⟩)
        | .error (.stop e) => .error e
        | .error (.walk ..) => .error .stall
      match place with
      | .remote u _ =>
        if p.t = 0 then act ()
        else if !h.mayLeave p self then .error .stall
        else .ok (h.migrate p u (self.entersAt u p.c) (some ⟨op, .memory, .none, .waiting⟩))
      | _ => act ()

/-- A mailbox command of the pool (R294, R296, R297). -/
def mailboxForm (w : Half) (uses : List Use) (a : BitVec 7) (keep : Due × Dest) (s : State) :
    Host.Outcome State Fault Refusal :=
  issueChip (accessForm w uses a 0 s) s fun self p h => do
    let _ ← h.laneCheck p self.uid
    let (x, h) ← h.readAt p a
    let place ← mailboxCheck h.v p.v x
    h.mailboxMine (h.pidAt p.v self) x place
    if self.accessWaiting || h.spanBusy self.uid (spanOf p.v x.toNat mailboxSize) then .error .stall
    else h.tick.pushAt self p ⟨vectorOp self w (BitVec.allOnes 64) x h.nextSeq, BitVec.allOnes 64, x, false⟩ x keep

/-- MBLD (R296). -/
def execMbld (vd : BitVec 5) (a : BitVec 7) (s : State) : Host.Outcome State Fault Refusal :=
  mailboxForm (wordR 46#6 (0#2 ++ vd) a 0#7 1#5) [.src a] a (.vector, .none) s

/-- MBUPD (R297): the next instruction is its consumption point. -/
def execMbupd (d : BitVec 7) (a : BitVec 7) (vb : BitVec 5) (s : State) : Host.Outcome State Fault Refusal :=
  mailboxForm (wordR 46#6 d a (0#2 ++ vb) 2#5) [.vsDst d, .src a] a (.window 0, .reg d) s

end Sys2Proof.Machine
end

