-- ==== Sys2Proof/Machine/Matrix.lean ====
section
/-! DEFINITION. The matrix engine (12): gangs, the wired barrier, operand slots, accumulators, and the queue of each gang. -/

namespace Sys2Proof.Machine

/-! ## Elements (R89 to R92, R235, R246) -/

/-- Elements of a line in a format code (R234). -/
def lineLen (code : Nat) : Nat := if code ≤ 2 then 64 else if code ≤ 4 then 128 else 256

/-- Elements of one group of a multiply (R103). -/
def groupLen (code : Nat) : Nat := lineLen code / 8

/-- Element k of a line of an operand slot (R90, R235). -/
def OpSlot.elem (q : OpSlot) (line k : Nat) : Num :=
  let byte := fun i => (q.bytes.getOr (128 * line + i) 0).toNat
  if q.code ≤ 2 then (fmtOfCode q.code).decode (byte (2 * k) + 256 * byte (2 * k + 1))
  else if q.code ≤ 4 then (fmtOfCode q.code).decode (byte k)
  else
    let side := fun i => (q.side.getOr (16 * line + i) 0).toNat
    decodeF4B (byte (k / 2) / 16 ^ (k % 2) % 16) (side (k / 32)) (side (8 + k / 32))

/-- The 2:4 metadata of kept value t of a line (R246). -/
def OpSlot.meta (q : OpSlot) (line t : Nat) : Nat := (q.metadata.getOr (64 * line + t / 4) 0).toNat / 4 ^ (t % 4) % 4

/-- Row i of A, dense, as the multiply reads it (R246). -/
def OpSlot.rowA (q : OpSlot) (sp : Bool) (i : Nat) : List Num :=
  let K := lineLen q.code
  if !sp then (List.range K).map (q.elem i)
  else
    (List.range (2 * K)).map fun k =>
      let t := 2 * (k / 4)
      if q.meta i (t + 1) = k % 4 then q.elem i (t + 1)
      else if q.meta i t = k % 4 then q.elem i t
      else .fin false 0 0

/-- Column j of B as the multiply reads it (R246). -/
def OpSlot.colB (q : OpSlot) (sp : Bool) (j : Nat) : List Num :=
  let K := lineLen q.code
  if !sp then (List.range K).map (q.elem j)
  else (List.range K).map (q.elem (2 * j)) ++ (List.range K).map (q.elem (2 * j + 1))

/-! ## The multiply (R103, R104) -/

/-- The rounded sum of one group of products (R103, R104). -/
def groupSum (as bs : List Num) : Nat :=
  let ps := List.zipWith (fun a b => (mulNum a b).getD (.nan false)) as bs
  let s := exactSum ps
  if !s.nan && !s.posInf && !s.negInf && decide (s.total = 0) then 0 else s.roundFp32.1

/-- One element of an accumulator after its groups; `n` counts them (R103). -/
def accumulate (G : Nat) : (n : Nat) → List Num → List Num → Nat → Nat
  | 0, _, _, c => c
  | n + 1, as, bs, c =>
    accumulate G n (as.drop G) (bs.drop G) (fp32.add .rne false c (groupSum (as.take G) (bs.take G))).1

/-- Columns an MMA writes (R246). -/
def mmaColumns (sub : Nat) : Nat := (if sub / 4 % 2 = 1 then 32 else 64) / (if sub / 2 % 2 = 1 then 2 else 1)

/-- The accumulator after an MMA with this sub field (R246). -/
def mmaRun (sub : Nat) (a b : OpSlot) (c : Map Half) : Map Half :=
  let sp := decide (sub / 4 % 2 = 1)
  let G := groupLen a.code
  let n := (if sp then 2 else 1) * lineLen a.code / G
  let cols := (List.range (mmaColumns sub)).map (b.colB sp)
  (List.range 64).foldl (fun m i =>
    let row := a.rowA sp i
    (List.range cols.length).foldl (fun m j =>
      let old := if sub % 2 = 1 then 0 else (c.getOr (64 * i + j) 0).toNat
      m.put (64 * i + j) (BitVec.ofNat 32 (accumulate G n row (cols.getD j []) old))) m) c

/-! ## Gangs (R230, R232) -/

/-- The gang of a group at a cluster's engine. -/
def Cluster.gang (k : Cluster) (pid gid : Nat) : Option Gang := k.gangs.find? fun g => decide (g.pid = pid ∧ g.gid = gid)

/-- `f` applied to a gang. -/
def Chip.modGang (h : Chip) (v pid gid : Nat) (f : Gang → Gang) : Chip :=
  h.modCluster v fun k => { k with gangs := k.gangs.map fun g => if g.pid = pid ∧ g.gid = gid then f g else g }

/-- Gangs whose state the engine holds (R232). -/
def Cluster.engaged (k : Cluster) : List Gang := k.gangs.filter (!·.parked)

/-- Operand slots and accumulators that are free (R255). -/
def Cluster.slotsFree (k : Cluster) : Nat := 16 - (k.engaged.map (·.slots.length)).sum
def Cluster.accsFree (k : Cluster) : List Nat :=
  (List.range 8).filter fun n => !k.engaged.any fun g => g.accs.any fun a => decide (a.2.phys = n)

/-- The task's gang, or EGANG (R230). -/
def Chip.gangCheck (h : Chip) (self : Thread) (w : Half) : Except Stop Nat :=
  if self.sup || !self.quiet || self.away then .error (.trap .egang (tvalWord w))
  else
    match h.gangOf self with
    | some g => .ok g
    | none => .error (.trap .egang (tvalWord w))

/-- The gang engaged: a third gang waits (R232). -/
def Chip.engage (h : Chip) (v pid gid : Nat) : Option Chip :=
  let k := h.cluster v
  if (k.gang pid gid).isSome then some h
  else if k.engaged.length < 2 then some (h.modCluster v fun k => { k with gangs := k.gangs ++ [{ pid := pid, gid := gid }] })
  else none

/-- The thread stands at its instruction with this wait. -/
def Chip.standAt (h : Chip) (p : At) (self : Thread) (w : Wait) : Chip := h.setThread p { self with wait := w }

/-- The thread past its instruction waits no more. -/
def Chip.moveOn (h : Chip) (p : At) : Chip := h.modThread p fun t => { t with wait := .none }

/-! ## The wired barrier (R233, R234) -/

/-- A member has left the gang before its n-th gang instruction (R234). -/
def Group.shortOf (g : Group) (n : Nat) : Bool := g.gone.any fun x => decide (x.2 < n)

/-- A gang instruction of the thread `self`, with the descriptor that OCLAIM selects (R233): it stands there until its
effect, and then goes on or takes the gang's trap. -/
def Chip.gangStep (h : Chip) (self : Thread) (p : At) (w : Half) (desc : Word) : Except Stop Chip := do
  let gid ← h.gangCheck self w
  let n := self.counters.gang + 1
  let trapNow := fun (t : Trap) (x : Word) =>
    (((h.modGang p.v self.pid gid fun g => { g with arrived := g.arrived.filter fun a => decide (a.2.1 ≠ self.uid) }).setThread p
      { self with wait := .none }).takeTrap p (raisedBy self t x))
  match self.wait with
  | .gangDone none => .ok (h.modThread p fun t => { t with wait := .none, counters := { t.counters with gang := n } })
  | .gangDone (some (t, x)) => .ok (trapNow t x)
  | wt =>
    if (h.group self.pid gid).shortOf n then .ok (trapNow .egang (tvalWord w))
    else if wt = .gang n then .error .stall
    else
      match h.engage p.v self.pid gid with
      | none => .ok (h.standAt p self (.gang 0))
      | some h =>
        let op := { opOf self w 0 desc 0 h.nextSeq with draw := n }
        let h := h.tick.modGang p.v self.pid gid fun g => { g with arrived := g.arrived ++ [(self.homeC, self.uid, n, op)] }
        .ok (h.standAt p self (.gang n))

/-- The gang instruction's outcome for every member (R233). -/
def Chip.gangDone (h : Chip) (v pid gid : Nat) (g : Gang) (r : Op → Option (Trap × Word)) : Chip :=
  let h := h.modGang v pid gid fun g => { g with arrived := [], effects := g.effects + 1 }
  g.arrived.foldl (fun h a => h.mapThread a.2.1 fun t => { t with wait := .gangDone (r a.2.2.2) }) h

/-- The fields of OMEM and MMA words (R34). -/
def omemFn (w : Half) : Nat := bits w 0 5
def mmaSub (w : Half) : Nat := bits w 23 3
def mmaAcc (w : Half) : Nat := bits w 20 3
def mmaA (w : Half) : Nat := bits w 16 4
def mmaB (w : Half) : Nat := bits w 12 4
def isMma (w : Half) : Bool := decide (major w = 0x30)

/-- CODE and INDEX of a descriptor (R24). -/
def descCode (y : Word) : Nat := bits y 48 4
def descIndex (y : Word) : Word := BitVec.ofNat 64 (bits y 0 48)

/-- The slots an MMA reads. -/
def GangOp.reads (q : GangOp) : List Nat := if isMma q.op.word then [mmaA q.op.word, mmaB q.op.word] else []

/-- The slot an OLD fills. -/
def GangOp.fills (q : GangOp) : List Nat := if !isMma q.op.word && omemFn q.op.word == 2 then [bits q.op.y 0 4] else []

/-- The accumulator an operation names. -/
def GangOp.names (q : GangOp) : List Nat :=
  if isMma q.op.word then [mmaAcc q.op.word] else if omemFn q.op.word = 2 then [] else [bits q.op.y 0 3]

/-- The traps of an MMA at its barrier (R246). -/
def Gang.mmaTrap (g : Gang) (w : Half) : Option (Trap × Word) :=
  match g.slots.get (mmaA w), g.slots.get (mmaB w) with
  | none, _ => some (.eomem, BitVec.ofNat 64 (mmaA w))
  | _, none => some (.eomem, BitVec.ofNat 64 (mmaB w))
  | some a, some b =>
    let alike := (a.code ≤ 2 ∧ b.code ≤ 2) ∨ ((a.code = 3 ∨ a.code = 4) ∧ (b.code = 3 ∨ b.code = 4)) ∨ (a.code = 5 ∧ b.code = 5)
    if ¬alike then some (.efmt, BitVec.ofNat 64 a.index)
    else
      match g.accs.get (mmaAcc w) with
      | some c => if c.released ≠ [] ∧ c.released.length < 8 then some (.eacc, BitVec.ofNat 64 (mmaAcc w)) else none
      | none => none

/-- The effect of a gang instruction once eight members have arrived at it (R233, R236, R237, R246, R249). It waits for a
free slot, for earlier multiplies that read a released slot, and for room in the queue. -/
def Chip.gangEffect (h : Chip) (v pid gid : Nat) : Chip :=
  match (h.cluster v).gang pid gid with
  | none => h
  | some g =>
    match g.arrived with
    | [] => h
    | (_, uid, _, op) :: _ =>
      if g.arrived.length < 8 ∨ g.orphan ∨ g.parked ∨ g.stopped then h
      else
        let w := op.word
        let n := bits w 5 7
        let same := g.arrived.all fun a =>
          a.2.2.2.word == w && (decide (isMma w ∨ omemFn w ≠ 0) || bits a.2.2.2.y 0 52 == bits op.y 0 52)
        if !same then h.gangDone v pid gid g fun o => some (.egang, tvalWord o.word)
        else if isMma w then
          match g.mmaTrap w with
          | some t => h.gangDone v pid gid g fun _ => some t
          | none =>
            if 16 ≤ g.queue.length then h
            else
              let q : GangOp :=
                { op := op, uid := uid, member := 8, seq := h.nextSeq
                  set := if bits w 3 1 = 1 then some (bits w 0 3) else none, wait := BitVec.ofNat 8 (bits w 4 8) }
              (h.tick.modGang v pid gid fun g => { g with queue := g.queue ++ [q] }).gangDone v pid gid g fun _ => none
        else if 15 < n then h.gangDone v pid gid g fun o => some (.eill, tvalWord o.word)
        else if omemFn w = 0 then
          if 2 < bits w 12 7 then h.gangDone v pid gid g fun o => some (.eill, tvalWord o.word)
          else if descCode op.y = 0 ∨ 5 < descCode op.y then h.gangDone v pid gid g fun _ => some (.efmt, descIndex op.y)
          else if (g.slots.get n).isSome then h.gangDone v pid gid g fun _ => some (.eomem, BitVec.ofNat 64 n)
          else if (h.cluster v).slotsFree = 0 then h
          else
            (h.modGang v pid gid fun g =>
              { g with slots := g.slots.put n { code := descCode op.y, index := bits op.y 0 48 } }).gangDone v pid gid g fun _ => none
        else if (g.slots.get n).isNone then h.gangDone v pid gid g fun _ => some (.eomem, BitVec.ofNat 64 n)
        else if g.queue.any fun q => q.reads.contains n then h
        else (h.modGang v pid gid fun g => { g with slots := g.slots.erase n }).gangDone v pid gid g fun _ => none

/-! ## The queue (R249 to R251) -/

/-- Two operations of a queue must keep their order: they name one accumulator, one fills a slot the other reads or
fills, or one writes scratch that the other reads or writes (R240, R249). -/
def GangOp.conflicts (a b : GangOp) : Bool :=
  (a.names.any fun x => b.names.contains x) ||
    (a.fills.any fun x => (b.reads ++ b.fills).contains x) || (b.fills.any fun x => a.reads.contains x) ||
    (a.spans.any fun s => b.spans.any fun t => overlaps s t)

/-- An operation waits for the operations before it in its queue (R249, R251). -/
def Gang.ready (g : Gang) (k : Nat) (q : GangOp) : Bool :=
  !g.orphan && !g.parked && !g.stopped &&
    (g.queue.take k).all fun e =>
      !e.conflicts q && (match e.set with | some d => !q.wait.getLsbD d | none => true)

/-- An accumulator name bound to a free physical accumulator (R242). -/
def Chip.bindAcc (h : Chip) (v pid gid name : Nat) : Option Chip :=
  match (h.cluster v).gang pid gid with
  | none => none
  | some g =>
    if (g.accs.get name).isSome then some h
    else
      match (h.cluster v).accsFree with
      | [] => none
      | n :: _ =>
        let m0 := (h.group pid gid).members.findSome? fun u =>
          match h.findThread u with
          | some t => if t.homeC = 0 then (h.placeOf u).map (·.t) else none
          | none => none
        some (h.modGang v pid gid fun g => { g with accs := g.accs.put name { phys := n, m0slot := m0.getD 0 } })

/-- The operation of this order number leaves the queue; a name that every member has released is unbound once none of
their operations on it is left (R242, R251). -/
def Gang.dropOp (g : Gang) (seq : Nat) : Gang :=
  let queue := g.queue.filter fun q => decide (q.seq ≠ seq)
  { g with
    queue := queue
    accs := g.accs.filter fun a =>
      decide (a.2.released.length < 8) || queue.any fun q => !isMma q.op.word && q.names.contains a.1 }

/-- An MMA starts (R242, R251). -/
def Chip.mmaStart (h : Chip) (v pid gid k : Nat) : Chip :=
  match (h.cluster v).gang pid gid with
  | none => h
  | some g =>
    match g.queue[k]? with
    | none => h
    | some q =>
      if !isMma q.op.word || q.started || !g.ready k q then h
      else
        match h.bindAcc v pid gid (mmaAcc q.op.word) with
        | none => h
        | some h => h.modGang v pid gid fun g =>
          { g with queue := g.queue.map fun e => if e.seq = q.seq then { e with started := true } else e }

/-- A started MMA completes (R103, R246, R247). -/
def Chip.mmaComplete (h : Chip) (v pid gid k : Nat) : Chip :=
  match (h.cluster v).gang pid gid with
  | none => h
  | some g =>
    match g.queue[k]? with
    | none => h
    | some q =>
      let w := q.op.word
      if !isMma w || !q.started || g.stopped then h
      else
        match g.slots.get (mmaA w), g.slots.get (mmaB w), g.accs.get (mmaAcc w) with
        | some a, some b, some c =>
          h.modGang v pid gid fun g =>
            { g with accs := g.accs.put (mmaAcc w) { c with elems := mmaRun (mmaSub w) a b c.elems } }.dropOp q.seq
        | _, _, _ => h

/-! ## OLD (R238, R239) -/

/-- Fields of the OLD control word (R238). -/
def oldCount (y : Word) : Nat := bits y 10 6 + 1
def oldFirst (y : Word) : Nat := bits y 4 6
def oldMeta (y : Word) : Bool := y.getLsbD 16
def oldStride (y : Word) : Int := (y.extractLsb' 32 32).toInt

/-- The source of the i-th line. -/
def oldLine (x y : Word) (i : Nat) : Word := x + BitVec.ofInt 64 (i * oldStride y)

/-- The scale and extra bytes of the blocks that `n` bytes of codes at `p` hold, through the format pointer record of an
INDEX (R93). Its EFMT names the address of the codes (log 45). -/
def Chip.f4bSide (h : Chip) (w : Who) (v index p n : Nat) : Except Blocked (List Byte × List Byte × Chip) := do
  let rec_ := 32 * index
  if windowOf rec_ ≠ .global ∨ windowOf (rec_ + 31) ≠ .global then .error (.fault .ewindow (BitVec.ofNat 64 rec_))
  else
    let (r, h) ← h.readBytes w v rec_ 32
    let codes := recordField r 0 8
    let blocks := recordField r 24 8
    if codes % 16 ≠ 0 ∨ blocks = 0 ∨ 2 ^ 32 < blocks ∨ p < codes ∨ codes + 16 * blocks < p + n then
      .error (.fault .efmt (BitVec.ofNat 64 p))
    else
      let b := (p - codes) / 16
      let (ss, h) ← h.readBytes w v (recordField r 8 8 + b) (n / 16)
      let (xs, h) ← h.readBytes w v (recordField r 16 8 + b) (n / 16)
      .ok (ss, xs, h)

/-- One line of an OLD read: its bytes, metadata and side-band (R239). -/
def Chip.oldRead (h : Chip) (w : Who) (v : Nat) (q : OpSlot) (x y : Word) (i : Nat) :
    Except Blocked ((List Byte × List Byte × List Byte) × Chip) := do
  let p := (oldLine x y i).toNat
  let K := lineLen q.code
  let n := 128 + (if oldMeta y then K / 4 else 0)
  if windowOf p ≠ windowOf x.toNat ∨ windowOf (p + n - 1) ≠ windowOf x.toNat then .error (.fault .ewindow (BitVec.ofNat 64 p))
  else
    let (bs, h) ← h.readBytes w v p n
    if q.code = 5 then
      let (ss, xs, h) ← h.f4bSide w v q.index p 128
      .ok ((bs.take 128, bs.drop 128, ss ++ xs), h)
    else .ok ((bs.take 128, bs.drop 128, []), h)

/-- Bytes put into a map from a key upward. -/
def putBytes (m : Map Byte) (k : Nat) (bs : List Byte) : Map Byte :=
  (List.range bs.length).foldl (fun m i => m.put (k + i) (bs.getD i 0)) m

/-- A slot with one line filled (R239). -/
def OpSlot.fill (q : OpSlot) (line : Nat) (l : List Byte × List Byte × List Byte) : OpSlot :=
  { q with
    bytes := putBytes q.bytes (128 * line) l.1
    metadata := putBytes (q.metadata.filter fun e => decide (e.1 / 64 ≠ line)) (64 * line) l.2.1
    side := putBytes q.side (16 * line) l.2.2 }

/-- The lines of an OLD read and written (R239). -/
def Chip.oldRun (h : Chip) (w : Who) (v : Nat) (q : OpSlot) (x y : Word) : Except Blocked (OpSlot × Chip) :=
  (List.range (oldCount y)).foldlM (fun (acc : OpSlot × Chip) i => do
    let (l, h) ← acc.2.oldRead w v q x y i
    .ok (acc.1.fill (oldFirst y + i) l, h)) (q, h)

/-! ## ARD, AWR, ACLR (R242 to R245) -/

/-- Fields of the control word of R243. -/
def accStride (y : Word) : Nat := bits y 32 16
def accFmt (y : Word) : Nat := bits y 20 4
def accSr (y : Word) : Bool := y.getLsbD 24
def accRel (y : Word) : Bool := y.getLsbD 25

/-- Bytes of an element in a format code of an ARD (R243). -/
def accWidth (fmt : Nat) : Nat := if fmt = 0 then 4 else if fmt ≤ 2 then 2 else 1

/-- Rows of a member's accumulator elements: keys of row r of member k (R231). -/
def accKey (k r c : Nat) : Nat := 64 * (8 * k + r) + c

/-- One row of an ARD: its bytes and flags (R244). -/
def ardRow (y : Word) (u : Nat → Half) (elems : Map Half) (k r : Nat) : List Byte × BitVec 5 :=
  let xs := (List.range 64).map fun c =>
    let x := (elems.getOr (accKey k r c) 0).toNat
    if accFmt y = 0 then (x, 0)
    else convert fp32 (fmtOfCode (accFmt y)) (if accSr y then .sr (u (64 * r + c)) else .rne) x
  (xs.flatMap fun x => natToBytes (accWidth (accFmt y)) x.1, orFlags (xs.map (·.2)))

/-- An ARD performed: its rows stored, and its flags (R243 to R245). -/
def Chip.ardRun (h : Chip) (w : Who) (v : Nat) (u : Nat → Half) (elems : Map Half) (k : Nat) (x y : Word) :
    Except Blocked (BitVec 5 × Chip) :=
  (List.range 8).foldlM (fun (acc : BitVec 5 × Chip) r => do
    let row := ardRow y u elems k r
    let h ← acc.2.writeBytes w v (x.toNat + r * accStride y) row.1
    .ok (acc.1 ||| row.2, h)) (0, h)

/-- An AWR performed: the member's rows loaded (R243, R245). -/
def Chip.awrRun (h : Chip) (w : Who) (v : Nat) (elems : Map Half) (k : Nat) (x y : Word) : Except Blocked (Map Half × Chip) :=
  (List.range 8).foldlM (fun (acc : Map Half × Chip) r => do
    let (bs, h) ← acc.2.readBytes w v (x.toNat + r * accStride y) 256
    .ok ((List.range 64).foldl (fun m c => m.put (accKey k r c) (BitVec.ofNat 32 (recordField bs (4 * c) 4))) acc.1, h)) (elems, h)

/-- What a member operation makes of its gang: the gang's slots and accumulators, and flags. -/
def Chip.memberRun (h : Chip) (t : Thread) (v : Nat) (g : Gang) (q : GangOp) : Except Blocked (BitVec 5 × Gang × Chip) :=
  let x := q.op.ea
  let y := q.op.y
  let who := t.opWho q.op
  let name := bits y 0 3
  match omemFn q.op.word with
  | 2 =>
    match g.slots.get (bits y 0 4) with
    | none => .ok (0, g, h)
    | some s => do
      let (s, h) ← h.oldRun who v s x y
      .ok (0, { g with slots := g.slots.put (bits y 0 4) s }, h)
  | fn =>
    match g.accs.get name with
    | none => .ok (0, g, h)
    | some c =>
      match fn with
      | 3 => do
        let (f, h) ← h.ardRun who v (h.opDraw t q.op) c.elems q.member x y
        .ok (f, g, h)
      | 4 => do
        let (es, h) ← h.awrRun who v c.elems q.member x y
        .ok (0, { g with accs := g.accs.put name { c with elems := es } }, h)
      | _ =>
        let es := c.elems.filter fun e => decide (e.1 / 512 ≠ q.member)
        .ok (0, { g with accs := g.accs.put name { c with elems := es } }, h)

/-- A member operation goes on (R239, R243 to R245, R250, R251): one that must still wait for operations before it in its
queue is checked, after which its member no longer waits for it; the others complete. A faulting one completes without
effect. -/
def Chip.memberComplete (h : Chip) (v pid gid k : Nat) (old : Bool) : Chip :=
  match (h.cluster v).gang pid gid with
  | none => h
  | some g =>
    match g.queue[k]? with
    | none => h
    | some q =>
      if isMma q.op.word || (omemFn q.op.word == 2) != old || (q.checked && !g.ready k q) then h
      else
        let t := (h.findThread q.uid).getD { uid := q.uid, pid := pid, pc := 0, homeV := v, homeC := q.member, quiet := true }
        let seq := q.op.seq
        let drop := fun h : Chip => h.modGang v pid gid fun g => g.dropOp q.seq
        match h.memberRun t v g q with
        | .ok (f, n, done) =>
          if g.ready k q then
            (drop (done.modGang v pid gid fun g => { g with slots := n.slots, accs := n.accs })).mapThread q.uid fun t =>
              { t.settle seq with fflags := t.fflags ||| f }
          else
            (h.modGang v pid gid fun g =>
              { g with queue := g.queue.map fun e => if e.seq = q.seq then { e with checked := true } else e }).mapThread q.uid
                fun t => t.settle seq
        | .error (.fault e a) => (drop h).mapThread q.uid fun t => t.arrive seq (.fault e a)
        | .error (.stop (.trap e a)) => (drop h).mapThread q.uid fun t => t.arrive seq (.fault e a)
        | .error (.walk pid r) => h.addWalk pid r (if old || omemFn q.op.word == 4 then 4 else 5) seq
        | .error (.stop _) => h

/-! ## Member instructions at issue -/

/-- The beginning of a member instruction: its gang, engaged; none where the thread waits for room (R230, R232). -/
def Chip.memberStart (h : Chip) (self : Thread) (p : At) (w : Half) : Except Stop (Nat × Option Chip) := do
  let gid ← h.gangCheck self w
  .ok (gid, h.engage p.v self.pid gid)

/-- A member operation put into its gang's queue, with the pending operation its thread keeps; a full queue stalls
(R249). -/
def Chip.queueOp (h : Chip) (self : Thread) (p : At) (gid : Nat) (q : GangOp) (keep : Bool) : Except Stop Chip :=
  match (h.cluster p.v).gang self.pid gid with
  | none => .error .stall
  | some g =>
    if 16 ≤ g.queue.length then .error .stall
    else
      let h := h.modGang p.v self.pid gid fun g => { g with queue := g.queue ++ [q] }
      .ok (if keep then h.modThread p fun t => t.addPend ⟨q.op, .omem, .none, .waiting⟩ else h)

/-- A member operation waits for earlier scalar and vector accesses of its thread (R212, R240). Engine commands hold up scalar and
vector accesses alone (R264, R445). -/
def Chip.memberHeld (h : Chip) (self : Thread) (p : At) : Bool := self.accessWaiting || h.vectorBusy p.v self.uid

/-- The spans an OLD reads: its lines; for F4B, whose side-band lies elsewhere, every address. -/
def oldSpans (v : Nat) (code : Nat) (x y : Word) : List (Nat × Nat) :=
  if code = 5 then [(0, 2 ^ 62)]
  else (List.range (oldCount y)).map fun i =>
    spanOf v (oldLine x y i).toNat (128 + (if oldMeta y then lineLen code / 4 else 0))

/-- The issue of an OLD (R238): checks, token and queue. -/
def Chip.oldIssue (h : Chip) (self : Thread) (p : At) (w : Half) (d : BitVec 7) (x y : Word) : Except Stop Chip := do
  match ← h.memberStart self p w with
  | (_, none) => .ok (h.standAt p self (.gang 0))
  | (gid, some h) =>
    let slot := bits y 0 4
    if bits y 17 15 ≠ 0 ∨ 64 < oldFirst y + oldCount y then .error (.trap .eill (tvalWord w))
    else
      match ((h.cluster p.v).gang self.pid gid).bind fun g => g.slots.get slot with
      | none => .error (.trap .eomem (BitVec.ofNat 64 slot))
      | some s =>
        let win := windowOf x.toNat
        if win ≠ .scratch ∧ win ≠ .global then .error (.trap .ewindow x)
        else if x.toNat % 16 ≠ 0 ∨ bits y 32 4 ≠ 0 then .error (.trap .ealign x)
        else
          let spans := oldSpans p.v s.code x y
          if h.memberHeld self p then .error .stall
          else
            let token := self.counters.old + 1
            let op := opOf self w x y (BitVec.ofNat 64 token) h.nextSeq
            let q : GangOp := { op := op, uid := self.uid, member := self.homeC, seq := h.nextSeq, spans := spans }
            let h ← h.tick.queueOp self p gid q true
            let h := (h.moveOn p).modThread p fun t => { t with counters := { t.counters with old := token } }
            .ok (h.writeDst p d (BitVec.ofNat 64 token))

/-- A control word of ARD, AWR or ACLR (fn 3, 4, 5) is refused (R243). -/
def accRefused (fn : Nat) (y : Word) : Bool :=
  decide (bits y 48 16 ≠ 0 ∨ bits y 26 6 ≠ 0 ∨ bits y 3 5 ≠ 0) ||
    decide (bits y 19 1 = 0 ∧ bits y 16 3 ≠ 0) ||
    (decide (fn ≠ 5) && accRel y) || (decide (fn ≠ 3) && (accSr y || decide (accFmt y ≠ 0))) ||
    (decide (fn = 5) && decide (accStride y ≠ 0))

/-- The precise address checks of ARD and AWR (R245). -/
def accAddress (x y : Word) : Except Stop Unit :=
  let last := x.toNat + 7 * accStride y + 64 * accWidth (accFmt y) - 1
  if windowOf x.toNat ≠ .scratch ∨ windowOf last ≠ .scratch then .error (.trap .ewindow x)
  else if x.toNat % 4 ≠ 0 then .error (.trap .ealign x)
  else if accStride y % 4 ≠ 0 then .error (.trap .ealign (x + BitVec.ofNat 64 (accStride y)))
  else .ok ()

/-- The scratch spans of the rows of an ARD or AWR. -/
def accSpans (v : Nat) (x y : Word) : List (Nat × Nat) :=
  (List.range 8).map fun r => spanOf v (x.toNat + r * accStride y) (64 * accWidth (accFmt y))

/-- The issue of an ARD, AWR or ACLR (R242 to R245). -/
def Chip.accIssue (h : Chip) (self : Thread) (p : At) (w : Half) (x y : Word) : Except Stop Chip := do
  match ← h.memberStart self p w with
  | (_, none) => .ok (h.standAt p self (.gang 0))
  | (gid, some h) =>
    let fn := omemFn w
    let name := bits y 0 3
    if accRefused fn y then .error (.trap .eill (tvalWord w))
    else if fn = 3 ∧ (accFmt y = 2 ∨ 4 < accFmt y) then .error (.trap .efmt (BitVec.ofNat 64 (accFmt y)))
    else
      let released := match ((h.cluster p.v).gang self.pid gid).bind fun g => g.accs.get name with
        | some c => c.released
        | none => []
      if 8 ≤ released.length then .error .stall
      else if released.contains self.homeC then .error (.trap .eacc (BitVec.ofNat 64 name))
      else
        if fn ≠ 5 then accAddress x y
        let spans := if fn = 5 then [] else accSpans p.v x y
        if h.memberHeld self p then .error .stall
        else
          match h.bindAcc p.v self.pid gid name with
          | none => .error .stall
          | some h =>
            let draws := if fn = 3 ∧ accFmt y ≠ 0 ∧ accSr y then 512 else 0
            let op := { opOf self w x y 0 h.nextSeq with draw := self.counters.draw }
            let q : GangOp :=
              { op := op, uid := self.uid, member := self.homeC, seq := h.nextSeq, spans := spans
                set := if bits y 19 1 = 1 then some (bits y 16 3) else none, wait := BitVec.ofNat 8 (bits y 8 8) }
            let h ← h.tick.queueOp self p gid q (decide (fn ≠ 5))
            let h := if fn = 5 ∧ accRel y then h.modGang p.v self.pid gid fun g =>
                match g.accs.get name with
                | some c => { g with accs := g.accs.put name { c with released := c.released ++ [self.homeC] } }
                | none => g
              else h
            .ok ((h.moveOn p).modThread p fun t => { t with counters := { t.counters with draw := t.counters.draw + draws } })

/-- The issue of an MWAIT (R241). -/
def Chip.mwaitIssue (h : Chip) (self : Thread) (p : At) (w : Half) (x y : Word) : Except Stop Chip := do
  match ← h.memberStart self p w with
  | (_, none) => .ok (h.standAt p self (.gang 0))
  | (gid, some h) =>
    if self.counters.old < x.toNat ∨ bits y 8 56 ≠ 0 then .error (.trap .eill (tvalWord w))
    else
      let queue := (((h.cluster p.v).gang self.pid gid).map (·.queue)).getD []
      let fills := queue.any fun q => decide (q.uid = self.uid ∧ q.fills ≠ [] ∧ q.op.z.toNat ≤ x.toNat)
      let sets := queue.any fun q => match q.set with | some d => y.getLsbD d | none => false
      if fills || sets then .error .stall else .ok (h.moveOn p)

/-! ## Orphans and parking (R253, R254) -/

/-- A gang waits for room in the engine (R232). -/
def Chip.thirdGang (h : Chip) (v : Nat) : Bool :=
  ((h.cluster v).places v).any fun p =>
    match h.slot p with
    | .live t => decide (t.wait = .gang 0)
    | _ => false

/-- An orphaned gang parked to make room (R254). -/
def Chip.gangPark (h : Chip) (v pid gid : Nat) : Chip :=
  match (h.cluster v).gang pid gid with
  | some g =>
    if g.orphan && !g.parked && h.thirdGang v && !g.queue.any (·.started) then
      h.modGang v pid gid fun g => { g with parked := true }
    else h
  | none => h

/-- Every member of the group is LIVE (R253). -/
def Chip.allLive (h : Chip) (pid gid : Nat) : Bool :=
  let us := (h.group pid gid).members
  decide (us.length = 8) && us.all fun u =>
    match h.placeOf u with
    | some p => (match h.slot p with | .live _ => true | _ => false)
    | none => false

/-- Physical accumulators given to the names of a gang in order. -/
def rephys : Map Acc → List Nat → Map Acc
  | (k, a) :: m, n :: ns => (k, { a with phys := n }) :: rephys m ns
  | m, _ => m

/-- A gang whose members are all LIVE reclaims its state; a parked one once the engine has room (R253, R254). -/
def Chip.gangReclaim (h : Chip) (v pid gid : Nat) : Chip :=
  match (h.cluster v).gang pid gid with
  | some g =>
    let k := h.cluster v
    if !g.orphan || !h.allLive pid gid then h
    else if !g.parked then h.modGang v pid gid fun g => { g with orphan := false }
    else if k.engaged.length < 2 ∧ g.slots.length ≤ k.slotsFree ∧ g.accs.length ≤ k.accsFree.length then
      h.modGang v pid gid fun g => { g with orphan := false, parked := false, accs := rephys g.accs k.accsFree }
    else h
  | none => h

end Sys2Proof.Machine
end

