-- ==== Sys2Proof/Machine/Walks.lean ====
section
/-! DEFINITION. What arrives from memory: load data (R45, R75), page walks, their faults and the driver's answers (R320,
R322 to R324), and the tiers (R312 to R316, R321). -/

namespace Sys2Proof.Machine

/-! ## Threads that wait -/

/-- The threads of a cluster, in slots or parked. -/
def Cluster.threads (k : Cluster) (v : Nat) : List (Nat × Thread) :=
  (k.cores.flatMap fun c => c.2.slots.filterMap fun s =>
    match s.2 with
    | .live t => some (v, t)
    | .halted t => some (v, t)
    | _ => none) ++ k.parked.map fun q => (v, q.thread)

/-- Every thread of the package with the cluster where it stands or to which it is under way. -/
def Chip.threads (h : Chip) : List (Nat × Thread) :=
  (h.clusters.flatMap fun k => k.2.threads k.1) ++ h.flights.filterMap fun f =>
    match f.2.body with
    | .migration d q => some (d, q.thread)
    | _ => none

/-- The scalar accesses of a thread that wait to be performed. -/
def Thread.waitingOps (t : Thread) : List Op :=
  t.ops.filterMap fun x => if x.2 = .waiting ∧ (accessOf x.1.word).isSome then some x.1 else none

/-- A parked thread queued again as an arrival on its core, unless it is queued already or holds a trap (R141, R324). -/
def Chip.requeue (h : Chip) (uid : Nat) : Chip :=
  match h.clusters.findSome? fun k => (k.2.context uid).map fun q => (k.1, q) with
  | none => h
  | some (v, q) =>
    if q.thread.held.isSome || (h.core v q.core).queued uid then h else h.arrive v q.core uid

/-- The thread and access with this order number. -/
def Chip.waiter (h : Chip) (seq : Nat) : Option (Nat × Thread × Op) :=
  h.threads.findSome? fun x => (x.2.waitingOps.find? fun o => decide (o.seq = seq)).map fun o => (x.1, x.2, o)

/-- A thread that waits leaves its slot for the context cache (R323). -/
def Chip.parkWaiter (h : Chip) (uid : Nat) : Chip :=
  match h.placeOf uid with
  | some p => if p.t = 0 ∨ (h.core p.v p.c).stopped then h else h.park p false
  | none => h

/-- The threads that wait for a walk that has been reported leave their slots, those that join it later too (R323). -/
def Chip.parkWaiters (h : Chip) : Chip :=
  ((h.walks.filter (·.reported)).flatMap fun w =>
    (w.waiters.filterMap fun q => (h.waiter q).map fun x => x.2.1.uid) ++ w.threads).foldl Chip.parkWaiter h

/-- A waiting scalar access tried again: its result, or its fault, arrives; it waits on for a walk or for LOG space. -/
def Chip.retryAccess (h : Chip) (v : Nat) (t : Thread) (op : Op) : Chip :=
  let seq := op.seq
  match h.performAny (t.opWho op) v op with
  | .ok (x, h) => h.mapThread t.uid fun t => t.arrive seq (.value x 0)
  | .error (.fault e x) => h.mapThread t.uid fun t => t.arrive seq (.fault e x)
  | .error (.stop (.trap e x)) => h.mapThread t.uid fun t => t.arrive seq (.fault e x)
  | .error (.walk pid r) => h.addWalk pid r (((accessOf op.word).map Access.kind).getD 0) seq
  | .error (.stop _) => h

/-- The scalar accesses of a walk tried again, and their threads and the ones that stand at an instruction resumed. -/
def Chip.wake (h : Chip) (seqs uids : List Nat) : Chip :=
  let h := seqs.foldl (fun h q =>
    match h.waiter q with
    | some (v, t, op) => (h.retryAccess v t op).requeue t.uid
    | none => h) h
  uids.foldl Chip.requeue h

/-! ## Loads (R45, R75, R163) -/

/-- The oldest operation of a thread whose data is under way: its order number and result. -/
def Thread.inFlight (t : Thread) : Option (Nat × Result) :=
  (t.ops.filterMap fun x => match x.2 with | .flying r => some (x.1.seq, r) | _ => none).foldl (fun best x =>
    match best with
    | none => some x
    | some b => if x.1 < b.1 then some x else best) none

/-- The data of the thread's oldest access under way arrives; with none under way, an access that waits for LOG space is
tried again (R45, R163, R192). -/
def Chip.loadComplete (h : Chip) (uid : Nat) : Chip :=
  match h.threads.find? fun x => decide (x.2.uid = uid) with
  | none => h
  | some (v, t) =>
    match t.inFlight with
    | some (seq, r) => h.mapThread uid fun t => t.arrive seq r
    | none =>
      match t.waitingOps with
      | op :: _ => if h.walks.any fun w => w.waiters.contains op.seq then h else h.retryAccess v t op
      | [] => h

/-- LOAD_COMPLETE (R45). -/
def execLoadComplete (_v : Nat) (tid : Nat) (s : State) : Host.Outcome State Fault Refusal :=
  .next { s with chip := s.chip.loadComplete tid }

/-! ## Walks (R320, R323) -/

/-- A fault record (R323). -/
def faultRecord (w : Walk) (reason level seq : Nat) : List Byte :=
  natToBytes 8 (w.region * 2 ^ 16) ++ natToBytes 4 w.pid ++ natToBytes 1 reason ++ natToBytes 1 level ++ natToBytes 1 w.kind ++
    natToBytes 1 0 ++ natToBytes 8 w.waiting ++ natToBytes 8 seq

/-- `f` applied to the walk of a region. -/
def Chip.modWalk (h : Chip) (pid region : Nat) (f : Walk → Walk) : Chip :=
  { h with walks := h.walks.map fun (w : Walk) => if w.pid = pid ∧ w.region = region then f w else w }

/-- The walk of a region is over. -/
def Chip.dropWalk (h : Chip) (pid region : Nat) : Chip :=
  { h with walks := h.walks.filter fun (w : Walk) => !(decide (w.pid = pid) && decide (w.region = region)) }

/-- A walk ends (R320, R323): its entry is installed and the requests go on, or its record is written and the threads
that wait are parked. -/
def Chip.walkComplete (h : Chip) (pid region : Nat) : Chip :=
  match h.walkOf pid region with
  | none => h
  | some w =>
    if w.reported then h
    else
      match h.walk pid (region * 2 ^ 16) with
      | .ok (leaf, level) =>
        ((h.dropWalk pid region).enterPage pid region leaf level).wake w.waiters w.threads
      | .error (reason, level) =>
        let n := h.reg 0x1428
        let x : RingRec := { ring := 0, bytes := faultRecord w reason level n.toNat, walk := some (pid, region) }
        let h : Chip := { h with regs := h.regs.put 0x1428 (n + 1), rings := h.rings ++ [x] }
        (h.modWalk pid region fun w => { w with reported := true }).parkWaiters

/-- PAGE_WALK_COMPLETE (R320, R323). -/
def execPageWalkComplete (pid : Nat) (region : Nat) (s : State) : Host.Outcome State Fault Refusal :=
  .next { s with chip := s.chip.walkComplete pid region }

/-! ## The driver's answer (R324) -/

/-- The PASID and region an FRESP names (R321). -/
def frespPid (x : Word) : Nat := bits x 40 20
def frespRegion (x : Word) : Nat := bits x 0 40

/-- A retry: the region is walked again (R324). -/
def Chip.frespRetry (h : Chip) (x : Word) : Chip :=
  { h with regs := h.regs.put 0x42C x }.modWalk (frespPid x) (frespRegion x) fun w => { w with reported := false }

/-- The waiter number of the command processor's requests for a partition (R368). -/
def cpWaiter (pid : Nat) : Nat := 2 ^ 64 + pid

/-- The thread's rejected regions. -/
def Thread.reject (t : Thread) (r : Nat) : Thread := { t with rejected := addOnce t.rejected r }
def Thread.unreject (t : Thread) (r : Nat) : Thread := { t with rejected := t.rejected.filter (· ≠ r) }

/-- The operation in a queue of a gang with this order number: cluster, group, place in the queue, and whether it is an
OLD. -/
def Chip.memberWaiter (h : Chip) (seq : Nat) : Option (Nat × Gang × Nat × GangOp) :=
  h.clusters.findSome? fun k => k.2.gangs.findSome? fun g =>
    ((List.range g.queue.length).findSome? fun i =>
      (g.queue[i]?).bind fun q => if q.op.seq = seq then some (k.1, g, i, q) else none)

/-- One waiting request completed with EPAGE (R324): its task is marked while the request runs again. -/
def Chip.rejectOne (h : Chip) (pid region seq : Nat) : Chip :=
  let under := fun (uid : Nat) (h : Chip) (act : Chip → Chip) =>
    (act (h.mapThread uid fun t => t.reject region)).mapThread uid fun t => t.unreject region
  if seq = cpWaiter pid then
    h.modPart pid fun q =>
      match q.reqs with
      | r :: rs => { q with reqs := { r with rejected := addOnce r.rejected region } :: rs }
      | [] => q
  else
    match h.waiter seq with
    | some (_, t, _) =>
      (under t.uid h fun h =>
        match h.waiter seq with
        | some (v, t, op) => h.retryAccess v t op
        | none => h).requeue t.uid
    | none =>
      match h.clusters.findSome? fun k => (k.2.claims.find? fun c =>
          match c.queue with | q :: _ => decide (q.op.seq = seq) | [] => false).map fun c => (k.1, c.uid) with
      | some (v, uid) => under uid h fun h => h.completeVector v uid
      | none =>
        match h.clusters.findSome? fun k => ((List.range k.2.cmds.length).findSome? fun i =>
            (k.2.cmds[i]?).bind fun c => if c.seq = seq then some (k.1, i, c) else none) with
        | some (v, i, c) =>
          under c.uid h fun h =>
            (h.modCmd seq fun c => { c with who := { c.who with rejected := addOnce c.who.rejected region } }).engStep v i c.chain
        | none =>
          match h.memberWaiter seq with
          | some (v, g, i, q) =>
            under q.uid h fun h => h.memberComplete v g.pid g.gid i (omemFn q.op.word == 2)
          | none =>
            -- a replay that a debug RESUME makes: the thread keeps the mark until the replay traps (R129, R135)
            match h.threads.find? fun x => (x.2.saved.map fun q => q.1.op.seq) == some seq with
            | some x => h.mapThread x.2.uid fun t => t.reject region
            | none => h

/-- A reject: every waiting request completes with EPAGE (R324). A thread that stands at its instruction keeps the mark
until that instruction traps. -/
def Chip.frespReject (h : Chip) (x : Word) : Chip :=
  let pid := frespPid x
  let region := frespRegion x
  let h := { h with regs := h.regs.put 0x42C x }
  match h.walkOf pid region with
  | none => h
  | some w =>
    if !w.reported then h
    else
      let h := h.dropWalk pid region
      let h := w.waiters.foldl (fun h q => h.rejectOne pid region q) h
      w.threads.foldl (fun h u => (h.mapThread u fun t => t.reject region).requeue u) h

/-- A write of FRESP (R321, R324). -/
def Chip.fresp (h : Chip) (x : Word) : Chip := if x.getLsbD 62 then h.frespReject x else h.frespRetry x

/-- The bits of FRESP, and of XLINV less BUSY (R321): a host write of another bit has no effect (R415). -/
def frespMask : Word := 0x4FFFFFFFFFFFFFFF#64

/-- FRESP_RETRY (R324): the row is the write with REJECT 0. -/
def execFrespRetry (x : BitVec 64) (s : State) : Host.Outcome State Fault Refusal :=
  .next { s with chip := if x &&& frespMask = x ∧ !x.getLsbD 62 then s.chip.frespRetry x else s.chip }

/-- FRESP_REJECT (R324): the row is the write with REJECT 1. -/
def execFrespReject (x : BitVec 64) (s : State) : Host.Outcome State Fault Refusal :=
  .next { s with chip := if x &&& frespMask = x ∧ x.getLsbD 62 then s.chip.frespReject x else s.chip }

/-! ## Invalidation (R322) -/

/-- An XLINV of this word names the entry of some regions: one of them, or the whole PASID (R321). -/
def xlinvNames (x : Word) (n pid first regions : Nat) : Bool :=
  decide (pid = frespPid x) && (x.getLsbD 62 || decide (first < frespRegion x + n ∧ frespRegion x < first + regions))

/-- The device memory that a station entry names: first PA and length. -/
def Chip.mapped (h : Chip) (e : StationEntry) : Nat × Nat := ((h.leafAt e (65536 * e.region)).pa, leafSize e.level)

/-- A write of XLINV (R321, R322): the named entries leave all stations, and with them the walk-cache entries that they pass
through. -/
def Chip.xlinv (h : Chip) (x : Word) : Chip :=
  let n := (h.reg 0x431).toNat
  let named := fun e : StationEntry => xlinvNames x n e.pid e.region (regionsOf e.level)
  { h with
    regs := h.regs.put 0x430 (x ||| 0x8000000000000000#64)
    stations := h.stations.filter fun e => !named e
    upper := h.upper.filter fun e => !xlinvNames x n e.pid (e.tag * regionsOf e.level) (regionsOf e.level)
    removed := h.removed ++ (h.stations.filter named).map h.mapped }

/-- XLINV (R322). -/
def execXlinv (x : BitVec 64) (s : State) : Host.Outcome State Fault Refusal :=
  .next { s with chip := if x &&& frespMask = x then s.chip.xlinv x else s.chip }

/-- An address lies in device memory that an invalidation under way has unmapped. -/
def Chip.unmapped (h : Chip) (pa : Nat) : Bool := h.removed.any fun r => decide (r.1 ≤ pa ∧ pa < r.1 + r.2)

/-- Accesses of a cluster translated with a removed entry have not been performed (R322): a write-through, or a redo, reduction or
IRV.HOST record whose task has not committed. The address of a HOST page has bit 47 set (R319). -/
def Chip.keepsRemoved (h : Chip) (k : Cluster) : Bool :=
  k.throughs.any (fun t => h.unmapped t.pa) || k.log.any fun e =>
    match e.body with
    | .redo pa .. => h.unmapped pa
    | .red _ true pa .. => h.unmapped pa
    | .irv .host x .. => h.unmapped (2 ^ 47 + x)
    | _ => false

/-- An access translated with a removed entry has not been performed (R322): one of a cluster, present or swapped out, or a committed
IRV.HOST. -/
def Chip.stillTranslated (h : Chip) : Bool :=
  (h.clusters.any fun k => h.keepsRemoved k.2) || h.parts.any fun q =>
    (q.2.saved.any fun k => h.keepsRemoved k.2) ||
      q.2.irvs.any fun x => decide (x.kind = .host) && h.unmapped (2 ^ 47 + x.addr)

/-- XLINV_DONE (R322): every access translated with a removed entry has been performed. -/
def execXlinvDone (s : State) : Host.Outcome State Fault Refusal :=
  let h := s.chip
  if h.stillTranslated then .next s
  else .next { s with chip := { h with regs := h.regs.put 0x430 (h.reg 0x430 &&& 0x7FFFFFFFFFFFFFFF#64), removed := [] } }

/-! ## The tiers (R312 to R316, R321) -/

/-- A partition holds clusters. -/
def Chip.anyPartition (h : Chip) : Bool := h.parts.any fun q => q.2.active

/-- A write of SLICE_HASH_SEL (R321). -/
def Chip.sliceHash (h : Chip) (x : Word) : Chip :=
  let sel := bits x 0 6
  if h.anyPartition ∨ 32 < sel ∨ 512 - sel ≠ h.liveSlices then
    { h with regs := h.regs.put 0x410 (h.reg 0x410 ||| 0x8000000000000000#64) }
  else { h with regs := h.regs.put 0x410 (BitVec.ofNat 64 (2 ^ 62 + sel)) }

/-- SLICE_HASH_SEL_WRITE (R321). -/
def execSliceHashSelWrite (x : BitVec 64) (s : State) : Host.Outcome State Fault Refusal :=
  .next { s with chip := if x &&& 0x3F#64 = x then s.chip.sliceHash x else s.chip }

/-- SLICE_REHASH_COMPLETE (R321). -/
def execSliceRehashComplete (s : State) : Host.Outcome State Fault Refusal :=
  let h := s.chip
  let r := h.reg 0x410
  if r.getLsbD 62 then
    let dirty := h.tiers.slices.flatMap fun l => l.2.filter (·.dirty)
    let h := dirty.foldl (fun h y => h.touchHome (64 * y.line) true) { h with regs := h.regs.put 0x410 (r &&& 0xBFFFFFFFFFFFFFFF#64) }
    .next { s with chip := { h with tiers := { h.tiers with slices := [] } } }
  else .next s

/-- LINE_EVICTION (R315): tier 0 is the core-side tier, tier 1 the memory-side tier; `line` is PA[47:6]. -/
def execLineEviction (tier : Nat) (line : Nat) (s : State) : Host.Outcome State Fault Refusal :=
  let h := s.chip
  let t := h.tiers
  let out := fun (l : List TierLine) => l.filter fun y => decide (y.line ≠ line)
  if tier = 0 then
    let dirty := t.slices.any fun l => l.2.any fun y => decide (y.line = line) && y.dirty
    let h := if dirty then h.touchHome (64 * line) true else h
    .next { s with chip := { h with tiers := { h.tiers with slices := h.tiers.slices.each fun _ l => out l } } }
  else .next { s with chip := { h with tiers := { t with channels := t.channels.each fun _ l => out l } } }

/-- WRITE_THROUGH_PERFORM (R315): the oldest write-through of the cluster. -/
def execWriteThroughPerform (v : Nat) (s : State) : Host.Outcome State Fault Refusal :=
  .next { s with chip := s.chip.performThrough v }

end Sys2Proof.Machine
end

