-- ==== Sys2Proof/Machine/Partition.lean ====
section
/-! DEFINITION. Partitions: creation and destruction (R388), pre-emption and resume (R385, R413), screening (R166), the
handler store (R347), cairn controls (R413) and fabric routes (R428). -/

namespace Sys2Proof.Machine

/-- The partition holds the cluster now: no other partition of a slice-gate sequence does (R437). -/
def Chip.present (h : Chip) (pid v : Nat) : Bool := (h.cluster v).pid == some pid

/-- A packet has come to a router that holds it for its cluster (R305, R393, R401, R437). -/
def Chip.heldBack (h : Chip) (f : Flight) : Bool :=
  f.held || match f.body.dest with
    | some u => (h.cluster u).stopped || (h.cluster u).holding || !h.present (h.packetPid f.body) u
    | none => false

/-- A packet that the same source router sent earlier to the same destination router has not arrived yet (R301). -/
def Chip.ahead (h : Chip) (f : Flight) : Bool :=
  f.body.dest.isSome && h.flights.any fun g =>
    decide (g.2.order < f.order ∧ g.2.src = f.src ∧ g.2.pcn.toNat / 4 = f.pcn.toNat / 4) && g.2.body.dest.isSome && !g.2.there &&
      (decide (g.2.body.dest = f.body.dest ∧ h.packetPid g.2.body = h.packetPid f.body) || !h.heldBack g.2)

/-- A packet for a cluster of the partition can be delivered: its router does not hold it, the table names the physical
cluster it went to, the cluster takes packets, and no packet that must arrive earlier is under way (R301, R305, R393, R401,
R437). -/
def Chip.arrives (h : Chip) (pid v : Nat) (f : Flight) : Bool :=
  let e := h.vmap.getOr v {}
  let k := h.cluster v
  !f.held && e.valid && decide (f.pcn = e.pcn) && !k.stopped && !k.holding && h.present pid v && !h.ahead f

/-! ## Screening (R166) -/

/-- A core whose slots 1 to 15 are FREE. The trailing half of the dispatcher keeps slot 8 of a screened core taken. -/
def Chip.coreEmpty (h : Chip) (v c : Nat) : Bool :=
  ((List.range 16).drop 1).all fun t =>
    match h.slot ⟨v, c, t⟩ with
    | .free => true
    | _ => false

/-- A write of SCRCFG that changes it is refused: a slot is taken, or a context is parked, or an arrival that has reached the
cluster and waits there (R166). -/
def Chip.scrBusy (h : Chip) (v : Nat) : Bool :=
  !(List.range 8).all (h.coreEmpty v) || !(h.cluster v).parked.isEmpty ||
    h.flights.any fun f => match f.2.body with | .migration d _ => d == v && f.2.there | _ => false

/-- SCRCFG as it reads. -/
def Cluster.scrWord (k : Cluster) : Word := BitVec.ofNat 64 ((if k.checked then 256 else 0) + (if k.screen then 1 else 0))

/-- The cluster is held by a partition over several packages, whose clusters are not screened (R428). -/
def Chip.spread (h : Chip) (v : Nat) : Bool :=
  match (h.cluster v).pid with
  | some pid => decide ((h.part pid).pkgCount ≠ 0)
  | none => false

/-- A write of SCRCFG; none where it is refused (R166), or would screen a cluster of several packages (R428; log 59). -/
def Chip.scrcfg (h : Chip) (v : Nat) (x : Word) : Option Chip :=
  if x ≠ (h.cluster v).scrWord ∧ h.scrBusy v ∨ x.getLsbD 0 ∧ h.spread v then none
  else some (h.modCluster v fun k => { k with screen := x.getLsbD 0, checked := x.getLsbD 8 })

/-- SCRCFG_WRITE (R166): a refused write changes nothing. -/
def execScrcfgWrite (v : Nat) (x : BitVec 64) (s : State) : Host.Outcome State Fault Refusal :=
  .next { s with chip := if x &&& 0x101#64 = x then (s.chip.scrcfg v x).getD s.chip else s.chip }

/-! ## The handler store (R347) -/

/-- The bits of HNDCFG. -/
def hndMask : Word := 0x9FFF770F#64

/-- A write of HNDCFG; none where it is refused (R347). -/
def Chip.hndcfg (h : Chip) (v : Nat) (x : Word) : Option Chip :=
  if x &&& hndMask ≠ x then none
  else if x.getLsbD 31 ∧ (bits x 0 4 = 0 ∨ 6 < bits x 12 3 ∨ 256 < bits x 16 8 + 2 ^ bits x 12 3) then none
  else some (h.modCluster v fun k =>
    { k with handlers := k.handlers.put k.hndIdx.toNat { pc := k.hndPc, tvec := k.hndTvec, cfg := fld x 0 32 } })

/-- HNDCFG_WRITE (R347). -/
def execHndcfgWrite (v : Nat) (x : BitVec 64) (s : State) : Host.Outcome State Fault Refusal :=
  .next { s with chip := (s.chip.hndcfg v x).getD s.chip }

/-! ## Cairn controls (R413) -/

/-- The fields of PCAIRN. -/
def cairnInterval (x : Word) : Nat := bits x 0 40
def cairnBanks (x : Word) : Nat := bits x 40 4
def cairnF (x : Word) : Nat := bits x 44 12
def cairnS (x : Word) : Nat := bits x 56 8

/-- The banks that a PCAIRN value puts into CAIRN mode: from bank 31 down, none where INTERVAL is 0. -/
def cairnCover (x : Word) : List Nat :=
  if cairnInterval x = 0 then [] else (List.range 32).filter fun b => decide (32 - cairnBanks x ≤ b)

/-- Uncommitted tasks of a partition. -/
def Chip.anyTask (h : Chip) (pid : Nat) : Bool := h.tasks.any fun t => decide (t.2.pid = pid)

/-- The banks of a cluster as a PCAIRN value sets them. -/
def Cluster.cairnSwitch (k : Cluster) (x : Word) : Cluster :=
  (List.range 32).foldl (fun k b =>
    if (cairnCover x).contains b then (if k.mode b = .cairn then k else k.switchBank b .cairn)
    else if k.mode b = .cairn then k.switchBank b .scratch else k) k

/-- The cairn partner of a VCN: the next VCN of the partition on another die (R397; the firmware's assignment is open,
log 21). -/
def Chip.partnerFor (h : Chip) (vs : List Nat) (v : Nat) : Option Nat :=
  ((vs.filter fun u => decide (v < u)) ++ vs.filter fun u => decide (u < v)).find? fun u =>
    decide (h.dieOf u ≠ h.dieOf v) && (h.vmap.getOr u {}).valid

/-- Every VCN of a list given its partner. -/
def Chip.assignPartners (h : Chip) (pid : Nat) (vs : List Nat) : Chip :=
  vs.foldl (fun h v =>
    match h.partnerFor (h.part pid).vcns v with
    | some u => h.modPart pid fun q => { q with partners := q.partners.put v u }
    | none => h.modPart pid fun q => { q with partners := q.partners.erase v }) h

/-- A write of PCAIRN (R413). -/
def Chip.pcairn (h : Chip) (pid : Nat) (x : Word) : Chip :=
  let q := h.part pid
  -- the clusters as the partition has them, those swapped out too
  let mine := fun v : Nat => if h.present pid v then h else { h with clusters := h.clusters.put v (q.saved.getOr v {}) }
  let top := (List.range 32).filter fun b => decide (32 - cairnBanks x ≤ b)
  let live := q.vcns.any fun v => top.any fun b => ((mine v).cluster v).mode b != .cairn && (mine v).bankLive v b
  -- what a roped partition and the shared store require (R433, R436; log 69)
  let wrong := (q.roped && decide (cairnInterval x = 0 ∨ cairnF x = 0)) || decide (cairnS x ≠ 0 ∧ h.reg 0x4C4 = 0)
  if !q.active ∨ h.anyTask pid ∨ 8 < cairnBanks x ∨ live ∨ wrong then h.modPart pid fun q => { q with cairnRefused := true }
  else
    let fresh := fun k : Cluster => { k.cairnSwitch x with cairn := none, cairnNext := none, inputs := [], inputsNext := [] }
    let h := h.modPart pid fun q => { q with cairn := x, cairnRefused := false, saved := q.saved.each fun _ k => fresh k }
    let h := h.assignPartners pid q.vcns
    q.vcns.foldl (fun h v => if h.present pid v then h.modCluster v fresh else h) h

/-- PCAIRN_WRITE (R413). -/
def execPcairnWrite (pid : Nat) (x : BitVec 64) (s : State) : Host.Outcome State Fault Refusal :=
  .next { s with chip := s.chip.pcairn pid x }

/-! ## Fabric routes (R428) -/

/-- A write of FRDAT; none where DEST is above COUNT or another bit is set (R428). -/
def Chip.frdat (h : Chip) (pid : Nat) (x : Word) : Option Chip :=
  if x &&& 0x80000000000000FF#64 ≠ x ∨ (h.part pid).count < bits x 0 8 then none
  else
    let i := (h.part pid).fridx.toNat
    some (h.modPart pid fun q => { q with routes := q.routes.put i ((if x.getLsbD 63 then 1#1 else 0#1) ++ fld x 0 8) })

/-- FRDAT_WRITE (R428). -/
def execFrdatWrite (pid : Nat) (x : BitVec 64) (s : State) : Host.Outcome State Fault Refusal :=
  .next { s with chip := (s.chip.frdat pid x).getD s.chip }

/-! ## Creation (R388) -/

/-- The PASID is an entry of the slice-gate sequence (R437). -/
def Chip.inSequence (h : Chip) (pid : Nat) : Bool :=
  (List.range (bits (h.reg 0x4C8) 48 4 + 1)).any fun n => decide ((h.reg (0x4E0 + n)).toNat = pid)

/-- Active partitions other than `pid` that hold a cluster of its map. -/
def Chip.sharers (h : Chip) (pid : Nat) : List Nat :=
  (h.parts.filter fun q => q.2.active && decide (q.1 ≠ pid) && (h.part pid).vcns.any q.2.holds).map (·.1)

/-- A create command succeeds (R388). A partition over several packages that would be bounded or screened does not exist (R428;
log 59). -/
def Chip.mayCreate (h : Chip) (pid : Nat) : Bool :=
  let q := h.part pid
  let others := h.sharers pid
  let shared := h.inSequence pid && !q.bounded && others.all fun p => h.inSequence p && !(h.part p).bounded
  decide (pid < (h.reg 0x421).toNat) && !q.active && !q.vcns.isEmpty && q.vcns.all (fun v => decide (v < h.v)) &&
    (others.isEmpty || shared) && (!q.bounded || (decide (q.w = 0) && decide (q.cap = 0))) && (!q.checked || q.screen) &&
    (decide (q.pkgCount = 0) || (!q.bounded && !q.screen))

/-- Slot 0 of a core enters the partition's own dispatcher (R139, R421). -/
def Chip.enterDispatcher (h : Chip) (pid v c : Nat) : Chip :=
  let pc := (h.part pid).disp
  if pc = 0 then h else h.setSlot ⟨v, c, 0⟩ (.live { dispatcher v c with pc := pc, pid := pid })

/-- A cluster given to a new partition: SCRCFG from its flags, no handler valid, its own dispatcher (R388). -/
def Chip.giveCluster (h : Chip) (pid v : Nat) : Chip :=
  let q := h.part pid
  let h := h.modCluster v fun k => { k with pid := some pid, screen := q.screen, checked := q.checked, handlers := [] }
  (List.range 8).foldl (fun h c => h.enterDispatcher pid v c) h

/-- The partition's record after its creation (R388). -/
def Partition.created (q : Partition) (grade : Word) (off : Bool) : Partition :=
  { q with
    active := true, refused := false, groups := [], gvt := none, cairn := 0, cairnRefused := false, lastVt := none
    period := 1000, irvBase := 0, irvSize := 0, grade := grade, lnum := 0, jobs := [], reqs := [], irvs := [], off := off
    halted := false, round := none, candidate := none, reports := [], points := 0, imagesTaken := 0, imageBusy := false, imageVt := none
    ropeAgreed := 0, diverged := false, tie := none, ropeItems := [], ropeMine := [], ropeTheirs := [], remoteCandidates := []
    remoteStops := [], irvDone := none, run := 0, saved := [], partners := [], launched := [], hostWrites := [], owed := false, redone := [] }

/-- A create command for a PASID (R388). A partition that shares its clusters waits for its first slice (R437). -/
def State.createPartition (s : State) (pid : Nat) : State :=
  let h := s.chip
  if !h.mayCreate pid then { s with chip := h.modPart pid fun q => { q with refused := true } }
  else
    let shared := !(h.sharers pid).isEmpty
    let h := h.modPart pid fun q => q.created s.gradeWord shared
    let vs := (h.part pid).vcns
    { s with chip := if shared then h else vs.foldl (fun h v => h.giveCluster pid v) h }

/-- PARTITION_CREATE (R388). -/
def execPartitionCreate (pid : Nat) (s : State) : Host.Outcome State Fault Refusal := .next (s.createPartition pid)

/-! ## Destruction (R388) -/

/-- A destroy command succeeds (R388). -/
def Chip.mayDestroy (h : Chip) (pid : Nat) : Bool :=
  let q := h.part pid
  q.active && q.gvt.isNone && !h.anyTask pid && q.reqs.isEmpty && q.jobs.isEmpty &&
    h.clusters.all fun k => k.2.pending.all fun x => decide (x.message.pid ≠ pid)

/-- The cores of a cluster leave the partition's own dispatcher for Reondul's, which is not the partition's (R139, R388, R421). -/
def Chip.leaveDispatcher (h : Chip) (own : Bool) (v : Nat) : Chip :=
  if own then (List.range 8).foldl (fun h c => h.setSlot ⟨v, c, 0⟩ (.live (dispatcher v c))) h else h

/-- A destroy command for a PASID (R388). -/
def Chip.destroyPartition (h : Chip) (pid : Nat) : Chip :=
  if !h.mayDestroy pid then h.modPart pid fun q => { q with refused := true }
  else
    let own := decide ((h.part pid).disp ≠ 0)
    let h := (h.part pid).vcns.foldl (fun h v =>
      if h.present pid v then (h.modCluster v fun k => { k.cairnSwitch 0 with pid := none }).leaveDispatcher own v else h) h
    let h : Chip := { h with
      upper := h.upper.map fun e => if e.pid = pid then { e with pinned := false } else e
      images := (h.images.erase (2 * pid)).erase (2 * pid + 1), older := h.older.erase pid, atPoints := h.atPoints.erase pid }
    h.modPart pid fun q => { q with active := false, refused := false, saved := [], halted := false, off := false }

/-- PARTITION_DESTROY (R388). -/
def execPartitionDestroy (pid : Nat) (s : State) : Host.Outcome State Fault Refusal :=
  .next { s with chip := s.chip.destroyPartition pid }

/-! ## Pre-emption and resume (R385, R413) -/

/-- Every slot of a cluster vacated (R161, R385). -/
def Chip.vacateCluster (h : Chip) (v : Nat) : Chip :=
  (List.range 8).foldl (fun h c => ((List.range 16).drop 1).foldl (fun h t => h.preempt ⟨v, c, t⟩) h) h

/-- A pre-emption of a partition (R385). -/
def Chip.partitionPreempt (h : Chip) (pid : Nat) : Chip :=
  let q := h.part pid
  if !q.active ∨ q.off then h
  else
    let h := q.vcns.foldl (fun h v => if h.present pid v then h.vacateCluster v else h) h
    h.modPart pid fun q => { q with off := true }

/-- PARTITION_PREEMPT (R385). -/
def execPartitionPreempt (pid : Nat) (s : State) : Host.Outcome State Fault Refusal :=
  .next { s with chip := s.chip.partitionPreempt pid }

/-- A cluster's state exchanged for the partition's own: the holder's is saved, and the partition's comes back; a
partition that never held it finds it as cluster reset leaves it (R385, R437, log 20). -/
def Chip.swapIn (h : Chip) (pid v : Nat) : Chip :=
  let k := h.cluster v
  match k.pid with
  | some p =>
    if p = pid then h
    else
      let h := h.modPart p fun q => { q with saved := q.saved.put v k }
      match (h.part pid).saved.get v with
      | some own => ({ h with clusters := h.clusters.put v own }).modPart pid fun q => { q with saved := q.saved.erase v }
      | none => { h with clusters := h.clusters.put v {} }.giveCluster pid v
  | none =>
    match (h.part pid).saved.get v with
    | some own => ({ h with clusters := h.clusters.put v own }).modPart pid fun q => { q with saved := q.saved.erase v }
    | none => h.giveCluster pid v

/-- A partition can be resumed: no active partition that runs holds one of its clusters. -/
def Chip.mayResume (h : Chip) (pid : Nat) : Bool :=
  let q := h.part pid
  q.active && q.off && (h.sharers pid).all fun p => (h.part p).off

/-- A vacated partition resumed (R385, R413). -/
def Chip.partitionResume (h : Chip) (pid : Nat) : Chip :=
  if !h.mayResume pid then h
  else
    let h := (h.part pid).vcns.foldl (fun h v => h.swapIn pid v) h
    h.modPart pid fun q => { q with off := false }

/-- PARTITION_RESUME (R413). -/
def execPartitionResume (pid : Nat) (s : State) : Host.Outcome State Fault Refusal :=
  .next { s with chip := s.chip.partitionResume pid }

/-! ## The events of a core's slots (R144, R145, R160, R161) -/

/-- DISPLACE (R144). -/
def execDisplace (v : Nat) (c : Nat) (s : State) : Host.Outcome State Fault Refusal :=
  .next { s with chip := s.chip.displace v c }

/-- BARRIER_YIELD (R145). -/
def execBarrierYield (v : Nat) (c : Nat) (s : State) : Host.Outcome State Fault Refusal :=
  .next { s with chip := s.chip.barrierYield v c }

/-- A write of CPRE; none where it is refused (R160). -/
def Chip.cpre (h : Chip) (v c : Nat) (x : Word) : Option Chip :=
  let ts := (List.range 16).filter fun t => x.getLsbD t
  let empty := ts.any fun t =>
    match h.slot ⟨v, c, t⟩ with
    | .free => true
    | .ended .. => true
    | _ => false
  -- the halves of a screened pair leave together (R167)
  let pair := fun t : Nat => if (h.core v c).screened ∧ 8 ≤ t then t - 8 else t
  if x.getLsbD 0 ∨ bits x 16 48 ≠ 0 ∨ empty then none else some (h.vacate v c ((ts.map pair).filter (· ≠ 0)))

/-- CPRE_WRITE (R160). -/
def execCpreWrite (v : Nat) (c : Nat) (x : BitVec 64) (s : State) : Host.Outcome State Fault Refusal :=
  .next { s with chip := (s.chip.cpre v c x).getD s.chip }

/-- VACATE_COMPLETE (R161): a slot whose vacate is in progress is freed. -/
def execVacateComplete (v : Nat) (c : Nat) (slot : Nat) (s : State) : Host.Outcome State Fault Refusal :=
  let h := s.chip
  .next { s with chip :=
    if (h.core v c).vacating.contains slot && !(h.core v c).stopped then h.preempt ⟨v, c, slot⟩ else h }

/-- CONTEXT_WRITEBACK (R161): the oldest saved context leaves the context cache when fewer than 8 of its 64 entries are
free. -/
def execContextWriteback (v : Nat) (s : State) : Host.Outcome State Fault Refusal :=
  let h := s.chip
  let ps := (h.cluster v).parked
  match ps.find? (·.cached) with
  | some q =>
    if 64 - cacheUse ps < 8 then
      .next { s with chip := h.modCluster v fun k => { k with parked := k.parked.map fun x =>
        if x.thread.uid = q.thread.uid then { x with cached := false } else x } }
    else .next s
  | none => .next s

end Sys2Proof.Machine
end

