-- ==== Sys2Proof/Machine/Image.lean ====
section
/-! DEFINITION. Cairns of clusters (R397 to R400), and flash images of a partition: taken at a cairn point and restored from
(R403, R435, R436). -/

namespace Sys2Proof.Machine

/-! ## Cairns (R398, R399) -/

/-- A scratch line as a cairn records it: without what uncommitted writers wrote, whose first undo record tells; rts as it stands
(R399). -/
def Cluster.pointLine (k : Cluster) (l : Nat) : CairnLine :=
  let now := k.tags.getOr l {}
  let undo := (sortBy (fun (a b : LogEntry) => decide (a.seq ≤ b.seq)) k.log).findSome? fun e =>
    match e.body with
    | .undo m bs g => if m = l then some (⟨bs, { g with rts := now.rts }⟩ : CairnLine) else none
    | _ => none
  undo.getD ⟨k.scratch.readBytes (64 * l) 64, now⟩

/-- The lines of the SCRATCH, SCRATCH-T, FIFO and LOG banks that hold anything, or that `old` records. -/
def Cluster.pointLines (k : Cluster) (old : Map CairnLine) : List Nat :=
  let all := (k.scratch.map fun c => c.1 / 64) ++ k.tags.map (·.1) ++ old.map (·.1)
  (all.foldl addOnce []).filter fun l => decide (k.mode (l / 1024) ≠ .cache ∧ k.mode (l / 1024) ≠ .cairn)

/-- The contexts of a cluster's quiet threads, in slots or parked; of a screened pair, both halves. -/
def Cluster.quietContexts (k : Cluster) (v : Nat) : List Parked :=
  (k.cores.flatMap fun c => c.2.slots.filterMap fun s =>
    let trail := match c.2.slot v c.1 (s.1 + 8) with
      | .trailing u q => if s.1 < 8 then some (u, saveFile u c.2.file, q) else none
      | _ => none
    let save := fun t : Thread =>
      if t.isTask && t.quiet then some { thread := t, regs := saveFile t c.2.file, core := c.1, seq := 0, trail := trail } else none
    match c.2.slot v c.1 s.1 with
    | .live t => save t
    | .halted t => save t
    | _ => none) ++ k.parked.filter fun q => q.thread.quiet

/-- The cairn of a cluster at a point of virtual time `vt` (R398, R399): its line records are laid over those of the point
before. -/
def Chip.newCairn (h : Chip) (v vt partner seq : Nat) : Cairn :=
  let k := h.cluster v
  let old : Map CairnLine := ((k.cairnNext.or k.cairn).map (·.lines)).getD []
  let now := (k.pointLines old).map fun l => (l, k.pointLine l)
  let quiet := k.quietContexts v
  let kept := fun (x : Header) => (h.task? x.message.sender).isNone
  let settled := fun (a : Anti) => !h.tasks.any fun t => decide (t.2.pid = a.pid ∧ !t.2.packet.quiet ∧ t.2.packet.stamp = a.sender)
  { v := v, vt := vt, partner := partner, seq := seq, banks := k.banks, screen := k.screen, checked := k.checked
    common := k.cores.map fun c => (c.1, c.2.common)
    handlers := k.handlers
    lines := now.foldl (fun m x => m.put x.1 x.2) []
    changed := (now.filter fun x => decide (Map.get old x.1 ≠ some x.2)).map (·.1)
    quiet := quiet
    claims := k.claims.filter fun c => quiet.any fun q => decide (q.thread.uid = c.uid)
    gangs := k.gangs
    pending := (k.pending.filter kept).map fun x => { x with task := none }
    orphans := k.orphans.filter settled, annihilated := k.annihilated.filter settled }

/-! ## Flash images -/

/-- The partition as it stands (R436). -/
def Chip.snapshot (h : Chip) (pid vt : Nat) : FlashImage :=
  { vt := vt, part := h.part pid
    clusters := h.clusters.filter fun k => k.2.pid == some pid
    tasks := h.tasks.filter fun t => decide (t.2.pid = pid)
    flights := h.flights.filter fun f => decide (h.packetPid f.2.body = pid)
    shadows := h.shadows.filter fun x => decide (((h.task? x.uid).map (·.pid)) = some pid)
    hbm := h.hbm }

/-- The device address ranges of the partition's PRIVATE and COHERENT pages, publication records and backings (R319,
R436), from its page tables: first address and length. -/
def Chip.pagesOf (h : Chip) (pid : Nat) : List (Nat × Nat) :=
  (h.entriesOf pid).flatMap fun e =>
    let leaf := e.2.2
    if !entryLeaf leaf || (leafFault e.1 leaf).isSome then []
    else if entryPub leaf then
      let r := entryAddr leaf
      (r, 64) :: (List.range (h.pubNb r)).map fun n => (h.backing r n, h.pubSize r)
    else if entryAttr leaf = .priv ∨ entryAttr leaf = .coherent then [(entryAddr leaf, leafSize e.1)]
    else []

/-- Bytes of some ranges taken from another memory. -/
def Mem.takeRanges (m from_ : Mem) (rs : List (Nat × Nat)) : Mem :=
  let inside := fun a : Nat => rs.any fun r => decide (r.1 ≤ a ∧ a < r.1 + r.2)
  (from_.filter fun c => inside c.1).foldl (fun m c => m.write c.1 c.2) (m.filter fun c => !inside c.1)

/-- The host made the launch: through window A, or at the roped partner (R433). -/
def LaunchReq.host (r : LaunchReq) : Bool := r.slot.isSome || r.forwarded

/-- The launches that the command processor has still to take in when a partition is restored from an image: those of its tasks
that the image holds, those of the host that were accepted since, and those not yet taken in (R3, R403). -/
def relaunch (image now : Partition) : List LaunchReq :=
  image.reqs.filter (!·.host) ++ (now.launched.filter fun x => decide (image.lnum < x.1)).map (·.2) ++ now.reqs.filter (·.host)

/-- Bytes that the host wrote through window B laid over the partition's pages (R337). -/
def Chip.layWrites (h : Chip) (pid : Nat) (ws : List (Nat × List Byte)) : Chip :=
  let rs := h.pagesOf pid
  ws.foldl (fun h w =>
    (List.range w.2.length).foldl (fun h i =>
      let a := w.1 + i
      if rs.any fun r => decide (r.1 ≤ a ∧ a < r.1 + r.2) then { h with hbm := h.hbm.write a (w.2.getD i 0) } else h) h) h

/-- A host write through window B kept by the partitions that write flash images: a restore lays it over the memory again (R337,
R403). -/
def Chip.keepHostWrite (h : Chip) (a : Nat) (bs : List Byte) : Chip :=
  { h with parts := h.parts.each fun _ q =>
      if q.active ∧ cairnF q.cairn ≠ 0 then { q with hostWrites := q.hostWrites ++ [(a, bs)] } else q }

/-- A cluster as an image holds it, on the physical cluster as it stands now. -/
def Cluster.restored (k now : Cluster) : Cluster :=
  { k with paused := now.paused, stopped := now.stopped, holding := now.holding, mismatch := none, lastMin := none, late := []
           cutNo := now.cutNo }

/-- A group as an image holds it; of one that was not active then, the table entry is the host's (R371). -/
def Group.restored (g now : Group) : Group :=
  if g.state = 1 then g
  else { g with banks := now.banks, vcn0 := now.vcn0, vcnn := now.vcnn, flags := now.flags, arrive := now.arrive }

/-- The partition's running state as an image holds it, under its present controls. Launches that were DONE, and whose work the
restore has undone, come before later ones again (R339). -/
def Partition.restored (now i : Partition) (saved : Map Cluster) : Partition :=
  let host := fun xs : List LaunchJob => (xs.filter (·.host)).map (·.orig)
  let undone := host i.jobs ++ (now.launched.filter fun x => decide (i.lnum < x.1)).filterMap (·.2.first)
  { now with
    gvt := i.gvt, lastVt := i.lastVt, points := i.points, lnum := i.lnum, jobs := i.jobs, irvs := i.irvs, run := i.run
    groups := (i.groups.map fun g => (g.1, g.2.restored (now.groups.getOr g.1 {}))) ++
      now.groups.filterMap fun g =>
        if (i.groups.get g.1).isSome then none else some (g.1, Group.restored {} g.2)
    saved := saved, ropeItems := i.ropeItems, round := none, candidate := none, reports := [], remoteCandidates := [], remoteStops := []
    reqs := relaunch i now, launched := now.launched.filter fun x => decide (x.1 ≤ i.lnum)
    owed := now.owed || !now.hostWrites.isEmpty, redone := now.redone ++ undone.filter fun n => !(host now.jobs).contains n }

/-- The partition put back as an image holds it; what was released to the host since is not performed again (R403). The
uncommitted non-quiet tasks of the image re-run, and the launches accepted since are accepted again. -/
def Chip.restoreImage (h : Chip) (pid : Nat) (i : FlashImage) : Chip :=
  let now := h.part pid
  let rs := h.pagesOf pid
  let here := (i.clusters ++ i.part.saved).filter fun k => h.present pid k.1
  let away := (i.clusters ++ i.part.saved).filter fun k => !h.present pid k.1
  let saved : Map Cluster := away.foldl (fun m k => m.put k.1 (k.2.restored (now.saved.getOr k.1 {}))) []
  let q := now.restored i.part saved
  let q := { q with groups := q.groups.foldl (fun (m : Map Group) g => m.put g.1 g.2) [] }
  let h : Chip := { h with
    clusters := here.foldl (fun m k => m.put k.1 (k.2.restored (h.cluster k.1))) h.clusters
    tasks := i.tasks.foldl (fun m t => m.put t.1 t.2) (h.tasks.filter fun t => decide (t.2.pid ≠ pid))
    flights := i.flights.foldl (fun m f => m.put f.1 f.2) (h.flights.filter fun f => decide (h.packetPid f.2.body ≠ pid))
    shadows := h.shadows.filter (fun x => decide (((h.task? x.uid).map (·.pid)) ≠ some pid)) ++ i.shadows
    hbm := h.hbm.takeRanges i.hbm rs
    parts := h.parts.put pid q }
  h.abortTasks ((i.tasks.filter fun t => !t.2.packet.quiet).map (·.1)) []

/-- A machine-check record (R414): CODE 0 where the rule names none (log 49). -/
def Chip.machineCheck (h : Chip) (r : Restore) (cls target count : Nat) (vt : Nat) : Chip :=
  let n := h.regs.getOr 0x1490 0
  let bytes := wordBytes 8 n ++ natToBytes 1 r.code ++ natToBytes 1 cls ++ natToBytes 2 r.v ++ natToBytes 2 r.failed ++
    natToBytes 2 target ++ natToBytes 8 r.time ++ natToBytes 1 r.core ++ natToBytes 1 r.slot ++ wordBytes 2 (r.detail.zeroExtend 64) ++
    natToBytes 2 r.before.toNat ++ natToBytes 2 r.after.toNat ++ natToBytes 8 vt ++ natToBytes 8 count ++ wordBytes 8 r.gvt ++
    wordBytes 8 r.detail2
  { h with regs := h.regs.put 0x1490 (n + 1) }.record 1 bytes

/-- A bounded partition that goes on from a flash image: the fault is reported for the launches that run there (R4, R405). -/
def Chip.reportBounded (h : Chip) (pid : Nat) : Chip :=
  let q := h.part pid
  if q.bounded && !q.halted && q.jobs.any (·.bounded) then
    h.machineCheck { v := q.vcns.headD 0, failed := 0xFFFF, time := h.now, gvt := q.gvt.getD (BitVec.allOnes 64) } 2 0xFFFF 0 0
  else h

/-- The partition restored from its last flash image, or halted with a reported fault where it has none (R403, R405). -/
def Chip.fallBack (h : Chip) (pid v : Nat) : Chip :=
  match h.images.get (2 * pid) with
  | some i => if cairnF (h.part pid).cairn = 0 then h.haltPartition 3 pid v else h.restoreImage pid i
  | none => h.haltPartition 3 pid v

/-- An image begun at a cairn point (R436). -/
def Chip.beginImage (h : Chip) (pid vt : Nat) : Chip :=
  let i := h.snapshot pid vt
  { h with images := h.images.put (2 * pid + 1) i }.modPart pid fun q => { q with imageBusy := true }

/-- The images of a partition with intervals still to agree, and the latest whose intervals all agreed (R435). -/
def Partition.keeps (q : Partition) (is : List FlashImage) : List FlashImage :=
  let agreed := fun i : FlashImage => decide (i.vt ≤ q.ropeAgreed * cairnInterval q.cairn)
  is.takeWhile (fun i => !agreed i) ++ (is.find? agreed).toList

/-- The words of an image as KIND 8 frames carry it: the scratch bytes of its clusters by cluster and offset, and the bytes of the
partition's pages, each after its address (R436; log 70). -/
def Chip.imageWords (h : Chip) (pid : Nat) (i : FlashImage) : List Word :=
  let rs := h.pagesOf pid
  let scratch := i.clusters.flatMap fun k => k.2.scratch.flatMap fun c => [BitVec.ofNat 64 (k.1 * 2 ^ 21 + c.1), c.2.zeroExtend 64]
  let lines := i.hbm.filter fun c => rs.any fun r => decide (r.1 ≤ c.1 ∧ c.1 < r.1 + r.2)
  scratch ++ lines.flatMap fun c => [BitVec.ofNat 64 c.1, c.2.zeroExtend 64]

/-- FLASH_IMAGE_WRITTEN (R436): every S-th image goes to the shared store too. -/
def execFlashImageWritten (pid : Nat) (s : State) : Host.Outcome State Fault Refusal :=
  let h := s.chip
  match h.images.get (2 * pid + 1) with
  | none => .next s
  | some i =>
    let q := h.part pid
    let before := if q.roped then (h.images.get (2 * pid)).toList ++ h.older.getOr pid [] else []
    let kept := (q.keeps (i :: before)).drop 1
    let oldest := (kept.getLast?).getD i
    let h : Chip := { h with images := (h.images.erase (2 * pid + 1)).put (2 * pid) i, older := h.older.put pid kept }
    let n := (h.part pid).imagesTaken + 1
    let S := cairnS (h.part pid).cairn
    let due := decide (S ≠ 0 ∧ h.reg 0x4C4 ≠ 0) && decide (n % S = 0)
    .next { s with chip := h.modPart pid fun q =>
      { q with
        imageBusy := false, imagesTaken := n, imageVt := if due then some i.vt else q.imageVt
        launched := q.launched.filter fun x => decide (oldest.part.lnum < x.1) } }

/-- The shared store's number as a destination of frames: no package has it (R427, R436; log 70). -/
def storePackage : Nat := 256

/-- IMAGE_DATA_FRAME (R436): the image is sent to the store at FSTORE. -/
def execImageDataFrame (pid : Nat) (s : State) : Host.Outcome State Fault Refusal :=
  let h := s.chip
  match (h.part pid).imageVt with
  | none => .next s
  | some vt =>
    let data := match h.images.get (2 * pid) with
      | some i => if i.vt = vt then h.imageWords pid i else []
      | none => []
    .next { s with chip := (h.sendFrame 8 pid storePackage (h.reg 0x4C4 :: BitVec.ofNat 64 vt :: data)).modPart pid fun q =>
      { q with imageVt := none } }

/-- CAIRN_ACKNOWLEDGE (R400): the partner holds the new point. -/
def execCairnAcknowledge (v : Nat) (s : State) : Host.Outcome State Fault Refusal :=
  .next { s with chip := s.chip.modCluster v fun k =>
    match k.cairnNext with
    | some c => { k with cairn := some c, cairnNext := none, inputs := k.inputsNext, inputsNext := [] }
    | none => k }

end Sys2Proof.Machine
end

