-- ==== Sys2Proof/Machine/Sha3.lean ====
section
/-! DEFINITION. SHA3-256, which the rope digests are made with (R433): the hash of FIPS 202, which the spec names. -/

namespace Sys2Proof.Machine

/-- The rotation of each lane in the step rho; lane (x, y) stands at x + 5y. -/
def sha3Rotations : List Nat :=
  [0, 1, 62, 28, 27, 36, 44, 6, 55, 20, 3, 10, 43, 25, 39, 41, 45, 15, 21, 8, 18, 2, 61, 56, 14]

/-- The constants that the step iota adds to lane (0, 0), round by round. -/
def sha3Constants : List Word :=
  [0x0000000000000001#64, 0x0000000000008082#64, 0x800000000000808A#64, 0x8000000080008000#64, 0x000000000000808B#64, 0x0000000080000001#64,
   0x8000000080008081#64, 0x8000000000008009#64, 0x000000000000008A#64, 0x0000000000000088#64, 0x0000000080008009#64, 0x000000008000000A#64,
   0x000000008000808B#64, 0x800000000000008B#64, 0x8000000000008089#64, 0x8000000000008003#64, 0x8000000000008002#64, 0x8000000000000080#64,
   0x000000000000800A#64, 0x800000008000000A#64, 0x8000000080008081#64, 0x8000000000008080#64, 0x0000000080000001#64, 0x8000000080008008#64]

/-- A list of 25 lanes by a function of x and y. -/
def lanes25 (f : Nat → Nat → Word) : List Word := (List.range 25).map fun i => f (i % 5) (i / 5)

/-- One round of the permutation. -/
def sha3Round (a : List Word) (rc : Word) : List Word :=
  let at_ := fun (l : List Word) x y => l.getD (x % 5 + 5 * (y % 5)) 0
  let c := (List.range 5).map fun x => (List.range 5).foldl (fun w y => w ^^^ at_ a x y) 0
  let theta := lanes25 fun x y => at_ a x y ^^^ c.getD ((x + 4) % 5) 0 ^^^ (c.getD ((x + 1) % 5) 0).rotateLeft 1
  -- the lane that rho and pi bring to (x, y) comes from column x + 3y of row x
  let b := lanes25 fun x y => (at_ theta (x + 3 * y) x).rotateLeft (sha3Rotations.getD ((x + 3 * y) % 5 + 5 * x) 0)
  lanes25 fun x y => (at_ b x y ^^^ (~~~ at_ b (x + 1) y &&& at_ b (x + 2) y)) ^^^ (if x = 0 ∧ y = 0 then rc else 0)

/-- A block of 136 bytes taken in. -/
def sha3Absorb (a : List Word) (block : List Byte) : List Word :=
  let word := fun i => BitVec.ofNat 64 (bytesToNat ((block.drop (8 * i)).take 8))
  sha3Constants.foldl sha3Round ((List.range 25).map fun i => a.getD i 0 ^^^ (if i < 17 then word i else 0))

/-- The SHA3-256 digest of some bytes, its first byte lowest. -/
def sha3 (bs : List Byte) : BitVec 256 :=
  let fill := 135 - bs.length % 136
  let padded := bs ++ (if fill = 0 then [0x86#8] else 0x06#8 :: (List.replicate (fill - 1) 0#8 ++ [0x80#8]))
  let a := (List.range (padded.length / 136)).foldl (fun a n => sha3Absorb a ((padded.drop (136 * n)).take 136)) (List.replicate 25 0)
  a.getD 3 0 ++ a.getD 2 0 ++ a.getD 1 0 ++ a.getD 0 0

end Sys2Proof.Machine
end

