-- ==== Sys2Proof/Machine/Gvt.lean ====
section
/-! DEFINITION. Virtual time: GVT rounds (R356), the commit phase (R357, R332 to R336, R83, R84, R278, R279), cairn points
(R398), digests of roped partitions (R433), and irrevocable actions (R361). -/

namespace Sys2Proof.Machine

/-- All ones: no stamp. -/
def noStamp : Word := BitVec.allOnes 64

/-- The least of some stamps; all ones where there is none. -/
def leastStamp (xs : List Word) : Word := xs.foldl (fun m x => if x.ult m then x else m) noStamp

/-! ## Reports (R356) -/

/-- The least stamps of the launches that the command processor must still take in: those of devices, and those of the run under way
that a restore takes in again. -/
def Partition.requestStamps (q : Partition) : List Word :=
  (q.reqs.filter fun r => !r.host || decide (r.run = some q.run)).map fun r => indexStamp r.record 0

/-- The least stamps of launches that are not placed: requests and chunks still held. -/
def Partition.unplacedStamps (q : Partition) : List Word :=
  q.requestStamps ++ q.jobs.flatMap fun j => j.unplaced.map fun c => indexStamp j.record (64 * c)

/-- The stamps of the messages not handed over and of the orphan anti-messages of a partition that a cluster holds. -/
def Cluster.heldStamps (k : Cluster) (pid : Nat) : List Word :=
  (k.pending.filterMap fun x => if x.task.isNone && decide (x.message.pid = pid) then some x.message.stamp else none) ++
    (k.orphans.filter fun a => decide (a.pid = pid)).map (·.stamp)

/-- The stamps that cluster v reports at its cut, as it stands. -/
def Chip.reportOf (h : Chip) (pid v : Nat) : List Word :=
  let k := h.cluster v
  (h.tasks.filterMap fun t =>
      if t.2.pid = pid ∧ t.2.packet.homeV = v ∧ (t.2.stage = .queued ∨ t.2.stage = .running) then some t.2.packet.stamp else none) ++
    (k.log.filterMap fun e =>
      match e.body with
      | .launch r _ _ => if (h.task? e.uid).map (·.pid) = some pid then some (indexStamp r 0) else none
      | _ => none) ++
    k.heldStamps pid ++ k.late ++
    (h.flights.filterMap fun f =>
      match f.2.body with
      | .message m => if m.srcV = v ∧ m.pid = pid then some m.stamp else none
      | .anti a => if a.srcV = v ∧ a.pid = pid then some a.stamp else none
      | .ack a d _ _ => if d = v ∧ a.pid = pid then some a.stamp else none
      | .publication m => if m.pid = pid then some m.stamp else none
      | _ => none) ++
    h.unacked.filterMap fun f =>
      if f.2.pid = pid ∧ (f.2.kind = 1 ∨ f.2.kind = 2) then f.2.body[3]?
      else if f.2.pid = pid ∧ f.2.kind = 4 then f.2.body[4]? else none

/-- The report of cluster v: between the remap of its rotation and its resume, the old physical cluster's last minimum and what the
new one holds (R447). -/
def Chip.reportAt (h : Chip) (pid v : Nat) : List Word :=
  let k := h.cluster v
  match k.lastMin with
  | some m => m :: k.heldStamps pid
  | none => h.reportOf pid v

/-- GVT_ROUND_START (R356, R431): at a multiple of the period, after the previous commit phase. -/
def Chip.roundStart (h : Chip) (pid : Nat) : Chip :=
  let q := h.part pid
  if !q.active ∨ q.halted ∨ q.off ∨ q.round.isSome ∨ h.now < q.nextRound then h
  else h.modPart pid fun q => { q with round := some [], candidate := none, reports := q.unplacedStamps, roundNo := q.roundNo + 1 }

/-- GVT_ROUND_START (R356). -/
def execGvtRoundStart (pid : Nat) (s : State) : Host.Outcome State Fault Refusal :=
  .next { s with chip := s.chip.roundStart pid }

/-- Every cluster of the partition has taken its cut. -/
def Partition.allCut (q : Partition) : Bool :=
  match q.round with
  | some vs => q.vcns.all vs.contains
  | none => false

/-- Packages of a multi-package partition other than this one (R428). -/
def Partition.others (q : Partition) : List Nat := (List.range (q.pkgCount + 1)).filter fun p => decide (p ≠ q.pkg)

/-- The value of every package is known. -/
def Partition.heard (q : Partition) (m : Map Word) : Bool := (List.range (q.pkgCount + 1)).all fun p => (m.get p).isSome

/-! ## The lazy writes of a task (R357) -/

/-- A lazy write: a drained line, a reduction, a publication, or a group reduction. -/
inductive Lazy where
  | drain (v pa : Nat) (coherent : Bool) (bytes : Map Byte)
  | red (v : Nat) (kind : RedKind) (global : Bool) (addr : Nat) (ea : Word) (y : Word)
  | publish (x : Shadow)
  | gred (gid : Nat) (x : Word)
  deriving DecidableEq, Repr

/-- Items with their sequence numbers, in that order. -/
def inOrder {α : Type} (xs : List (Nat × α)) : List α := (sortBy (fun (a b : Nat × α) => decide (a.1 ≤ b.1)) xs).map (·.2)

/-- The lazy writes of a task with their sequence numbers. -/
def Chip.lazySeqs (h : Chip) (uid : Nat) : List (Nat × Lazy) :=
  let written := h.clusters.flatMap fun k => k.2.log.filterMap fun e =>
    if e.uid ≠ uid then none
    else match e.body with
      | .redo pa c _ m => some (e.seq, Lazy.drain k.1 pa c m)
      | .red kd g a ea y => some (e.seq, .red k.1 kd g a ea y)
      | .gred g x => some (e.seq, .gred g x)
      | _ => none
  let published := h.shadows.filterMap fun x => if x.uid = uid then x.marked.map fun n => (n, Lazy.publish x) else none
  written ++ published

/-- The lazy writes of a task in program order (R357). -/
def Chip.lazies (h : Chip) (uid : Nat) : List Lazy := inOrder (h.lazySeqs uid)

/-- The tasks of a cluster whose signatures report a key, stamped above w. -/
def Chip.readersAbove (h : Chip) (v key : Nat) (w : Word) : List Nat :=
  (h.cluster v).sigs.filterMap fun s => if sigHolds s.lines key && w.ult (h.stampOf s.uid) then some s.uid else none

/-- The uncommitted writers of a tracked line stamped above w: each has an undo record for it (R187, R188). -/
def Chip.writersAbove (h : Chip) (v line : Nat) (w : Word) : List Nat :=
  (h.cluster v).log.filterMap fun e =>
    match e.body with
    | .undo l _ _ => if l = line ∧ w.ult (h.stampOf e.uid) then some e.uid else none
    | _ => none

/-- The tasks that a lazy write at stamp w aborts: later readers at the clusters it notifies, later writers and readers of
a tracked line, later readers of a buffer (R84, R279, R333). -/
def Chip.victims (h : Chip) (pid : Nat) (w : Word) : Lazy → List Nat
  | .drain _ pa true _ => (h.noticeTargets pid (pa / 64) (some w)).flatMap fun v => h.readersAbove v (coherentKey (pa / 64)) w
  | .drain _ _ false _ => []
  | .red _ _ true a _ _ => (h.noticeTargets pid (a / 64) (some w)).flatMap fun v => h.readersAbove v (coherentKey (a / 64)) w
  | .red v _ false a _ _ => h.writersAbove v (a / 64) w ++ h.readersAbove v (scratchKey (a / 64)) w
  | .publish x => h.clusters.flatMap fun k => h.readersAbove k.1 (bufferKey x.record) w
  | .gred .. => []

/-- Another uncommitted task of this stamp meets the object of a lazy write (R346): the line or base address. -/
def Chip.lazyDup (h : Chip) (uid : Nat) (w : Word) (x : Lazy) : Option Word :=
  let twin := fun u => decide (u ≠ uid) && (h.task? u).isSome && h.stampOf u == w
  let read := fun (k : Cluster) (key : Nat) => k.sigs.any fun s => twin s.uid && s.lines.contains key
  let wrote := fun (k : Cluster) (f : LogRec → Bool) => k.log.any fun e => twin e.uid && f e.body
  let global := fun pa : Nat => h.clusters.any fun k => read k.2 (coherentKey (pa / 64)) || wrote k.2 fun r =>
    match r with
    | .redo l true _ _ => l / 64 == pa / 64
    | .red _ true a _ _ => a / 64 == pa / 64
    | _ => false
  match x with
  | .drain _ pa true _ =>
    let ea := (h.recordsOf uid).findSome? fun e => match e.body with | .redo l _ va _ => if l = pa then some va else none | _ => none
    if global pa then some (ea.getD 0) else none
  | .red _ _ true a ea _ => if global a then some (ea &&& ~~~0x3F#64) else none
  | .red v _ false a _ _ =>
    if read (h.cluster v) (scratchKey (a / 64)) || wrote (h.cluster v) (fun r =>
        match r with
        | .undo l _ _ => l == a / 64
        | .red _ false b _ _ => b / 64 == a / 64
        | _ => false) then some (lineAddr v (a / 64)) else none
  | .publish y =>
    if h.clusters.any (fun k => read k.2 (bufferKey y.record)) ||
        h.shadows.any (fun z => z.marked.isSome && twin z.uid && z.record == y.record) then some (BitVec.ofNat 64 y.base) else none
  | _ => none

/-- Bytes of a redo record written, run by run of one byte. -/
def drainBytes (f : Chip → Nat → Byte → Chip) (h : Chip) (pa : Nat) (m : Map Byte) : Chip :=
  m.foldl (fun h e => f h (pa + e.1) e.2) h

/-- One lazy write performed at stamp w: its notices first (R332, R333), then its value. -/
def Chip.performLazy (h : Chip) (pid : Nat) (w : Word) (x : Lazy) : Chip :=
  match x with
  | .drain v pa true m =>
    let h := (h.noticeTargets pid (pa / 64) (some w)).foldl (fun h t => h.performNotice t (pa / 64) (some w) false) h
    (drainBytes (fun h a b => (h.writeHome a [b]).modCluster v fun k => k.updateCache a [b]) h pa m).raiseDir (pa / 64) w
  | .drain v pa false m =>
    drainBytes (fun h a b => (h.writePrivate a [b]).modCluster v fun k => k.updateCache a [b]) h pa m
  | .red v kd true a _ y =>
    let h := (h.noticeTargets pid (a / 64) (some w)).foldl (fun h t => h.performNotice t (a / 64) (some w) false) h
    let bs := kd.apply (h.hbm.readBytes a kd.size) y
    ((h.writeHome a bs).modCluster v fun k => k.updateCache a bs).raiseDir (a / 64) w
  | .red v kd false a _ y =>
    let us := h.victims pid w x
    let h := if us = [] then h else h.abortTasks us []
    h.putScratch v a (kd.apply (h.scratchBytes v a kd.size) y)
  | .publish y =>
    let us := h.victims pid w x
    let h := if us = [] then h else h.abortTasks us []
    { h with hbm := h.hbm.write (y.record + 16) (BitVec.ofNat 8 y.backing) }
  | .gred g x => h.modGroup pid g fun k => k.contribute x

/-! ## The digest of a roped partition (R433) -/

/-- Words of bytes, for the digest. -/
def bytesWords (bs : List Byte) : List Word := bs.map fun b => b.zeroExtend 64

/-- The four words of a digest. -/
def digestWords (d : BitVec 256) : List Word := (List.range 4).map fun i => d.extractLsb' (64 * i) 64

/-- The kinds of reductions and of IRVs as digest items name them (R433; their serialisation is open). -/
def RedKind.word : RedKind → Word
  | .add => 0
  | .or => 1
  | .min => 2
  | .max => 3
  | .faddS => 4
def IrvKind.word : IrvKind → Word
  | .host => 1
  | .flash => 2
  | .db => 3

/-- The digest items of one lazy write. -/
def Chip.ropeItem (h : Chip) : Lazy → List Word
  | .drain _ pa _ m => BitVec.ofNat 64 pa :: m.flatMap fun e => [BitVec.ofNat 64 e.1, e.2.zeroExtend 64]
  | .red _ k _ a ea y => [k.word, BitVec.ofNat 64 a, ea, y]
  | .publish x => BitVec.ofNat 64 x.base :: digestWords (sha3 (h.hbm.readBytes (h.backing x.record x.backing) (h.pubSize x.record)))
  | .gred g x => [BitVec.ofNat 64 g, x]

/-- The digest items of a committing task, in program order (R433). -/
def Chip.ropeAdd (h : Chip) (pid uid : Nat) (w : Word) : Chip :=
  let q := h.part pid
  let c := cairnInterval q.cairn
  if !q.roped ∨ c = 0 then h
  else
    let irvs := (h.recordsOf uid).filterMap fun e =>
      match e.body with
      | .irv k a y bs => some (e.seq, k.word :: BitVec.ofNat 64 a :: y :: bytesWords bs)
      | _ => none
    let k := bits w 24 40 / c
    let items := w :: (inOrder (((h.lazySeqs uid).map fun x => (x.1, h.ropeItem x.2)) ++ irvs)).flatten
    h.modPart pid fun q => { q with ropeItems := q.ropeItems.put k (q.ropeItems.getOr k [] ++ items) }

/-! ## Commit (R357) -/

/-- The bit of a launched task cleared in its chunk's mask (R308). -/
def clearMask (t : Task) (j : LaunchJob) : LaunchJob :=
  if some j.lnum = t.launch ∧ t.packet.origin = .launch then
    let s := t.packet.stamp
    let i := (bits s 24 40 - recordField j.record 16 5) * 2 ^ 24 + bits s 0 24
    { j with masks := j.masks.put (i / 64) (j.masks.getOr (i / 64) 0 &&& ~~~(1#64 <<< (i % 64))) }
  else j

/-- The tags a committing task leaves: its lines no longer have an uncommitted writer, nor do the undo records of later
writers say so (R187, R329). -/
def Cluster.settleTags (k : Cluster) (uid : Nat) : Cluster :=
  let clear := fun g : LineTag => if g.writer = uid then { g with u := false } else g
  { k with
    tags := k.tags.each fun _ g => clear g
    log := k.log.map fun e =>
      match e.body with
      | .undo l bs g => { e with body := .undo l bs (clear g) }
      | _ => e }

/-- What a committed task frees at a cluster: its records but those of its LAUNCHes, signature, TAKEN header (R357). Its packet goes
into the input logs of its home (R400). -/
def Cluster.freeTask (k : Cluster) (uid : Nat) (home : List Packet) : Cluster :=
  let k := k.settleTags uid
  { k with
    log := k.log.filter fun e => decide (e.uid ≠ uid) || (match e.body with | .launch .. => true | _ => false)
    sigs := k.sigs.filter fun s => decide (s.uid ≠ uid)
    pending := k.pending.filter fun x => decide (x.task ≠ some uid)
    inputs := if k.cairn.isSome then k.inputs ++ home else k.inputs
    inputsNext := if k.cairnNext.isSome then k.inputsNext ++ home else k.inputsNext }

/-- The IRVs of a committing task in program order. -/
def Chip.irvsOf (h : Chip) (pid uid : Nat) (w : Word) : List IrvItem :=
  inOrder ((h.recordsOf uid).filterMap fun e =>
    match e.body with
    | .irv k a y bs => some (e.seq, { stamp := w, kind := k, addr := a, y := y, payload := bs, run := (h.part pid).run })
    | _ => none)

/-- A task whose lazy writes are performed is committed (R357). -/
def Chip.finishCommit (h : Chip) (pid uid : Nat) (t : Task) : Chip :=
  let w := t.packet.stamp
  let irvs := h.irvsOf pid uid w
  let h : Chip := { h with
    clusters := h.clusters.each fun v k => k.freeTask uid (if v = t.packet.homeV then [t.packet] else [])
    shadows := h.shadows.filter fun x => decide (x.uid ≠ uid) }
  let h := h.modPart pid fun q => { q with irvs := q.irvs ++ irvs, jobs := q.jobs.map (clearMask t) }
  let h := h.handLaunches pid uid
  let h := match t.exitCode with
    | some c => h.noteAbort pid t.packet.grps w c
    | none => h
  let h := h.leaveGroups pid uid t.packet.grps
  { h with tasks := h.tasks.erase uid }.launchLive pid t.launch false

/-- How a commit phase ends. -/
structure Commit where
  chip : Chip
  /-- the stamp the round stopped at -/
  stop : Option Word := none
  deriving DecidableEq, Repr

/-- The least stamp of the committing set among some aborted tasks. -/
def stopAt (set : List (Nat × Task)) (us : List Nat) (old : Option Word) : Option Word :=
  let xs := (set.filter fun t => us.contains t.1).map fun t => t.2.packet.stamp
  match old, xs with
  | o, [] => o
  | none, xs => some (leastStamp xs)
  | some o, xs => some (leastStamp (o :: xs))

/-- The committing set committed in stamp order; a lazy write that aborts a task of the set stops the round there, and an
EDUPSTAMP stops the partition (R346, R357). -/
def Chip.commitAll (h : Chip) (pid : Nat) (set : List (Nat × Task)) : List (Nat × Task) → Option Word → Commit
  | [], stop => { chip := h, stop := stop }
  | (uid, t) :: rest, stop =>
    let w := t.packet.stamp
    if (match stop with | some u => !w.ult u | none => false) then { chip := h, stop := stop }
    else
      let xs := h.lazies uid
      -- the tasks of equal stamp in the set are looked at before the first of them commits (R346; log 71)
      let twins := uid :: (rest.filter fun y => decide (y.2.packet.stamp = w)).map (·.1)
      match twins.findSome? fun u => (h.lazies u).findSome? (h.lazyDup u w) with
      | some a => { chip := h.dupStamp pid t.packet.homeV w a, stop := some w }
      | none =>
        let h := h.ropeAdd pid uid w
        let (h, stop) := xs.foldl (fun (acc : Chip × Option Word) x =>
          let us := acc.1.closure acc.1.tasks.length (acc.1.victims pid w x)
          (acc.1.performLazy pid w x, stopAt set us acc.2)) (h, stop)
        (h.finishCommit pid uid t).commitAll pid set rest stop

/-- The ended tasks of the partition below a stamp, in stamp order. -/
def Chip.committingSet (h : Chip) (pid : Nat) (g : Word) : List (Nat × Task) :=
  sortBy (fun (a b : Nat × Task) => a.2.packet.stamp.ule b.2.packet.stamp) (h.tasks.filter fun t =>
    decide (t.2.pid = pid) && !t.2.packet.quiet && (decide (t.2.stage = .ended) || decide (t.2.stage = .selfAborted)) && t.2.packet.stamp.ult g)

/-- The least stamp of the committing set that a lazy write of the set would abort, found by testing (R431). -/
def Chip.stopTest (h : Chip) (pid : Nat) (g : Word) : Word :=
  let set := h.committingSet pid g
  let us := fun t : Nat × Task => h.closure h.tasks.length ((h.lazies t.1).flatMap (h.victims pid t.2.packet.stamp))
  ((set.foldl (fun stop t => stopAt set (us t) stop)) none).getD noStamp

/-- An engine command of a task that would commit is not complete (R265). -/
def Chip.commitHeld (h : Chip) (pid : Nat) (g : Word) : Bool :=
  (h.committingSet pid g).any fun t => decide (h.openCmds t.1 ≠ 0)

/-! ## Cairn points (R398) and rope intervals (R433) -/

/-- The round's GVT reached or passed a multiple of INTERVAL (R398). -/
def Partition.atPoint (q : Partition) (vt : Nat) : Bool :=
  let c := cairnInterval q.cairn
  decide (c ≠ 0) && match q.lastVt with
    | none => true
    | some l => decide (l ≠ vt / c * c)

/-- A cairn point (R398, R436). -/
def Chip.cairnPoint (h : Chip) (pid : Nat) : Chip :=
  let q := h.part pid
  -- the round that leaves the partition idle has GVT all ones, whose VT passes every multiple
  let vt := bits (q.gvt.getD (BitVec.allOnes 64)) 24 40
  let take := fun (h : Chip) (v m : Nat) =>
    match q.partners.get v with
    | some u =>
      let c := h.newCairn v m u (q.points + 1)
      h.modCluster v fun k => { k with cairnNext := some c, inputsNext := [], logFull := false }
    | none => h
  if !q.atPoint vt then
    -- the clusters whose input logs are full take an extra point (R400)
    (q.vcns.filter fun v => cairnInterval q.cairn ≠ 0 && (h.cluster v).logFull).foldl (fun h v => take h v vt) h
  else
    let m := vt / cairnInterval q.cairn * cairnInterval q.cairn
    let h := q.vcns.foldl (fun h v => take h v m) h
    let h := h.modPart pid fun q => { q with lastVt := some m, points := q.points + 1 }
    -- a roped partition may have to halt in the state of a point that agreed (R435)
    let h : Chip := if q.roped then
        { h with atPoints := h.atPoints.put pid ((h.part pid).keeps (h.snapshot pid m :: h.atPoints.getOr pid [])) }
      else h
    if cairnF q.cairn ≠ 0 ∧ (q.points + 1) % cairnF q.cairn = 0 ∧ !q.imageBusy then h.beginImage pid m else h

/-- The rope intervals that GVT has passed: of an idle partition, every interval that a task has committed in (log 60). -/
def Partition.ropePassed (q : Partition) : Nat :=
  match q.gvt with
  | some g => bits g 24 40 / cairnInterval q.cairn
  | none => q.ropeItems.foldl (fun n x => max n (x.1 + 1)) 0

/-- The digests of the rope intervals that GVT has passed, sent to the partner (R433). -/
def Chip.ropeClose (h : Chip) (pid : Nat) : Chip :=
  let q := h.part pid
  if !q.roped ∨ cairnInterval q.cairn = 0 then h
  else
    let first := q.ropeAgreed
    let ks := ((List.range (q.ropePassed - first)).map fun k => first + k).filter fun k => (q.ropeMine.get k).isNone
    ks.foldl (fun h k =>
      let d := sha3 (Config.ropeBytes ((h.part pid).ropeItems.getOr k []))
      let h := h.modPart pid fun q => { q with ropeMine := q.ropeMine.put k d }
      h.sendFrame 7 pid q.partner (BitVec.ofNat 64 k :: digestWords d)) h

/-- The latest flash image, where every interval up to it has agreed (R435). -/
def Chip.agreedImage (h : Chip) (pid : Nat) : Option FlashImage :=
  ((h.images.get (2 * pid)).toList ++ h.older.getOr pid []).find? fun i =>
    decide (i.vt ≤ (h.part pid).ropeAgreed * cairnInterval (h.part pid).cairn)

/-- The partition halted in the state of its last agreed cairn point, with a record of KIND 4 (R435). -/
def Chip.haltDiverged (h : Chip) (pid : Nat) : Chip :=
  let q := h.part pid
  let agreed := fun i : FlashImage => decide (i.vt ≤ q.ropeAgreed * cairnInterval q.cairn)
  let h := match (h.atPoints.getOr pid []).find? agreed with
    | some i => h.restoreImage pid i
    | none => h
  h.haltPartition 4 pid (q.vcns.headD 0)

/-- Two digests of an interval compared: an agreement advances the count, a difference is a divergence (R434, R435). -/
def Chip.ropeCompare (h : Chip) (pid : Nat) : Nat → Chip
  | 0 => h
  | n + 1 =>
    let q := h.part pid
    match (if q.diverged then none else q.ropeMine.get q.ropeAgreed), q.ropeTheirs.get q.ropeAgreed with
    | some a, some b =>
      if a = b then
        (h.modPart pid fun q => { q with
          ropeAgreed := q.ropeAgreed + 1, ropeItems := q.ropeItems.erase q.ropeAgreed
          ropeMine := q.ropeMine.erase q.ropeAgreed, ropeTheirs := q.ropeTheirs.erase q.ropeAgreed }).ropeCompare pid n
      else
        let h := (h.partitionPreempt pid).modPart pid fun q => { q with
          diverged := true, tie := some (q.ropeAgreed, a, b), ropeMine := [], ropeTheirs := [] }
        -- points of the diverging run are no agreed ones
        let h : Chip := { h with atPoints := h.atPoints.put pid ((h.atPoints.getOr pid []).filter fun i =>
          decide (i.vt ≤ q.ropeAgreed * cairnInterval q.cairn)) }
        match h.agreedImage pid with
        | some i => ((h.reportBounded pid).restoreImage pid i).modPart pid fun q => { q with off := false }
        | none => h.haltDiverged pid
    | _, _ => h

/-! ## The commit phase -/

/-- The end of a commit phase: GVT, the leases, the messages that the commits made room for, the cairn point, the time of the
next round (R331, R353, R356, R357, R398). -/
def Chip.endRound (h : Chip) (pid : Nat) (g : Word) : Chip :=
  let period := fun q : Partition => if 0 < q.pkgCount then max q.period.toNat 4000 else q.period.toNat
  let h := h.modPart pid fun q => { q with
    gvt := if g = noStamp then none else some g
    round := none, candidate := none, reports := [], remoteCandidates := [], remoteStops := []
    nextRound := (h.now + period q - 1) / period q * period q }
  -- the leases that GVT has passed expire; an idle partition has none (R331)
  let forget := fun k : Cluster =>
    if k.pid = some pid then
      { k with
        annihilated := k.annihilated.filter fun a => g.ule a.stamp && decide (g ≠ noStamp)
        leases := k.leases.filter fun l => g.ule l.2 && decide (g ≠ noStamp) }
    else k
  let h : Chip := { h with clusters := h.clusters.each fun _ k => forget k }
  let h := (h.part pid).vcns.foldl (fun h v => if h.present pid v then h.fillPending v else h) h
  -- an idle partition has run again what a restore had undone
  let h := if (h.part pid).owed && decide (g = noStamp) && (h.part pid).reqs.isEmpty then
      (h.layWrites pid (h.part pid).hostWrites).modPart pid fun q => { q with owed := false }
    else h
  let h := (h.cairnPoint pid).ropeClose pid
  h.ropeCompare pid (h.part pid).ropeMine.length

/-- A package of a multi-package partition that leaves idleness without a launch of its own begins another run, like one that accepts
a launch (R356, R361). -/
def Chip.leaveIdle (h : Chip) (pid : Nat) (busy : Bool) : Chip :=
  let q := h.part pid
  if q.pkgCount ≠ 0 ∧ q.gvt.isNone ∧ busy then h.modPart pid fun q => { q with run := q.run + 1 } else h

/-- The commit phase up to a stamp: the set below it commits, and GVT becomes it or the stamp of the task at which the
round stopped (R357). -/
def Chip.commitPhase (h : Chip) (pid : Nat) (g : Word) : Chip :=
  let set := h.committingSet pid g
  let h := h.leaveIdle pid (g ≠ noStamp ∨ set ≠ [])
  let c := h.commitAll pid set set none
  if (c.chip.part pid).halted then c.chip.modPart pid fun q => { q with round := none, candidate := none, reports := [] }
  else c.chip.endRound pid (c.stop.getD g)

/-- The candidate of this package, once every cluster has taken its cut. -/
def Chip.localCandidate (h : Chip) (pid : Nat) : Word :=
  let q := h.part pid
  leastStamp (q.reports ++ q.unplacedStamps)

/-- What a multi-package partition sends in its round: its candidate once all its clusters have cut, and the stamp at which
its commits would stop once every candidate is known (R431). -/
def Chip.fabricRound (h : Chip) (pid : Nat) : Chip :=
  let q := h.part pid
  if q.pkgCount = 0 ∨ !q.allCut then h
  else
    let h := if (q.remoteCandidates.get q.pkg).isSome then h
      else
        let c := h.localCandidate pid
        let h := h.modPart pid fun q => { q with remoteCandidates := q.remoteCandidates.put q.pkg c }
        q.others.foldl (fun h p => h.sendFrame 5 pid p [0, c]) h
    let q := h.part pid
    if !q.heard q.remoteCandidates ∨ (q.remoteStops.get q.pkg).isSome then h
    else
      let u := h.stopTest pid (leastStamp (q.remoteCandidates.map (·.2)))
      let h := h.modPart pid fun q => { q with remoteStops := q.remoteStops.put q.pkg u }
      q.others.foldl (fun h p => h.sendFrame 5 pid p [1, u]) h

/-- A cluster's cut (R356). -/
def Chip.gvtCut (h : Chip) (pid v : Nat) : Chip :=
  let q := h.part pid
  match q.round with
  | none => h
  | some vs =>
    -- a cluster that a fence or an error has stopped reports once it is restored, through its new die (R310)
    if vs.contains v ∨ !q.holds v ∨ q.off ∨ !h.present pid v ∨ (h.cluster v).stopped then h
    else
      let xs := h.reportAt pid v
      let h := h.modCluster v fun k => { k with late := [], cutNo := q.roundNo }
      (h.modPart pid fun q => { q with round := some (vs ++ [v]), reports := q.reports ++ xs }).fabricRound pid

/-- GVT_CUT (R356). -/
def execGvtCut (pid : Nat) (v : Nat) (s : State) : Host.Outcome State Fault Refusal :=
  .next { s with chip := s.chip.gvtCut pid v }

/-- CONFLICT_NOTICE (R333): a notice in flight reaches its cluster. -/
def execConflictNotice (k : Nat) (s : State) : Host.Outcome State Fault Refusal :=
  let h := s.chip
  match h.flights.get k with
  | some f =>
    match f.body with
    | .notice v line w b =>
      if h.arrives ((h.cluster v).pid.getD 0) v f then
        .next { s with chip := { h with flights := h.flights.erase k }.performNotice v line w b }
      else .next s
    | _ => .next s
  | none => .next s

/-- HELD_TRAP_DELIVERY (R122): the parked thread is queued, and its trap is delivered on the slot it resumes on. -/
def execHeldTrapDelivery (v : Nat) (tid : Nat) (s : State) : Host.Outcome State Fault Refusal :=
  let h := s.chip
  match (h.cluster v).context tid with
  | some q =>
    if q.thread.held.isSome && h.floorStamp q.thread.pid q.thread.stamp &&
        !(h.core v q.core).queued tid then
      .next { s with chip := h.arrive v q.core tid }
    else .next s
  | none => .next s

/-! ## Irrevocable actions (R361, R434) -/

/-- The digests of the interval of an IRV agree (R434): those of an earlier run all do (log 60). -/
def Partition.released (q : Partition) (x : IrvItem) : Bool :=
  !q.roped || decide (x.run < q.run) || decide (bits x.stamp 24 40 < q.ropeAgreed * cairnInterval q.cairn)

/-- Two released stamps, each with its run, in order. -/
def upTo (a b : Nat × Word) : Bool := decide (a.1 < b.1) || (decide (a.1 = b.1) && a.2.ule b.2)

/-- The IRV is another package's to perform: kinds 1 and 3 of a roped partition are package 0's (R434). -/
def Partition.leavesIrv (q : Partition) (x : IrvItem) : Bool := q.roped && decide (q.pkg ≠ 0) && decide (x.kind ≠ .flash)

/-- An IRV performed (R361). Kinds 1 and 3 of a roped partition are performed by package 0 only (R434). The boot region of flash
refuses what is no signed image (R420); a flash byte at or beyond the 16 TiB of the module goes to that address of an unbounded flash
(log 41). -/
def Chip.irvPerform (h : Chip) (pid : Nat) (x : IrvItem) : Chip :=
  let q := h.part pid
  let again := match q.irvDone with | some w => upTo (x.run, x.stamp) w | none => false
  if q.leavesIrv x || again then h
  else
    match x.kind with
    | .host => { h with host := h.host.writeBytes x.addr x.payload }
    | .flash =>
      let a := 64 * q.irvBase.toNat + x.addr
      if Config.bootRefuses a x.payload then h else { h with flash := h.flash.writeBytes a x.payload }
    | .db => { h with regs := h.regs.put (0x450 + x.addr % 8) x.y }.raise (56 + x.addr % 8)

/-- IRV_PERFORM (R361, R417): the oldest released action of the partition. -/
def execIrvPerform (pid : Nat) (s : State) : Host.Outcome State Fault Refusal :=
  let h := s.chip
  let q := h.part pid
  match q.irvs with
  | x :: xs =>
    if q.halted ∨ !q.released x ∨ (x.kind = .host ∧ !q.leavesIrv x ∧ !h.hostCovers x.addr 64) then .next s
    else
      let last := xs.all fun y => decide ((y.run, y.stamp) ≠ (x.run, x.stamp))
      let h := (h.irvPerform pid x).modPart pid fun q => { q with irvs := xs }
      let done := match q.irvDone with
        | some w => if upTo (x.run, x.stamp) w then w else (x.run, x.stamp)
        | none => (x.run, x.stamp)
      .next { s with chip := if last then h.modPart pid fun q => { q with irvDone := some done } else h }
  | [] => .next s

end Sys2Proof.Machine
end

