-- ==== Sys2Proof/Machine/Replay.lean ====
section
/-! DEFINITION. The replay of a deferred operation by a handler (R129, R132). -/

namespace Sys2Proof.Machine

/-- A command of the vector pool replayed on the task's context (R132). -/
def Chip.replayVector (h : Chip) (p : At) (t : Thread) (op : Op) : Except Blocked (Word × BitVec 5 × Chip) :=
  let h := h.readyContext p.v t.uid
  match (h.cluster p.v).claimOf t.uid with
  | none => .error (.fault .elane 0)
  | some c =>
    if !c.resident || decide (c.grant = 0) || h.limited p.v then .error (.stop .stall)
    else do
      let q : VCmd := ⟨op, op.y, op.ea, false⟩
      let (d, g) ← h.vectorRun t p.v c.v q
      let second := c.second.map fun w => match h.vectorRun t p.v w q with | .ok (e, _) => e.regs | .error _ => w
      .ok (d.value, d.flags, g.modClaim p.v t.uid fun c => { c with v := d.regs, second := second })

/-- The engine command that a saved operation is. -/
def replayCmd (t : Thread) (op : Op) : EngCmd :=
  let fn := bits op.word 0 5
  { uid := t.uid, token := 0, seq := op.seq, op := op, who := t.taskWho, descs := descsOf op.vec
    chain := decide (fn = 5), fill := decide (fn = 7) }

/-- An engine command replayed: all of it, with its counts sent (R132, R272). -/
def Chip.replayEngine (h : Chip) (p : At) (t : Thread) (op : Op) : Except Blocked Chip :=
  let c := replayCmd t op
  let h := h.drainThroughs p.v t.uid (h.cluster p.v).throughs.length
  if c.fill then h.engFill c p.v
  else do
    match h.engTrial c p.v with
    | .error (_, e) => .error e
    | .ok () =>
      c.descs.foldlM (fun h d => do
        let h ← h.engRun c.who p.v d
        .ok ((d.counted p.v).foldl (fun h u => h.send (h.routerOf p.v) u.1 (.count u.1 d.bcAddr u.2 c.seq)) h)) h

/-- An OLD, ARD or AWR replayed on the task's gang. -/
def Chip.replayMember (h : Chip) (p : At) (t : Thread) (op : Op) : Except Blocked (BitVec 5 × Chip) :=
  match (h.gangOf t).bind fun gid => (h.cluster p.v).gang t.pid gid with
  | none => .error (.fault .egang (tvalWord op.word))
  | some g => do
    let (f, n, h) ← h.memberRun t p.v g { op := op, uid := t.uid, member := t.homeC, seq := op.seq }
    .ok (f, h.modGang p.v g.pid g.gid fun g => { g with slots := n.slots, accs := n.accs })

/-- The saved operation re-executed in the task's context, with its saved address and operands: its scalar result and
flags (R132). -/
def Chip.replayOp (h : Chip) (p : At) (t : Thread) (op : Op) : Except Blocked (Word × BitVec 5 × Chip) :=
  let m := major op.word
  if m = 0x2E then
    if bits op.word 0 5 = 0 then do
      let (x, h) ← h.performAny t.taskWho p.v op
      .ok (x, 0, h)
    else h.replayVector p t op
  else if (accessOf op.word).isSome then do
    let (x, h) ← h.performAny t.taskWho p.v op
    .ok (x, 0, h)
  else if m = 0x25 then do
    let h ← h.replayEngine p t op
    .ok (0, 0, h)
  else if m = 0x31 then do
    let (f, h) ← h.replayMember p t op
    .ok (0, f, h)
  else h.replayVector p t op

/-- The suspended task with the replayed result in its queues. -/
def Suspended.land (u : Suspended) (dest : Dest) (ldq : Bool) (op : Op) (x : Word) : Suspended :=
  match ldq, dest with
  | true, _ => { u with ldq := u.ldq.map fun e => if e.op.seq = op.seq then ⟨op, .landed (.value x 0)⟩ else e }
  -- a load into lq that faulted where it migrated to has no entry yet (log 62)
  | false, .reg r => if r.toNat = 121 then { u with sdq := u.sdq ++ [x] }
    else if r.toNat = 120 then { u with ldq := u.ldq ++ [⟨op, .landed (.value x 0)⟩] } else u
  | false, .none => u

/-- The thread after its operation was replayed: the destination register or queue entry written, REPLAYED set. -/
def Here.replayed (x : Here) (u : Suspended) (q : Pend) (ldq : Bool) (v : Word) (f : BitVec 5) : Here :=
  let file := match ldq, q.dest with
    | false, .reg r => if r.toNat < 120 then writeGpr x.th x.file r.toNat v else x.file
    | _, _ => x.file
  { file := file
    th := { x.th with
      suspended := some (u.land q.dest ldq q.op v), fflags := x.th.fflags ||| f
      traps := { x.th.traps with cause := x.th.traps.cause ||| 0x200#11 } } }

/-- The KIND of the walk that a replayed operation waits for: that of the operation (R323). -/
def Chip.replayKind (h : Chip) (p : At) (t : Thread) (op : Op) : Nat :=
  let m := major op.word
  match accessOf op.word with
  | some a => a.kind
  | none =>
    if m = 0x25 then
      match h.engTrial (replayCmd t op) p.v with
      | .error (true, _) => 5
      | _ => 4
    else if m = 0x31 then (if omemFn op.word = 3 then 5 else 4)
    else if vFn op.word % 2 = 1 then 5 else 4

/-- What a replay comes to. -/
inductive Replay where
  | done (h : Chip)
  | again (t : Trap) (tval : Word)
  /-- it waits for a walk of this KIND -/
  | walk (pid region kind : Nat)
  | stall
  deriving DecidableEq, Repr

/-- An SDQ entry for the result finds the queue full (R227). -/
def replayFull (u : Suspended) (q : Pend) (ldq : Bool) : Bool :=
  !ldq && (match q.dest with | .reg r => decide (r.toNat = 121 ∧ 16 ≤ u.sdq.length) | .none => false)

/-- TCAUSE says that a deferred operation waits to be replayed. -/
def Thread.unreplayed (t : Thread) : Bool := t.traps.cause.getLsbD 8 && !t.traps.cause.getLsbD 9

/-- The replay of the operation that the handler `self` at `p` holds (R132). -/
def Chip.replay (h : Chip) (p : At) (self : Thread) : Replay :=
  match self.suspended, self.saved with
  | some u, some (q, ldq) =>
    match h.replayOp p self q.op with
    | .error (.fault t x) => .again t x
    | .error (.walk pid r) => .walk pid r (h.replayKind p self q.op)
    | .error (.stop (.trap t x)) => .again t x
    | .error (.stop _) => .stall
    | .ok (x, f, h) =>
      if replayFull u q ldq then .again .ereg 121
      else
        match h.here? p with
        | some y => .done (h.putHere p (y.replayed u q ldq x f))
        | none => .stall
  | _, _ => .stall

/-- TREPLAY (R132). -/
def execTreplay (d : BitVec 7) (s : State) : Host.Outcome State Fault Refusal :=
  let w := (wordR 34#6 d 0#7 0#7 5#5)
  issueChip (form w [.dst d] true) s fun self p h =>
    if !self.unreplayed || self.saved.isNone || self.suspended.isNone then .error (.trap .eill (tvalWord w))
    else
      match h.replay p self with
      | .done h => .ok (h.writeDst p d 0)
      | .again t x =>
        .ok ((h.modThread p fun y =>
          { y with rejected := [], traps := { y.traps with cause := (y.traps.cause &&& 0x700#11) ||| BitVec.ofNat 11 t.code, val := x } }).writeDst
            p d (BitVec.ofNat 64 t.code))
      | .walk pid r k => .ok (h.waitWalk self p pid r k)
      | .stall => .error .stall

/-- The task resumed by a return from its handler (R129). -/
def Chip.resumeTask (h : Chip) (p : At) (u : Suspended) : Chip := h.modThread p fun t => t.restoreTask u

/-- The return from a trap handler (R129): the saved operation is replayed first if it still waits; a new fault traps
again with the same TEPC and TCPC. With TCAUSE.DEF set and no operation saved nothing is replayed (log 54). -/
def Chip.trapReturn (h : Chip) (p : At) (self : Thread) (u : Suspended) : Except Stop Chip :=
  if self.unreplayed then
    match h.replay p self with
    | .done h =>
      match (h.thread? p).bind (·.suspended) with
      | some u => .ok (h.resumeTask p u)
      | none => .error .stall
    | .again t x =>
      .ok ((h.resumeTask p u).takeTrap p
        { trap := t, tval := x, epc := self.traps.epc, cpc := self.traps.cpc, frame := self.traps.cause.getLsbD 10, saved := self.saved })
    | .walk pid r k => .ok (h.waitWalk self p pid r k)
    | .stall => if self.saved.isNone then .ok (h.resumeTask p u) else .error .stall
  else .ok (h.resumeTask p u)

/-- ERET (R129). -/
def execEret (s : State) : Host.Outcome State Fault Refusal :=
  let w := (wordR 34#6 0#7 0#7 0#7 1#5)
  issueChip (form w [] true) s fun self p h =>
    match self.suspended with
    | none => .error (.trap .eill (tvalWord w))
    | some u => h.trapReturn p self u

/-- TRAP (R128). -/
def execTrap (a : BitVec 7) (s : State) : Host.Outcome State Fault Refusal :=
  issueChip (form (wordR 34#6 0#7 a 0#7 0#5) [.src a]) s fun _ p h => do
    let (x, _) ← h.readAt p a
    .error (.trap .etrap x)

/-- BKPT (R131). -/
def execBkpt (s : State) : Host.Outcome State Fault Refusal :=
  issueChip (form (wordR 34#6 0#7 0#7 0#7 4#5)) s fun self p h =>
    if (h.core p.v p.c).den && !(h.part (h.pidAt p.v self)).bounded then .error (.trap .ebreak 0) else .ok h

/-- The events WAIT watches (R133). -/
def Chip.coreEvents (h : Chip) (v c : Nat) : Nat :=
  let k := h.core v c
  (if k.notices = [] then 0 else 1) + (if k.queue = [] then 0 else 2) +
    (if (h.endedSlot v c).isSome then 4 else 0) + (if k.debugPending then 8 else 0)

/-- WAIT (R133). -/
def execWait (d : BitVec 7) (a : BitVec 7) (s : State) : Host.Outcome State Fault Refusal :=
  let w := (wordR 34#6 d a 0#7 6#5)
  issueChip (form w [.dst d, .src a] true) s fun _ p h => do
    let (x, h) ← h.readAt p a
    let e := h.coreEvents p.v p.c
    if x = 0 ∨ bits x 4 60 ≠ 0 then .error (.trap .eill (tvalWord w))
    else if e &&& x.toNat = 0 then .error .stall
    else .ok (h.writeDst p d (BitVec.ofNat 64 (e &&& x.toNat)))

end Sys2Proof.Machine
end

