-- ==== Sys2Proof/Machine/Msg.lean ====
section
/-! DEFINITION. What arrives over the network: packets at their queues (R140), migrating threads (R193 to R197), messages,
anti-messages and acknowledgements (R352 to R356, R394, R395), the hand-over of messages (R452), and the routers' VCN
tables (R304, R305). -/

namespace Sys2Proof.Machine

/-! ## Inbound queues (R140) -/

/-- The packet in flight under this number. -/
def Chip.inFlight (h : Chip) (k : Nat) : Option Flight := h.flights.get k

/-- The packet taken out of the network. -/
def Chip.landed (h : Chip) (k : Nat) : Chip := { h with flights := h.flights.erase k }

/-- A member of a co-resident group or a gang has come to wait for its placement (R383). -/
def Chip.noteWaiting (h : Chip) (uid : Nat) (t : Task) : Chip :=
  if h.isGranted uid t then h
  else (h.boundGroups t).foldl (fun h g => h.modGroup t.pid g fun x => { x with waiting := some (x.waiting.getD h.now) }) h

/-- PACKET_ENQUEUE (R140): the packet of a queued task reaches its core. -/
def execPacketEnqueue (k : Nat) (s : State) : Host.Outcome State Fault Refusal :=
  let h := s.chip
  match h.inFlight k with
  | some f =>
    match f.body with
    | .task v c uid =>
      match h.task? uid with
      | some t =>
        if h.arrives t.pid v f then
          .next { s with chip := ((h.landed k).enqueue v c uid false (h.floorStamp t.pid t.packet.stamp)).noteWaiting uid t }
        else .next s
      | none => .next { s with chip := h.landed k }
    | _ => .next s
  | none => .next s

/-- The first packet of the overflow area moves into the queue when fewer than 32 entries are taken (R140). -/
def Chip.refill (h : Chip) (v c : Nat) : Chip :=
  let k := h.core v c
  match sortBy Ticket.before (k.overflow.filterMap (h.ticket v)) with
  | x :: _ =>
    if (if x.floor || x.entry.arrival then 40 else 32) ≤ k.queue.length then h
    else (h.modCore v c fun k =>
      { k with queue := k.queue ++ [{ x.entry with seq := h.nextSeq }]
               overflow := k.overflow.filter fun e => decide (e.uid ≠ x.entry.uid) }).tick
  | [] => h

/-- OVERFLOW_REFILL (R140). -/
def execOverflowRefill (v : Nat) (c : Nat) (s : State) : Host.Outcome State Fault Refusal :=
  .next { s with chip := s.chip.refill v c }

/-! ## Migrating threads (R194, R195, R197) -/

/-- The core has a FREE slot and room for `n` register entries (R195). -/
def Chip.coreFits (h : Chip) (v c n : Nat) (floor : Bool) : Bool :=
  (h.freeSlot v c).isSome && (allocPair (h.allocs v c) n floor (h.core v c).screened).isSome

/-- The core an arriving thread is placed on: the same index, else the lowest one with a slot and room, else the same
index, to wait (R195). -/
def Chip.arrivalCore (h : Chip) (v c n : Nat) (floor : Bool) : Nat :=
  if h.coreFits v c n floor then c
  else ((List.range 8).find? fun d => h.coreFits v d n floor).getD c

/-- The thread as it arrives with a fault of its access: the fault is reported at the access itself (R195), a load into lq
included (log 62). -/
def Thread.arrivedFault (t : Thread) (q : Pend) (e : Trap) (x : Word) : Thread :=
  { t.addPend { q with due := .next, arrival := .landed (.fault e x) } with pc := q.op.pc }

/-- The scalar access of an arrived thread with its result. -/
def Thread.arrivedValue (t : Thread) (q : Pend) (x : Word) : Thread :=
  match accessOf q.op.word with
  | some a => t.keep a q.op .next q.dest (.landed (.value x 0))
  | none => t

/-- The access that a thread performs on its arrival at cluster v, and the thread after it; none while it waits for LOG
space (R72, R192, R195). A command of the vector pool enters the queue of the claim that came along, unless its bank mode or a
domain check of R73 fails here; its other faults come from the pool, deferred (R213). -/
def Chip.arrivalAccess (h : Chip) (v : Nat) (t : Thread) (claim : Option Claim) (q : Pend) :
    Option (Chip × Thread × Option Claim) :=
  let fault := fun (e : Trap) (x : Word) => some (h, t.arrivedFault q e x, claim)
  let inPool := decide (major q.op.word = 0x2A) || (decide (major q.op.word = 0x2E) && decide (bits q.op.word 0 5 ≠ 0))
  if inPool then
    match claim with
    | none => fault .elane 0
    | some c =>
      let cmd : VCmd := ⟨q.op, q.op.y, q.op.ea, true⟩
      let on := some (h, t.addPend q, some { c with queue := c.queue ++ [cmd] })
      match h.vectorRun t v c.v cmd with
      | .error (.fault e x) => if e = .ebankmode ∨ e = .equiet ∨ e = .eperm then fault e x else on
      | .error (.stop (.trap e x)) => fault e x
      | _ => on
  else
    match h.performAny t.who v q.op with
    | .ok (x, h) =>
      -- the flags of a handler's reduction stand with the thread in its packet (R83)
      let o : Thread := (h.findThread t.uid).getD t
      let t : Thread := { t with fflags := t.fflags ||| o.fflags }
      some (h, t.arrivedValue q x, claim)
    | .error (.fault e x) => fault e x
    | .error (.stop (.trap e x)) => fault e x
    | .error (.walk ..) => some (h, t.addPend q, claim)
    | .error (.stop _) => none

/-- The addresses that a migrating access names, lowest first: every active element of a vector memory command (R197, R217). -/
def Pend.addresses (q : Pend) (claim : Option Claim) : List Word :=
  match claim with
  | some c => if major q.op.word = 0x2A then (actives q.op.y).map (vmAddr q.op.word c.v q.op.ea) else [q.op.ea]
  | none => [q.op.ea]

/-- The first address of the access at cluster v in a bank that held the region of a group that has exited (R197). An element
outside the access's window or the cluster is EWINDOW's (R218). -/
def Chip.bounces (h : Chip) (v : Nat) (claim : Option Claim) (q : Pend) : Option Word :=
  (q.addresses claim).find? fun a =>
    decide (windowOf a.toNat = windowOf q.op.ea.toNat) &&
      match accessPlace h.v v a.toNat 1 with
      | some (.here off) => h.goneAt v off
      | _ => false

/-- The arrived thread in its core's queue, with its claim: its arrival is a re-negotiation point (R201). -/
def Chip.settleArrival (h : Chip) (v : Nat) (q : Parked) (t : Thread) (claim : Option Claim) : Chip :=
  let c := h.arrivalCore v q.core t.regLim (h.floorStamp t.pid t.stamp)
  let cached := decide (cacheUse (h.cluster v).parked < 64)
  let x : Parked := { q with thread := t, core := c, cached := cached, seq := h.nextSeq, access := none, claim := none, bounced := none }
  let h := (h.dropPrivate v).modCluster v fun k =>
    { k with parked := k.parked ++ [x]
             claims := k.claims ++ (claim.map fun c =>
               { c with grant := 0, resident := true, second := if k.screen then some (c.second.getD c.v) else none }).toList }
  let h : Chip := match h.task? t.uid with
    | some k => { h with tasks := h.tasks.put t.uid { k with ran := addOnce k.ran v } }
    | none => h
  (h.arrive v c t.uid).renegotiate v t.uid

/-- The packet has reached its cluster and waits there. -/
def Chip.waitThere (h : Chip) (k : Nat) : Chip :=
  { h with flights := h.flights.each fun n f => if n = k then { f with there := true } else f }

/-- A migration packet handled at cluster v (R195, R197); it waits there for a context or for LOG space. -/
def Chip.migrationArrives (h : Chip) (k v : Nat) (q : Parked) : Chip :=
  let t := { q.thread with away := decide (v ≠ q.thread.homeV) }
  match q.access with
  | none =>
    match h.arrivalContext v q.claim with
    | some g => (g.landed k).settleArrival v q t q.claim
    | none => h.waitThere k
  | some a =>
    match q.bounced, h.bounces v q.claim a with
    | some x, _ =>
      match h.arrivalContext v q.claim with
      | some g => (g.landed k).settleArrival v q (t.arrivedFault a .escratchgone x) q.claim
      | none => h.waitThere k
    | none, some x => (h.landed k).send (h.routerOf v) t.homeV (.migration t.homeV { q with bounced := some x })
    | none, none =>
      match h.arrivalContext v q.claim with
      | none => h.waitThere k
      | some g =>
        match g.arrivalAccess v t q.claim a with
        | some (g, t, claim) => (g.landed k).settleArrival v q t claim
        | none => h.waitThere k

/-- MIGRATION_ARRIVAL (R195). -/
def execMigrationArrival (k : Nat) (s : State) : Host.Outcome State Fault Refusal :=
  let h := s.chip
  match h.inFlight k with
  | some f =>
    match f.body with
    | .migration v q => .next { s with chip := if h.arrives q.thread.pid v f then h.migrationArrives k v q else h }
    | _ => .next s
  | none => .next s

/-! ## Frames of the fabric (R427) -/

/-- An acknowledgement number received: the frames up to it have arrived; one that carries no message is done with. -/
def Chip.noteAck (h : Chip) (src ack : Nat) : Chip :=
  let seen := h.unacked.each fun _ u => if u.dest = src ∧ u.seq ≤ ack then { u with received := true } else u
  { h with
    unacked := seen.filter fun u => !u.2.received || [1, 2, 4].contains u.2.kind
    ackAt := if seen = h.unacked then h.ackAt else h.ackAt.put src h.now }

/-- A frame that only acknowledges: it carries no sequence number of its own (log 24). -/
def Chip.pureAck (h : Chip) (pid dest : Nat) : Chip :=
  let f : WireFrame := { kind := 3, pid := pid, src := (h.part pid).pkg, dest := dest, ack := h.frameGot.getOr dest 0 }
  { h with wire := h.wire ++ [f] }

/-- The frame of another package in flight under this number. -/
def Chip.frameIn (h : Chip) (k : Nat) : Option WireFrame :=
  match h.inFlight k with
  | some g =>
    match g.body with
    | .frame f => some f
    | _ => none
  | none => none

/-- A frame of the same package and partition has been received before this one and still waits to act. -/
def Chip.frameBehind (h : Chip) (f : WireFrame) : Bool :=
  h.flights.any fun g =>
    match g.2.body with
    | .frame e => e.received && decide (e.src = f.src ∧ e.pid = f.pid ∧ e.seq < f.seq)
    | _ => false

/-- A received frame acts in the order of its partition's frames, or waits: `act` performs it, or answers none while it has to
wait. Its reception stands, and does not hold up the frames of other partitions. -/
def Chip.actFrame (h : Chip) (k : Nat) (f : WireFrame) (act : WireFrame → Chip → Option Chip) : Chip :=
  let stays : Chip := { h with flights := h.flights.each fun n g => if n = k then { g with body := .frame { f with received := true } } else g }
  if !(h.part f.pid).active then h.landed k
  -- the report of a gate waits for no frame of the partition that is to enter (R437)
  else if f.kind ≠ 9 ∧ h.frameBehind f then stays
  else (act f (h.landed k)).getD stays

/-- The frame k taken, if it is of this kind and the next one in order from its package. A frame received before is acknowledged
again. -/
def Chip.onFrame (h : Chip) (k kind : Nat) (act : WireFrame → Chip → Option Chip) : Chip :=
  match h.frameIn k with
  | none => h
  | some f =>
    let got := h.frameGot.getOr f.src 0
    if f.kind ≠ kind then h
    else if f.received then h.actFrame k f act
    else if got + 1 < f.seq then h
    else if h.lostPkgs.contains f.src then h.landed k
    else
      let g := h.noteAck f.src f.ack
      if f.seq = 0 then g.landed k
      else if f.seq ≤ got then (g.landed k).pureAck f.pid f.src
      else Chip.actFrame { g with frameGot := g.frameGot.put f.src f.seq } k f act

/-- The message in the body of a frame (R429). -/
def messageOf (f : WireFrame) (body : List Word) : Option Message :=
  match body with
  | ss :: si :: inc :: st :: dv :: hd :: sd :: sv :: fa :: fb :: fc :: pr :: fl :: payload =>
    some { sender := sd.toNat, sendIdx := si.toNat, incarnation := inc.toNat, senderStamp := ss, srcV := sv.toNat, pid := f.pid
           destV := dv.toNat, handler := hd.toNat, stamp := st, payload := payload.map fun x => fld x 0 8, fmtA := fa, fmtB := fb
           fmtC := fc, priority := pr.toNat, floor := decide (fl ≠ 0), srcPkg := f.src }
  | _ => none

/-! ## The pending set (R353, R395) -/

/-- An acknowledgement sent for a message of `units` payload units, or an anti-message, that cluster a.destV has handled: it tells the
last GVT round which that cluster has cut (R352, R355, R356, R427). -/
def Chip.acknowledge (h : Chip) (a : Anti) (units : Nat) : Chip :=
  let cut := (h.cluster a.destV).cutNo
  if a.srcPkg = (h.part a.pid).pkg then h.send (h.routerOf a.destV) a.srcV (.ack a a.srcV cut units)
  else
    h.sendFrame 3 a.pid a.srcPkg
      [a.sender, BitVec.ofNat 64 a.sendIdx, BitVec.ofNat 64 a.incarnation, a.stamp, BitVec.ofNat 64 cut]

/-- An acknowledgement received at cluster v from one that had cut round `cut`: where v had not, it counts the message on to its next
cut (R356). -/
def Chip.overtaken (h : Chip) (v cut : Nat) (stamp : Word) : Chip :=
  if (h.cluster v).cutNo < cut then h.modCluster v fun k => { k with late := k.late ++ [stamp] } else h

/-- A message handled at its destination (R352, R353, R355, R394). -/
def Chip.messageArrives (h : Chip) (m : Message) : Chip :=
  let v := m.destV
  let a := antiOf m
  let k := h.cluster v
  let units := (m.payload.length + 63) / 64
  if k.pending.any (fun x => a.names x.message) || k.annihilated.any (fun x => x.names m) then h.acknowledge a units
  else if k.orphans.any (fun x => x.names m) then
    (h.modCluster v fun k =>
      { k with orphans := k.orphans.filter fun x => !x.names m, annihilated := k.annihilated ++ [a] }).acknowledge a units
  else
    let full := !h.pendingRoom v m
    (h.modCluster v fun k => { k with pending := k.pending ++ [{ message := m, overflow := full }] }).acknowledge a units

/-- An anti-message handled at its destination (R355, R394, R395). -/
def Chip.antiArrives (h : Chip) (a : Anti) : Chip :=
  let v := a.destV
  let k := h.cluster v
  if k.annihilated.any a.same || k.orphans.any a.same then h.acknowledge a 0
  else
    match k.pending.find? fun x => a.names x.message with
    | some x =>
      let h := match x.task with
        | some uid => h.cancel uid
        | none => h
      ((h.modCluster v fun k =>
        { k with pending := k.pending.filter fun x => !a.names x.message
                 annihilated := k.annihilated ++ [a] }).fillPending v).acknowledge a 0
    | none => (h.modCluster v fun k => { k with orphans := k.orphans ++ [a] }).acknowledge a 0

/-- The cluster takes packets that come from another package. -/
def Chip.takes (h : Chip) (pid v : Nat) : Bool :=
  (h.vmap.getOr v {}).valid && !(h.cluster v).stopped && !(h.cluster v).holding && h.present pid v

/-- A fabric message at its destination package (R429). -/
def Chip.frameMessage (f : WireFrame) (h : Chip) : Option Chip :=
  match messageOf f f.body with
  | some m => if h.takes m.pid m.destV then some (h.messageArrives m) else none
  | none => some h

/-- The task that performs a fabric publication (R430). -/
def Chip.publicationTask (h : Chip) (a : Anti) : Option Nat :=
  (h.tasks.find? fun t => match t.2.packet.message with
    | some m => decide (m.handler = publicationHandler) && a.names m
    | none => false).map (·.1)

/-- The anti-message of a fabric publication: the waiting data is dropped, or the task that would publish it cancelled. -/
def Chip.unpublish (h : Chip) (a : Anti) : Chip :=
  let h : Chip := { h with flights := h.flights.filter fun f => match f.2.body with | .publication m => !a.names m | _ => true }
  let h := match h.publicationTask a with
    | some uid => h.cancel uid
    | none => h
  h.acknowledge a 0

/-- A fabric anti-message at its destination package (R429, R430). -/
def Chip.frameAnti (f : WireFrame) (h : Chip) : Option Chip :=
  match messageOf f f.body with
  | some m =>
    if m.handler = publicationHandler then some (h.unpublish (antiOf m))
    else if h.takes m.pid m.destV then some (h.antiArrives (antiOf m)) else none
  | none => some h

/-- What an acknowledgement names in a frame that carries a message: the sender's stamp, send index, incarnation. -/
def WireFrame.id (f : WireFrame) : List Word :=
  let b := if f.kind = 4 then f.body.drop 1 else f.body
  [b.getD 0 0, b.getD 1 0, b.getD 2 0]

/-- An acknowledgement from another package: the oldest frame of that id is done with; it counts on where it overtook the
cut of the sender's cluster (R356, R429). -/
def Chip.frameAck (f : WireFrame) (h : Chip) : Option Chip :=
  match f.body with
  | sd :: si :: inc :: st :: cut :: _ =>
    match h.unacked.find? fun u => decide (u.2.dest = f.src) && [1, 2, 4].contains u.2.kind && u.2.id == [sd, si, inc] with
    | some u =>
      let v := ((if u.2.kind = 4 then u.2.body.drop 1 else u.2.body).getD 7 0).toNat
      some (Chip.overtaken { h with unacked := h.unacked.erase u.1 } v cut.toNat st)
    | none => some h
  | _ => some h

/-- MESSAGE_ARRIVAL (R352, R429). -/
def execMessageArrival (k : Nat) (s : State) : Host.Outcome State Fault Refusal :=
  let h := s.chip
  match h.inFlight k with
  | some f =>
    match f.body with
    | .message m => .next { s with chip := if h.arrives m.pid m.destV f then (h.landed k).messageArrives m else h }
    | .frame _ => .next { s with chip := h.onFrame k 1 Chip.frameMessage }
    | _ => .next s
  | none => .next s

/-- ANTI_MESSAGE_ARRIVAL (R355, R429). -/
def execAntiMessageArrival (k : Nat) (s : State) : Host.Outcome State Fault Refusal :=
  let h := s.chip
  match h.inFlight k with
  | some f =>
    match f.body with
    | .anti a => .next { s with chip := if h.arrives a.pid a.destV f then (h.landed k).antiArrives a else h }
    | .frame _ => .next { s with chip := h.onFrame k 2 Chip.frameAnti }
    | _ => .next s
  | none => .next s

/-- MESSAGE_ACK (R352, R356, R429): the sender stops counting the message, or counts it on as one whose acknowledgement overtook
the cut. -/
def execMessageAck (k : Nat) (s : State) : Host.Outcome State Fault Refusal :=
  let h := s.chip
  match h.inFlight k with
  | some f =>
    match f.body with
    | .ack a v cut _ => .next { s with chip := if h.arrives a.pid v f then (h.landed k).overtaken v cut a.stamp else h }
    | .frame _ => .next { s with chip := h.onFrame k 3 Chip.frameAck }
    | _ => .next s
  | none => .next s

/-! ## The hand-over of messages (R348, R353, R452) -/

/-- The packet of a message task (R348). -/
def messagePacket (k : Cluster) (m : Message) : Packet :=
  let x := k.handler m.handler
  { origin := .message, pc := x.pc, stamp := m.stamp, regn := x.regn, args := [], fmtA := m.fmtA, fmtB := m.fmtB
    fmtC := m.fmtC, grps := 0, quiet := false, cores := false, tvec := x.tvec, priority := m.priority
    homeV := m.destV, homeC := x.core, message := some m }

/-- A message that may be handed over: in the set, PENDING, its handler VALID, and within the window (R351, R452). -/
def Chip.handable (h : Chip) (v : Nat) (x : Header) : Bool :=
  x.task.isNone && !x.overflow && ((h.cluster v).handler x.message.handler).valid &&
    (h.part x.message.pid).inWindow x.message.stamp

/-- A message handed to its core as a packet: TAKEN (R353). -/
def Chip.handOver (h : Chip) (v : Nat) (m : Message) : Chip :=
  let uid := h.nextUid
  let k := messagePacket (h.cluster v) m
  let h := { h with nextUid := uid + 1, tasks := h.tasks.put uid { pid := m.pid, packet := k } }
  let taken := fun x : Header => if (antiOf m).names x.message then { x with task := some uid } else x
  let h := h.modCluster v fun c => { c with pending := c.pending.map taken }
  h.enqueue v k.homeC uid false (h.floorStamp m.pid m.stamp)

/-- MESSAGE_HANDOVER (R452): the k-th header of the pending set, when no message that may be handed over has a smaller
stamp. -/
def execMessageHandover (v : Nat) (k : Nat) (s : State) : Host.Outcome State Fault Refusal :=
  let h := s.chip
  let c := h.cluster v
  match c.pending[k]? with
  | some x =>
    if h.handable v x && h.present x.message.pid v && !c.stopped && !c.paused && !(h.part x.message.pid).halted &&
        c.pending.all (fun y => !(h.handable v y && y.message.stamp.ult x.message.stamp)) then
      .next { s with chip := h.handOver v x.message }
    else .next s
  | none => .next s

/-! ## The routers' tables (R304, R305) -/

/-- A packet's GEN is older than an entry's (R305). -/
def genOlder (entry packet : BitVec 8) : Bool :=
  let d := (entry - packet).toNat
  decide (1 ≤ d ∧ d ≤ 127)

/-- What a router does with a packet that reaches it for one of its clusters (R305); a packet it forwards is the packet of that
router numbered `n` from then on. -/
def routed (e : VEntry) (n : Nat) (f : Flight) : Flight :=
  if !e.valid then { f with held := true }
  else if e.pcn = f.pcn then { f with held := false }
  else if genOlder e.gen f.gen then
    { f with pcn := e.pcn, gen := e.gen, held := false, src := f.pcn.toNat / 4, order := n }
  else f

/-- PACKET_FORWARD (R305): at the router that it has reached behind every earlier packet of its source (R301). -/
def execPacketForward (k : Nat) (s : State) : Host.Outcome State Fault Refusal :=
  let h := s.chip
  match h.inFlight k with
  | some f =>
    match f.body.dest with
    | some v =>
      if h.ahead f then .next s
      else
        let g := routed (h.routerEntry (f.pcn.toNat / 4) v) h.nextSeq f
        .next { s with chip := { h with flights := h.flights.put k g }.tick }
    | none => .next s
  | none => .next s

/-- The router at which the sender of a message, an anti-message or a notice puts it into the network, of what is not acknowledged by
cluster v: what is on its way there, and what has an acknowledgement on its way back (R394). The message of an acknowledgement that v
no longer holds goes as its id alone, which v's annihilation list has (R395). -/
def Chip.unacknowledged (h : Chip) (v : Nat) (f : Flight) : Option (Nat × Packetry) :=
  match f.body with
  | .message m => if m.destV = v then some (h.routerOf m.srcV, .message m) else none
  | .anti a => if a.destV = v then some (h.routerOf a.srcV, .anti a) else none
  | .notice u l w b => if u = v then some (f.src, .notice u l w b) else none
  | .ack a _ _ _ =>
    if a.destV ≠ v then none
    else
      match (h.cluster v).pending.find? fun x => a.names x.message with
      | some x => some (h.routerOf a.srcV, .message x.message)
      | none => some (h.routerOf a.srcV, .anti a)
  | _ => none

/-- What the clusters of a router have sent to v and hold no acknowledgement for is sent again, with the new GEN that the router has
read (R394). -/
def Chip.resendFrom (h : Chip) (v router : Nat) : Chip :=
  let again := (h.flights.filterMap fun f => h.unacknowledged v f.2).filter fun x => decide (x.1 = router)
  again.foldl (fun h x => h.send x.1 v x.2) h

/-- TABLE_ENTRY_UPDATE (R304): the routers of the old and the new PCN had the entry when it was written. A router that takes a new
entry sends again what is not acknowledged (R394). -/
def execTableEntryUpdate (router : Nat) (v : Nat) (s : State) : Host.Outcome State Fault Refusal :=
  let h := s.chip
  let is := fun x : Nat × Nat × VEntry => decide (x.1 = router) && decide (x.2.1 = v)
  let g : Chip := { h with stale := h.stale.filter fun x => !is x }
  .next { s with chip := if h.stale.any is then g.resendFrom v router else g }

end Sys2Proof.Machine
end

