-- ==== Sys2Proof/Machine/Units.lean ====
section
/-! DEFINITION. The units of a cluster at work: lanes granted (R200), vector commands (R208), the matrix engine (R233, R239,
R243, R247, R251, R253, R254) and the copy engines (R264, R270, R272). -/

namespace Sys2Proof.Machine

/-- The units of cluster v run: it has not stopped for a machine check, and its partition has not been halted (R401,
R405). -/
def Chip.running (h : Chip) (v : Nat) : Bool :=
  !(h.cluster v).stopped && !(h.part ((h.cluster v).pid.getD 0)).halted

/-- An event of a unit of cluster v. -/
def unitEvent (s : State) (v : Nat) (f : Chip → Chip) : Host.Outcome State Fault Refusal :=
  .next { s with chip := if s.chip.running v then f s.chip else s.chip }

/-- An event that starts something on cluster v: none while a rotation drains or moves it (R393). -/
def startEvent (s : State) (v : Nat) (f : Chip → Chip) : Host.Outcome State Fault Refusal :=
  unitEvent s v fun h => if (h.cluster v).paused then h else f h

/-- An event of the k-th engine command of cluster v: during a rotation only a started one goes on (R393). -/
def engineEvent (s : State) (v k : Nat) (f : Chip → Chip) : Host.Outcome State Fault Refusal :=
  unitEvent s v fun h =>
    if (h.cluster v).paused ∧ ((h.cluster v).cmds[k]?).all (fun c => !c.checked) then h else f h

/-- LANE_GRANT (R200). -/
def execLaneGrant (v : Nat) (s : State) : Host.Outcome State Fault Refusal := unitEvent s v fun h => h.serveClaims v

/-- VECTOR_COMMAND_COMPLETE (R208). -/
def execVectorCommandComplete (v : Nat) (tid : Nat) (s : State) : Host.Outcome State Fault Refusal :=
  unitEvent s v fun h => if h.limited v then h else h.completeVector v tid

/-- GANG_INSTRUCTION_EFFECT (R233). -/
def execGangInstructionEffect (v : Nat) (pid : Nat) (gid : Nat) (s : State) : Host.Outcome State Fault Refusal :=
  startEvent s v fun h => h.gangEffect v pid gid

/-- MMA_START (R251): the k-th operation of the gang's queue. -/
def execMmaStart (v : Nat) (pid : Nat) (gid : Nat) (k : Nat) (s : State) : Host.Outcome State Fault Refusal :=
  startEvent s v fun h => if h.limited v then h else h.mmaStart v pid gid k

/-- MMA_COMPLETE (R247). -/
def execMmaComplete (v : Nat) (pid : Nat) (gid : Nat) (k : Nat) (s : State) : Host.Outcome State Fault Refusal :=
  unitEvent s v fun h => h.mmaComplete v pid gid k

/-- OLD_COMPLETE (R239). -/
def execOldComplete (v : Nat) (pid : Nat) (gid : Nat) (k : Nat) (s : State) : Host.Outcome State Fault Refusal :=
  startEvent s v fun h => h.memberComplete v pid gid k true

/-- ACCUMULATOR_OP_COMPLETE (R243). -/
def execAccumulatorOpComplete (v : Nat) (pid : Nat) (gid : Nat) (k : Nat) (s : State) : Host.Outcome State Fault Refusal :=
  startEvent s v fun h => h.memberComplete v pid gid k false

/-- GANG_RECLAIM (R253). -/
def execGangReclaim (v : Nat) (pid : Nat) (gid : Nat) (s : State) : Host.Outcome State Fault Refusal :=
  startEvent s v fun h => h.gangReclaim v pid gid

/-- GANG_PARK (R254). -/
def execGangPark (v : Nat) (pid : Nat) (gid : Nat) (s : State) : Host.Outcome State Fault Refusal :=
  unitEvent s v fun h => h.gangPark v pid gid

/-- ENGINE_COMMAND_COMPLETE (R264): the k-th command of the cluster's queue. -/
def execEngineCommandComplete (v : Nat) (k : Nat) (s : State) : Host.Outcome State Fault Refusal :=
  engineEvent s v k fun h => h.engStep v k false

/-- CHAIN_DESCRIPTOR_COMPLETE (R270): the next descriptor of the chain that is the k-th command. -/
def execChainDescriptorComplete (v : Nat) (k : Nat) (s : State) : Host.Outcome State Fault Refusal :=
  engineEvent s v k fun h => h.engStep v k true

/-- BYTE_COUNT_ADD (R272). -/
def execByteCountAdd (k : Nat) (s : State) : Host.Outcome State Fault Refusal :=
  let h := s.chip
  match h.flights.get k with
  | some f =>
    match f.body with
    | .count v _ _ _ =>
      .next { s with chip := if h.arrives ((h.cluster v).pid.getD 0) v f then h.countAdd k else h }
    | _ => .next s
  | none => .next s

end Sys2Proof.Machine
end

