-- ==== Sys2Proof/Machine/Launch.lean ====
section
/-! DEFINITION. Launches from the host's window to their tasks (R307, R308, R364 to R373, R379, R386, R387), barriers
(R340, R376) and the placement of co-resident groups and gangs (R381 to R384). -/

namespace Sys2Proof.Machine

/-! ## The launch window (R367, R371) -/

/-- A launch-record slot of window A. -/
def WindowA.record (w : WindowA) (s : Nat) : List Byte := (List.range 8).flatMap fun i => wordBytes 8 (w.recs.getOr (8 * s + i) 0)

/-- A write of LSUB (R367): ignored while the slot is BUSY, and in recovery, where only window C answers (R420). -/
def Chip.launchSubmit (h : Chip) (x : Word) : Chip :=
  let slot := bits x 0 8
  let pid := bits x 8 20
  if (h.winA.lstat.getOr slot 0).getLsbD 61 ∨ h.stage = 15 then h
  else
    let r : LaunchReq := { slot := some slot, record := h.winA.record slot, block := [], tvec := 0 }
    -- a launch that the slot held before has its status there no longer
    let forget := fun j : LaunchJob => if j.slot = some slot then { j with slot := none } else j
    let h : Chip := { h with
      parts := h.parts.each fun _ q => { q with jobs := q.jobs.map forget }
      winA := { h.winA with lsub := BitVec.ofNat 64 (bits x 0 28), lstat := h.winA.lstat.put slot 0x2000000000000000#64 } }
    h.modPart pid fun q => { q with reqs := q.reqs ++ [r] }

/-- LAUNCH_SUBMIT (R367). -/
def execLaunchSubmit (x : BitVec 64) (s : State) : Host.Outcome State Fault Refusal :=
  .next { s with chip := s.chip.launchSubmit x }

/-- Bytes 0 to 15 of a group-table entry as two doublewords (R371). -/
def Group.low (g : Group) : Word :=
  BitVec.ofNat 64 (g.banks.toNat + g.vcn0.toNat % 2048 * 2 ^ 32 + g.vcnn.toNat % 2048 * 2 ^ 48)
def Group.high (g : Group) : Word := BitVec.ofNat 64 (g.flags.toNat + g.arrive.toNat * 2 ^ 32)

/-- A doubleword of an entry written by the host. -/
def Group.setLow (g : Group) (x : Word) : Group := { g with banks := fld x 0 32, vcn0 := fld x 32 16 &&& 0x7FF#16, vcnn := fld x 48 16 &&& 0x7FF#16 }
def Group.setHigh (g : Group) (x : Word) : Group := { g with flags := fld x 0 8 &&& 0x77#8, arrive := fld x 32 32 }

/-- A host write of the doubleword at `off` of window A (R367, R371). Read-only bytes do not change. -/
def Chip.windowA (h : Chip) (off : Nat) (x : Word) : Chip :=
  if off % 8 ≠ 0 ∨ h.stage = 15 then h
  else if off < 0x4000 then { h with winA := { h.winA with recs := h.winA.recs.put (off / 8) x } }
  else if off = 0x8000 then h.launchSubmit x
  else if off = 0x8008 then { h with winA := { h.winA with gtsel := fld x 0 20 } }
  else if 0xC000 ≤ off ∧ off < 0xE000 then
    let pid := h.winA.gtsel.toNat
    let gid := (off - 0xC000) / 32
    match off / 8 % 4 with
    | 0 => h.modGroup pid gid fun g => g.setLow x
    | 1 => h.modGroup pid gid fun g => g.setHigh x
    | _ => h
  else h

/-- WINDOW_A_WRITE (R371). -/
def execWindowAWrite (off : Nat) (x : BitVec 64) (s : State) : Host.Outcome State Fault Refusal :=
  .next { s with chip := s.chip.windowA off x }

/-! ## Reading for the command processor (R365, R368) -/

/-- Bytes that the command processor reads in a partition's address space. -/
def Chip.cpRead (h : Chip) (pid : Nat) (rejected : List Nat) (va n : Nat) : Except Blocked (List Byte × Chip) :=
  let w : Who := { uid := cpWaiter pid, pid := pid, stamp := 0, mode := .super, rejected := rejected }
  (linesOf va n).foldlM (fun (acc : List Byte × Chip) part => do
    let ea := BitVec.ofNat 64 part.1
    if windowOf part.1 ≠ .global then .error (.fault .ewindow ea)
    else do
      let h := acc.2.warm pid part.1
      let l ← h.resolve w part.1 ea
      if l.attr ≠ .host then .ok (acc.1 ++ h.hbm.readBytes l.pa part.2, h)
      else if h.hostCovers (l.pa % 2 ^ 47) part.2 then .ok (acc.1 ++ h.host.readBytes (l.pa % 2 ^ 47) part.2, h)
      else .error (.fault .eperm ea)) ([], h)

/-- Why a launch is not accepted now: a reason code, a walk of a region, or a wait. -/
inductive NotYet where
  | refuse (reason : Nat)
  | walk (region : Nat)
  | wait
  deriving DecidableEq, Repr

/-- A read of the command processor: a rejected translation is reason 9; other failures are the given reason. -/
def cpResult {α : Type} (reason : Nat) : Except Blocked α → Except NotYet α
  | .ok x => .ok x
  | .error (.walk _ r) => .error (.walk r)
  | .error (.fault .epage _) => .error (.refuse 9)
  | .error _ => .error (.refuse reason)

/-- An entry of an image list (R365). -/
structure Image where
  vcn : Nat
  bank : Nat
  off : Nat
  len : Nat
  bytes : List Byte
  deriving DecidableEq, Repr

/-- The entry in 16 bytes of the list and its source, or malformed. -/
def imageOf (bs : List Byte) : Except NotYet (Image × Nat) :=
  let x := BitVec.ofNat 64 (recordField bs 0 8)
  let i : Image := { vcn := bits x 0 11, bank := bits x 11 5, off := bits x 16 16, len := bits x 32 17, bytes := [] }
  if bits x 49 15 ≠ 0 ∨ i.len = 0 ∨ 65536 < i.off + i.len then .error (.refuse 1) else .ok (i, recordField bs 8 8)

/-- The image list at a VA, its sources read (R365). -/
def Chip.imageList (h : Chip) (pid : Nat) (rejected : List Nat) (va : Nat) : Except NotYet (List Image × Chip) :=
  if va = 0 then .ok ([], h)
  else do
    let (bs, h) ← cpResult 1 (h.cpRead pid rejected va 8)
    let n := bytesToNat bs
    if 1024 < n then .error (.refuse 1)
    else do
      let (bs, h) ← cpResult 1 (h.cpRead pid rejected (va + 8) (16 * n))
      let is ← (List.range n).mapM fun k => imageOf ((bs.drop (16 * k)).take 16)
      is.foldlM (fun (acc : List Image × Chip) i => do
        let (bs, h) ← cpResult 6 (acc.2.cpRead pid rejected i.2 i.1.len)
        .ok (acc.1 ++ [{ i.1 with bytes := bs }], h)) ([], h)

/-! ## The checks of a launch (R368) -/

/-- The groups a record names that are gangs, or co-resident. -/
def Chip.gangsNamed (h : Chip) (pid : Nat) (r : List Byte) : List Nat := (recordGroups r).filter fun g => (h.group pid g).gang
def Chip.boundNamed (h : Chip) (pid : Nat) (r : List Byte) : List Nat :=
  (recordGroups r).filter fun g => recCores r || (h.group pid g).cores || (h.group pid g).gang

/-- A gang launch that breaks R382, or whose cluster lies outside the partition (R384). -/
def Chip.gangBroken (h : Chip) (pid : Nat) (r : List Byte) : Bool :=
  (h.gangsNamed pid r).any fun g =>
    decide (recCount r ≠ 8) || !recQuiet r || !(h.part pid).holds (h.group pid g).vcn0.toNat

/-- The mode of a bank after the record's BANKMAP. -/
def modeAfter (k : Cluster) (r : List Byte) (b : Nat) : BankMode :=
  if bankCode r b = 0 then k.mode b else bankModeOf (bankCode r b - 1)

/-- BANKMAP cannot be applied on a cluster: reason 4 (R368). -/
def Chip.bankRefused (h : Chip) (v : Nat) (r : List Byte) : Bool :=
  (List.range 32).any fun b =>
    decide (bankCode r b ≠ 0) && (decide (bankCode r b = 6) || (h.cluster v).mode b == .cairn || h.bankLive v b)

/-- The banks of a group's region on each cluster. -/
def Group.region (g : Group) : List (Nat × Nat) :=
  g.regionVcns.flatMap fun v => ((List.range 32).filter fun b => g.banks.getLsbD b).map fun b => (v, b)

/-- Scratch that loads and stores address. -/
def isScratch (m : BankMode) : Bool := m == .scratch || m == .scratchT

/-- A named group cannot be used: an invalid entry, or a region that cannot be allocated (R368, R373). -/
def Chip.groupRefused (h : Chip) (pid : Nat) (r : List Byte) (gid : Nat) : Bool :=
  let g := h.group pid gid
  let taken := fun x : Nat × Nat =>
    match ((h.cluster x.1).banks.getOr x.2 {}).region with
    | some o => decide (o ≠ (pid, gid)) && !((h.cluster x.1).banks.getOr x.2 {}).gone
    | none => false
  -- another group that the record activates with it
  let rival := fun x : Nat × Nat => (recordGroups r).any fun o =>
    decide (o ≠ gid ∧ (h.group pid o).state ≠ 1) && (h.group pid o).region.contains x
  !g.flags.getLsbD 0 || decide (5 < g.rop) ||
    (decide (g.state ≠ 1) && g.region.any fun x =>
      !(h.part pid).holds x.1 || !isScratch (modeAfter (h.cluster x.1) r x.2) || taken x || rival x)

/-- The clusters an image goes to. -/
def imageVcns (q : Partition) (i : Image) : List Nat := if i.vcn = 0x7FF then q.vcns else [i.vcn]

/-- An image cannot be placed: reason 6 (R368). -/
def Chip.imageRefused (h : Chip) (pid : Nat) (r : List Byte) (i : Image) : Bool :=
  let q := h.part pid
  (imageVcns q i).any fun v => !q.holds v || !isScratch (modeAfter (h.cluster v) r i.bank)

/-- Tasks that the partition can run at once (R386). -/
def Chip.slotsFor (h : Chip) (pid : Nat) (regn : Nat) : Nat :=
  ((h.part pid).vcns.map fun v =>
    8 * if (h.cluster v).screen then min 7 (1744 / (16 * regn)) else min 15 (1896 / (8 * regn))).sum

/-- The admission bound B of R386, in ns. The rotations that the spacing
allows are those of R411. -/
def Chip.bound386 (h : Chip) (pid : Nat) (r : List Byte) : Nat :=
  let s := h.slotsFor pid (recRegn r)
  let deadline := recDeadline r
  let space := (h.regs.getOr 0x462 1000000).toNat * 1000
  let n := if recBlack r ∧ deadline ≤ 100000000 then 0 else deadline / space + 1
  48 + (recCount r + s - 1) / s * recBudget r + 200 * recordField r 21 2 + 60000 * n

/-- The entries of levels 3 to 1 that the stations of a partition's regions pin in their walk caches (R325): every well-formed
one, in each station that serves a region below it. -/
def Chip.pinned (h : Chip) (pid : Nat) : List WalkEntry :=
  let es := h.entriesOf pid
  let leaves := es.filter fun e => entryLeaf e.2.2
  es.flatMap fun e =>
    let fault := if entryLeaf e.2.2 then leafFault e.1 e.2.2 else pointerFault (e.1 - 1) e.2.2
    if e.1 = 0 ∨ fault.isSome then []
    else
      let first := regionOf e.2.1
      let below := leaves.filter fun x => decide (first ≤ regionOf x.2.1 ∧ regionOf x.2.1 < first + regionsOf e.1)
      ((below.flatMap fun x => (List.range (regionsOf x.1)).map fun k => stationOf pid (regionOf x.2.1 + k)).foldl addOnce []).map
        fun s => { station := s, pid := pid, level := e.1, tag := first / regionsOf e.1, entry := e.2.2, pinned := true }

/-- A station would have to pin more than 256 entries of the partition (R325). -/
def Chip.overPinned (h : Chip) (pid : Nat) : Bool :=
  let ps := h.pinned pid
  (List.range 256).any fun s => decide (256 < ps.countP fun p => p.station == s)

/-- From admission on, the stations hold those entries (R325). -/
def Chip.pin (h : Chip) (pid : Nat) : Chip := (h.pinned pid).foldl Chip.enterUpper h


/-- The LOG units and signature entries of a bounded non-quiet launch cannot be set aside (R387). -/
def Chip.cannotReserve (h : Chip) (pid : Nat) (r : List Byte) : Bool :=
  (h.part pid).vcns.any fun v =>
    let k := h.cluster v
    let total := 2048 * (List.range 32).countP fun b => modeAfter k r b == .log
    decide (total < k.reservedUnits + recordField r 29 2 * recCount r ∨ 256 < k.reservedSigs + recCount r)

/-- A bounded launch is not admitted: reason 7 (R325, R386, R387). -/
def Chip.notAdmitted (h : Chip) (pid : Nat) (r : List Byte) : Bool :=
  recBounded r && (h.part pid).bounded &&
    (decide (recDeadline r < h.bound386 pid r) || h.overPinned pid || (!recQuiet r && h.cannotReserve pid r))

/-- The logical core numbers of a partition, in increasing order (R307). -/
def Partition.lcns (q : Partition) : List Nat := q.vcns.flatMap fun v => (List.range 8).map fun c => 8 * v + c

/-- The home of index i of a launch: its chunk's core, or core i of the gang's cluster (R307, R366, R382). -/
def Chip.homeOf (h : Chip) (pid : Nat) (r : List Byte) (i : Nat) : Nat × Nat :=
  match h.gangsNamed pid r with
  | g :: _ => ((h.group pid g).vcn0.toNat, i)
  | [] =>
    let ls := (h.part pid).lcns
    let l := ls.getD (i / 64 % ls.length) 0
    (l / 8, l % 8)

/-- The register entries that the tasks of a launch and the group's members need on a core. -/
def Chip.coreNeeds (h : Chip) (pid : Nat) (r : List Byte) (gid v c : Nat) : List Nat :=
  (((List.range (recCount r)).filter fun i => h.homeOf pid r i = (v, c)).map fun _ => 8 * recRegn r) ++
    ((h.group pid gid).members.filterMap h.task?).filterMap fun t =>
      if t.packet.homeV = v ∧ t.packet.homeC = c then some (8 * t.packet.regn) else none

/-- A co-resident group or gang that no core could hold at once: reason 8 (R383). -/
def Chip.neverPlaced (h : Chip) (pid : Nat) (r : List Byte) : Bool :=
  (h.boundNamed pid r).any fun g => (h.part pid).vcns.any fun v => (List.range 8).any fun c =>
    let ns := h.coreNeeds pid r g v c
    if (h.cluster v).screen then decide (7 < ns.length ∨ 1744 < 2 * ns.sum) else decide (15 < ns.length ∨ 1896 < ns.sum)

/-- The base stamp lies below GVT: reason 3. -/
def Chip.belowGvt (h : Chip) (pid : Nat) (r : List Byte) : Bool :=
  match (h.part pid).gvt with
  | some g => (indexStamp r 0).ult g
  | none => false

/-- BANKMAP has to wait for engine commands that are checked against one of its banks (R182, R369). -/
def Chip.bankWaits (h : Chip) (pid : Nat) (r : List Byte) : Bool :=
  (h.part pid).vcns.any fun v => (List.range 32).any fun b => decide (bankCode r b ≠ 0) && h.bankInUse v b

/-- Every check of a host launch, before any effect (R368, R369): its argument block and images. -/
def Chip.launchChecks (h : Chip) (pid : Nat) (q : LaunchReq) : Except NotYet (List Byte × List Image × Chip) := do
  let r := q.record
  if recMalformed r ∨ (recordGroups r).any (fun g => (h.group pid g).gang) && h.gangBroken pid r then .error (.refuse 1)
  else if !(h.part pid).active then .error (.refuse 2)
  else do
    let (b, h) ← cpResult 1 (h.cpRead pid q.rejected (recArgs r) 128)
    if blkMalformed b true then .error (.refuse 1)
    else do
      let (is, h) ← h.imageList pid q.rejected (blkImages b)
      if beyondTime r then .error (.refuse 1)
      else if h.belowGvt pid r then .error (.refuse 3)
      else if (h.part pid).vcns.any (fun v => h.bankRefused v r) then .error (.refuse 4)
      else if (recordGroups r).any (h.groupRefused pid r) then .error (.refuse 5)
      else if is.any (h.imageRefused pid r) then .error (.refuse 6)
      else if h.notAdmitted pid r then .error (.refuse 7)
      else if h.neverPlaced pid r then .error (.refuse 8)
      else if h.bankWaits pid r then .error .wait
      else .ok (b, is, h)

/-! ## Acceptance (R369) -/

/-- A named group activated or extended (R372, R373). -/
def Chip.nameGroup (h : Chip) (pid : Nat) (host : Bool) (gid : Nat) : Chip :=
  let g := h.group pid gid
  -- what other packages have told of the group stands (R432)
  let fresh : Group := { g with
    state := 1, exitCode := 0, exitStamp := none, tabortsN := 0, red := identityOf g.rop, terms := [], arrivals := []
    granted := [], gone := [], waiting := none, total := none }
  let fresh : Group := if (h.part pid).pkgCount = 0 then { fresh with epoch := 0, remotes := [], reported := [] } else fresh
  let h := h.modGroup pid gid fun _ =>
    let g := if g.state = 1 then g else fresh
    if host then { g with named := g.named + 1 } else g
  if g.state = 1 then h
  else g.region.foldl (fun h x => h.modCluster x.1 fun k =>
    { k with banks := k.banks.put x.2 { k.banks.getOr x.2 {} with region := some (pid, gid), gone := false } }) h

/-- BANKMAP applied on a cluster. -/
def Cluster.mapBanks (k : Cluster) (r : List Byte) : Cluster :=
  (List.range 32).foldl (fun k b => if bankCode r b = 0 then k else k.switchBank b (bankModeOf (bankCode r b - 1))) k

/-- The mailboxes an image configures in a SCRATCH-T bank: records of 272 bytes, from the image's first byte on, whose CFG
is 1 (R13, R181, R293). Which bytes of an image are mailboxes the device is not told: see log 42. -/
def imageMailboxes (k : Cluster) (i : Image) : List Nat :=
  if k.mode i.bank ≠ .scratchT ∨ i.off % 16 ≠ 0 ∨ i.len % mailboxSize ≠ 0 then []
  else (List.range (i.len / mailboxSize)).filterMap fun n =>
    if recordField (i.bytes.drop (n * mailboxSize)) 12 4 / 2048 % 2 = 1 then some (65536 * i.bank + i.off + n * mailboxSize) else none

/-- An image copied into its banks (R369). -/
def Chip.copyImage (h : Chip) (pid : Nat) (i : Image) : Chip :=
  (imageVcns (h.part pid) i).foldl (fun h v =>
    (h.putScratch v (65536 * i.bank + i.off) i.bytes).modCluster v fun k =>
      { k with mailboxes := (imageMailboxes k i).foldl addOnce k.mailboxes }) h

/-- The mask of the uncommitted indices of chunk c (R308). -/
def chunkMask (count c : Nat) : Word :=
  let n := min 64 (count - 64 * c)
  BitVec.ofNat 64 (2 ^ n - 1)

/-- The launch as the command processor keeps it. -/
def newJob (q : Partition) (r : LaunchReq) (block : List Byte) (now : Nat) : LaunchJob :=
  let n := recCount r.record
  let chunks := List.range ((n + 63) / 64)
  { lnum := q.lnum + 1, slot := r.slot, record := r.record, block := block
    tvec := if r.host then blkTvec block else r.tvec
    count := n, unplaced := chunks, masks := chunks.map fun c => (c, chunkMask n c)
    bounded := recBounded r.record && q.bounded, black := recBlack r.record && q.bounded, acceptedAt := now
    host := r.host, orig := r.first.getD (q.lnum + 1) }

/-- LSTAT of a launch's slot written, and its vector raised (R367). -/
def Chip.launchStatus (h : Chip) (slot : Option Nat) (x : Nat) : Chip :=
  match slot with
  | none => h
  | some s => { h with winA := { h.winA with lstat := h.winA.lstat.put s (BitVec.ofNat 64 x) } }.raise 0

/-- A launch accepted with its effects in the order of R369. An idle partition's GVT becomes its least stamp, and a new run begins
(R356). One that a restore takes in again was accepted before: its status stands (R403). -/
def Chip.acceptLaunch (h : Chip) (pid : Nat) (r : LaunchReq) (block : List Byte) (is : List Image) : Chip :=
  let base := indexStamp r.record 0
  let vs := (h.part pid).vcns
  let h := (recordGroups r.record).foldl (fun h g => h.nameGroup pid r.host g) h
  let h := if recBankmap r.record = 0 then h else vs.foldl (fun h v => h.modCluster v fun k => k.mapBanks r.record) h
  let h := is.foldl (fun h i => h.copyImage pid i) h
  let h := if (h.part pid).bounded then h.pin pid else h
  let q := h.part pid
  let j := newJob q r block h.now
  let run := r.run.getD (if q.gvt.isNone then q.run + 1 else q.run)
  let c := cairnInterval q.cairn
  let running := if r.first.isSome then r.running else (q.jobs.filter (·.host)).map (·.orig)
  let writes := if r.first.isSome then r.writes else q.hostWrites
  let kept : LaunchReq := { r with run := some run, first := some j.orig, running := running, writes := writes }
  let fresh := r.host && r.first.isNone
  let h := h.modPart pid fun q => { q with
    lnum := j.lnum, jobs := q.jobs ++ [j], gvt := some (q.gvt.getD base), run := run
    launched := if r.host && decide (cairnF q.cairn ≠ 0) then q.launched ++ [(j.lnum, kept)] else q.launched
    hostWrites := if fresh then [] else q.hostWrites, owed := if fresh then false else q.owed
    -- rope intervals that the new run passes through again have to agree again (R434; log 60)
    ropeAgreed := if q.gvt.isNone && decide (c ≠ 0) then min q.ropeAgreed (recVt r.record / c) else q.ropeAgreed
    reports := if q.round.isSome then q.reports ++ [base] else q.reports }
  let h := if j.bounded && !recQuiet r.record then
      vs.foldl (fun h v => h.modCluster v fun k => { k with
        reserve := k.reserve.put (pid * 2 ^ 32 + j.lnum) (recordField r.record 29 2 * j.count, j.count) }) h
    else h
  if r.run.isSome then h
  else h.launchStatus r.slot (2 ^ 62 + j.lnum % 2 ^ 32)

/-- A launch refused (R367, R368). -/
def Chip.refuseLaunch (h : Chip) (r : LaunchReq) (reason : Nat) : Chip :=
  if r.run.isSome then h else h.launchStatus r.slot (reason * 2 ^ 48)

/-- A host launch of a roped partition forwarded to the partner before it is accepted (R433). The list of kinds in R427 has
none for it: kind 0 stands for it here (log 24). Both packages keep what a restore takes in again. -/
def Chip.forward (h : Chip) (pid : Nat) (r : LaunchReq) : Chip :=
  let q := h.part pid
  if q.roped ∧ q.pkg = 0 ∧ r.slot.isSome ∧ r.run.isNone then h.sendFrame 0 pid q.partner (r.record.map fun b => b.zeroExtend 64) else h

/-- A launch that a restore takes in again waits for the run that took it in first (R403) and for the launches that were DONE before
it (R339), one that starts a new run of a roped partition for the digests of the run before (log 60), and one of a partition over
several packages for the end of a round whose candidate has been sent (log 68). -/
def Partition.tooEarly (q : Partition) (r : LaunchReq) : Bool :=
  (match r.run with
    | some n => decide (n ≠ q.run) && q.gvt.isSome
    | none => false) ||
  (r.host && q.jobs.any fun j => j.host &&
    match r.first with
    | some n => decide (j.orig < n) && !r.running.contains j.orig
    | none => q.redone.contains j.orig) ||
  (q.roped && q.gvt.isNone && !q.ropeMine.isEmpty) || (decide (q.pkgCount ≠ 0) && (q.remoteCandidates.get q.pkg).isSome)

/-- Host writes that a restore has undone are laid over the memory before the launch that followed them (R337, R339, R403). -/
def Chip.replayWrites (h : Chip) (pid : Nat) (r : LaunchReq) : Chip :=
  if r.first.isSome then h.layWrites pid r.writes
  else if (h.part pid).owed then h.layWrites pid (h.part pid).hostWrites else h

/-- The first launch handed to the command processor for a partition, processed (R369). A device launch is never refused
(R379). -/
def Chip.launchProcess (h : Chip) (pid : Nat) : Chip :=
  match (h.part pid).reqs with
  | [] => h
  | r :: rs =>
    let next := fun h : Chip => h.modPart pid fun q => { q with reqs := rs }
    if (h.part pid).active ∧ ((h.part pid).halted ∨ (h.part pid).off ∨ (h.part pid).tooEarly r) then h
    else if !r.host then (next h).acceptLaunch pid r r.block []
    else
      let h := h.replayWrites pid r
      match h.launchChecks pid r with
      | .ok (b, is, h) => ((next h).forward pid r).acceptLaunch pid r b is
      | .error (.refuse n) => (next h).refuseLaunch r n
      | .error (.walk region) => h.addWalk pid region 0 (cpWaiter pid)
      | .error .wait => h

/-- LAUNCH_PROCESS (R369). -/
def execLaunchProcess (pid : Nat) (s : State) : Host.Outcome State Fault Refusal :=
  .next { s with chip := s.chip.launchProcess pid }

/-! ## Chunks (R307, R366) -/

/-- The packet of index i of a launch (R366). -/
def Chip.launchPacket (h : Chip) (pid : Nat) (j : LaunchJob) (i : Nat) : Packet :=
  let r := j.record
  let home := h.homeOf pid r i
  { origin := .launch, pc := BitVec.ofNat 64 (recEntry r), stamp := indexStamp r i, regn := recRegn r
    args := blkArgs j.block, fmtA := blkFmt j.block 0, fmtB := blkFmt j.block 1, fmtC := blkFmt j.block 2
    grps := recGrps r, quiet := recQuiet r, cores := recCores r, tvec := j.tvec, priority := recPrio r
    homeV := home.1, homeC := home.2 }

/-- A launch whose chunks are all placed names its groups no longer (R372). -/
def Chip.allPlaced (h : Chip) (pid : Nat) (j : LaunchJob) : Chip :=
  (recordGroups j.record).foldl (fun h g => (h.modGroup pid g fun x => { x with named := x.named - 1 }).exitIfDone pid g) h

/-- A chunk handed to the distributor of its core's die, which places its packets (R307). -/
def Chip.chunkHandout (h : Chip) (pid lnum chunk : Nat) : Chip :=
  match (h.part pid).jobs.find? fun j => decide (j.lnum = lnum) && j.unplaced.contains chunk with
  | none => h
  | some j =>
    if (h.part pid).halted ∨ (h.part pid).off ∨ h.fences.contains h.master then h
    else
      let rest := j.unplaced.filter (· ≠ chunk)
      let h := h.modPart pid fun q => { q with jobs := q.jobs.map fun x => if x.lnum = lnum then { x with unplaced := rest } else x }
      let is := (List.range (min 64 (j.count - 64 * chunk))).map fun i => 64 * chunk + i
      let h := is.foldl (fun h i => h.newTask switchDie pid (h.launchPacket pid j i) (some lnum)) h
      if rest = [] then h.allPlaced pid j else h

/-- CHUNK_HANDOUT (R307). -/
def execChunkHandout (pid : Nat) (lnum : Nat) (chunk : Nat) (s : State) : Host.Outcome State Fault Refusal :=
  .next { s with chip := s.chip.chunkHandout pid lnum chunk }

/-! ## Barriers (R340, R376) -/

/-- Write-throughs and engine commands of a task are performed (R340). -/
def Chip.settled (h : Chip) (uid : Nat) : Bool :=
  h.clusters.all fun k => k.2.throughs.all (fun t => decide (t.uid ≠ uid)) && k.2.cmds.all fun c => decide (c.uid ≠ uid)

/-- The clusters where a task's thread stands. -/
def Chip.whereIs (h : Chip) (uid : Nat) : List Nat := (h.threads.filter fun x => decide (x.2.uid = uid)).map (·.1)

/-- A member that stands at the group's barrier arrives (R376); not from a cluster that a fence or an error has stopped (R310). -/
def Chip.barrierArrive (h : Chip) (pid gid uid : Nat) : Chip :=
  match h.findThread uid with
  | none => h
  | some t =>
    match t.wait with
    | .barrier g op x =>
      let k := h.group pid gid
      -- once as many have arrived as complete the barrier, the next ones wait for the completion
      let room := decide (k.arrive = 0 ∨ k.arrivals.length < k.arrive.toNat)
      if g = gid ∧ t.pid = pid ∧ h.settled uid ∧ room ∧ !k.arrivals.any (fun a => decide (a.1 = uid)) ∧
          (h.whereIs uid).all (fun v => !(h.cluster v).stopped) then
        h.modGroup pid gid fun k => { k with arrivals := k.arrivals ++ [(uid, op, x)] }
      else h
    | _ => h

/-- BARRIER_ARRIVAL (R376). -/
def execBarrierArrival (pid : Nat) (gid : Nat) (tid : Nat) (s : State) : Host.Outcome State Fault Refusal :=
  .next { s with chip := s.chip.barrierArrive pid gid tid }

/-- Indices of quiet launches that name a group and have not been handed out: members that are yet to come (R372, R440). -/
def Chip.comingMembers (h : Chip) (pid gid : Nat) : Nat :=
  (((h.part pid).jobs.filter fun j => recQuiet j.record && (recordGroups j.record).contains gid).map fun j =>
    (j.unplaced.map fun c => min 64 (j.count - 64 * c)).sum).sum

/-- Quiet members of a group on this package. -/
def Chip.quietMembers (h : Chip) (pid gid : Nat) : Nat :=
  ((h.group pid gid).members.countP fun u => ((h.task? u).map fun t => t.packet.quiet).getD false) + h.comingMembers pid gid

/-- The outcome of a completion: the combined value of its BARVs with its flags, and whether their operations differ
(R376). -/
def barrierValue (xs : List (Option Nat × Word)) : Word × BitVec 5 × Bool :=
  let ks := xs.filterMap (·.1)
  match ks with
  | [] => (0, 0, false)
  | k :: _ =>
    let r := combineAll k (xs.filterMap fun x => if x.1.isSome then some x.2 else none)
    (r.1, r.2, ks.any (· ≠ k))

/-- A barrier released: the caches of the members' clusters drop their PRIVATE lines, every arrived member goes on, and
the count of arrivals restarts (R340, R376). Of a group over several packages the first `n` arrivals here are this completion's. -/
def Chip.releaseBarrier (h : Chip) (pid gid n : Nat) (r : Word) (f : BitVec 5) (mixed : Bool) : Chip :=
  let us := ((h.group pid gid).arrivals.take n).map (·.1)
  let h := (us.flatMap h.whereIs).foldl Chip.dropPrivate h
  let h := us.foldl (fun h u => h.mapThread u fun t => { t with wait := .released r f mixed }) h
  h.modGroup pid gid fun g => { g with arrivals := g.arrivals.drop n, epoch := g.epoch + 1 }

/-- The arrivals that a barrier needs (R376). -/
def Group.expects (g : Group) (quiet : Nat) : Nat := if g.arrive = 0 then quiet else g.arrive.toNat

/-- A barrier of a group of this package alone completes (R376). -/
def Chip.barrierComplete (h : Chip) (pid gid : Nat) : Chip :=
  let g := h.group pid gid
  if (h.part pid).pkgCount ≠ 0 ∨ g.arrivals = [] ∨ g.arrivals.length < g.expects (h.quietMembers pid gid) then h
  else
    let (r, f, mixed) := barrierValue (g.arrivals.map (·.2))
    h.releaseBarrier pid gid g.arrivals.length r f mixed

/-! ## Placement of co-resident groups and gangs (R381 to R383) -/

/-- The members of a group that wait for their placement, with their tasks. -/
def Chip.waitingMembers (h : Chip) (pid gid : Nat) : List (Nat × Task) :=
  (h.group pid gid).members.filterMap fun u =>
    match h.task? u with
    | some t => if t.stage = .queued ∧ (h.boundGroups t).contains gid ∧ !h.isGranted u t then some (u, t) else none
    | none => none

/-- The homes of some tasks, each once. -/
def homesOf (ts : List (Nat × Task)) : List (Nat × Nat) :=
  ts.foldl (fun hs t => if hs.contains (t.2.packet.homeV, t.2.packet.homeC) then hs else hs ++ [(t.2.packet.homeV, t.2.packet.homeC)]) []

/-- Those of some tasks whose home is this core. -/
def homedAt (ts : List (Nat × Task)) (v c : Nat) : List (Nat × Task) :=
  ts.filter fun t => decide (t.2.packet.homeV = v ∧ t.2.packet.homeC = c)

/-- A core has the FREE slots and the room for its members (R143, R381, R382). -/
def Chip.coreHolds (h : Chip) (v c : Nat) (ts : List (Nat × Task)) : Bool :=
  let needs := (homedAt ts v c).map fun t => (8 * t.2.packet.regn, h.floorStamp t.2.pid t.2.packet.stamp)
  decide (needs.length ≤ h.freeCount v c) && fitAll (h.core v c).screened (h.allocs v c) needs

/-- The placement of these members of a group granted. -/
def Chip.grant (h : Chip) (pid gid : Nat) (us : List Nat) : Chip :=
  h.modGroup pid gid fun g => { g with granted := us.foldl addOnce g.granted }

/-- The members of a core, once granted, are at the head of its queue: nothing else that may start is before them
(R142, R383; log 36). -/
def Chip.atHead (h : Chip) (v c : Nat) (ts : List (Nat × Task)) : Bool :=
  let mine := (homedAt ts v c).map (·.1)
  let first := ((h.tickets v c).filter (h.mayStart v)).take mine.length
  decide (first.length = mine.length) && first.all fun k => !k.entry.arrival && mine.contains k.entry.uid

/-- Every launch that names the group is placed, and all its waiting members can start together (R381, R382). -/
def Chip.placeable (h : Chip) (pid gid : Nat) : Bool :=
  let ts := h.waitingMembers pid gid
  let g := h.group pid gid
  !ts.isEmpty && (h.part pid).jobs.all (fun j => j.unplaced.isEmpty || !(recordGroups j.record).contains gid) &&
    (!g.gang || decide (g.members.length = 8)) && (homesOf ts).all fun x =>
      h.coreHolds x.1 x.2 ts && (h.grant pid gid (ts.map (·.1))).atHead x.1 x.2 ts

/-- A group's waiting members granted together; its reservations end (R381 to R383). -/
def Chip.placeGroup (h : Chip) (pid gid : Nat) : Chip :=
  if !h.placeable pid gid then h
  else
    let us := (h.waitingMembers pid gid).map (·.1)
    let h := (h.grant pid gid us).modGroup pid gid fun g => { g with waiting := none }
    let free := fun k : Cluster => if k.reserved = some (pid, gid) then { k with reserved := none } else k
    { h with clusters := h.clusters.each fun _ k => free k }

/-- GROUP_PLACEMENT (R381, R382). -/
def execGroupPlacement (pid : Nat) (gid : Nat) (s : State) : Host.Outcome State Fault Refusal :=
  .next { s with chip := s.chip.placeGroup pid gid }

/-- The least stamp of a group's waiting members. -/
def Chip.leastWaiting (h : Chip) (pid gid : Nat) : Word := leastStamp ((h.waitingMembers pid gid).map fun t => t.2.packet.stamp)

/-- Another group waits for a reservation of the cluster with a smaller member stamp (R383). -/
def Chip.outranked (h : Chip) (pid gid v : Nat) : Bool :=
  h.parts.any fun q => q.2.groups.any fun g =>
    decide ((q.1, g.1) ≠ (pid, gid)) && (match g.2.waiting with | some t => decide (t + 20000 ≤ h.now) | none => false) &&
      ((homesOf (h.waitingMembers q.1 g.1)).any fun x => decide (x.1 = v)) &&
      (h.leastWaiting q.1 g.1).ult (h.leastWaiting pid gid)

/-- The clusters that a group waits for put into gang reservation (R383). -/
def Chip.reserveClusters (h : Chip) (pid gid : Nat) : Chip :=
  match (h.group pid gid).waiting with
  | none => h
  | some t =>
    if h.now < t + 20000 then h
    else ((homesOf (h.waitingMembers pid gid)).map (·.1)).foldl (fun h v =>
      if (h.cluster v).reserved.isSome || h.outranked pid gid v then h
      else h.modCluster v fun k => { k with reserved := some (pid, gid), reservedAt := h.now }) h

/-- GANG_RESERVATION (R383). -/
def execGangReservation (pid : Nat) (gid : Nat) (s : State) : Host.Outcome State Fault Refusal :=
  .next { s with chip := s.chip.reserveClusters pid gid }

/-- The slot that a reservation pre-empts next on a core: no member, not the floor task (R383). -/
def Chip.reservationVictim (h : Chip) (pid gid v c : Nat) : Option Nat :=
  let xs := (h.threadsOf v c).filter fun x =>
    !(h.group pid gid).members.contains x.2.uid && !h.floorStamp x.2.pid x.2.stamp
  (greatestStamp (xs.filter fun x => !x.2.quiet)).or (greatestStamp (xs.filter (·.2.quiet)))

/-- Threads of a core pre-empted until the members fit; `fuel` bounds the slots. -/
def Chip.clearCore (h : Chip) (pid gid v c : Nat) : Nat → Chip
  | 0 => h
  | fuel + 1 =>
    if h.coreHolds v c (h.waitingMembers pid gid) then h
    else
      match h.reservationVictim pid gid v c with
      | some t => (h.preempt ⟨v, c, t⟩).clearCore pid gid v c fuel
      | none => h

/-- RESERVATION_PREEMPT (R383): 2 µs after the reservation. -/
def execReservationPreempt (pid : Nat) (gid : Nat) (s : State) : Host.Outcome State Fault Refusal :=
  let h := s.chip
  match (h.group pid gid).waiting with
  | none => .next s
  | some _ =>
    let cores := (homesOf (h.waitingMembers pid gid)).filter fun x =>
      decide ((h.cluster x.1).reserved = some (pid, gid) ∧ (h.cluster x.1).reservedAt + 2000 ≤ h.now)
    .next { s with chip := cores.foldl (fun h x => h.clearCore pid gid x.1 x.2 16) h }

end Sys2Proof.Machine
end

