-- ==== Sys2Proof/Machine/Rotation.lean ====
section
/-! DEFINITION. The pool of physical clusters: rotation (R390 to R396), self-tests and retirement (R391, R407, R408), the
detected-error sequence (R401 to R404), and the loss of a compute die (R309). -/

namespace Sys2Proof.Machine

/-! ## The pool (R389, R390) -/

/-- The record of a physical cluster. -/
def Pool.pcn (q : Pool) (p : Nat) : Phys := q.phys.getOr p { state := .untested }

/-- `f` applied to a physical cluster. -/
def Pool.mod (q : Pool) (p : Nat) (f : Phys → Phys) : Pool := { q with phys := q.phys.put p (f (q.pcn p)) }

/-- A physical cluster enters a state. -/
def Pool.enter (q : Pool) (p : Nat) (st : PcState) : Pool :=
  { q.mod p fun x => { x with state := st, since := q.seq } with seq := q.seq + 1 }

/-- Numbers of clusters: FALLOW, SPARE, RETIRED, and P (R389). -/
def Pool.fallow (q : Pool) : Nat := q.count fun x => decide (x = .fallow)
def Pool.spare (q : Pool) : Nat := q.count fun x => decide (x = .spare)
def Pool.gone (q : Pool) : Nat := q.count fun x => decide (x = .retired)
def Pool.size (q : Pool) : Nat := q.fallow + q.spare

/-- FALLOWN of ROTCTL (R411). -/
def Chip.fallown (h : Chip) : Nat := bits (h.regs.getOr 0x460 32) 0 7

/-- The fallow count with each rotation in progress counted, and its target (R390). -/
def State.fallowCount (s : State) : Nat := s.pool.fallow + s.pool.rotations.length
def State.fallowTarget (s : State) : Nat := min s.chip.fallown s.pool.size

/-- The die of a physical cluster (R300). -/
def dieOfPcn (p : Nat) : Nat := p / 128

/-- A rotation or a restore fills a cluster of the die, or this cluster, or a restore is to (R396, R403). -/
def Pool.fillsDie (q : Pool) (die : Nat) : Bool :=
  q.rotations.any (fun r => decide (dieOfPcn r.dst = die)) ||
    q.restores.any fun r => match r.target with | some t => decide (dieOfPcn t = die) | none => false
def Pool.fills (q : Pool) (p : Nat) : Bool :=
  q.rotations.any (fun r => decide (r.dst = p)) || q.restores.any fun r => decide (r.target = some p ∨ r.wish = some p)

/-- The cluster that has been longest in a state among those that qualify. -/
def Pool.longest (q : Pool) (f : Nat × Phys → Bool) : Option Nat :=
  ((q.phys.filter f).foldl (fun best x =>
    match best with
    | none => some x
    | some b => if x.2.since < b.2.since then some x else best) (none : Option (Nat × Phys))).map (·.1)

/-! ## Table entries (R304, R394) -/

/-- The entry of VCN v written with a new GEN; the routers of both physical clusters have it first (R304). -/
def Chip.writeEntry (h : Chip) (v pcn : Nat) : Chip :=
  let old := h.vmap.getOr v {}
  let e : VEntry := { valid := true, pcn := BitVec.ofNat 11 pcn, gen := old.gen + 1 }
  let first := fun r : Nat => r == old.pcn.toNat / 4 || r == pcn / 4
  let stale := h.stale.filter fun x => !(decide (x.2.1 = v) && first x.1)
  -- a router that still has an earlier entry keeps that one until it is updated
  let late := (List.range 768).filter fun r => !first r && !stale.any fun x => decide (x.1 = r ∧ x.2.1 = v)
  { h with vmap := h.vmap.put v e, stale := stale ++ late.map fun r => (r, v, old) }

/-- The routers that have the new entry for v at once send again what v has not acknowledged; the others do so as they take the entry
(R304, R394). -/
def Chip.resend (h : Chip) (v : Nat) : Chip :=
  let late := fun r : Nat => h.stale.any fun x => decide (x.1 = r ∧ x.2.1 = v)
  let again := (h.flights.filterMap fun f => h.unacknowledged v f.2).filter fun x => !late x.1
  again.foldl (fun h x => h.send x.1 v x.2) h

/-! ## Rotation (R392, R393) -/

/-- Active partitions that a VCN belongs to. -/
def Chip.owners (h : Chip) (v : Nat) : List (Nat × Partition) := h.parts.filter fun q => q.2.active && q.2.holds v

/-- ROTSPACE in ns (R411). -/
def Chip.rotSpace (h : Chip) : Nat := (h.regs.getOr 0x462 1000000).toNat * 1000

/-- A blackout of the partition is in force (R386). -/
def Chip.inBlackout (h : Chip) (q : Partition) : Bool :=
  q.bounded && q.jobs.any fun j => j.black && decide (h.now < j.acceptedAt + 100000000)

/-- A rotation of another cluster of v's partition began less than ROTSPACE ago. -/
def Chip.inSpacing (h : Chip) (q : Partition) (v : Nat) : Bool := q.rotated.any fun x => decide (x.1 ≠ v ∧ h.now < x.2 + h.rotSpace)

/-- A LIVE cluster may be rotated; `asked` skips the spacing (R392). -/
def State.eligible (s : State) (asked : Bool) (v : Nat) : Bool :=
  let h := s.chip
  !s.pool.rotations.any (fun r => decide (r.v = v)) && !s.pool.restores.any (fun r => decide (r.v = v)) &&
    !(h.cluster v).stopped && (h.owners v).all fun q => !h.inBlackout q.2 && (asked || !h.inSpacing q.2 v)

/-- The dies that hold the cairn partner of v or a cluster whose cairn v holds (R392, R401). -/
def Chip.tiedDies (h : Chip) (v : Nat) : List Nat :=
  (h.owners v).flatMap fun q =>
    if cairnInterval q.2.cairn = 0 then []
    else ((q.2.partners.get v).toList ++ (q.2.partners.filter fun x => decide (x.2 = v)).map (·.1)).map h.dieOf

/-- The VCN a physical cluster holds. -/
def Pool.vcnOf (q : Pool) (p : Nat) : Option Nat :=
  match (q.pcn p).state with
  | .live v => some v
  | _ => none

/-- The source that steering rotates next: a cluster whose counter reached 16, else the one longest without a self-test
(R392, R408). -/
def State.rotationSource (s : State) : Option Nat :=
  let xs := s.pool.phys.filter fun x => match x.2.state with | .live v => s.eligible false v | _ => false
  let old := xs.filter fun x => decide (16 ≤ x.2.age.toNat)
  ((if old = [] then xs else old).foldl (fun best x =>
    match best with
    | none => some x
    | some b => if x.2.tested < b.2.tested then some x else best) (none : Option (Nat × Phys))).map (·.1)

/-- The target of a rotation or a restore of v among the clusters of a state: the one longest in it, on a die that is not
fenced and holds neither its cairn partner nor a cairn of its own (R392, R401). -/
def State.targetFor (s : State) (v : Nat) (st : PcState) : Option Nat :=
  let bad := s.chip.tiedDies v
  s.pool.longest fun x =>
    decide (x.2.state = st) && !s.pool.fills x.1 && !bad.contains (dieOfPcn x.1) && !s.chip.fences.contains (dieOfPcn x.1)

/-- A target for a restore of v exists (R401). -/
def State.restoreTarget (s : State) (v : Nat) : Option Nat := (s.targetFor v .spare).or (s.targetFor v .fallow)

/-- The target that a waiting restore is about to take. -/
def State.nextTarget (s : State) (r : Restore) : Option Nat := if r.target.isSome then none else r.wish.or (s.restoreTarget r.v)

/-- No restore waits for the die, so that a rotation may fill it (R403). -/
def State.dieOpen (s : State) (die : Nat) : Bool :=
  !s.pool.fillsDie die && s.pool.restores.all fun r => decide ((s.nextTarget r).map dieOfPcn ≠ some die)

/-- A cluster has become SPARE, and PAUSE, the fallow count and P let steering start a rotation (R390, R392). -/
def State.mayRotate (s : State) : Bool :=
  s.pool.due && !(s.chip.regs.getOr 0x460 32).getLsbD 31 && decide (s.fallowCount < s.fallowTarget)

/-- The rotation that may start from src to dst moves this VCN (R392); none starts in reduced service (R462). -/
def State.rotationOf (s : State) (src dst : Nat) : Option Nat :=
  match s.pool.vcnOf src with
  | none => none
  | some v =>
    let asked := s.pool.requests.contains v
    let go := asked || (s.mayRotate && decide (s.rotationSource = some src))
    if go && !s.chip.reduced && s.eligible asked v && decide (8 ≤ s.pool.size ∧ s.pool.rotations.length < 16) &&
        decide (s.targetFor v .spare = some dst) && s.dieOpen (dieOfPcn dst) then some v
    else none

/-- A launch of a bounded partition runs on a cluster: every fault that a restore repairs counts as reported for it (R405). -/
def Chip.boundedRuns (h : Chip) (v : Nat) : Bool :=
  match (h.cluster v).pid with
  | some pid => (h.part pid).bounded && (h.part pid).jobs.any (·.bounded)
  | none => false

/-- CLASS of the record of a fault that a restore repairs, at detection: replayed, or reported for the bounded launches that run there
(R405; log 48). -/
def Chip.replayClass (h : Chip) (v : Nat) : Nat := if h.boundedRuns v then 2 else 1

/-- GVT of the partition that holds a cluster, as a machine-check record gives it. -/
def Chip.gvtOf (h : Chip) (v : Nat) : Word := h.gvtAt v

/-- The drain of a rotation begins (R393): every thread is pre-empted, nothing starts, and the router holds packets. A
source whose counter reached 16 is recorded as ERETIRE (R408). -/
def State.startRotation (s : State) (v src dst : Nat) : State :=
  let h := s.chip.vacateCluster v
  let h := h.modCluster v fun k => { k with paused := true, holding := true }
  let h := (h.owners v).foldl (fun h q => h.modPart q.1 fun q => { q with rotated := q.rotated.put v h.now }) h
  let age := (s.pool.pcn src).age
  let h := if 16 ≤ age.toNat then
      h.machineCheck { v := v, failed := src, code := 0x30, time := h.now, gvt := h.gvtOf v, before := age, after := age } 0 dst 0 0
    else h
  { s with
    chip := h
    pool := { s.pool with
      rotations := s.pool.rotations ++ [{ v := v, src := src, dst := dst, step := .drain }]
      requests := s.pool.requests.filter (· ≠ v), due := s.pool.due && s.pool.requests.contains v } }

/-- ROTATION_START (R392). -/
def execRotationStart (src : Nat) (dst : Nat) (s : State) : Host.Outcome State Fault Refusal :=
  .next (match s.rotationOf src dst with
    | some v => s.startRotation v src dst
    | none => s)

/-- The drain has ended: vector queues are empty, and no MMA, engine command or load of the cluster is under way (R393). -/
def Chip.drained (h : Chip) (v : Nat) : Bool :=
  let k := h.cluster v
  k.claims.all (fun c => decide (c.queue = [])) && k.gangs.all (fun g => g.queue.all fun q => !q.started) &&
    k.cmds.all (fun c => !c.checked && !c.counting && decide (c.completed = 0)) && k.throughs.isEmpty &&
    (k.threads v).all fun t => t.2.inFlight.isNone

/-- `f` applied to the rotation of a VCN. -/
def Pool.modRotation (q : Pool) (v : Nat) (f : Rotation → Rotation) : Pool :=
  { q with rotations := q.rotations.map fun r => if r.v = v then f r else r }

/-- The rotation of a VCN. -/
def Pool.rotation (q : Pool) (v : Nat) : Option Rotation := q.rotations.find? fun r => decide (r.v = v)

/-- ROTATION_COPY (R393): the cluster's state goes to the target; banks in CACHE mode start empty there. -/
def execRotationCopy (v : Nat) (s : State) : Host.Outcome State Fault Refusal :=
  match s.pool.rotation v with
  | some r =>
    if r.step = .drain ∧ s.chip.drained v then
      .next { s with
        chip := s.chip.modCluster v fun k => { k with cache := [], leases := [] }
        pool := s.pool.modRotation v fun r => { r with step := .copied } }
    else .next s
  | none => .next s

/-- The last minimum of the physical cluster that held v is kept from the remap to the resume (R447). -/
def Chip.keepMinimum (h : Chip) (v : Nat) : Chip :=
  h.modCluster v fun k => { k with lastMin := k.pid.map fun pid => leastStamp (h.reportOf pid v) }

/-- ROTATION_REMAP (R393, R394). -/
def execRotationRemap (v : Nat) (s : State) : Host.Outcome State Fault Refusal :=
  match s.pool.rotation v with
  | some r =>
    if r.step = .copied then
      .next { s with
        chip := (((s.chip.keepMinimum v).writeEntry v r.dst).resend v).modCluster v fun k => { k with holding := false }
        pool := s.pool.modRotation v fun r => { r with step := .remapped } }
    else .next s
  | none => .next s

/-- ROTATION_RESUME (R393): the source becomes FALLOW. -/
def execRotationResume (v : Nat) (s : State) : Host.Outcome State Fault Refusal :=
  match s.pool.rotation v with
  | some r =>
    if r.step = .remapped then
      let q := (s.pool.mod r.dst fun x => { x with state := .live v }).enter r.src .fallow
      .next { s with
        chip := (s.chip.modCluster v fun k => { k with paused := false, lastMin := none }).renegotiateZero v
        pool := { q with rotations := q.rotations.filter fun x => decide (x.v ≠ v) } }
    else .next s
  | none => .next s

/-- A rotation given up before its remap: the source's threads go on where they were drained, and its target is SPARE again
(R396, R403). -/
def State.dropRotation (s : State) (v : Nat) : State :=
  { s with
    chip := (s.chip.modCluster v fun k => { k with paused := false, holding := false }).serveClaims v
    pool := { s.pool with rotations := (s.pool.rotations.filter fun r => decide (r.v ≠ v)), due := true } }

/-! ## Self-tests and retirement (R390, R391, R407, R408) -/

/-- SPAREs that have waited longest enter FALLOW up to the target (R390). -/
def State.fillFallow (s : State) : Nat → State
  | 0 => s
  | n + 1 =>
    if s.fallowCount < s.fallowTarget then
      match s.pool.longest fun x => decide (x.2.state = .spare) && !s.pool.fills x.1 with
      | some p => State.fillFallow { s with pool := s.pool.enter p .fallow } n
      | none => s
    else s

/-- A rotation could start now (R390, R392). -/
def State.canRotate (s : State) : Bool :=
  s.mayRotate && decide (8 ≤ s.pool.size ∧ s.pool.rotations.length < 16) &&
    match s.rotationSource with
    | none => false
    | some src =>
      match s.pool.vcnOf src with
      | none => false
      | some v => match s.targetFor v .spare with
        | some dst => s.dieOpen (dieOfPcn dst)
        | none => false

/-- A cluster has become SPARE: it starts a rotation if one can start now (R392). -/
def State.becameSpare (s : State) : State :=
  let s : State := { s with pool := { s.pool with due := true } }
  { s with pool := { s.pool with due := s.canRotate } }

/-- SELF_TEST_START (R390): the SPARE that has waited longest. -/
def execSelfTestStart (pcn : Nat) (s : State) : Host.Outcome State Fault Refusal :=
  if s.fallowCount < s.fallowTarget ∧ !s.chip.reduced ∧ !s.canRotate ∧
      (s.pool.longest fun x => decide (x.2.state = .spare) && !s.pool.fills x.1) = some pcn then
    .next { s with pool := s.pool.enter pcn .fallow }
  else .next s

/-- A counter raised; it saturates (R407). -/
def raiseAge (a : BitVec 16) (n : Nat) : BitVec 16 := if a.toNat + n < 65536 then a + BitVec.ofNat 16 n else 0xFFFF#16

/-- Another 1,024 corrected ECC events on one of the 2,048 physical clusters (R407). -/
def Pool.correctedEvents (q : Pool) (p : Nat) : Pool :=
  if p < 2048 then q.mod p fun x => { x with age := raiseAge x.age 1 } else q

/-- A cluster retired (R408): the report grows, vector 3 is raised, and below 8 pool clusters LOST is set (R390, R412). -/
def State.retire (s : State) (pcn cause : Nat) : State :=
  let e : Retired := { cause := BitVec.ofNat 8 cause, age := (s.pool.pcn pcn).age, pcn := BitVec.ofNat 11 pcn }
  let q := s.pool.enter pcn .retired
  let q := { q with retired := q.retired ++ [e] }
  let lost := decide (q.size < 8)
  let h := s.chip.raise 3
  { s with pool := { q with gradeLost := q.gradeLost || lost }, chip := if lost ∧ !q.gradeLost then h.raise 3 else h }

/-- A self-test ends (R391, R408): outcome 0 passes, 1 is marginal, any other fails. The target of a restore has abandoned its test
(R401). -/
def State.selfTestEnd (s : State) (pcn outcome : Nat) : State :=
  if (s.pool.pcn pcn).state ≠ .fallow ∨ s.pool.fills pcn then s
  else
    let q := s.pool.mod pcn fun x => { x with age := if outcome = 1 then raiseAge x.age 2 else x.age, tested := s.pool.seq }
    let s := { s with pool := { q with seq := q.seq + 1 } }
    if 1 < outcome then s.retire pcn 2
    else if 16 ≤ (s.pool.pcn pcn).age.toNat then s.retire pcn 1
    else State.becameSpare { s with pool := s.pool.enter pcn .spare }

/-- SELF_TEST_END (R391). -/
def execSelfTestEnd (pcn : Nat) (outcome : Nat) (s : State) : Host.Outcome State Fault Refusal :=
  .next (s.selfTestEnd pcn outcome)

/-- A write of ROTCTL (R390, R411); none where a value is refused. A raise of FALLOWN starts its tests at the write. -/
def State.rotctl (s : State) (x : Word) : Option State :=
  let n := bits x 0 7
  if x &&& 0x8000007F#64 ≠ x ∨ n < 32 ∨ 64 < n then none
  else
    let up := decide (s.chip.fallown < n)
    let s : State := { s with chip := { s.chip with regs := s.chip.regs.put 0x460 x } }
    some (if up then s.fillFallow 64 else s)

/-- ROTCTL_WRITE (R390). -/
def execRotctlWrite (x : BitVec 64) (s : State) : Host.Outcome State Fault Refusal := .next ((s.rotctl x).getD s)

/-- A write of ROTREQ (R392, R411); none where it is refused. -/
def State.rotreq (s : State) (x : Word) : Option State :=
  if x &&& 0xFFF#64 ≠ x ∨ s.chip.v ≤ bits x 0 11 then none
  else if x.getLsbD 11 then some { s with pool := { s.pool with requests := addOnce s.pool.requests (bits x 0 11) } }
  else some s

/-- ROTATION_REQUEST (R392). -/
def execRotationRequest (x : BitVec 64) (s : State) : Host.Outcome State Fault Refusal := .next ((s.rotreq x).getD s)

/-! ## The detected-error sequence (R401 to R404) -/

/-- The uncommitted non-quiet tasks that have executed on cluster v or hold records or a signature there (R401). -/
def Chip.touched (h : Chip) (v : Nat) : List Nat :=
  let k := h.cluster v
  (h.tasks.filter fun t =>
    !t.2.packet.quiet && (t.2.ran.contains v || k.sigs.any (fun s => decide (s.uid = t.1)) ||
      k.log.any (fun e => decide (e.uid = t.1)) || (k.threads v).any fun x => decide (x.2.uid = t.1))).map (·.1)

/-- A screened pair as its trailing thread stands: what has left the core is what that thread has matched (R170, R175). -/
def Chip.levelPair (h : Chip) (p : At) : Chip :=
  match h.slot p, h.pairAt p with
  | .live x, some (u, _) =>
    let regs := saveFile u (h.core p.v p.c).file
    ((h.setSlot p (.live { u with regBase := x.regBase, values := [] })).setSlot p.trail (.trailing { u with values := [] } {})).modCore
      p.v p.c fun k => { k with file := loadFile k.file x.regBase u.regLim regs }
  | _, _ => h

/-- Every pair of a cluster levelled. -/
def Chip.levelPairs (h : Chip) (v : Nat) : Chip :=
  (List.range 8).foldl (fun h c => (List.range 8).foldl (fun h t => h.levelPair ⟨v, c, t⟩) h) h

/-- The cluster stopped, its tasks aborted, its quiet threads set aside (R401); nothing behind an unmatched operation of a pair
leaves (R175). -/
def Chip.stopCluster (h : Chip) (v : Nat) : Chip :=
  let h := (h.modCluster v fun k => { k with stopped := true, holding := true, mismatch := none }).levelPairs v
  let us := h.touched v
  let h := if us = [] then h else h.abortTasks us []
  h.vacateCluster v

/-- A cairn of v at its last point exists (R397, R404). -/
def Chip.hasCairn (h : Chip) (v : Nat) : Bool :=
  match (h.cluster v).pid with
  | some pid => decide (cairnInterval (h.part pid).cairn ≠ 0) && (h.cluster v).cairn.isSome
  | none => false

/-- The partition of a cluster halted with a reported fault, where it has one (R405). -/
def Chip.reportFault (h : Chip) (v : Nat) : Chip :=
  match (h.cluster v).pid with
  | some pid => h.haltPartition 3 pid v
  | none => h

/-- The restores under way whose cairn lay on v are lost with it (R403): their partitions fall back to a flash image. -/
def State.loseCairns (s : State) (v : Nat) : State :=
  let hit := (s.chip.owners v).filter fun q =>
    s.pool.restores.any fun r => decide (r.v ≠ v ∧ q.2.partners.get r.v = some v)
  { s with chip := hit.foldl (fun h q => (h.reportBounded q.1).fallBack q.1 v) s.chip }

/-- A machine check on the cluster of v (R401): the sequence begins, or the fault is reported where there is no cairn or
no target (R390, R405). A cluster of a lost die that no partition holds has nothing to lose, and is placed elsewhere (R404). -/
def State.errorSequence (s : State) (r : Restore) : State :=
  let r := { r with cls := s.chip.replayClass r.v }
  let s := { s with chip := s.chip.stopCluster r.v }
  let s := s.loseCairns r.v
  let idle := decide (r.code = 0 ∧ (s.chip.cluster r.v).pid = none)
  if (s.chip.hasCairn r.v || idle) && (r.wish.isSome || (s.restoreTarget r.v).isSome) then
    { s with pool := { s.pool with restores := s.pool.restores ++ [r] } }
  else { s with chip := (s.chip.reportFault r.v).machineCheck r 2 0xFFFF 0 0 }

/-- What a machine check adds to the counter (R407). -/
def errorAge (code : Nat) : Nat := if code = 0x22 then 8 else 4

/-- A detected error on the target of a rotation before its resume (R396): it returns to FALLOW, and the rotation restarts
at the copy with another target, or the source goes on with v. -/
def State.retarget (s : State) (r : Rotation) : State :=
  let q := s.pool.enter r.dst .fallow
  let s : State := { s with
    pool := { q with rotations := q.rotations.filter fun x => decide (x.v ≠ r.v) }
    chip := if r.step = .remapped then s.chip.writeEntry r.v r.src else s.chip }
  match s.targetFor r.v .spare with
  | some dst => { s with
      chip := s.chip.modCluster r.v fun k => { k with holding := true }
      pool := { s.pool with rotations := s.pool.rotations ++ [{ r with dst := dst, step := .drain }] } }
  | none => { s with chip := (s.chip.modCluster r.v fun k => { k with paused := false, holding := false }).serveClaims r.v }

/-- The gang whose MMA the engine mirrors at this moment (R247, R248): a half-width or `.sp` MMA that has started, or any
MMA that has where SCRCFG.CHECKED is 1. -/
def Cluster.mirrored (k : Cluster) : Option Gang :=
  k.gangs.find? fun g => g.queue.any fun q =>
    q.started && isMma q.op.word && (k.checked || decide (mmaSub q.op.word / 2 ≠ 0))

/-- A machine check can arise on a cluster: EMIRROR wants a mirrored pass (R248), ESCREEN a screened core (R175). -/
def Cluster.mayFail (k : Cluster) (code : Nat) : Bool :=
  (decide (code = 0x20) && k.mirrored.isSome) || (decide (code = 0x21) && k.cores.any fun c => c.2.screened) || decide (code = 0x22)

/-- The engine runs again after the cluster's error sequence (R248, R402). -/
def Cluster.ungang (k : Cluster) : Cluster := { k with gangs := k.gangs.map fun g => { g with stopped := false } }

/-- EMIRROR: the engine stops, and no later operation of the gang becomes readable (R248). -/
def Chip.stopMirrored (h : Chip) (v : Nat) : Chip :=
  match (h.cluster v).mirrored with
  | some g => h.modGang v g.pid g.gid fun g => { g with stopped := true }
  | none => h

/-- The machine check's counter and record (R407, R414). -/
def State.errorStop (s : State) (v code core slot : Nat) (detail : BitVec 16) (detail2 : Word) : State :=
  let h := s.chip
  let e := h.vmap.getOr v {}
  if !(h.cluster v).mayFail code ∨ !e.valid ∨ (h.cluster v).stopped then s
  else
    let pcn := e.pcn.toNat
    let before := (s.pool.pcn pcn).age
    let after := raiseAge before (errorAge code)
    let h := if code = 0x20 then h.stopMirrored v else h
    let s := { s with chip := h, pool := s.pool.mod pcn fun x => { x with age := after } }
    let r : Restore :=
      { v := v, failed := pcn, code := code, core := core, slot := slot, detail := detail, detail2 := detail2
        time := h.now, gvt := h.gvtOf v, before := before, after := after }
    match s.pool.rotation v with
    | none => s.errorSequence r
    | some x =>
      if x.step = .remapped then
        let s := s.retarget x
        { s with chip := s.chip.machineCheck r (s.chip.replayClass v) x.src 0 0 }
      else
        -- the target of the rotation becomes the target of the restore (R396)
        let q := { s.pool with rotations := s.pool.rotations.filter fun y => decide (y.v ≠ v) }
        State.errorSequence { s with pool := q, chip := s.chip.modCluster v fun k => { k with paused := false } } { r with wish := some x.dst }

/-- ERROR_STOP (R401). -/
def execErrorStop (v : Nat) (code : Nat) (core : Nat) (slot : Nat) (detail : BitVec 16) (detail2 : BitVec 64) (s : State) : Host.Outcome State Fault Refusal :=
  .next (s.errorStop v code core slot detail detail2)

/-- An EECC of a physical cluster that a rotation fills (R396, R407, R414). -/
def State.targetError (s : State) (p : Nat) : State :=
  match s.pool.rotations.find? fun r => decide (r.dst = p) with
  | none => s
  | some x =>
    let h := s.chip
    let before := (s.pool.pcn p).age
    let after := raiseAge before (errorAge 0x22)
    let r : Restore :=
      { v := x.v, failed := p, code := 0x22, time := h.now, gvt := h.gvtOf x.v, before := before, after := after }
    let cls := h.replayClass x.v
    let s := State.retarget { s with pool := s.pool.mod p fun y => { y with age := after } } x
    { s with chip := s.chip.machineCheck r cls x.src 0 0 }

/-- Restores that wait take their targets in order of detection (R403): none detected before v's is about to fill this die. -/
def State.firstFor (s : State) (v die : Nat) : Bool :=
  (s.pool.restores.takeWhile fun r => decide (r.v ≠ v)).all fun r => decide ((s.nextTarget r).map dieOfPcn ≠ some die)

/-- The restore of v chooses its target (R401, R403): a rotation that fills the target's die is abandoned. -/
def State.cairnRestore (s : State) (v : Nat) : State :=
  match s.pool.restores.find? fun r => decide (r.v = v) with
  | none => s
  | some r =>
    if r.target.isSome then s
    else
      let drop := fun s : State => { s with pool := { s.pool with restores := s.pool.restores.filter fun x => decide (x.v ≠ v) } }
      match r.wish.or (s.restoreTarget v) with
      | none =>
        let s := drop s
        { s with chip := (s.chip.reportFault v).machineCheck r 2 0xFFFF 0 0 }
      | some t =>
        let die := dieOfPcn t
        if s.pool.restores.any (fun x => match x.target with | some u => decide (dieOfPcn u = die) | none => false) ∨
            !s.firstFor v die then s
        else
          let vs := (s.pool.rotations.filter fun x => decide (dieOfPcn x.dst = die ∧ x.step ≠ .remapped)).map (·.v)
          let s := vs.foldl State.dropRotation s
          let k := s.chip.cluster v
          let n := k.inputs.length + (k.threads v).countP fun x => x.2.quiet
          { s with
            chip := s.chip.machineCheck r r.cls t n ((k.cairn.map (·.vt)).getD 0)
            pool := { s.pool with restores := s.pool.restores.map fun x =>
              if x.v = v then { x with target := some t, image := k.cairn } else x } }

/-- CAIRN_RESTORE (R401). -/
def execCairnRestore (v : Nat) (s : State) : Host.Outcome State Fault Refusal := .next (s.cairnRestore v)

/-- A mask says that a launched task has not committed (R308). -/
def LaunchJob.holds (j : LaunchJob) (t : Task) : Bool :=
  let s := t.packet.stamp
  let i := (bits s 24 40 - recordField j.record 16 5) * 2 ^ 24 + bits s 0 24
  some j.lnum == t.launch && (j.masks.getOr (i / 64) 0).getLsbD (i % 64)

/-- The master reissues to the core they belong to the indices whose mask bits are set and whose packets a fenced die has lost: they
stand in no queue and no packet carries them (R307, R309). Only a live master does. -/
def Chip.reissue (h : Chip) (v : Nat) : Chip :=
  if h.fences.contains h.master then h
  else
    let lost := h.tasks.filter fun t =>
      t.2.stage = .queued && t.2.packet.origin = .launch && t.2.packet.homeV = v && (h.part t.2.pid).jobs.any (·.holds t.2) &&
        !(h.core v t.2.packet.homeC).queued t.1 &&
        !h.flights.any fun f => match f.2.body with | .task _ _ u => decide (u = t.1) | _ => false
    lost.foldl (fun h t => h.send switchDie v (.task v t.2.packet.homeC t.1)) h

/-- The digests of a restore under way differ (R402). -/
def Pool.digestsDiffer (q : Pool) (v : Nat) : Pool :=
  { q with restores := q.restores.map fun r => if r.v = v ∧ r.target.isSome then { r with differs := true } else r }

/-- COAST_FORWARD_END (R402): the re-execution leaves the cluster as it stood at the stop, less its uncommitted work; the
VCN goes to the target, and the failed cluster goes FALLOW for its deep test (R401). What a fenced die had sent and the switch
die dropped is sent again, and what the die's distributor held is reissued (R309, R394). Where the digests differ, the partition halts and the fault is reported
(R402; log 27 says where that is known from). -/
def execCoastForwardEnd (v : Nat) (s : State) : Host.Outcome State Fault Refusal :=
  match s.pool.restores.find? fun r => decide (r.v = v) with
  | none => .next s
  | some r =>
    match r.target with
    | none => .next s
    | some t =>
      if r.differs then
        .next { s with
          chip := s.chip.reportFault v
          pool := { s.pool with restores := s.pool.restores.filter fun x => decide (x.v ≠ v) } }
      else
      let q := (s.pool.mod t fun x => { x with state := .live v }).enter r.failed .fallow
      let h := (((s.chip.writeEntry v t).resend v).modCluster v fun k =>
        { k.ungang with stopped := false, holding := false, lastMin := none, cache := [], leases := [] }).serveClaims v
      let h := r.dropped.foldl (fun h x => h.send (h.routerOf v) x.1 x.2) h
      .next { s with
        chip := h.reissue v
        pool := { q with restores := q.restores.filter fun x => decide (x.v ≠ v) } }

/-! ## The loss of a compute die (R309, R404) -/

/-- VCNs whose entry names a physical cluster of the die, in order. -/
def Chip.onDie (h : Chip) (die : Nat) : List Nat :=
  (h.vmap.filter fun e => e.2.valid && decide (dieOfPcn e.2.pcn.toNat = die)).map (·.1)

/-- VCNs whose cairn the die held get a new partner, and have no cairn until their next point (R404). -/
def Chip.newPartners (h : Chip) (vs : List Nat) : Chip :=
  h.parts.foldl (fun h q =>
    let us := (q.2.partners.filter fun x => vs.contains x.2).map (·.1)
    let h := us.foldl (fun h u => h.modCluster u fun k => { k with cairn := none, cairnNext := none, inputs := [], inputsNext := [] }) h
    h.assignPartners q.1 us) h

/-- A VCN of the fenced die: its entry is no longer valid, and it is restored elsewhere (R309, R404). -/
def State.loseCluster (s : State) (v : Nat) : State :=
  let h := s.chip
  let e := h.vmap.getOr v {}
  let h := { h with vmap := h.vmap.put v { e with valid := false } }
  let wish := match s.pool.rotation v with
    | some x => if x.step = .remapped then none else some x.dst
    | none => none
  -- once the entry names the target, the source of a rotation holds v no longer (R389)
  let p := match s.pool.rotation v with
    | some x => if x.step = RotStep.remapped then (s.pool.mod x.dst fun y => { y with state := .live v }).enter x.src .fallow else s.pool
    | none => s.pool
  let q := { p with rotations := p.rotations.filter fun y => decide (y.v ≠ v) }
  let s : State := { s with chip := h.modCluster v fun k => { k with paused := false }, pool := q }
  if (h.cluster v).stopped then s
  else s.errorSequence { v := v, failed := e.pcn.toNat, wish := wish, time := h.now, gvt := h.gvtOf v }

/-- Packets that the die has sent, each with the first VCN of its router that the die held: the switch die drops them (R309). -/
def Chip.sentFrom (h : Chip) (die : Nat) (vs : List Nat) : List (Nat × Nat × Packetry) :=
  h.flights.filterMap fun f =>
    if f.2.src / 32 = die ∧ f.2.src < 512 then
      (vs.find? fun v => decide (h.routerOf v = f.2.src)).bind fun v => (Packetry.dest f.2.body).map fun d => (v, d, f.2.body)
    else none

/-- The die drops out (R309): its packets are dropped, its entries cleared in every router, and the packets of its distributor lost. -/
def Chip.cutDie (h : Chip) (die : Nat) (vs : List Nat) : Chip :=
  let onDie := fun e : VEntry => decide (dieOfPcn e.pcn.toNat = die)
  let h : Chip := { h with
    fences := h.fences ++ [die]
    flights := h.flights.filter fun f => !decide (f.2.src / 32 = die ∧ f.2.src < 512)
    stale := h.stale.map fun x => if onDie x.2.2 then (x.1, x.2.1, { x.2.2 with valid := false }) else x }
  let launched := fun u : Nat => match h.task? u with
    | some t => decide (t.stage = .queued ∧ t.packet.origin = .launch)
    | none => false
  vs.foldl (fun h v => h.modCluster v fun k => { k with cores := k.cores.each fun _ c =>
    { c with queue := c.queue.filter fun e => e.arrival || !launched e.uid
             overflow := c.overflow.filter fun e => e.arrival || !launched e.uid } }) h

/-- DIE_FENCE (R309). -/
def execDieFence (die : Nat) (s : State) : Host.Outcome State Fault Refusal :=
  if 16 ≤ die ∨ s.chip.fences.contains die then .next s
  else
    let vs := s.chip.onDie die
    let sent := s.chip.sentFrom die vs
    -- a restore into the die starts again
    let again := fun r : Restore => if r.target.map dieOfPcn = some die then { r with target := none, differs := false } else r
    let s : State := { s with
      chip := s.chip.cutDie die vs
      pool := { s.pool with restores := s.pool.restores.map again } }
    -- rotations whose target the die held are given up
    let lost := (s.pool.rotations.filter fun r => decide (dieOfPcn r.dst = die ∧ r.step ≠ .remapped)).map (·.v)
    let s := lost.foldl State.dropRotation s
    let s := vs.foldl State.loseCluster s
    let mine := fun r : Restore => { r with dropped := r.dropped ++ (sent.filter fun x => decide (x.1 = r.v)).map (·.2) }
    .next { s with chip := s.chip.newPartners vs, pool := { s.pool with restores := s.pool.restores.map mine } }

/-- MASTER_TAKEOVER (R309): the lowest-numbered live die becomes master and reissues the indices of the restored clusters that have
not committed, to the same logical cores. -/
def execMasterTakeover (s : State) : Host.Outcome State Fault Refusal :=
  let h := s.chip
  if h.fences.contains h.master then
    match (List.range 16).find? fun d => !h.fences.contains d with
    | some d =>
      let back := (List.range 2048).filter fun v => (h.vmap.getOr v {}).valid && !(h.cluster v).stopped
      .next { s with chip := back.foldl Chip.reissue { h with master := d } }
    | none => .next s
  else .next s

end Sys2Proof.Machine
end

