-- ==== Sys2Proof/Machine/Boot.lean ====
section
/-! DEFINITION. Power-on and bring-up (R389, R420, R424, R462), window B (R416), attestation (R422), power and temperature
(R425), and the loss of memory dies and slices (R405). -/

namespace Sys2Proof.Machine

/-! ## Power-on (R420) -/

/-- Every firmware image has a copy that verifies: bit 2k stands for the first copy of image k, bit 2k + 1 for the second. -/
def imagesGood (images : BitVec 8) : Bool :=
  (List.range 4).all fun k => images.getLsbD (2 * k) || images.getLsbD (2 * k + 1)

/-- BOOTSTAT changes, which raises vector 6 (R418). -/
def Chip.setStage (h : Chip) (n : Nat) : Chip := { h with stage := n }.raise 6

/-- The copy of each image that is loaded: the first, unless it fails (R420). -/
def loadedCopies (images : BitVec 8) : List Nat := (List.range 4).map fun k => if images.getLsbD (2 * k) then 0 else 1

/-- POWER_ON (R420): the four images are loaded, or the module stays in recovery. -/
def execPowerOn (images : BitVec 8) (s : State) : Host.Outcome State Fault Refusal :=
  let h := s.chip
  if h.booted ∨ h.stage ≠ 0 then .next s
  else if imagesGood images then .next { s with chip := { h with booted := true, loaded := loadedCopies images } }
  else .next { s with chip := h.setStage 15 }

/-! ## Bring-up (R424, R462) -/

/-- The lowest-numbered SPARE cluster (log 7). -/
def Pool.lowestSpare (q : Pool) : Option Nat := (q.phys.find? fun x => decide (x.2.state = .spare)).map (·.1)

/-- VCN v placed on the lowest-numbered SPARE cluster, and its table entry written at every router (R304; log 7). -/
def State.placeVcn (s : State) (v : Nat) : State :=
  match s.pool.lowestSpare with
  | none => s
  | some p =>
    let e : VEntry := { valid := true, pcn := BitVec.ofNat 11 p, gen := (s.chip.vmap.getOr v {}).gen + 1 }
    { s with
      chip := { s.chip with vmap := s.chip.vmap.put v e }
      pool := s.pool.mod p fun x => { x with state := .live v } }

/-- V raised to n: the new VCNs placed in order. -/
def State.raiseV (s : State) (n : Nat) : State :=
  let vs := (List.range (n - s.chip.v)).map (s.chip.v + ·)
  let s := vs.foldl State.placeVcn s
  { s with chip := { s.chip with v := n } }

/-- V of reduced service (R424). -/
def reducedV (passed : Nat) : Nat := 64 * ((passed - 32) / 64)

/-- A cluster's power-on self-test is still to end (R424). -/
def State.bringsUp (s : State) (pcn : Nat) : Bool :=
  s.chip.booted && decide (pcn ≤ 2047) && decide ((s.pool.pcn pcn).state = .untested) && decide (s.chip.stage < 4)

/-- The module reaches its grade (R2, R424): in reduced service, every cluster has passed or is retired, and at least the grade's V
have passed (log 26). -/
def State.reachGrade (s : State) : State :=
  if s.chip.stage = 2 ∧ s.pool.passed + s.pool.gone = 2048 ∧ s.chip.gradeV ≤ s.pool.passed then
    let s := s.raiseV s.chip.gradeV
    State.fillFallow { s with chip := { s.chip with reduced := false }.setStage 3 } 64
  else s

/-- A cluster has passed its power-on self-test (R424). The 512th opens reduced service. -/
def State.clusterPass (s : State) (pcn : Nat) : State :=
  if !s.bringsUp pcn then s
  else
    let q := s.pool.enter pcn .spare
    let s : State := { s with pool := { q with passed := q.passed + 1 } }
    if s.chip.stage = 0 ∧ s.pool.passed = 512 then
      let s := s.raiseV (reducedV s.pool.passed)
      { s with chip := { s.chip with reduced := true }.setStage 2 }
    else s.reachGrade

/-- A cluster has failed its power-on self-test and is retired, with cause 2 (R408, R424). -/
def State.selfTestFailed (s : State) (pcn : Nat) : State :=
  if !s.bringsUp pcn then s
  else
    let q := s.pool.enter pcn .retired
    let e : Retired := { cause := 2, age := (s.pool.pcn pcn).age, pcn := BitVec.ofNat 11 pcn }
    State.reachGrade { s with pool := { q with retired := q.retired ++ [e] }, chip := s.chip.raise 3 }

/-- BRINGUP_CLUSTER_PASS (R424). -/
def execBringupClusterPass (pcn : Nat) (s : State) : Host.Outcome State Fault Refusal := .next (s.clusterPass pcn)

/-- GRADE_TIMEOUT (R424): 90 s after power-on the module stays in reduced service. -/
def execGradeTimeout (s : State) : Host.Outcome State Fault Refusal :=
  .next { s with chip := if s.chip.stage = 2 ∧ 90000000000 ≤ s.chip.now then s.chip.setStage 4 else s.chip }

/-! ## Window B (R416) -/

/-- The PA that an access of `n` bytes at offset `off` of window B reaches; none outside the window, and in recovery. -/
def Chip.windowB (h : Chip) (off n : Nat) : Option Nat :=
  if off + n ≤ h.barSize ∧ 1 ≤ n ∧ n ≤ 8 ∧ h.stage ≠ 15 then
    some ((h.reg 0x4A0 &&& 0x7FFFFFFFFFFFFFFF#64).toNat + off)
  else none

/-- WINDOW_B_READ (R416): the value that the slice holds goes to the host. -/
def execWindowBRead (off : Nat) (n : Nat) (s : State) : Host.Outcome State Fault Refusal :=
  let h := s.chip
  match h.windowB off n with
  | some a =>
    let x := BitVec.ofNat 64 (bytesToNat (h.hbm.readBytes a n))
    .next { s with chip := { h.touch a false with hostAnswer := some x } }
  | none => .next s

/-- WINDOW_B_WRITE (R416): performed at the line's slice. -/
def execWindowBWrite (off : Nat) (n : Nat) (x : BitVec 64) (s : State) : Host.Outcome State Fault Refusal :=
  let h := s.chip
  match h.windowB off n with
  | some a => .next { s with chip := (h.writePrivate a (wordBytes n x)).keepHostWrite a (wordBytes n x) }
  | none => .next s

/-! ## Attestation (R422) -/

/-- A write of ATTREQ3: a report over the nonce starts, in place of one being built. -/
def Chip.attest (h : Chip) (x : Word) : Chip :=
  let h := { h with regs := h.regs.put 0x4A9 x }
  { h with attesting := some ([0x4A6, 0x4A7, 0x4A8, 0x4A9].map h.reg) }

/-- ATTESTATION_REQUEST (R422). -/
def execAttestationRequest (x : BitVec 64) (s : State) : Host.Outcome State Fault Refusal :=
  .next { s with chip := s.chip.attest x }

/-- ATTESTATION_REPORT (R422): the signed report is sent to ATTADDR within the command window, and vector 6 follows it. -/
def execAttestationReport (s : State) : Host.Outcome State Fault Refusal :=
  let h := s.chip
  match h.attesting with
  | some nonce =>
    let digests := h.loaded.zipIdx.map fun x => Config.imageDigest x.2 x.1
    let bs := Config.attestation nonce Config.identityKeys digests (BitVec.ofNat 64 h.gradeCode) (BitVec.ofNat 64 h.v)
      (BitVec.ofNat 64 s.pool.gone)
    .next { s with chip := { h with
      attesting := none, rings := h.rings ++ [{ ring := 3, bytes := bs, addr := (h.reg 0x4A5).toNat }] } }
  | none => .next s

/-! ## Power and losses (R405, R425) -/

/-- POWER_SAMPLE (R425): vector 7 when the limiter acts. -/
def execPowerSample (watts : Nat) (s : State) : Host.Outcome State Fault Refusal :=
  let h := s.chip
  let x := BitVec.ofNat 64 (min watts 16383)
  let h := { h with regs := h.regs.put 0x4AB x }
  .next { s with chip := if (h.regs.getOr 0x4AA 12000).ult x then h.raise 7 else h }

/-- A loss of the package (R309, R405): every partition is reported as halted, and the package stops. -/
def Chip.loseAll (h : Chip) : Chip :=
  { (h.parts.filter fun q => q.2.active).foldl (fun h q => h.haltPartition 3 q.1 (q.2.vcns.headD 0)) h with lost := true }

/-- THERMAL_TRIP (R425): a loss of the package. -/
def execThermalTrip (s : State) : Host.Outcome State Fault Refusal := .next { s with chip := s.chip.loseAll }

/-- MEMORY_DIE_LOSS (R405): one of the 16 memory dies (0 to 15) or the switch die (16) is lost, and with it the package. -/
def execMemoryDieLoss (die : Nat) (s : State) : Host.Outcome State Fault Refusal :=
  .next { s with chip := if die ≤ 16 then s.chip.loseAll else s.chip }

/-- The lines that a slice holds: of its core-side tier, and of its two channels (R312 to R314). -/
def Chip.linesOf (h : Chip) (slice : Nat) : List Nat :=
  ((h.tiers.slices.getOr slice []) ++ (h.tiers.channels.filter fun c => decide (memorySliceOf c.1 = slice)).flatMap (·.2)).map (·.line)

/-- Lines lost to an uncorrectable error (R405): each partition that one of them belongs to goes back to its flash image, or halts
where it has none. -/
def Chip.loseLines (h : Chip) (lines : List Nat) : Chip :=
  let hit := (h.parts.filter fun q => q.2.active).filter fun q =>
    let ranges := h.pagesOf q.1
    lines.any fun l => ranges.any fun r => decide (r.1 < 64 * l + 64 ∧ 64 * l < r.1 + r.2)
  hit.foldl (fun h q => (h.reportBounded q.1).fallBack q.1 (q.2.vcns.headD 0)) h

/-- SLICE_UNCORRECTABLE_ERROR (R405): the lines that the slice holds. -/
def execSliceUncorrectableError (slice : Nat) (s : State) : Host.Outcome State Fault Refusal :=
  .next (if 512 ≤ slice then s else { s with chip := s.chip.loseLines (s.chip.linesOf slice) })

end Sys2Proof.Machine
end

