-- ==== Sys2Proof/Machine/Branch.lean ====
section
/-! DEFINITION. Branches and jumps (R63 to R67). They do not close windows; a taken branch counts as one issue. -/

namespace Sys2Proof.Machine

/-- The target `n` words from the instruction at `pc` (R35). -/
def wordTarget {n : Nat} (pc : Word) (off : BitVec n) : Word := pc + off.signExtend 64 * 4

/-- A compare and branch (R63). -/
def branchForm (w : Half) (a b : BitVec 7) (off : BitVec 9) (cond : Word → Word → Bool) (s : State) :
    Host.Outcome State Fault Refusal :=
  issueHere (form w [.src a, .src b]) s fun self h => do
    let (x, h) ← h.read a
    let (y, h) ← h.read b
    .ok (if cond x y then { h with th := { h.th with pc := wordTarget self.pc off } } else h)

/-- A bit test and branch (R64). -/
def bitBranchForm (w : Half) (a : BitVec 7) (bit : BitVec 6) (sense : Bool) (off : BitVec 12) (s : State) :
    Host.Outcome State Fault Refusal :=
  issueHere (form w [.src a]) s fun self h => do
    let (x, h) ← h.read a
    .ok (if x.getLsbD bit.toNat = sense then { h with th := { h.th with pc := wordTarget self.pc off } } else h)

/-- BEQ (R63). -/
def execBeq (a : BitVec 7) (b : BitVec 7) (off : BitVec 9) (s : State) : Host.Outcome State Fault Refusal :=
  branchForm (wordB 24#6 0#3 a b off) a b off (fun x y => x == y) s

/-- BNE (R63). -/
def execBne (a : BitVec 7) (b : BitVec 7) (off : BitVec 9) (s : State) : Host.Outcome State Fault Refusal :=
  branchForm (wordB 24#6 1#3 a b off) a b off (fun x y => x != y) s

/-- BLT (R63). -/
def execBlt (a : BitVec 7) (b : BitVec 7) (off : BitVec 9) (s : State) : Host.Outcome State Fault Refusal :=
  branchForm (wordB 24#6 2#3 a b off) a b off (fun x y => x.slt y) s

/-- BGE (R63). -/
def execBge (a : BitVec 7) (b : BitVec 7) (off : BitVec 9) (s : State) : Host.Outcome State Fault Refusal :=
  branchForm (wordB 24#6 3#3 a b off) a b off (fun x y => y.sle x) s

/-- BLTU (R63). -/
def execBltu (a : BitVec 7) (b : BitVec 7) (off : BitVec 9) (s : State) : Host.Outcome State Fault Refusal :=
  branchForm (wordB 24#6 4#3 a b off) a b off (fun x y => x.ult y) s

/-- BGEU (R63). -/
def execBgeu (a : BitVec 7) (b : BitVec 7) (off : BitVec 9) (s : State) : Host.Outcome State Fault Refusal :=
  branchForm (wordB 24#6 5#3 a b off) a b off (fun x y => y.ule x) s

/-- BBS (R64). -/
def execBbs (a : BitVec 7) (bit : BitVec 6) (off : BitVec 12) (s : State) : Host.Outcome State Fault Refusal :=
  bitBranchForm (wordT 25#6 a bit 1#1 off) a bit true off s

/-- BBC (R64). -/
def execBbc (a : BitVec 7) (bit : BitVec 6) (off : BitVec 12) (s : State) : Host.Outcome State Fault Refusal :=
  bitBranchForm (wordT 25#6 a bit 0#1 off) a bit false off s

/-- J (R65). -/
def execJ (off : BitVec 26) (s : State) : Host.Outcome State Fault Refusal :=
  issueHere (form (wordJ 26#6 off)) s fun self h =>
    .ok { h with th := { h.th with pc := wordTarget self.pc off } }

/-- JAL (R65): the link in g1, then the jump. -/
def execJal (off : BitVec 26) (s : State) : Host.Outcome State Fault Refusal :=
  issueHere (form (wordJ 27#6 off) [.dst 1]) s fun self h =>
    let h := h.write 1 (self.pc + 4)
    .ok { h with th := { h.th with pc := wordTarget self.pc off } }

/-- JALR (R66): the target is computed before the link is written. -/
def execJalr (d : BitVec 7) (a : BitVec 7) (imm : BitVec 12) (s : State) : Host.Outcome State Fault Refusal :=
  issueHere (form (wordI 28#6 d a imm) [.dst d, .src a]) s fun self h => do
    let (x, h) ← h.read a
    let t := x + imm.signExtend 64
    if bits t 0 2 ≠ 0 then .error (.trap .ealign t)
    else
      let h := h.write d (self.pc + 4)
      .ok { h with th := { h.th with pc := t } }

end Sys2Proof.Machine
end

