-- ==== Sys2Proof/Machine/Debug.lean ====
section
/-! DEFINITION. The per-thread system registers (R23 to R25), the debug port (R134, R135), the restart of a core's dispatch
(R124) and the rotation boundary (R137, R158, R167). -/

namespace Sys2Proof.Machine

/-! ## Per-thread registers (R23, R24) -/

/-- TSTAT (R24). -/
def Thread.tstat (t : Thread) : Word :=
  BitVec.ofNat 64 ((if t.sup then 1 else 0) + (if t.quiet then 2 else 0) + (if t.cores then 4 else 0) +
    (if t.away then 8 else 0) + t.ldq.length * 16 + t.sdq.length * 512)

/-- A per-thread register; none where the index names none (R23). -/
def Thread.reg (t : Thread) (i : Nat) : Option Word :=
  match i with
  | 0x000 => some t.tstat
  | 0x001 => some (t.frm.zeroExtend 64)
  | 0x002 => some (t.fflags.zeroExtend 64)
  | 0x003 => some t.tstamp
  | 0x004 => some t.fmtA
  | 0x005 => some t.fmtB
  | 0x006 => some t.fmtC
  | 0x007 => some (t.grps.zeroExtend 64)
  | 0x008 => some (BitVec.ofNat 64 (t.carryCount * 256 + t.carryBase))
  | 0x009 => some (BitVec.ofNat 64 (t.homeC * 65536 + t.homeV))
  | 0x010 => some (t.traps.cause.zeroExtend 64)
  | 0x011 => some t.traps.epc
  | 0x012 => some t.traps.cpc
  | 0x013 => some t.traps.val
  | 0x014 => some t.traps.vec
  | 0x020 => some (BitVec.ofNat 64 t.regBase)
  | 0x021 => some (BitVec.ofNat 64 t.regLim)
  | _ => none

/-- Who may read and write a register (R24). -/
inductive Access24 where
  | r | rw | rs | s
  deriving DecidableEq, Repr

/-- The access code of a per-thread register. -/
def threadAccess (i : Nat) : Access24 :=
  if [0x000, 0x003, 0x007, 0x009].contains i then .r
  else if [0x001, 0x002, 0x008].contains i then .rw
  else if [0x020, 0x021].contains i then .s
  else .rs

/-- What a refused write raises. -/
inductive RegFault where
  | eill
  | ereg (r : Nat)
  deriving DecidableEq, Repr

/-- An allocation that satisfies R17 beside the other slots' ranges. -/
def allocOk (others : List (Nat × Nat)) (base lim : Nat) : Bool :=
  decide (base % 8 = 0 ∧ lim % 8 = 0 ∧ 8 ≤ lim ∧ lim ≤ 120 ∧ base + lim ≤ 2048) && rangeFree others base lim

/-- A write of a per-thread register that its access code allows (R24, R25, R130). `slot0`: the dispatcher stays at
REGBASE 0 (R139). -/
def Thread.setReg (t : Thread) (slot0 : Bool) (others : List (Nat × Nat)) (i : Nat) (x : Word) : Except RegFault Thread :=
  let ok := fun (b : Bool) (u : Thread) => if b then Except.ok u else .error RegFault.eill
  match i with
  | 0x001 => ok (decide (x.toNat ≤ 4)) { t with frm := fld x 0 3 }
  | 0x002 => ok (decide (x.toNat < 32)) { t with fflags := fld x 0 5 }
  | 0x004 => ok (decide (x.toNat < 2 ^ 52)) { t with fmtA := x }
  | 0x005 => ok (decide (x.toNat < 2 ^ 52)) { t with fmtB := x }
  | 0x006 => ok (decide (x.toNat < 2 ^ 52)) { t with fmtC := x }
  | 0x008 =>
    let n := bits x 8 6
    let b := bits x 0 7
    if x.toNat < 2 ^ 14 ∧ bits x 7 1 = 0 ∧ n ≠ 0 ∧ n ≤ 32 then
      if t.regLim < b + n then .error (.ereg (b + n - 1)) else .ok { t with carryCount := n, carryBase := b }
    else .error .eill
  | 0x010 => ok (decide (x.toNat < 2 ^ 11)) { t with traps := { t.traps with cause := fld x 0 11 } }
  | 0x011 => ok (decide (x.toNat % 4 = 0)) { t with traps := { t.traps with epc := x } }
  | 0x012 => ok (decide (x.toNat % 4 = 0)) { t with traps := { t.traps with cpc := x } }
  | 0x013 => .ok { t with traps := { t.traps with val := x } }
  | 0x014 => ok (decide (x.toNat % 4 = 0)) { t with traps := { t.traps with vec := x } }
  | 0x020 => ok (allocOk others x.toNat t.regLim && !(slot0 && decide (x ≠ 0))) { t with regBase := x.toNat }
  | 0x021 => ok (allocOk others t.regBase x.toNat) { t with regLim := x.toNat }
  | _ => .error .eill

/-- The file ranges of the other slots of a core. -/
def Chip.otherAllocs (h : Chip) (p : At) : List (Nat × Nat) :=
  ((List.range 16).filter (· ≠ p.t)).filterMap fun t => (h.slot { p with t := t }).alloc

/-- The same while REGLIM (0x021) of the thread at `p` becomes `lim`: the trailing half of its pair takes the limit with it. -/
def Chip.othersFor (h : Chip) (p : At) (i lim : Nat) : List (Nat × Nat) :=
  match h.pairAt p with
  | some (u, _) =>
    if i = 0x021 then (u.regBase, lim) :: ((List.range 16).filter fun t => t ≠ p.t && t ≠ p.t + 8).filterMap fun t => (h.slot { p with t := t }).alloc
    else h.otherAllocs p
  | none => h.otherAllocs p

/-- A new REGLIM of the leading half leaves the trailing half of its pair within R17. -/
def Chip.pairLimit (h : Chip) (p : At) (t : Thread) (i lim : Nat) : Bool :=
  match h.pairAt p with
  | some (u, _) =>
    i != 0x021 || allocOk ((t.regBase, lim) :: ((List.range 16).filter fun t => t ≠ p.t && t ≠ p.t + 8).filterMap fun t =>
      (h.slot { p with t := t }).alloc) u.regBase lim
  | none => true

/-! ## The debug port (R134, R135) -/

/-- The result of a port access: 0 done, 1 busy, 2 refused. -/
def Chip.portResult (h : Chip) (v c n : Nat) : Chip := h.modCore v c fun k => { k with dstatRes := BitVec.ofNat 2 n }

/-- The place DSEL selects. -/
def Chip.selected (h : Chip) (v c : Nat) : At := ⟨v, c, (h.core v c).dsel.toNat⟩

/-- The port may act on the slot: 1 to 15, and not the trailing half of a pair (R135, R168). -/
def Chip.portSlot (h : Chip) (p : At) : Bool := decide (p.t ≠ 0) && !((h.core p.v p.c).screened && decide (8 ≤ p.t))

/-- The halted thread that the port may read: in slots 1 to 15, or slot 0 while the dispatch is stopped (R124). -/
def Chip.portThread (h : Chip) (p : At) : Option Here :=
  match h.slot p with
  | .halted _ => if h.portSlot p ∨ (p.t = 0 ∧ (h.core p.v p.c).stopped) then h.here? p else none
  | _ => none

/-- The item that DIDX selects, with the result code: a value, busy, or refused (R134). -/
def Here.item (x : Here) (i : Nat) : Word × Nat :=
  let t := x.th
  if i < 0x78 then (if i < t.regLim then (readGpr t x.file i, 0) else (0, 2))
  else if 0x80 ≤ i ∧ i < 0x90 then
    match t.ldq[i - 0x80]? with
    | some e => match e.arrival with
      | .landed (.value v _) => (v, 0)
      | _ => (0, 1)
    | none => (0, 2)
  else if 0x90 ≤ i ∧ i < 0xA0 then
    match t.sdq[i - 0x90]? with
    | some v => (v, 0)
    | none => (0, 2)
  else if i = 0x2000 then (t.pc, 0)
  else if 0x1000 ≤ i then
    match t.reg (i - 0x1000) with
    | some v => (v, 0)
    | none => (0, 2)
  else (0, 2)

/-- A read of DDATA (R134). -/
def Chip.ddataRead (h : Chip) (v c : Nat) : Word × Chip :=
  match h.portThread (h.selected v c) with
  | none => (0, h.portResult v c 2)
  | some x =>
    let r := x.item (h.core v c).didx.toNat
    (r.1, h.portResult v c r.2)

/-- A register is the destination of a pending lookahead result of the thread or its suspended task (R135). -/
def Thread.awaits (t : Thread) (r : Nat) : Bool :=
  let hit := fun q : Pend => match q.dest with | .reg d => decide (d.toNat = r) | .none => false
  t.pend.any hit || (match t.suspended with | some u => u.pend.any hit | none => false)

/-- A write of the selected item of a halted thread: the thread and file, busy, or refused (R135). -/
def Here.setItem (x : Here) (others : List (Nat × Nat)) (i : Nat) (y : Word) : Except Nat Here :=
  let t := x.th
  if i < 0x78 then
    if t.regLim ≤ i then .error 2
    else if t.awaits i then .error 1
    else .ok { x with file := writeGpr t x.file i y }
  else if i = 0x2000 then (if y.toNat % 4 = 0 then .ok { x with th := { t with pc := y } } else .error 2)
  else if 0x1000 ≤ i ∧ i < 0x1100 then
    if threadAccess (i - 0x1000) = .r then .error 2
    else
      match t.setReg false others (i - 0x1000) y with
      | .ok t => .ok { x with th := t }
      | .error _ => .error 2
  else .error 2

/-- A write of DDATA (R135). -/
def Chip.ddataWrite (h : Chip) (v c : Nat) (y : Word) : Chip :=
  let p := h.selected v c
  match h.portThread p with
  | none => h.portResult v c 2
  | some x =>
    if p.t = 0 then h.portResult v c 2
    else
      let i := (h.core v c).didx.toNat
      match x.setItem (h.othersFor p (i - 0x1000) y.toNat) i y with
      | .ok z => if h.pairLimit p x.th (i - 0x1000) y.toNat then (h.putHere p z).portResult v c 0 else h.portResult v c 2
      | .error n => h.portResult v c n

/-- DDATA_READ (R134): the value goes to the reader. -/
def execDdataRead (v : Nat) (c : Nat) (s : State) : Host.Outcome State Fault Refusal :=
  let r := s.chip.ddataRead v c
  .next { s with chip := { r.2 with hostAnswer := some r.1 } }

/-- DDATA_WRITE (R135). -/
def execDdataWrite (v : Nat) (c : Nat) (x : BitVec 64) (s : State) : Host.Outcome State Fault Refusal :=
  .next { s with chip := s.chip.ddataWrite v c x }

/-- A read of TNQ pops the oldest notice (R134). -/
def Chip.tnqRead (h : Chip) (v c : Nat) : Word × Chip :=
  match (h.core v c).notices with
  | [] => (0, h)
  | x :: xs => (x, h.modCore v c fun k => { k with notices := xs })

/-- TNQ_READ (R134). -/
def execTnqRead (v : Nat) (c : Nat) (s : State) : Host.Outcome State Fault Refusal :=
  let r := s.chip.tnqRead v c
  .next { s with chip := { r.2 with hostAnswer := some r.1 } }

/-- What a debug command comes to. -/
inductive PortAnswer where
  | done (h : Chip)
  | refused
  /-- it stays pending: the thread is within an instruction, or what the command ends or replays has to wait -/
  | waits (h : Chip)
  deriving DecidableEq, Repr

/-- A debug command taken from DCMD and acted on, or refused (R135). DCMD reads 0 once its command is over (log 46). -/
def Chip.debugCommand (h : Chip) (v c n : Nat) (act : At → Slot → PortAnswer) : Chip :=
  let k := h.core v c
  let p := h.selected v c
  if !k.debugPending ∨ k.dcmd.toNat ≠ n then h
  else
    let done := fun (h : Chip) (r : Nat) => (h.modCore v c fun k => { k with debugPending := false, dcmd := 0 }).portResult v c r
    if !h.portSlot p then done h 2
    else
      match act p (h.slot p) with
      | .done h => done h 0
      | .refused => done h 2
      | .waits h => h

/-- DEBUG_HALT (R135): a thread that waits within its instruction halts once the instruction is over. -/
def execDebugHalt (v : Nat) (c : Nat) (s : State) : Host.Outcome State Fault Refusal :=
  let h := s.chip
  .next { s with chip := h.debugCommand v c 1 fun p k =>
    match k with
    | .live t => if t.wait = .none then .done (h.haltAt p t) else .waits h
    | .halted _ => .done h
    | _ => .refused }

/-- A halted thread resumed: as ERET where a task is suspended (R129, R135). The command waits, with the thread halted, for a
replay that has to wait. -/
def Chip.debugResume (h : Chip) (p : At) (t : Thread) : PortAnswer :=
  let g := h.setSlot p (.live t)
  match t.suspended with
  | none => .done g
  | some u =>
    match (if t.unreplayed && t.saved.isSome then g.replay p t else .stall), t.saved with
    | .walk pid r kind, some (q, _) => .waits (h.addWalk pid r kind q.op.seq)
    | _, _ =>
      match g.trapReturn p t u with
      | .ok g => .done g
      | .error (.trap e x) => .done (g.takeTrap p (raisedBy t e x))
      | .error _ => .waits h

/-- DEBUG_RESUME (R135). -/
def execDebugResume (v : Nat) (c : Nat) (s : State) : Host.Outcome State Fault Refusal :=
  let h := s.chip
  .next { s with chip := h.debugCommand v c 2 fun p k =>
    match k with
    | .halted t => h.debugResume p t
    | _ => .refused }

/-- DEBUG_STEP (R135). -/
def execDebugStep (v : Nat) (c : Nat) (s : State) : Host.Outcome State Fault Refusal :=
  let h := s.chip
  .next { s with chip := h.debugCommand v c 3 fun p k =>
    match k with
    | .halted t => .done (h.setSlot p (.live { t with stepOnce := true }))
    | _ => .refused }

/-- DEBUG_ABORT (R135): as TABORT does, it waits for the open windows and for what the task has under way (R152). -/
def execDebugAbort (v : Nat) (c : Nat) (s : State) : Host.Outcome State Fault Refusal :=
  let h := s.chip
  .next { s with chip := h.debugCommand v c 4 fun p k =>
    match k with
    | .halted t => if h.endHeld p t || t.windowsOpen then .waits h else .done (h.abortSelf p t 0)
    | _ => .refused }

/-! ## The restart of a core's dispatch (R124) -/

/-- The entry of the dispatcher that a core runs (R139, R421). -/
def Chip.dispatchEntry (h : Chip) (v : Nat) : Word :=
  match (h.cluster v).pid with
  | some p => if (h.part p).disp = 0 then Config.dispatcherEntry else (h.part p).disp
  | none => Config.dispatcherEntry

/-- Slot 0 restarted after a nested trap of its own; ignored while the dispatch runs (R124, R134). What R124 does not list stays as
it was, and its 32 entries may overlap another thread's (log 61). -/
def Chip.restartDispatch (h : Chip) (v c : Nat) : Chip :=
  if !(h.core v c).stopped then h
  else
    let p : At := ⟨v, c, 0⟩
    let t := (h.thread? p).getD (dispatcher v c)
    let t := { t with pc := h.dispatchEntry v, sup := true, regBase := 0, regLim := 32, traps := {}, frame := none, stepOnce := false }
    (h.setSlot p (.live t)).modCore v c fun k => { k with stopped := false }

/-- CDISP_RESTART (R124). -/
def execCdispRestart (v : Nat) (c : Nat) (s : State) : Host.Outcome State Fault Refusal :=
  .next { s with chip := s.chip.restartDispatch v c }

/-! ## The rotation boundary (R137, R158, R167) -/

/-- The MTC writes of the rotation that ends: the highest slot's remains (R158). -/
def Core.boundary (k : Core) : Core :=
  let ws := sortBy (fun (a b : Nat × Nat × Word) => decide (a.2.1 ≤ b.2.1)) k.pendingCommon
  { k with common := ws.foldl (fun m w => m.put w.1 w.2.2) k.common, pendingCommon := [], rotation := k.rotation + 1, turn := 0 }

/-- SCREEN takes effect on a core (R167): slot 8 receives a copy of slot 0's state in an allocation of 32 entries of its own; it is
freed when screening ends. -/
def Chip.trailDispatcher (h : Chip) (v c : Nat) : Chip :=
  let p : At := ⟨v, c, 8⟩
  let on := (h.cluster v).screen
  let h := if (h.core v c).screened = on then h else h.modCore v c fun k => { k with screened := on }
  match h.slot p, h.thread? ⟨v, c, 0⟩ with
  | .free, some t =>
    if on then
      match lowestBase (h.allocs v c) 32 1808 with
      | some b =>
        let regs := saveFile t (h.core v c).file
        (h.setSlot p (.trailing { t with regBase := b, regLim := 32 } {})).modCore v c fun k =>
          { k with file := loadFile k.file b 32 regs }
      | none => h
    else h
  | .trailing .., _ => if on then h else h.setSlot p .free
  | _, _ => h

/-- The boundary between two rotations of a core. -/
def Chip.rotationBoundary (h : Chip) (v c : Nat) : Chip := (h.modCore v c Core.boundary).trailDispatcher v c

/-- ROTATION_BOUNDARY (R137, R158): the turn of slot 15, the last of the rotation, passes unused, and the rotation ends. The turn of
a slot 15 that holds a thread is the thread's: its rotation ends with that turn (R136). -/
def execRotationBoundary (v : Nat) (c : Nat) (s : State) : Host.Outcome State Fault Refusal :=
  let h := s.chip
  let idle := match h.slot ⟨v, c, 15⟩ with
    | .live _ => false
    | .trailing .. => false
    | _ => true
  .next { s with chip := if (h.core v c).turn < 15 ∨ !idle then h else h.rotationBoundary v c }

end Sys2Proof.Machine
end

