-- ==== Sys2Proof/Machine/Registers.lean ====
section
/-! DEFINITION. System registers beyond the thread's own: the core band (R134, R160), the cluster band (R166, R179, R206,
R255, R281, R347) and the package band (R306, R321, R362, R388, R411 to R414, R426, R428, R434, R436, R437). A read or a
write answers none where the index names no register, or where the write is refused with EILL (R24, R415, R460). -/

namespace Sys2Proof.Machine

/-! ## The core and cluster bands: reads -/

/-- What CSLOT shows of a slot: for the trailing half of a pair, the leading half, since they leave every state together (R167). -/
def Chip.shown (h : Chip) (v c t : Nat) : Slot :=
  match h.slot ⟨v, c, t⟩ with
  | .trailing .. => h.slot ⟨v, c, t - 8⟩
  | s => s

/-- Slots of a core that satisfy `f`, as a mask. -/
def Chip.slotMask (h : Chip) (v c : Nat) (f : Slot → Bool) : Nat :=
  ((List.range 16).map fun t => if f (h.shown v c t) then 2 ^ t else 0).sum

/-- CSLOT (R160). -/
def Chip.cslot (h : Chip) (v c : Nat) : Word :=
  let busy := h.slotMask v c fun s => match s with | .free => false | _ => true
  let ended := h.slotMask v c fun s => match s with | .ended .. => true | _ => false
  let halted := h.slotMask v c fun s => match s with | .halted _ => true | _ => false
  BitVec.ofNat 64 (halted * 2 ^ 32 + ended * 2 ^ 16 + busy)

/-- CINQ (R160). -/
def Core.cinq (k : Core) : Word := BitVec.ofNat 64 (min 63 k.overflow.length * 2 ^ 16 + k.queue.length)

/-- DSTAT (R134). -/
def Chip.dstat (h : Chip) (v c : Nat) : Word :=
  let halted := match h.slot (h.selected v c) with | .halted _ => true | _ => false
  BitVec.ofNat 64 ((if halted then 256 else 0) + (h.core v c).dstatRes.toNat)

/-- The gang that binds physical accumulator n, its name there and its binding: an engaged gang before a parked one. -/
def Cluster.boundTo (k : Cluster) (n : Nat) : Option (Gang × Nat × Acc) :=
  let find := fun gs : List Gang => gs.findSome? fun g => (g.accs.find? fun a => decide (a.2.phys = n)).map fun a => (g, a.1, a.2)
  (find k.engaged).or (find (k.gangs.filter (·.parked)))

/-- ACCTAGn (R255). -/
def Cluster.acctag (k : Cluster) (n : Nat) : Word :=
  match k.boundTo n with
  | none => 0
  | some (g, name, a) =>
    BitVec.ofNat 64 (2 ^ 31 + (if g.orphan then 2 ^ 30 else 0) + (if g.parked then 2 ^ 29 else 0) + a.m0slot * 2 ^ 16 +
      g.gid * 2 ^ 8 + name)

/-- MXSTAT (R255). -/
def Cluster.mxstat (k : Cluster) : Word :=
  BitVec.ofNat 64 (k.slotsFree * 2 ^ 32 + k.accsFree.length * 2 ^ 24 + k.engaged.length * 2 ^ 16)

/-- ENGSTAT (R281). -/
def Chip.engstat (h : Chip) (v : Nat) : Word :=
  let counted := h.flights.countP fun f => match f.2.body with | .count u _ _ _ => u == v | _ => false
  BitVec.ofNat 64 ((h.shadows.countP fun x => decide (x.v = v)) * 2 ^ 32 + min 127 counted * 2 ^ 16 + (64 - (h.cluster v).cmds.length))

/-- A read of a register of the core and cluster bands on core c of cluster v, with the effects of the read. -/
def Chip.readCore (h : Chip) (v c i : Nat) : Option (Word × Chip) :=
  let k := h.core v c
  let u := h.cluster v
  let e := u.handler u.hndIdx.toNat
  let plain := fun x : Word => some (x, h)
  match i with
  | 0x100 => plain (if c % 4 = 0 then 1 else 0)
  | 0x101 => plain (h.cslot v c)
  | 0x102 => plain k.cinq
  | 0x103 => plain (BitVec.ofNat 64 ((h.vacates v c).map (2 ^ ·)).sum)
  | 0x140 => some (h.tnqRead v c)
  | 0x141 => plain (k.dsel.zeroExtend 64)
  | 0x142 => plain (k.didx.zeroExtend 64)
  | 0x143 => some (h.ddataRead v c)
  | 0x144 => plain (k.dcmd.zeroExtend 64)
  | 0x145 => plain (h.dstat v c)
  | 0x146 => plain (if k.den then 1 else 0)
  | 0x147 => plain (if k.stopped then 2 else 0)
  | 0x200 => plain (u.bankMap 0)
  | 0x201 => plain (u.bankMap 16)
  | 0x202 => plain (BitVec.ofNat 64 (u.logFree * 2 ^ 16))
  | 0x203 => plain (BitVec.ofNat 64 u.sigFree)
  | 0x210 => plain u.scrWord
  | 0x220 => plain ((h.serveClaims v).vpool v)
  | 0x238 => plain u.mxstat
  | 0x240 => plain (h.engstat v)
  | 0x250 => plain (u.hndIdx.zeroExtend 64)
  | 0x251 => plain e.pc
  | 0x252 => plain (e.cfg.zeroExtend 64)
  | 0x253 => plain e.tvec
  | _ => if 0x230 ≤ i ∧ i ≤ 0x237 then plain (u.acctag (i - 0x230)) else none

/-! ## The core and cluster bands: writes -/

/-- A command written to DCMD (R134, R135): it is pending until the port has acted on it. -/
def Core.command (k : Core) (n : Nat) : Core :=
  { k with dcmd := BitVec.ofNat 3 n, debugPending := true, dstatRes := 1 }

/-- A write of a register of the core and cluster bands on core c of cluster v. A write of CSLOT, CINQ, TNQ or DSTAT within
their fields changes nothing (log 23). -/
def Chip.writeCore (h : Chip) (v c i : Nat) (x : Word) : Option Chip :=
  let within := fun (m : Word) (g : Chip) => if x &&& m = x then some g else none
  match i with
  | 0x101 => within 0xFFFFFFFFFFFF#64 h
  | 0x102 => within 0x3F003F#64 h
  | 0x103 => h.cpre v c x
  | 0x140 => within 0x800000000007FF0F#64 h
  | 0x141 => within 0xF#64 (h.modCore v c fun k => { k with dsel := fld x 0 4 })
  | 0x142 => within 0xFFFF#64 (h.modCore v c fun k => { k with didx := fld x 0 16 })
  | 0x143 => some (h.ddataWrite v c x)
  | 0x144 =>
    if 1 ≤ x.toNat ∧ x.toNat ≤ 4 then
      some (if (h.core v c).debugPending then h.portResult v c 1 else h.modCore v c fun k => k.command x.toNat)
    else none
  | 0x145 => within 0x103#64 h
  | 0x146 => within 1#64 (h.modCore v c fun k => { k with den := x.getLsbD 0 })
  | 0x147 => within 1#64 (if x.getLsbD 0 then h.restartDispatch v c else h)
  | 0x210 => if x &&& 0x101#64 = x then h.scrcfg v x else none
  | 0x250 => within 0x3FF#64 (h.modCluster v fun k => { k with hndIdx := fld x 0 10 })
  | 0x251 => within 0xFFFFFFFFFFFFFFFC#64 (h.modCluster v fun k => { k with hndPc := x })
  | 0x252 => h.hndcfg v x
  | 0x253 => within 0xFFFFFFFFFFFFFFFC#64 (h.modCluster v fun k => { k with hndTvec := x })
  | _ => none

/-! ## The package band: reads -/

/-- The partition that PSEL names (R413). -/
def Chip.psel (h : Chip) : Nat := (h.reg 0x470).toNat

/-- One bit. -/
def flag (b : Bool) (n : Nat) : Nat := if b then 2 ^ n else 0

/-- ROTSTAT (R411). -/
def State.rotstat (s : State) : Word :=
  let q := s.pool
  BitVec.ofNat 64 (q.rotations.length * 2 ^ 48 + q.fallow % 256 * 2 ^ 40 + q.spare % 256 * 2 ^ 32 + q.gone * 2 ^ 16 + q.size)

/-- GRADESTAT (R412). -/
def State.gradestat (s : State) : Word :=
  BitVec.ofNat 64 (flag s.pool.gradeLost 63 + flag s.chip.reduced 62 + s.chip.gradeCode * 2 ^ 28 + s.chip.v)

/-- RETDAT for entry n (R412). -/
def Pool.retdat (q : Pool) (n : Nat) : Word :=
  match q.retired[n]? with
  | some e => BitVec.ofNat 64 (2 ^ 63 + e.cause.toNat * 2 ^ 32 + e.age.toNat * 2 ^ 16 + e.pcn.toNat)
  | none => 0

/-- The code of a state of AGEDAT (R412): a cluster not yet through its power-on self-test reads as FALLOW, under test. -/
def PcState.code : PcState → Nat
  | .live _ => 0
  | .fallow => 1
  | .spare => 2
  | .retired => 3
  | .untested => 1

/-- AGEDAT for a physical cluster (R412). -/
def Pool.agedat (q : Pool) (p : Nat) : Word := BitVec.ofNat 64 ((q.pcn p).state.code * 2 ^ 16 + (q.pcn p).age.toNat)

/-- PCFG (R388). -/
def Partition.pcfg (q : Partition) : Word :=
  BitVec.ofNat 64 (flag q.active 63 + flag q.refused 62 + flag q.checked 42 + flag q.screen 41 + flag q.bounded 40 +
    q.cap.toNat * 2 ^ 36 + q.w.toNat)

/-- ROPEST (R434): the VT at which the latest interval begins whose digests agree. -/
def Partition.ropest (q : Partition) : Word :=
  BitVec.ofNat 64 (flag q.diverged 63 + (q.ropeAgreed - 1) * cairnInterval q.cairn % 2 ^ 40)

/-- FRDAT for entry n (R428). -/
def Partition.frdatWord (q : Partition) (n : Nat) : Word :=
  let e := q.routes.getOr n 0
  BitVec.ofNat 64 (flag (e.getLsbD 8) 63 + bits e 0 8)

/-- A register of the partition that PSEL names. -/
def Chip.readPart (h : Chip) (i : Nat) : Option Word :=
  let q := h.part h.psel
  match i with
  | 0x448 => some (q.irvBase.zeroExtend 64)
  | 0x449 => some (q.irvSize.zeroExtend 64)
  | 0x471 => some (q.period.zeroExtend 64)
  | 0x472 => some (q.gvt.getD noStamp)
  | 0x473 => some q.cairn
  | 0x474 => some (BitVec.ofNat 64 (flag q.cairnRefused 63 + q.lastVt.getD 0))
  | 0x475 => some (BitVec.ofNat 64 (flag q.off 62))
  | 0x476 => some q.pcfg
  | 0x477 => some q.seed
  | 0x478 => some q.disp
  | 0x47A => some 0
  | 0x4C0 => some (BitVec.ofNat 64 (flag q.fabRefused 63) ||| q.fabcfg)
  | 0x4C1 => some (q.fridx.zeroExtend 64)
  | 0x4C2 => some (q.frdatWord q.fridx.toNat)
  | 0x4C3 => some q.ropest
  | _ =>
    if 0x4D0 ≤ i ∧ i < 0x4E0 then some (q.links.getOr (i - 0x4D0) 0)
    else if 0x500 ≤ i ∧ i < 0x520 then some (q.vcnmap.getOr (i - 0x500) 0)
    else none

/-- The bits of a register that holds what was written to it last. -/
def plainMask (i : Nat) : Option Word :=
  match i with
  | 0x400 => some 0x7FF#64
  | 0x420 => some 0xFFFFFFFFFFF8#64
  | 0x421 => some 0x1FFFFF#64
  | 0x428 => some 0xFFFFFFFFFFE0#64
  | 0x429 => some 0xFFFF#64
  | 0x42B => some 0xFFFF#64
  | 0x431 => some 0xFFFFFFFF#64
  | 0x462 => some 0x7FFFFF#64
  | 0x470 => some 0xFFFFF#64
  | 0x481 => some 0x7FF#64
  | 0x483 => some 0x7FF#64
  | 0x490 => some 0xFFFFFFFFFFC0#64
  | 0x491 => some 0xFFFF#64
  | 0x493 => some 0xFFFF#64
  | 0x498 => some 0xFFFFFFFFFFC0#64
  | 0x499 => some 0xFFFF#64
  | 0x49B => some 0xFFFF#64
  | 0x4A1 => some 0xFFFFFFFFFFFFF000#64
  | 0x4A2 => some 0xFFFFFFFFFFFFF000#64
  | 0x4A3 => some 0x7FF0007#64
  | 0x4A5 => some 0xFFFFFFFFFFFFFFC0#64
  | 0x4A6 => some 0xFFFFFFFFFFFFFFFF#64
  | 0x4A7 => some 0xFFFFFFFFFFFFFFFF#64
  | 0x4A8 => some 0xFFFFFFFFFFFFFFFF#64
  | 0x4AA => some 0x3FFF#64
  | 0x4C4 => some 0xFFFFFFFFFFFFFFFF#64
  | 0x4C8 => some 0x800F0000FFFFFFFF#64
  | _ => if 0x4E0 ≤ i ∧ i < 0x4F0 then some 0xFFFFF#64 else none

/-- The value lies in the range that the field's map gives (R460). -/
def plainRange (i : Nat) (x : Word) : Bool :=
  match i with
  | 0x429 => decide (16 ≤ x.toNat)
  | 0x491 => decide (16 ≤ x.toNat)
  | 0x499 => decide (16 ≤ x.toNat)
  | 0x462 => decide (1000 ≤ x.toNat ∧ x.toNat ≤ 5000000)
  | 0x4AA => decide (2000 ≤ x.toNat ∧ x.toNat ≤ 12000)
  | 0x4C8 => decide (100 ≤ bits x 0 32 ∧ bits x 0 32 ≤ 1000000)
  | _ => true

/-- Reset values of package registers that are not zero (R321, R411, R426, R437). -/
def plainReset (i : Nat) : Word :=
  match i with
  | 0x460 => 32
  | 0x462 => 1000000
  | 0x4AA => 12000
  | 0x4C8 => 1000
  | _ => if 0x411 ≤ i ∧ i ≤ 0x418 then BitVec.allOnes 64 else 0

/-- Registers that read as they stand: the plain ones, and those that the device or another rule writes. -/
def standing (i : Nat) : Bool :=
  (plainMask i).isSome || [0x410, 0x42A, 0x42C, 0x430, 0x460, 0x492, 0x49A, 0x4A0, 0x4A9, 0x4AB].contains i ||
    decide (0x411 ≤ i ∧ i ≤ 0x418) || decide (0x450 ≤ i ∧ i ≤ 0x457)

/-- A read of a package register by a core of cluster v. -/
def State.readPackage (s : State) (v i : Nat) : Option Word :=
  let h := s.chip
  match i with
  | 0x401 =>
    let e := h.routerEntry (h.routerOf v) (h.reg 0x400).toNat
    some (BitVec.ofNat 64 (flag e.valid 31 + e.gen.toNat * 2 ^ 16 + e.pcn.toNat))
  | 0x461 => some (BitVec.ofNat 64 (flag (s.pool.requests ≠ []) 63) ||| h.reg 0x461)
  | 0x463 => some s.rotstat
  | 0x480 => some s.gradestat
  | 0x482 => some (s.pool.retdat (h.reg 0x481).toNat)
  | 0x484 => some (s.pool.agedat (h.reg 0x483).toNat)
  | 0x4A4 => some (BitVec.ofNat 64 h.stage)
  | _ => if standing i then some (h.regs.getOr i (plainReset i)) else h.readPart i

/-! ## The package band: writes -/

/-- A write of PGVT (R413): without a partition it has no effect; the period applies from the next round. -/
def Chip.pgvt (h : Chip) (x : Word) : Option Chip :=
  if x.toNat < 256 ∨ 64000 < x.toNat then none
  else some (if (h.part h.psel).active then h.modPart h.psel fun q => { q with period := fld x 0 17 } else h)

/-- A write of PPRE (R413). -/
def Chip.ppre (h : Chip) (x : Word) : Option Chip :=
  if 3 ≤ x.toNat then none
  else some (if x.getLsbD 0 then h.partitionPreempt h.psel else if x.getLsbD 1 then h.partitionResume h.psel else h)

/-- A write of a register that is ignored while the partition is ACTIVE, and sets REFUSED then (R388). -/
def Chip.whileInactive (h : Chip) (f : Partition → Partition) : Chip :=
  h.modPart h.psel fun q => if q.active then { q with refused := true } else f q

/-- A write of PCFG (R388). -/
def Chip.pcfgWrite (h : Chip) (x : Word) : Option Chip :=
  if x.toNat < 2 ^ 43 then
    some (h.whileInactive fun q =>
      { q with checked := x.getLsbD 42, screen := x.getLsbD 41, bounded := x.getLsbD 40, cap := fld x 36 4, w := fld x 0 36 })
  else none

/-- A write of FABCFG (R428). A roped partition has COUNT 1, and PKG is at most COUNT. -/
def Chip.fabcfgWrite (h : Chip) (x : Word) : Option Chip :=
  if x &&& 0xFF01FFFF#64 ≠ x ∨ (x.getLsbD 16 ∧ bits x 8 8 ≠ 1) ∨ bits x 8 8 < bits x 0 8 then none
  else some (h.modPart h.psel fun q =>
    if q.active then { q with fabRefused := true } else { q with fabcfg := x, fabRefused := false })

/-- A write of WBBASE (R416). -/
def Chip.wbbase (h : Chip) (x : Word) : Option Chip :=
  if x &&& 0x1FFC0000000#64 ≠ x then none
  else if x.toNat % h.barSize ≠ 0 ∨ 2 ^ 41 < x.toNat + h.barSize then
    some { h with regs := h.regs.put 0x4A0 (h.reg 0x4A0 ||| 0x8000000000000000#64) }
  else some { h with regs := h.regs.put 0x4A0 x }

/-- A write of a register of the partition that PSEL names. -/
def Chip.writePart (h : Chip) (i : Nat) (x : Word) : Option Chip :=
  let pid := h.psel
  match i with
  | 0x448 => if x.toNat < 2 ^ 38 then some (h.modPart pid fun q => { q with irvBase := fld x 0 38 }) else none
  | 0x449 => if x.toNat < 2 ^ 38 then some (h.modPart pid fun q => { q with irvSize := fld x 0 38 }) else none
  | 0x471 => h.pgvt x
  | 0x473 => some (h.pcairn pid x)
  | 0x475 => h.ppre x
  | 0x476 => h.pcfgWrite x
  | 0x477 => some (h.whileInactive fun q => { q with seed := x })
  | 0x478 => if x.toNat % 4 = 0 then some (h.whileInactive fun q => { q with disp := x }) else none
  | 0x4C0 => h.fabcfgWrite x
  | 0x4C1 => if x.toNat < 2 ^ 10 then some (h.modPart pid fun q => { q with fridx := fld x 0 10 }) else none
  | 0x4C2 => h.frdat pid x
  | _ =>
    if 0x4D0 ≤ i ∧ i < 0x4E0 then
      if x &&& 0x8000FFFFFFFFFFFF#64 = x then some (h.modPart pid fun q => { q with links := q.links.put (i - 0x4D0) x }) else none
    else if 0x500 ≤ i ∧ i < 0x520 then
      some (h.whileInactive fun q => { q with vcnmap := q.vcnmap.put (i - 0x500) x })
    else none

/-- A write of a register of the memory system or the host attachment with an effect of its own. -/
def Chip.writeSystem (h : Chip) (i : Nat) (x : Word) : Option Chip :=
  match i with
  | 0x410 => if x &&& 0x3F#64 = x then some (h.sliceHash x) else none
  | 0x42C => if x &&& frespMask = x then some (h.fresp x) else none
  | 0x430 => if x &&& frespMask = x then some (h.xlinv x) else none
  | 0x4A0 => h.wbbase x
  | 0x4A9 => some (h.attest x)
  | _ => none

/-- PCMD (R388): 1 creates, 2 destroys. -/
def State.pcmd (s : State) (x : Word) : Option State :=
  if x = 1 then some (s.createPartition s.chip.psel)
  else if x = 2 then some { s with chip := s.chip.destroyPartition s.chip.psel }
  else none

/-- A write of ROTREQ, which keeps the VCN written (R411). -/
def State.rotreqWrite (s : State) (x : Word) : Option State :=
  (s.rotreq x).map fun s => { s with chip := { s.chip with regs := s.chip.regs.put 0x461 (x &&& 0x7FF#64) } }

/-- A write of a package register. -/
def State.writePackage (s : State) (i : Nat) (x : Word) : Option State :=
  match plainMask i with
  | some m =>
    if x &&& m = x ∧ plainRange i x then
      let h := s.chip
      -- gates of a new spacing count from the device time (R437)
      let gate := if i = 0x4C8 ∧ bits x 0 32 ≠ bits (h.regs.getOr 0x4C8 1000) 0 32 then h.now / (bits x 0 32 * 1000) else h.gateNum
      some { s with chip := { h with regs := h.regs.put i x, gateNum := gate } }
    else none
  | none =>
    match i with
    | 0x460 => s.rotctl x
    | 0x461 => s.rotreqWrite x
    | 0x47A => s.pcmd x
    | _ => ((s.chip.writePart i x).or (s.chip.writeSystem i x)).map fun h => { s with chip := h }

/-! ## Every band -/

/-- A read of register i on core c of cluster v, with the effects of the read. -/
def State.readReg (s : State) (v c i : Nat) : Option (Word × State) :=
  if i < 0x400 then (s.chip.readCore v c i).map fun r => (r.1, { s with chip := r.2 })
  else (s.readPackage v i).map fun x => (x, s)

/-- A write of register i on core c of cluster v. -/
def State.writeReg (s : State) (v c i : Nat) (x : Word) : Option State :=
  if i < 0x400 then (s.chip.writeCore v c i x).map fun h => { s with chip := h } else s.writePackage i x

/-- Registers with access R alone, which task mode may read (R24). -/
def readOnly (i : Nat) : Bool :=
  [0x100, 0x200, 0x201, 0x202, 0x203, 0x401, 0x42A, 0x463, 0x472, 0x474, 0x480, 0x482, 0x484, 0x492, 0x49A, 0x4A4, 0x4AB, 0x4C3].contains i ||
    decide (0x411 ≤ i ∧ i ≤ 0x418) || decide (0x450 ≤ i ∧ i ≤ 0x457)

/-! ## MFS and MTS (R130) -/

/-- An instruction whose effect reaches the package: as `issueChip`, the body acting on the whole state. -/
def issueState (f : Form) (s : State) (body : (self : Thread) → At → State → Except Stop State) :
    Host.Outcome State Fault Refusal :=
  let p := s.place
  match s.chip.slot p, s.chip.here? p with
  | .live _, some x =>
    match x.ready f with
    | .error (_, .stall) => .next s
    | .error (y, e) => .next { s with chip := (s.chip.putHere p y).stopped p y.th e }
    | .ok y =>
      match body y.th p { s with chip := s.chip.putHere p { y with th := y.th.past } } with
      | .ok t => .next { t with chip := t.chip.endStep p }
      | .error .stall => .next s
      | .error e => .next { s with chip := (s.chip.putHere p y).stopped p y.th e }
  | _, _ => .next s

/-- Flags are still to come: a vector command of the thread is queued, or an ARD of its task (R25, R208, R211, R243). A handler
waits for them too (log 51). -/
def Chip.flagsDue (h : Chip) (v uid : Nat) : Bool :=
  let k := h.cluster v
  (match k.claimOf uid with | some c => !c.queue.isEmpty | none => false) ||
    h.clusters.any fun k => k.2.gangs.any fun g => g.queue.any fun q => decide (q.uid = uid) && !isMma q.op.word && omemFn q.op.word == 3

/-- Slot 0 runs a dispatcher supplied with the partition (R421). -/
def Chip.ownDispatcher (h : Chip) (p : At) : Bool :=
  decide (p.t = 0) && match (h.cluster p.v).pid with
    | some pid => decide ((h.part pid).disp ≠ 0)
    | none => false

/-- What MFS and MTS check of an index beyond the thread's registers, in the thread's mode (R24, R130, R421). -/
def State.bandCheck (s : State) (self : Thread) (p : At) (w : Half) (i : Nat) : Except Stop Unit :=
  if (s.readReg p.v p.c i).isNone then .error (.trap .eill (tvalWord w))
  else if !self.sup && !readOnly i then .error (.trap .esuper (tvalWord w))
  else if 0x400 ≤ i && s.chip.ownDispatcher p then .error (.trap .esuper (tvalWord w))
  else .ok ()

/-- MFS of a per-thread register (R24). -/
def State.mfsThread (s : State) (self : Thread) (p : At) (w : Half) (d : BitVec 7) (i : Nat) : Except Stop State :=
  match self.reg i with
  | none => .error (.trap .eill (tvalWord w))
  | some x =>
    if threadAccess i = .s ∧ !self.sup then .error (.trap .esuper (tvalWord w))
    else if i = 0x002 ∧ s.chip.flagsDue p.v self.uid then .error .stall
    else .ok { s with chip := s.chip.writeDst p d x }

/-- MFS (R130). -/
def execMfs (d : BitVec 7) (idx : BitVec 14) (s : State) : Host.Outcome State Fault Refusal :=
  let w := 0x22#6 ++ d ++ idx ++ 2#5
  let i := idx.toNat
  issueState (form w [.dst d]) s fun self p s =>
    if 0x7FF < i then .error (.trap .eill (tvalWord w))
    else if i < 0x100 then s.mfsThread self p w d i
    else do
      s.bandCheck self p w i
      match s.readReg p.v p.c i with
      | some (x, s) => .ok { s with chip := s.chip.writeDst p d x }
      | none => .error (.trap .eill (tvalWord w))

/-- MTS of a per-thread register (R24, R25). -/
def State.mtsThread (s : State) (self : Thread) (p : At) (w : Half) (i : Nat) (x : Word) : Except Stop State :=
  let h := s.chip
  if (self.reg i).isNone ∨ threadAccess i = .r then .error (.trap .eill (tvalWord w))
  else if threadAccess i ≠ .rw ∧ !self.sup then .error (.trap .esuper (tvalWord w))
  else if i = 0x002 ∧ h.flagsDue p.v self.uid then .error .stall
  else
    match h.thread? p with
    | none => .error .stall
    | some t =>
      match t.setReg (decide (p.t = 0)) (h.othersFor p i x.toNat) i x with
      | .ok t => if h.pairLimit p t i x.toNat then .ok { s with chip := h.setThread p t } else .error (.trap .eill (tvalWord w))
      | .error .eill => .error (.trap .eill (tvalWord w))
      | .error (.ereg r) => .error (.trap .ereg (BitVec.ofNat 64 r))

/-- MTS (R130). -/
def execMts (d : BitVec 7) (idx : BitVec 14) (s : State) : Host.Outcome State Fault Refusal :=
  let w := 0x22#6 ++ d ++ idx ++ 3#5
  let i := idx.toNat
  issueState (form w [.src d]) s fun self p s => do
    let (x, h) ← s.chip.readAt p d
    let s : State := { s with chip := h }
    if 0x7FF < i then .error (.trap .eill (tvalWord w))
    else if i < 0x100 then s.mtsThread self p w i x
    else do
      s.bandCheck self p w i
      if readOnly i then .error (.trap .eill (tvalWord w))
      else
        match s.writeReg p.v p.c i x with
        | some s => .ok s
        | none => .error (.trap .eill (tvalWord w))

/-! ## Reads of the host (R367, R371, R415) -/

/-- Doubleword k of a group's entry (R371). -/
def Group.entryWord (g : Group) : Nat → Word
  | 0 => BitVec.ofNat 64 (g.banks.toNat + g.vcn0.toNat * 2 ^ 32 + g.vcnn.toNat * 2 ^ 48)
  | 1 => BitVec.ofNat 64 (g.flags.toNat + g.arrive.toNat * 2 ^ 32)
  | 2 => BitVec.ofNat 64 (g.state + g.exitCode.toNat * 2 ^ 16 + g.tabortsN.toNat * 2 ^ 32)
  | _ => g.reduction

/-- The doubleword at byte offset 8·k of window A: zero where no register lies. -/
def Chip.readWindowA (h : Chip) (k : Nat) : Word :=
  if k < 0x800 then h.winA.recs.getOr k 0
  else if k = 0x1000 then h.winA.lsub
  else if k = 0x1001 then h.winA.gtsel.zeroExtend 64
  else if 0x1200 ≤ k ∧ k < 0x1300 then h.winA.lstat.getOr (k - 0x1200) 0
  else if 0x1800 ≤ k ∧ k < 0x1C00 then
    ((h.part h.winA.gtsel.toNat).groups.getOr ((k - 0x1800) / 4) {}).entryWord (k % 4)
  else 0

/-- The register at byte offset 8·k of window C. -/
def windowCReg (k : Nat) : Option Nat :=
  if k < 0x400 then some (0x400 + k) else if 0x2000 ≤ k ∧ k < 0x2300 then some (0x100 + (k - 0x2000)) else none

/-- The doubleword at byte offset 8·k of window C, with the effects of the read: zero where no register lies, and in the core band
where HCSEL selects nothing (R426). -/
def State.readWindowC (s : State) (k : Nat) : Word × State :=
  let sel := s.chip.reg 0x4A3
  let v := bits sel 16 11
  match windowCReg k with
  | some i => if i < 0x400 ∧ s.chip.v ≤ v then (0, s) else (s.readReg v (bits sel 0 3) i).getD (0, s)
  | none => (0, s)

/-- A host read of a doubleword of window C or of window A, which does not answer in recovery (R420). -/
def State.hostRead (s : State) (management : Bool) (k : Nat) : State :=
  if management then
    let r := s.readWindowC k
    if k < 0x4000 then { r.2 with chip := { r.2.chip with hostAnswer := some r.1 } } else s
  else if s.chip.stage = 15 ∨ 0x2000 ≤ k then s
  else { s with chip := { s.chip with hostAnswer := some (s.chip.readWindowA k) } }

/-! ## Writes of the host (R415) -/

/-- The size of window B is a power of two from 1 GiB to 2 TiB (R415). -/
def Chip.setBar (h : Chip) (n : Nat) : Chip :=
  if (List.range 12).any fun k => decide (n = 2 ^ (30 + k)) then { h with barSize := n } else h

/-- REGISTER_WRITE (R24, R415): a host write through window C. The core and cluster bands are those of the core that HCSEL
selects, if it selects one (R426). -/
def execRegisterWrite (idx : Nat) (x : BitVec 64) (s : State) : Host.Outcome State Fault Refusal :=
  let sel := s.chip.reg 0x4A3
  let v := bits sel 16 11
  if idx < 0x100 ∨ 0x7FF < idx ∨ readOnly idx ∨ (idx < 0x400 ∧ s.chip.v ≤ v) then .next s
  else .next ((s.writeReg v (bits sel 0 3) idx x).getD s)

/-! ## Unassigned words (R36, R37) -/

/-- UNASSIGNED_WORD: the issue of a word that is no instruction raises EILL (R36). -/
def execUnassignedWord (w : BitVec 32) (s : State) : Host.Outcome State Fault Refusal :=
  issueHere { word := w, points := {} } s fun _ _ => .error (.trap .eill (tvalWord w))

end Sys2Proof.Machine
end

