-- ==== Sys2Proof/Machine/Fabric.lean ====
section
/-! DEFINITION. The fabric between packages: frames sent again and packages lost (R427), publications (R430), rounds (R431),
groups (R376, R432), roped partitions (R433 to R435), and slice gates (R437). -/

namespace Sys2Proof.Machine

/-! ## Transport (R427) -/

/-- A frame that has not been acknowledged within 20 µs is sent again. -/
def Chip.retransmit (h : Chip) (k : Nat) : Chip :=
  match h.unacked.get k with
  | some f =>
    if f.received ∨ h.now < f.since + 20000 ∨ h.lostPkgs.contains f.dest then h
    else { h with wire := h.wire ++ [{ f with ack := h.frameGot.getOr f.dest 0 }] }
  | none => h

/-- FRAME_RETRANSMIT (R427). -/
def execFrameRetransmit (k : Nat) (s : State) : Host.Outcome State Fault Refusal :=
  .next { s with chip := s.chip.retransmit k }

/-- The package has acknowledged nothing for 10 ms, in which a frame to it has waited. -/
def Chip.silent (h : Chip) (pkg : Nat) : Bool :=
  decide (h.ackAt.getOr pkg 0 + 10000000 ≤ h.now) &&
    h.unacked.any fun u => decide (u.2.dest = pkg ∧ u.2.since + 10000000 ≤ h.now) && !u.2.received

/-- A partition holds clusters on another package. -/
def Partition.reaches (q : Partition) (pkg : Nat) : Bool :=
  q.active && decide (0 < q.count ∧ pkg ≤ q.count ∧ pkg ≠ q.pkg)

/-- A package is lost: every partition on both packages halts with a reported fault (R427). -/
def Chip.losePackage (h : Chip) (pkg : Nat) : Chip :=
  if !h.silent pkg ∨ h.lostPkgs.contains pkg then h
  else
    let h := { h with lostPkgs := h.lostPkgs ++ [pkg] }
    (h.parts.filter fun q => q.2.reaches pkg).foldl (fun h q => h.haltPartition 3 q.1 (q.2.vcns.headD 0)) h

/-- PACKAGE_LOST (R427). -/
def execPackageLost (pkg : Nat) (s : State) : Host.Outcome State Fault Refusal :=
  .next { s with chip := s.chip.losePackage pkg }

/-! ## Publications (R430) -/

/-- The publication record of the buffer with this base that the partition has mapped. -/
def Chip.mappedBuffer (h : Chip) (pid base : Nat) : Option Nat :=
  match h.translate pid base with
  | some l => l.pub.bind fun r => if h.pubBase r = base then some r else none
  | none => none

/-- The message task that performs a publication: it has run and ended, and owns the marked shadow (R278, R430). -/
def Chip.publicationEnds (h : Chip) (m : Message) (record backing : Nat) : Chip :=
  let uid := h.nextUid
  let k : Packet :=
    { origin := .message, pc := 0, stamp := m.stamp, regn := 1, args := [], fmtA := 0, fmtB := 0, fmtC := 0, grps := 0
      quiet := false, cores := false, tvec := 0, priority := m.priority, homeV := m.destV, homeC := 0
      message := some { m with written := true } }
  { h with
    nextUid := uid + 1
    tasks := h.tasks.put uid { pid := m.pid, packet := k, stage := .ended }
    hbm := h.hbm.writeBytes (h.backing record backing) m.payload
    shadows := h.shadows ++
      [{ uid := uid, v := m.destV, record := record, base := m.fmtA.toNat, backing := backing, marked := some h.nextSeq }] }

/-- The data of a publication written into a free backing, and acknowledged; it waits for a backing as R280 states. A buffer
that is not mapped as published, or has another size, halts the partition. -/
def Chip.publicationData (h : Chip) (k : Nat) (m : Message) : Chip :=
  let base := m.fmtA.toNat
  let h := h.warm m.pid base
  match h.mappedBuffer m.pid base with
  | none => (h.landed k).haltPartition 3 m.pid m.destV
  | some r =>
    if h.pubSize r ≠ m.payload.length then (h.landed k).haltPartition 3 m.pid m.destV
    else
      let h := if h.floorStamp m.pid m.stamp then h.evictOwners r 8 else h
      match h.freeBackings r with
      | n :: _ =>
        let h := (h.landed k).publicationEnds m r n
        if m.written then h else h.acknowledge (antiOf m) 0
      | [] => h

/-- A publication frame taken in order: its data waits for a backing. -/
def Chip.framePublication (f : WireFrame) (h : Chip) : Option Chip :=
  match f.body with
  | base :: body =>
    match messageOf f body with
    | some m =>
      let m := { m with fmtA := base }
      let k := h.nextSeq
      some ((h.send switchDie m.destV (.publication m)).publicationData k m)
    | none => some h
  | [] => some h

/-- FABRIC_PUBLICATION_DATA (R430): the frame arrives, or its data finds a backing later. -/
def execFabricPublicationData (k : Nat) (s : State) : Host.Outcome State Fault Refusal :=
  let h := s.chip
  match h.inFlight k with
  | some f =>
    match f.body with
    | .frame _ => .next { s with chip := h.onFrame k 4 Chip.framePublication }
    | .publication m => .next { s with chip := if (h.part m.pid).halted then h else h.publicationData k m }
    | _ => .next s
  | none => .next s

/-! ## Rounds (R431) -/

/-- A candidate, or the stamp at which another package's commits would stop; one of a later round waits. -/
def Chip.frameRound (f : WireFrame) (h : Chip) : Option Chip :=
  let q := h.part f.pid
  match f.body with
  | [0, c] =>
    if (q.remoteCandidates.get f.src).isSome then none
    else some ((h.modPart f.pid fun q => { q with remoteCandidates := q.remoteCandidates.put f.src c }).fabricRound f.pid)
  | [1, u] =>
    if (q.remoteStops.get f.src).isSome then none
    else some (h.modPart f.pid fun q => { q with remoteStops := q.remoteStops.put f.src u })
  | _ => some h

/-- FABRIC_GVT_FRAME (R431). -/
def execFabricGvtFrame (k : Nat) (s : State) : Host.Outcome State Fault Refusal :=
  .next { s with chip := s.chip.onFrame k 5 Chip.frameRound }

/-! ## Groups over several packages (R432) -/

/-- The exit code of a group and its count of TABORTs as words: whether there is a code, its stamp, the code, the count. -/
def Group.exitWords (g : Group) : List Word :=
  [if g.exitStamp.isSome then 1 else 0, g.exitStamp.getD 0, g.exitCode.zeroExtend 64, g.tabortsN.zeroExtend 64]

/-- What a package tells package 0 of a group: the barrier's number, its quiet members, whether it holds no member, its exit code
and TABORTs, the terms of its reduction, and its arrivals as operation (0 for BAR) and contribution. -/
def Chip.groupReport (h : Chip) (pid gid : Nat) : List Word :=
  let g := h.group pid gid
  let terms := if g.rop = 5 then g.terms.map fun x => x.zeroExtend 64 else [g.red]
  let gone := h.groupEmpty pid gid || decide (g.state ≠ 1)
  [BitVec.ofNat 64 g.epoch, BitVec.ofNat 64 (h.quietMembers pid gid), if gone then 1 else 0] ++ g.exitWords ++
   [BitVec.ofNat 64 terms.length] ++ terms ++
    g.arrivals.flatMap fun a => [match a.2.1 with | some k => BitVec.ofNat 64 (k + 1) | none => 0, a.2.2]

/-- Arrivals in the tail of a report. -/
def reportedArrivals : List Word → List (Option Nat × Word)
  | k :: x :: xs => (if k = 0 then none else some (k.toNat - 1), x) :: reportedArrivals xs
  | _ => []

/-- The parts of a report. -/
def reportEpoch (r : List Word) : Nat := (r.getD 0 0).toNat
def reportQuiet (r : List Word) : Nat := (r.getD 1 0).toNat
def reportEmpty (r : List Word) : Bool := r.getD 2 0 == 1
def reportExit (r : List Word) : List Word := (r.drop 3).take 4
def reportTerms (r : List Word) : List Word := (r.drop 8).take (r.getD 7 0).toNat
def reportArrivals (r : List Word) : List (Option Nat × Word) := reportedArrivals (r.drop (8 + (r.getD 7 0).toNat))

/-- Exit codes and TABORTs of two packages together: the code of the lesser stamp, and the sum (R371, R432). -/
def joinExits (a b : List Word) : List Word :=
  let first := a.getD 0 0 == 1 && (b.getD 0 0 != 1 || !(b.getD 1 0).ult (a.getD 1 0))
  (if first then a.take 3 else b.take 3) ++ [a.getD 3 0 + b.getD 3 0]

/-- A group takes over the exit code and the TABORTs of every package. -/
def Group.withExits (g : Group) (x : List Word) : Group :=
  { g with
    exitStamp := if x.getD 0 0 = 1 then some (x.getD 1 0) else none
    exitCode := fld (x.getD 2 0) 0 16, tabortsN := fld (x.getD 3 0) 0 32 }

/-- The group's reduction over every package, as package 0 combines it. -/
def Chip.groupTotal (h : Chip) (pid gid : Nat) : Word × BitVec 5 :=
  let g := h.group pid gid
  let mine := if g.rop = 5 then g.terms.map fun x => x.zeroExtend 64 else [g.red]
  combineAll g.rop (mine ++ g.remotes.flatMap fun r => reportTerms r.2)

/-- A group told to every other package. -/
def Chip.tellGroup (h : Chip) (pid : Nat) (body : List Word) : Chip :=
  (h.part pid).others.foldl (fun h p => h.sendFrame 6 pid p body) h

/-- The arrivals of every package at the barrier under way, each with its package. -/
def Group.allArrivals (g : Group) (pkg : Nat) : List (Nat × Option Nat × Word) :=
  g.arrivals.map (fun a => (pkg, a.2)) ++
    (g.remotes.filter fun r => decide (reportEpoch r.2 = g.epoch)).flatMap fun r => (reportArrivals r.2).map fun a => (r.1, a)

/-- Every other package has reported on the group as it stands at the barrier under way. -/
def Group.allHeard (g : Group) (q : Partition) : Bool :=
  q.others.all fun p => match g.remotes.get p with
    | some r => decide (reportEpoch r = g.epoch)
    | none => false

/-- The barrier of a group over several packages completes at package 0, which tells the others how many of their arrivals it
releases (R376, R432). -/
def Chip.fabricBarrier (h : Chip) (pid gid : Nat) : Chip :=
  let g := h.group pid gid
  let q := h.part pid
  let quiet := h.quietMembers pid gid + (g.remotes.map fun r => reportQuiet r.2).sum
  let all := g.allArrivals q.pkg
  if q.pkgCount = 0 ∨ q.pkg ≠ 0 ∨ all = [] ∨ all.length < g.expects quiet ∨ (g.arrive = 0 ∧ !g.allHeard q) then h
  else
    let xs := all.take (max 1 (g.expects quiet))
    let count := fun p : Nat => xs.countP fun x => x.1 == p
    let (r, f, mixed) := barrierValue (xs.map (·.2))
    let t := h.groupTotal pid gid
    let body := [1, BitVec.ofNat 64 gid, BitVec.ofNat 64 g.epoch, r, f.zeroExtend 64, if mixed then 1 else 0, t.1, t.2.zeroExtend 64]
    let h := q.others.foldl (fun h p => h.sendFrame 6 pid p (body ++ [BitVec.ofNat 64 (count p)])) h
    (h.modGroup pid gid fun g => { g with total := some t }).releaseBarrier pid gid (count q.pkg) r f mixed

/-- BARRIER_COMPLETE (R376, R432). -/
def execBarrierComplete (pid : Nat) (gid : Nat) (s : State) : Host.Outcome State Fault Refusal :=
  let h := s.chip
  .next { s with chip := if (h.part pid).pkgCount = 0 then h.barrierComplete pid gid else h.fabricBarrier pid gid }

/-- What package 0 or a reporting package says of a group, taken in. -/
def Chip.frameGroup (f : WireFrame) (h : Chip) : Option Chip :=
  let pid := f.pid
  match f.body with
  | 0 :: gid :: report => some (h.modGroup pid gid.toNat fun g => { g with remotes := g.remotes.put f.src report })
  | [1, gid, epoch, r, fl, mixed, t, tf, n] =>
    let g := h.group pid gid.toNat
    if g.epoch ≠ epoch.toNat then some h
    else
      some ((h.modGroup pid gid.toNat fun g => { g with total := some (t, fld tf 0 5) }).releaseBarrier pid gid.toNat n.toNat r
        (fld fl 0 5) (mixed == 1))
  | 2 :: gid :: t :: tf :: exits =>
    let told := fun h : Chip => h.modGroup pid gid.toNat fun g =>
      { g.withExits exits with total := some (t, fld tf 0 5), epoch := 0, reported := [], remotes := [] }
    some (if h.groupEmpty pid gid.toNat then (told h).exitGroup pid gid.toNat
      else if (h.group pid gid.toNat).state = 1 then h else told h)
  | [3, gid] =>
    let r := h.groupReport pid gid.toNat
    some ((h.sendFrame 6 pid 0 (0 :: gid :: r)).modGroup pid gid.toNat fun g => { g with reported := r })
  | _ => some h

/-- FABRIC_GROUP_FRAME (R432). -/
def execFabricGroupFrame (k : Nat) (s : State) : Host.Outcome State Fault Refusal :=
  .next { s with chip := s.chip.onFrame k 6 Chip.frameGroup }

/-- A group over several packages kept in step: package 0 asks every other package once for its report; a report that has changed
goes to package 0, which ends the group once every package has reported that it is empty there (R432). -/
def Chip.settleGroup (h : Chip) (pid gid : Nat) : Chip :=
  let q := h.part pid
  let g := h.group pid gid
  if q.pkg ≠ 0 then
    let r := h.groupReport pid gid
    if (g.state ≠ 1 ∧ g.reported = []) ∨ r = g.reported then h
    else (h.sendFrame 6 pid 0 (0 :: BitVec.ofNat 64 gid :: r)).modGroup pid gid fun g => { g with reported := r }
  else if g.state ≠ 1 ∧ g.remotes = [] then h
  else if g.reported = [] then (h.tellGroup pid [3, BitVec.ofNat 64 gid]).modGroup pid gid fun g => { g with reported := [1] }
  else if (g.state ≠ 1 ∨ h.groupEmpty pid gid) ∧ q.others.all (fun p => ((g.remotes.get p).map reportEmpty).getD false) then
    let t := h.groupTotal pid gid
    let exits := g.remotes.foldl (fun x r => joinExits x (reportExit r.2)) g.exitWords
    let h := h.tellGroup pid ([2, BitVec.ofNat 64 gid, t.1, t.2.zeroExtend 64] ++ exits)
    (h.modGroup pid gid fun g =>
      { g.withExits exits with total := some t, remotes := [], reported := [], epoch := 0 }).exitGroup pid gid
  else h

/-- Every group of the partitions that are spread over several packages. -/
def Chip.settleGroups (h : Chip) : Chip :=
  (h.parts.filter fun q => q.2.active && decide (q.2.pkgCount ≠ 0)).foldl (fun h q =>
    q.2.groups.foldl (fun h g => h.settleGroup q.1 g.1) h) h

/-! ## Roped partitions (R433 to R435) -/

/-- The partner's digest of an interval. -/
def Chip.frameDigest (f : WireFrame) (h : Chip) : Option Chip :=
  match f.body with
  | [k, a, b, c, d] =>
    let h := h.modPart f.pid fun q => { q with ropeTheirs := q.ropeTheirs.put k.toNat (d ++ c ++ b ++ a) }
    some (h.ropeCompare f.pid (h.part f.pid).ropeMine.length)
  | _ => some h

/-- A VCN moved to the cluster that has been longest SPARE, else FALLOW; the one it held enters FALLOW (R435). -/
def State.moveVcn (s : State) (v : Nat) : State :=
  let old := (s.chip.vmap.getOr v {}).pcn.toNat
  let ok := fun st (x : Nat × Phys) => decide (x.2.state = st) && !s.pool.fills x.1 && !s.chip.fences.contains (dieOfPcn x.1)
  match (s.pool.longest (ok .spare)).or (s.pool.longest (ok .fallow)) with
  | some p =>
    { s with
      chip := s.chip.writeEntry v p
      pool := (s.pool.mod p fun x => { x with state := .live v }).enter old .fallow }
  | none => s

/-- The clusters of a partition whose divergence has just been found, placed anew. -/
def State.spread (s : State) (pid : Nat) (before : Bool) : State :=
  if (s.chip.part pid).diverged && !before then (s.chip.part pid).vcns.foldl State.moveVcn s else s

/-- COMMIT_PHASE (R265, R357, R431): it waits for the engine commands of the tasks that commit; a divergence that it brings out
has the partition's clusters placed anew (R435). -/
def execCommitPhase (pid : Nat) (s : State) : Host.Outcome State Fault Refusal :=
  let h := s.chip
  let q := h.part pid
  let go := fun g : Word =>
    .next (if h.commitHeld pid g then s else State.spread { s with chip := h.commitPhase pid g } pid q.diverged)
  if !q.allCut ∨ q.halted ∨ q.off then .next s
  else if q.pkgCount = 0 then go (h.localCandidate pid)
  else if !q.heard q.remoteStops then .next s
  else go (leastStamp ((q.remoteCandidates ++ q.remoteStops).map (·.2)))

/-- ROPE_DIGEST_FRAME (R433, R435). -/
def execRopeDigestFrame (k : Nat) (s : State) : Host.Outcome State Fault Refusal :=
  let h := s.chip
  match h.frameIn k with
  | some f =>
    .next (State.spread { s with chip := h.onFrame k 7 Chip.frameDigest } f.pid (h.part f.pid).diverged)
  | none => .next s

/-- The tie-break run has ended with these digests (R435): the pair goes on, or the divergence is reported and the
partition halts in the state of its last agreed point. -/
def Chip.tieBreak (h : Chip) (pid : Nat) (mine theirs : BitVec 256) : Chip :=
  let q := h.part pid
  match q.tie with
  | none => h
  | some (k, a, b) =>
    if q.ropeMine.get k ≠ some mine ∨ q.ropeTheirs.get k ≠ some theirs then h
    else if mine = theirs ∧ (mine = a ∨ mine = b) then
      let h := h.modPart pid fun q => { q with diverged := false, tie := none }
      h.ropeCompare pid (h.part pid).ropeMine.length
    else h.haltDiverged pid

/-- TIE_BREAK_END (R435): a later interval that diverges in its turn has the clusters placed anew. -/
def execTieBreakEnd (pid : Nat) (mine : BitVec 256) (theirs : BitVec 256) (s : State) : Host.Outcome State Fault Refusal :=
  let g := s.chip.tieBreak pid mine theirs
  .next (State.spread { s with chip := g } pid (decide ((g.part pid).tie = (s.chip.part pid).tie)))

/-! ## Slice gates (R437) -/

/-- FGATE, and the PASID of a sequence entry. -/
def Chip.fgate (h : Chip) : Word := h.regs.getOr 0x4C8 1000
def Chip.fgseq (h : Chip) (n : Nat) : Nat := (h.reg (0x4E0 + n)).toNat

/-- The gate spacing in ns, and the entries of the sequence. -/
def Chip.gatePeriod (h : Chip) : Nat := bits h.fgate 0 32 * 1000
def Chip.gateEntries (h : Chip) : Nat := bits h.fgate 48 4 + 1

/-- The partition that enters next. -/
def Chip.incoming (h : Chip) : Nat := h.fgseq (h.gateNext % h.gateEntries)

/-- The partition of the sequence that runs: gates know multi-package partitions alone (R428, R437). -/
def Chip.occupant (h : Chip) : Option Nat :=
  ((List.range h.gateEntries).map h.fgseq).find? fun p => (h.part p).active && !(h.part p).off && decide ((h.part p).count ≠ 0)

/-- A gate is under way, and its 2 µs are not over. -/
def Chip.gateOpen (h : Chip) : Bool :=
  match h.gateAt with
  | some t => decide (h.now ≤ t + 2000)
  | none => false

/-- Every package of the incoming partition has vacated in time: the slice begins, and the sequence advances. -/
def Chip.beginSlice (h : Chip) : Chip :=
  let p := h.incoming
  let q := h.part p
  if h.gateOpen && (List.range (q.count + 1)).all (fun n => n == q.pkg || h.gateReports.contains n) && h.mayResume p then
    { h.partitionResume p with gateAt := none, gateOut := none, gateNext := (h.gateNext + 1) % h.gateEntries }
  else h

/-- A gate: the occupant is pre-empted, and the other packages of the incoming partition are told. -/
def Chip.sliceGate (h : Chip) : Chip :=
  let n := h.now / h.gatePeriod
  if !h.fgate.getLsbD 63 ∨ h.gateAt.isSome ∨ n ≤ h.gateNum ∨ (h.part h.incoming).count = 0 then h
  else
    let out := h.occupant
    let h := match out with
      | some p => h.partitionPreempt p
      | none => h
    let h := { h with gateAt := some (n * h.gatePeriod), gateNum := n, gateReports := [], gateOut := out }
    let p := h.incoming
    let others := (List.range ((h.part p).count + 1)).filter fun d => decide (d ≠ (h.part p).pkg)
    (others.foldl (fun h d => h.sendFrame 9 p d [BitVec.ofNat 64 n]) h).beginSlice

/-- SLICE_GATE (R437): at a multiple of the spacing. -/
def execSliceGate (s : State) : Host.Outcome State Fault Refusal := .next { s with chip := s.chip.sliceGate }

/-- A package's report for a gate: it waits for a gate that has not come here, and comes too late after an abandoned one. -/
def Chip.frameGate (f : WireFrame) (h : Chip) : Option Chip :=
  match f.body with
  | [n] =>
    if h.gateNum < n.toNat then none
    else if h.gateNum = n.toNat ∧ h.gateAt.isSome then
      let h := { h with gateReports := addOnce h.gateReports f.src }
      some h.beginSlice
    else some h
  | _ => some h

/-- SLICE_GATE_FRAME (R437). -/
def execSliceGateFrame (k : Nat) (s : State) : Host.Outcome State Fault Refusal :=
  .next { s with chip := s.chip.onFrame k 9 Chip.frameGate }

/-- SLICE_ABANDON (R437): 2 µs after the gate the vacated occupant resumes. -/
def execSliceAbandon (s : State) : Host.Outcome State Fault Refusal :=
  let h := s.chip
  match h.gateAt with
  | some t =>
    if h.now < t + 2000 then .next s
    else
      let h := match h.gateOut with
        | some p => h.partitionResume p
        | none => h
      .next { s with chip := { h with gateAt := none, gateOut := none } }
  | none => .next s

/-! ## Launches forwarded to the roped partner (R433) -/

/-- A launch that the roped partner has forwarded, handed to the command processor. -/
def Chip.frameLaunch (f : WireFrame) (h : Chip) : Option Chip :=
  let r : LaunchReq := { slot := none, record := f.body.map fun x => fld x 0 8, block := [], tvec := 0, forwarded := true }
  some (h.modPart f.pid fun q => { q with reqs := q.reqs ++ [r] })

end Sys2Proof.Machine
end

