-- ==== Sys2Proof/Machine/LoadStore.lean ====
section
/-! DEFINITION. Loads, stores, atomics and reductions (R70 to R84). -/

namespace Sys2Proof.Machine

/-- LD.B (R70, R71). -/
def execLdB (d : BitVec 7) (a : BitVec 7) (ahead : BitVec 4) (off : BitVec 8) (s : State) : Host.Outcome State Fault Refusal :=
  loadForm (wordL 12#6 d a ahead off) d a ahead 1 true (byteOff off 1) s

/-- LD.BU (R70, R71). -/
def execLdBu (d : BitVec 7) (a : BitVec 7) (ahead : BitVec 4) (off : BitVec 8) (s : State) : Host.Outcome State Fault Refusal :=
  loadForm (wordL 13#6 d a ahead off) d a ahead 1 false (byteOff off 1) s

/-- LD.H (R70, R71). -/
def execLdH (d : BitVec 7) (a : BitVec 7) (ahead : BitVec 4) (off : BitVec 8) (s : State) : Host.Outcome State Fault Refusal :=
  loadForm (wordL 14#6 d a ahead off) d a ahead 2 true (byteOff off 2) s

/-- LD.HU (R70, R71). -/
def execLdHu (d : BitVec 7) (a : BitVec 7) (ahead : BitVec 4) (off : BitVec 8) (s : State) : Host.Outcome State Fault Refusal :=
  loadForm (wordL 15#6 d a ahead off) d a ahead 2 false (byteOff off 2) s

/-- LD.W (R70, R71). -/
def execLdW (d : BitVec 7) (a : BitVec 7) (ahead : BitVec 4) (off : BitVec 8) (s : State) : Host.Outcome State Fault Refusal :=
  loadForm (wordL 16#6 d a ahead off) d a ahead 4 true (byteOff off 4) s

/-- LD.WU (R70, R71). -/
def execLdWu (d : BitVec 7) (a : BitVec 7) (ahead : BitVec 4) (off : BitVec 8) (s : State) : Host.Outcome State Fault Refusal :=
  loadForm (wordL 17#6 d a ahead off) d a ahead 4 false (byteOff off 4) s

/-- LD.D (R70, R71). -/
def execLdD (d : BitVec 7) (a : BitVec 7) (ahead : BitVec 4) (off : BitVec 8) (s : State) : Host.Outcome State Fault Refusal :=
  loadForm (wordL 18#6 d a ahead off) d a ahead 8 false (byteOff off 8) s

/-- ST.B (R70, R71). -/
def execStB (d : BitVec 7) (a : BitVec 7) (off : BitVec 8) (s : State) : Host.Outcome State Fault Refusal :=
  storeForm (wordL 19#6 d a 0#4 off) d a 1 (byteOff off 1) s

/-- ST.H (R70, R71). -/
def execStH (d : BitVec 7) (a : BitVec 7) (off : BitVec 8) (s : State) : Host.Outcome State Fault Refusal :=
  storeForm (wordL 20#6 d a 0#4 off) d a 2 (byteOff off 2) s

/-- ST.W (R70, R71). -/
def execStW (d : BitVec 7) (a : BitVec 7) (off : BitVec 8) (s : State) : Host.Outcome State Fault Refusal :=
  storeForm (wordL 21#6 d a 0#4 off) d a 4 (byteOff off 4) s

/-- ST.D (R70, R71). -/
def execStD (d : BitVec 7) (a : BitVec 7) (off : BitVec 8) (s : State) : Host.Outcome State Fault Refusal :=
  storeForm (wordL 22#6 d a 0#4 off) d a 8 (byteOff off 8) s

/-- AMO.SWAP (R77, R78). -/
def execAmoSwap (d : BitVec 7) (a : BitVec 7) (b : BitVec 7) (s : State) : Host.Outcome State Fault Refusal :=
  amoForm (wordR 23#6 d a b 0#5) d a b .swap s

/-- AMO.ADD (R77, R78). -/
def execAmoAdd (d : BitVec 7) (a : BitVec 7) (b : BitVec 7) (s : State) : Host.Outcome State Fault Refusal :=
  amoForm (wordR 23#6 d a b 1#5) d a b .add s

/-- AMO.AND (R77, R78). -/
def execAmoAnd (d : BitVec 7) (a : BitVec 7) (b : BitVec 7) (s : State) : Host.Outcome State Fault Refusal :=
  amoForm (wordR 23#6 d a b 2#5) d a b .and s

/-- AMO.OR (R77, R78). -/
def execAmoOr (d : BitVec 7) (a : BitVec 7) (b : BitVec 7) (s : State) : Host.Outcome State Fault Refusal :=
  amoForm (wordR 23#6 d a b 3#5) d a b .or s

/-- AMO.XOR (R77, R78). -/
def execAmoXor (d : BitVec 7) (a : BitVec 7) (b : BitVec 7) (s : State) : Host.Outcome State Fault Refusal :=
  amoForm (wordR 23#6 d a b 4#5) d a b .xor s

/-- AMO.MIN (R77, R78). -/
def execAmoMin (d : BitVec 7) (a : BitVec 7) (b : BitVec 7) (s : State) : Host.Outcome State Fault Refusal :=
  amoForm (wordR 23#6 d a b 5#5) d a b .min s

/-- AMO.MAX (R77, R78). -/
def execAmoMax (d : BitVec 7) (a : BitVec 7) (b : BitVec 7) (s : State) : Host.Outcome State Fault Refusal :=
  amoForm (wordR 23#6 d a b 6#5) d a b .max s

/-- AMO.CAS (R77, R78). -/
def execAmoCas (d : BitVec 7) (a : BitVec 7) (b : BitVec 7) (s : State) : Host.Outcome State Fault Refusal :=
  amoForm (wordR 23#6 d a b 7#5) d a b .cas s

/-- RED.ADD (R80, R81). -/
def execRedAdd (a : BitVec 7) (b : BitVec 7) (s : State) : Host.Outcome State Fault Refusal :=
  redForm (wordR 23#6 0#7 a b 16#5) a b .add s

/-- RED.OR (R80, R81). -/
def execRedOr (a : BitVec 7) (b : BitVec 7) (s : State) : Host.Outcome State Fault Refusal :=
  redForm (wordR 23#6 0#7 a b 17#5) a b .or s

/-- RED.MIN (R80, R81). -/
def execRedMin (a : BitVec 7) (b : BitVec 7) (s : State) : Host.Outcome State Fault Refusal :=
  redForm (wordR 23#6 0#7 a b 18#5) a b .min s

/-- RED.MAX (R80, R81). -/
def execRedMax (a : BitVec 7) (b : BitVec 7) (s : State) : Host.Outcome State Fault Refusal :=
  redForm (wordR 23#6 0#7 a b 19#5) a b .max s

/-- RED.FADD_S (R80, R81). -/
def execRedFaddS (a : BitVec 7) (b : BitVec 7) (s : State) : Host.Outcome State Fault Refusal :=
  redForm (wordR 23#6 0#7 a b 20#5) a b .faddS s

end Sys2Proof.Machine
end

