-- ==== Sys2Proof/Machine/Omem.lean ====
section
/-! DEFINITION. The OMEM and MMA majors (R233 to R246). -/

namespace Sys2Proof.Machine

/-- A gang instruction (R233): its fields are literals. -/
def gangForm (w : Half) (desc : Thread → Word) (s : State) : Host.Outcome State Fault Refusal :=
  issueChip (form w) s fun self p h => h.gangStep self p w (desc self)

/-- The descriptor a literal selects (R236). -/
def descOf (e : BitVec 7) (t : Thread) : Word :=
  if e = 0 then t.fmtA else if e = 1 then t.fmtB else if e = 2 then t.fmtC else 0

/-- MMA (R246). -/
def execMma (acc : BitVec 3) (aslot : BitVec 4) (bslot : BitVec 4) (wait : BitVec 8) (set : BitVec 4) (s : State) : Host.Outcome State Fault Refusal :=
  gangForm (wordX 48#6 0#3 acc aslot bslot wait set) (fun _ => 0) s

/-- MMA.OW (R246). -/
def execMmaOw (acc : BitVec 3) (aslot : BitVec 4) (bslot : BitVec 4) (wait : BitVec 8) (set : BitVec 4) (s : State) : Host.Outcome State Fault Refusal :=
  gangForm (wordX 48#6 1#3 acc aslot bslot wait set) (fun _ => 0) s

/-- MMA.HALF (R246). -/
def execMmaHalf (acc : BitVec 3) (aslot : BitVec 4) (bslot : BitVec 4) (wait : BitVec 8) (set : BitVec 4) (s : State) : Host.Outcome State Fault Refusal :=
  gangForm (wordX 48#6 2#3 acc aslot bslot wait set) (fun _ => 0) s

/-- MMA.HALF.OW (R246). -/
def execMmaHalfOw (acc : BitVec 3) (aslot : BitVec 4) (bslot : BitVec 4) (wait : BitVec 8) (set : BitVec 4) (s : State) : Host.Outcome State Fault Refusal :=
  gangForm (wordX 48#6 3#3 acc aslot bslot wait set) (fun _ => 0) s

/-- MMA.SP (R246). -/
def execMmaSp (acc : BitVec 3) (aslot : BitVec 4) (bslot : BitVec 4) (wait : BitVec 8) (set : BitVec 4) (s : State) : Host.Outcome State Fault Refusal :=
  gangForm (wordX 48#6 4#3 acc aslot bslot wait set) (fun _ => 0) s

/-- MMA.SP.OW (R246). -/
def execMmaSpOw (acc : BitVec 3) (aslot : BitVec 4) (bslot : BitVec 4) (wait : BitVec 8) (set : BitVec 4) (s : State) : Host.Outcome State Fault Refusal :=
  gangForm (wordX 48#6 5#3 acc aslot bslot wait set) (fun _ => 0) s

/-- MMA.HALF.SP (R246). -/
def execMmaHalfSp (acc : BitVec 3) (aslot : BitVec 4) (bslot : BitVec 4) (wait : BitVec 8) (set : BitVec 4) (s : State) : Host.Outcome State Fault Refusal :=
  gangForm (wordX 48#6 6#3 acc aslot bslot wait set) (fun _ => 0) s

/-- MMA.HALF.SP.OW (R246). -/
def execMmaHalfSpOw (acc : BitVec 3) (aslot : BitVec 4) (bslot : BitVec 4) (wait : BitVec 8) (set : BitVec 4) (s : State) : Host.Outcome State Fault Refusal :=
  gangForm (wordX 48#6 7#3 acc aslot bslot wait set) (fun _ => 0) s

/-- OCLAIM (R236). -/
def execOclaim (e : BitVec 7) (n : BitVec 7) (s : State) : Host.Outcome State Fault Refusal :=
  gangForm (wordR 49#6 0#7 e n 0#5) (descOf e) s

/-- OREL (R237). -/
def execOrel (n : BitVec 7) (s : State) : Host.Outcome State Fault Refusal :=
  gangForm (wordR 49#6 0#7 0#7 n 1#5) (fun _ => 0) s

/-- OLD (R238). -/
def execOld (d : BitVec 7) (a : BitVec 7) (b : BitVec 7) (s : State) : Host.Outcome State Fault Refusal :=
  let w := (wordR 49#6 d a b 2#5)
  issueChip (form w [.dst d, .src a, .src b]) s fun self p h => do
    let (x, h) ← h.readAt p a
    let (y, h) ← h.readAt p b
    h.oldIssue self p w d x y

/-- ARD (R243 to R245). -/
def execArd (a : BitVec 7) (b : BitVec 7) (s : State) : Host.Outcome State Fault Refusal :=
  let w := (wordR 49#6 0#7 a b 3#5)
  issueChip (form w [.src a, .src b]) s fun self p h => do
    let (x, h) ← h.readAt p a
    let (y, h) ← h.readAt p b
    h.accIssue self p w x y

/-- AWR (R243 to R245). -/
def execAwr (a : BitVec 7) (b : BitVec 7) (s : State) : Host.Outcome State Fault Refusal :=
  let w := (wordR 49#6 0#7 a b 4#5)
  issueChip (form w [.src a, .src b]) s fun self p h => do
    let (x, h) ← h.readAt p a
    let (y, h) ← h.readAt p b
    h.accIssue self p w x y

/-- ACLR (R242, R243). -/
def execAclr (b : BitVec 7) (s : State) : Host.Outcome State Fault Refusal :=
  let w := (wordR 49#6 0#7 0#7 b 5#5)
  issueChip (form w [.src b]) s fun self p h => do
    let (y, h) ← h.readAt p b
    h.accIssue self p w 0 y

/-- MWAIT (R241). -/
def execMwait (a : BitVec 7) (b : BitVec 7) (s : State) : Host.Outcome State Fault Refusal :=
  let w := (wordR 49#6 0#7 a b 6#5)
  issueChip (form w [.src a, .src b]) s fun self p h => do
    let (x, h) ← h.readAt p a
    let (y, h) ← h.readAt p b
    h.mwaitIssue self p w x y

end Sys2Proof.Machine
end

