-- ==== Sys2Proof/Machine/Tw.lean ====
section
/-! DEFINITION. The TW major (R350, R351, R360, R361). -/

namespace Sys2Proof.Machine

/-! ## SEND and SENDV (R350, R351) -/

/-- Fields of the control word (R350). -/
def sendLen (c : Word) : Nat := bits c 32 9
def sendVcn (c : Word) : Nat := bits c 16 11
def sendHandler (c : Word) : Nat := bits c 0 10

/-- A control word that breaks R350: payload bytes are a multiple of `unit`, at least `least` and at most 256. -/
def sendRefused (c : Word) (unit least : Nat) : Bool :=
  decide (bits c 41 23 ≠ 0 ∨ bits c 27 5 ≠ 0 ∨ bits c 10 6 ≠ 0 ∨ sendLen c % unit ≠ 0 ∨ sendLen c < least ∨ 256 < sendLen c)

/-- The checks of R351 up to the payload. -/
def Chip.sendCheck (h : Chip) (self : Thread) (p : At) (w : Half) (c y : Word) (unit least : Nat) : Except Stop Unit :=
  let vcn := BitVec.ofNat 64 (sendVcn c)
  if self.sup ∨ sendRefused c unit least then .error (.trap .eill (tvalWord w))
  else if self.quiet then .error (.trap .equiet 0)
  else if h.v ≤ sendVcn c then .error (.trap .ewindow vcn)
  else if !(h.part self.pid).holds (sendVcn c) then .error (.trap .eperm vcn)
  else if !((h.cluster p.v).handler (sendHandler c)).valid then .error (.trap .egbpcfg (BitVec.ofNat 64 (sendHandler c)))
  else if bits y 24 40 ≤ bits self.stamp 24 40 then .error (.trap .estamp y)
  else if self.counters.send = 65536 then .error (.trap .eperm 0)
  else .ok ()

/-- The message of a send (R351). -/
def Chip.messageOf (h : Chip) (t : Thread) (c y : Word) (payload : List Byte) : Message :=
  { sender := t.uid, sendIdx := t.counters.send, incarnation := ((h.task? t.uid).map (·.aborts)).getD 0 % 2 ^ 32
    senderStamp := t.stamp, srcV := t.homeV, pid := t.pid, destV := sendVcn c, handler := sendHandler c, stamp := y
    payload := payload, fmtA := t.fmtA, fmtB := t.fmtB, fmtC := t.fmtC, priority := t.priority
    floor := h.floorStamp t.pid t.stamp, srcPkg := (h.part t.pid).pkg, toPkg := (h.part t.pid).routeOf (sendHandler c) }

/-- The send record taken, the message delivered, and the send index written (R351); `addr` is the address operand, 0 where it has
none (R387). -/
def Chip.sendNow (h : Chip) (self : Thread) (p : At) (d : BitVec 7) (c y addr : Word) (payload : List Byte) : Except Stop Chip := do
  let h ← h.need p.v self.uid 1 false addr
  let m := h.messageOf self c y payload
  let h := ((h.addRecord p.v self.uid (.send m)).post m).modThread p fun t =>
    { t with counters := { t.counters with send := t.counters.send + 1 } }
  .ok (h.writeDst p d (BitVec.ofNat 64 self.counters.send))

/-- A payload of `n` bytes at `x` read from local scratch, each address a multiple of `al` (R351, R361). -/
def Chip.payload (h : Chip) (self : Thread) (p : At) (x : Word) (n al : Nat) : Except Stop (List Byte × Chip) :=
  if windowOf x.toNat ≠ .scratch ∨ windowOf (x.toNat + n - 1) ≠ .scratch then .error (.trap .ewindow x)
  else if x.toNat % al ≠ 0 then .error (.trap .ealign x)
  else if h.accessHeld p self x.toNat n then .error .stall
  else
    match h.readBytes self.who p.v x.toNat n with
    | .ok r => .ok r
    | .error (.fault t v) => .error (.trap t v)
    | .error (.stop e) => .error e
    | .error (.walk ..) => .error .stall

/-- SEND (R350, R351). -/
def execSend (d : BitVec 7) (a : BitVec 7) (b : BitVec 7) (s : State) : Host.Outcome State Fault Refusal :=
  let w := (wordR 36#6 d a b 0#5)
  issueChip (form w [.bothOwned d, .src a, .src b]) s fun self p h => do
    let (x, h) ← h.readAt p a
    let (y, h) ← h.readAt p b
    let (c, h) ← h.readAt p d
    h.sendCheck self p w c y 8 0
    if sendLen c = 0 then h.sendNow self p d c y x []
    else
      let (bs, h) ← h.payload self p x (sendLen c) 8
      h.sendNow self p d c y x bs

/-- SENDV (R350, R351): the payload is the first bytes of a vector register. -/
def execSendv (d : BitVec 7) (va : BitVec 5) (b : BitVec 7) (s : State) : Host.Outcome State Fault Refusal :=
  let w := (wordR 36#6 d (0#2 ++ va) b 1#5)
  issueChip (form w [.bothOwned d, .src b]) s fun self p h => do
    let (y, h) ← h.readAt p b
    let (c, h) ← h.readAt p d
    h.sendCheck self p w c y 4 4
    let k ← h.laneCheck p self.uid
    if k.queue ≠ [] then .error .stall
    else h.sendNow self p d c y 0 (((vreg k.v va.toNat).flatMap fun x => natToBytes 4 x.toNat).take (sendLen c))

/-! ## GVT and STAMP (R360) -/

/-- GVT (R360): a task waits until it is the floor task. -/
def execGvt (d : BitVec 7) (s : State) : Host.Outcome State Fault Refusal :=
  issueChip (form (wordR 36#6 d 0#7 0#7 2#5) [.dst d]) s fun self p h =>
    if self.sup then .ok (h.writeDst p d ((h.part (h.pidAt p.v self)).gvt.getD (BitVec.allOnes 64)))
    else if h.floorStamp self.pid self.stamp then .ok (h.writeDst p d self.stamp)
    else .error .stall

/-- STAMP (R360). -/
def execStamp (d : BitVec 7) (s : State) : Host.Outcome State Fault Refusal :=
  issueChip (form (wordR 36#6 d 0#7 0#7 4#5) [.dst d]) s fun self p h => .ok (h.writeDst p d self.tstamp)

/-! ## IRV (R361) -/

/-- IRV is for non-quiet tasks (R361). -/
def irvMode (self : Thread) (w : Half) : Except Stop Unit :=
  if self.sup then .error (.trap .eill (tvalWord w)) else if self.quiet then .error (.trap .equiet 0) else .ok ()

/-- The IRV record made (R361); `addr` is the address operand, 0 where it has none (R387). -/
def Chip.irvNow (h : Chip) (self : Thread) (p : At) (k : IrvKind) (addr : Word) (x : Nat) (y : Word) (payload : List Byte) :
    Except Stop Chip := do
  let h ← h.need p.v self.uid 3 false addr
  .ok (h.addRecord p.v self.uid (.irv k x y payload))

/-- IRV.HOST (R361): the record keeps the host bus address. -/
def execIrvHost (a : BitVec 7) (b : BitVec 7) (s : State) : Host.Outcome State Fault Refusal :=
  let w := (wordR 36#6 1#7 a b 3#5)
  issueChip (form w [.src a, .src b]) s fun self p h => do
    let (x, h) ← h.readAt p a
    let (y, h) ← h.readAt p b
    irvMode self w
    if windowOf x.toNat ≠ .global then .error (.trap .ewindow x)
    else if x.toNat % 64 ≠ 0 then .error (.trap .ealign x)
    else
      let h := h.warm self.pid x.toNat
      match h.resolve self.who x.toNat x with
      | .error (.fault t v) => .error (.trap t v)
      | .error (.walk pid r) => .ok (h.waitWalk self p pid r 1)
      | .error (.stop e) => .error e
      | .ok l =>
        if l.attr ≠ .host then .error (.trap .eperm x)
        else
          let (bs, h) ← h.payload self p y 64 64
          h.irvNow self p .host x (l.pa % 2 ^ 47) y bs

/-- IRV.FLASH (R361). -/
def execIrvFlash (a : BitVec 7) (b : BitVec 7) (s : State) : Host.Outcome State Fault Refusal :=
  let w := (wordR 36#6 2#7 a b 3#5)
  issueChip (form w [.src a, .src b]) s fun self p h => do
    let (x, h) ← h.readAt p a
    let (y, h) ← h.readAt p b
    irvMode self w
    if x.toNat % 64 ≠ 0 then .error (.trap .ealign x)
    else if 64 * (h.part self.pid).irvSize.toNat < x.toNat + 64 then .error (.trap .eperm x)
    else
      let (bs, h) ← h.payload self p y 64 64
      h.irvNow self p .flash x x.toNat y bs

/-- IRV.DB (R361). -/
def execIrvDb (a : BitVec 7) (b : BitVec 7) (s : State) : Host.Outcome State Fault Refusal :=
  let w := (wordR 36#6 3#7 a b 3#5)
  issueChip (form w [.src a, .src b]) s fun self p h => do
    let (x, h) ← h.readAt p a
    let (y, h) ← h.readAt p b
    irvMode self w
    if bits x 3 61 ≠ 0 then .error (.trap .eill (tvalWord w)) else h.irvNow self p .db 0 x.toNat y []

end Sys2Proof.Machine
end

