-- ==== Sys2Proof/Machine/Vec.lean ====
section
/-! DEFINITION. The VF, VI, VM, VP, VS and VG majors (R214 to R229, R282 to R292). -/

namespace Sys2Proof.Machine

/-- VADD.S (R214, R215). -/
def execVaddS (vd : BitVec 5) (va : BitVec 5) (vb : BitVec 5) (gp : BitVec 5) (s : State) : Host.Outcome State Fault Refusal :=
  vectorForm (wordV 40#6 0#6 vd va vb gp) gp (fun _ => false) 0 false s

/-- VSUB.S (R214, R215). -/
def execVsubS (vd : BitVec 5) (va : BitVec 5) (vb : BitVec 5) (gp : BitVec 5) (s : State) : Host.Outcome State Fault Refusal :=
  vectorForm (wordV 40#6 1#6 vd va vb gp) gp (fun _ => false) 0 false s

/-- VMUL.S (R214, R215). -/
def execVmulS (vd : BitVec 5) (va : BitVec 5) (vb : BitVec 5) (gp : BitVec 5) (s : State) : Host.Outcome State Fault Refusal :=
  vectorForm (wordV 40#6 2#6 vd va vb gp) gp (fun _ => false) 0 false s

/-- VFMA.S (R214, R215). -/
def execVfmaS (vd : BitVec 5) (va : BitVec 5) (vb : BitVec 5) (gp : BitVec 5) (s : State) : Host.Outcome State Fault Refusal :=
  vectorForm (wordV 40#6 3#6 vd va vb gp) gp (fun _ => false) 0 false s

/-- VFMS.S (R214, R215). -/
def execVfmsS (vd : BitVec 5) (va : BitVec 5) (vb : BitVec 5) (gp : BitVec 5) (s : State) : Host.Outcome State Fault Refusal :=
  vectorForm (wordV 40#6 4#6 vd va vb gp) gp (fun _ => false) 0 false s

/-- VMIN.S (R214, R215). -/
def execVminS (vd : BitVec 5) (va : BitVec 5) (vb : BitVec 5) (gp : BitVec 5) (s : State) : Host.Outcome State Fault Refusal :=
  vectorForm (wordV 40#6 5#6 vd va vb gp) gp (fun _ => false) 0 false s

/-- VMAX.S (R214, R215). -/
def execVmaxS (vd : BitVec 5) (va : BitVec 5) (vb : BitVec 5) (gp : BitVec 5) (s : State) : Host.Outcome State Fault Refusal :=
  vectorForm (wordV 40#6 6#6 vd va vb gp) gp (fun _ => false) 0 false s

/-- VABS.S (R214, R215). -/
def execVabsS (vd : BitVec 5) (va : BitVec 5) (gp : BitVec 5) (s : State) : Host.Outcome State Fault Refusal :=
  vectorForm (wordV 40#6 7#6 vd va 0#5 gp) gp (fun _ => false) 0 false s

/-- VNEG.S (R214, R215). -/
def execVnegS (vd : BitVec 5) (va : BitVec 5) (gp : BitVec 5) (s : State) : Host.Outcome State Fault Refusal :=
  vectorForm (wordV 40#6 8#6 vd va 0#5 gp) gp (fun _ => false) 0 false s

/-- VRCP.S (R214, R215). -/
def execVrcpS (vd : BitVec 5) (va : BitVec 5) (gp : BitVec 5) (s : State) : Host.Outcome State Fault Refusal :=
  vectorForm (wordV 40#6 9#6 vd va 0#5 gp) gp (fun _ => false) 0 false s

/-- VRSQ.S (R214, R215). -/
def execVrsqS (vd : BitVec 5) (va : BitVec 5) (gp : BitVec 5) (s : State) : Host.Outcome State Fault Refusal :=
  vectorForm (wordV 40#6 10#6 vd va 0#5 gp) gp (fun _ => false) 0 false s

/-- VEXP2.S (R214, R215). -/
def execVexp2S (vd : BitVec 5) (va : BitVec 5) (gp : BitVec 5) (s : State) : Host.Outcome State Fault Refusal :=
  vectorForm (wordV 40#6 11#6 vd va 0#5 gp) gp (fun _ => false) 0 false s

/-- VLOG2.S (R214, R215). -/
def execVlog2S (vd : BitVec 5) (va : BitVec 5) (gp : BitVec 5) (s : State) : Host.Outcome State Fault Refusal :=
  vectorForm (wordV 40#6 12#6 vd va 0#5 gp) gp (fun _ => false) 0 false s

/-- VIADD (R216). -/
def execViadd (vd : BitVec 5) (va : BitVec 5) (vb : BitVec 5) (gp : BitVec 5) (s : State) : Host.Outcome State Fault Refusal :=
  vectorForm (wordV 41#6 0#6 vd va vb gp) gp (fun _ => false) 0 false s

/-- VISUB (R216). -/
def execVisub (vd : BitVec 5) (va : BitVec 5) (vb : BitVec 5) (gp : BitVec 5) (s : State) : Host.Outcome State Fault Refusal :=
  vectorForm (wordV 41#6 1#6 vd va vb gp) gp (fun _ => false) 0 false s

/-- VIMUL (R216). -/
def execVimul (vd : BitVec 5) (va : BitVec 5) (vb : BitVec 5) (gp : BitVec 5) (s : State) : Host.Outcome State Fault Refusal :=
  vectorForm (wordV 41#6 2#6 vd va vb gp) gp (fun _ => false) 0 false s

/-- VAND (R216). -/
def execVand (vd : BitVec 5) (va : BitVec 5) (vb : BitVec 5) (gp : BitVec 5) (s : State) : Host.Outcome State Fault Refusal :=
  vectorForm (wordV 41#6 3#6 vd va vb gp) gp (fun _ => false) 0 false s

/-- VOR (R216). -/
def execVor (vd : BitVec 5) (va : BitVec 5) (vb : BitVec 5) (gp : BitVec 5) (s : State) : Host.Outcome State Fault Refusal :=
  vectorForm (wordV 41#6 4#6 vd va vb gp) gp (fun _ => false) 0 false s

/-- VXOR (R216). -/
def execVxor (vd : BitVec 5) (va : BitVec 5) (vb : BitVec 5) (gp : BitVec 5) (s : State) : Host.Outcome State Fault Refusal :=
  vectorForm (wordV 41#6 5#6 vd va vb gp) gp (fun _ => false) 0 false s

/-- VSHL (R216). -/
def execVshl (vd : BitVec 5) (va : BitVec 5) (vb : BitVec 5) (gp : BitVec 5) (s : State) : Host.Outcome State Fault Refusal :=
  vectorForm (wordV 41#6 6#6 vd va vb gp) gp (fun _ => false) 0 false s

/-- VSHR (R216). -/
def execVshr (vd : BitVec 5) (va : BitVec 5) (vb : BitVec 5) (gp : BitVec 5) (s : State) : Host.Outcome State Fault Refusal :=
  vectorForm (wordV 41#6 7#6 vd va vb gp) gp (fun _ => false) 0 false s

/-- VSRA (R216). -/
def execVsra (vd : BitVec 5) (va : BitVec 5) (vb : BitVec 5) (gp : BitVec 5) (s : State) : Host.Outcome State Fault Refusal :=
  vectorForm (wordV 41#6 8#6 vd va vb gp) gp (fun _ => false) 0 false s

/-- VLD (R217, R218). -/
def execVld (vd : BitVec 5) (gp : BitVec 5) (s : State) : Host.Outcome State Fault Refusal :=
  vmForm (wordV 42#6 0#6 vd 0#5 0#5 gp) gp s

/-- VST (R217, R218). -/
def execVst (vd : BitVec 5) (gp : BitVec 5) (s : State) : Host.Outcome State Fault Refusal :=
  vmForm (wordV 42#6 1#6 vd 0#5 0#5 gp) gp s

/-- VLDS (R217, R218). -/
def execVlds (vd : BitVec 5) (vb : BitVec 5) (gp : BitVec 5) (s : State) : Host.Outcome State Fault Refusal :=
  vmForm (wordV 42#6 2#6 vd 0#5 vb gp) gp s

/-- VSTS (R217, R218). -/
def execVsts (vd : BitVec 5) (vb : BitVec 5) (gp : BitVec 5) (s : State) : Host.Outcome State Fault Refusal :=
  vmForm (wordV 42#6 3#6 vd 0#5 vb gp) gp s

/-- VGATH (R217, R218). -/
def execVgath (vd : BitVec 5) (vb : BitVec 5) (gp : BitVec 5) (s : State) : Host.Outcome State Fault Refusal :=
  vmForm (wordV 42#6 4#6 vd 0#5 vb gp) gp s

/-- VSCAT (R217, R218). -/
def execVscat (vd : BitVec 5) (vb : BitVec 5) (gp : BitVec 5) (s : State) : Host.Outcome State Fault Refusal :=
  vmForm (wordV 42#6 5#6 vd 0#5 vb gp) gp s

/-- VPERM (R220). -/
def execVperm (vd : BitVec 5) (va : BitVec 5) (vb : BitVec 5) (gp : BitVec 5) (s : State) : Host.Outcome State Fault Refusal :=
  vectorForm (wordV 43#6 0#6 vd va vb gp) gp (fun _ => false) 0 false s

/-- VSLIDE (R220). -/
def execVslide (vd : BitVec 5) (va : BitVec 5) (vb : BitVec 5) (gp : BitVec 5) (s : State) : Host.Outcome State Fault Refusal :=
  vectorForm (wordV 43#6 1#6 vd va vb gp) gp (fun x => decide (64 < x.toInt ∨ x.toInt < -64)) 0 false s

/-- VSEL (R220). -/
def execVsel (vd : BitVec 5) (va : BitVec 5) (vb : BitVec 5) (gp : BitVec 5) (s : State) : Host.Outcome State Fault Refusal :=
  vectorForm (wordV 43#6 2#6 vd va vb gp) gp (fun _ => false) 0 false s

/-- VBCAST (R220). -/
def execVbcast (vd : BitVec 5) (gp : BitVec 5) (s : State) : Host.Outcome State Fault Refusal :=
  vectorForm (wordV 43#6 3#6 vd 0#5 0#5 gp) gp (fun _ => false) 0 false s

/-- VCOMP (R220). -/
def execVcomp (vd : BitVec 5) (va : BitVec 5) (gp : BitVec 5) (s : State) : Host.Outcome State Fault Refusal :=
  vectorForm (wordV 43#6 4#6 vd va 0#5 gp) gp (fun _ => false) 0 false s

/-- VSPRS (R221). -/
def execVsprs (vd : BitVec 5) (va : BitVec 5) (gp : BitVec 5) (s : State) : Host.Outcome State Fault Refusal :=
  vectorForm (wordV 43#6 5#6 vd va 0#5 gp) gp (fun _ => false) 0 false s

/-- VCVT.BF16.S (R222). -/
def execVcvtBf16S (vd : BitVec 5) (va : BitVec 5) (gp : BitVec 5) (s : State) : Host.Outcome State Fault Refusal :=
  vectorForm (wordV 43#6 17#6 vd va 0#5 gp) gp (fun _ => false) 64 false s

/-- VCVT.H.S (R222). -/
def execVcvtHS (vd : BitVec 5) (va : BitVec 5) (gp : BitVec 5) (s : State) : Host.Outcome State Fault Refusal :=
  vectorForm (wordV 43#6 18#6 vd va 0#5 gp) gp (fun _ => false) 64 false s

/-- VCVT.E4M3.S (R222). -/
def execVcvtE4m3S (vd : BitVec 5) (va : BitVec 5) (gp : BitVec 5) (s : State) : Host.Outcome State Fault Refusal :=
  vectorForm (wordV 43#6 19#6 vd va 0#5 gp) gp (fun _ => false) 64 false s

/-- VCVT.E5M2.S (R222). -/
def execVcvtE5m2S (vd : BitVec 5) (va : BitVec 5) (gp : BitVec 5) (s : State) : Host.Outcome State Fault Refusal :=
  vectorForm (wordV 43#6 20#6 vd va 0#5 gp) gp (fun _ => false) 64 false s

/-- VCVT.F4B.S (R222). -/
def execVcvtF4bS (vd : BitVec 5) (va : BitVec 5) (gp : BitVec 5) (s : State) : Host.Outcome State Fault Refusal :=
  vectorForm (wordV 43#6 21#6 vd va 0#5 gp) gp (fun _ => false) 64 false s

/-- VCVT.S.BF16 (R222). -/
def execVcvtSBf16 (vd : BitVec 5) (va : BitVec 5) (gp : BitVec 5) (s : State) : Host.Outcome State Fault Refusal :=
  vectorForm (wordV 43#6 25#6 vd va 0#5 gp) gp (fun _ => false) 0 false s

/-- VCVT.S.H (R222). -/
def execVcvtSH (vd : BitVec 5) (va : BitVec 5) (gp : BitVec 5) (s : State) : Host.Outcome State Fault Refusal :=
  vectorForm (wordV 43#6 26#6 vd va 0#5 gp) gp (fun _ => false) 0 false s

/-- VCVT.S.E4M3 (R222). -/
def execVcvtSE4m3 (vd : BitVec 5) (va : BitVec 5) (gp : BitVec 5) (s : State) : Host.Outcome State Fault Refusal :=
  vectorForm (wordV 43#6 27#6 vd va 0#5 gp) gp (fun _ => false) 0 false s

/-- VCVT.S.E5M2 (R222). -/
def execVcvtSE5m2 (vd : BitVec 5) (va : BitVec 5) (gp : BitVec 5) (s : State) : Host.Outcome State Fault Refusal :=
  vectorForm (wordV 43#6 28#6 vd va 0#5 gp) gp (fun _ => false) 0 false s

/-- VCVT.S.F4B (R222). -/
def execVcvtSF4b (vd : BitVec 5) (va : BitVec 5) (gp : BitVec 5) (s : State) : Host.Outcome State Fault Refusal :=
  vectorForm (wordV 43#6 29#6 vd va 0#5 gp) gp (fun _ => false) 0 false s

/-- VCMPEQ.S (R224). -/
def execVcmpeqS (d : BitVec 7) (va : BitVec 5) (vb : BitVec 5) (ahead : BitVec 4) (s : State) : Host.Outcome State Fault Refusal :=
  vsForm (wordVS 44#6 d va vb 0#5 ahead) d ahead s

/-- VCMPNE.S (R224). -/
def execVcmpneS (d : BitVec 7) (va : BitVec 5) (vb : BitVec 5) (ahead : BitVec 4) (s : State) : Host.Outcome State Fault Refusal :=
  vsForm (wordVS 44#6 d va vb 1#5 ahead) d ahead s

/-- VCMPLT.S (R224). -/
def execVcmpltS (d : BitVec 7) (va : BitVec 5) (vb : BitVec 5) (ahead : BitVec 4) (s : State) : Host.Outcome State Fault Refusal :=
  vsForm (wordVS 44#6 d va vb 2#5 ahead) d ahead s

/-- VCMPLE.S (R224). -/
def execVcmpleS (d : BitVec 7) (va : BitVec 5) (vb : BitVec 5) (ahead : BitVec 4) (s : State) : Host.Outcome State Fault Refusal :=
  vsForm (wordVS 44#6 d va vb 3#5 ahead) d ahead s

/-- VCMPEQ.I (R224). -/
def execVcmpeqI (d : BitVec 7) (va : BitVec 5) (vb : BitVec 5) (ahead : BitVec 4) (s : State) : Host.Outcome State Fault Refusal :=
  vsForm (wordVS 44#6 d va vb 4#5 ahead) d ahead s

/-- VCMPNE.I (R224). -/
def execVcmpneI (d : BitVec 7) (va : BitVec 5) (vb : BitVec 5) (ahead : BitVec 4) (s : State) : Host.Outcome State Fault Refusal :=
  vsForm (wordVS 44#6 d va vb 5#5 ahead) d ahead s

/-- VCMPLT.I (R224). -/
def execVcmpltI (d : BitVec 7) (va : BitVec 5) (vb : BitVec 5) (ahead : BitVec 4) (s : State) : Host.Outcome State Fault Refusal :=
  vsForm (wordVS 44#6 d va vb 6#5 ahead) d ahead s

/-- VCMPLE.I (R224). -/
def execVcmpleI (d : BitVec 7) (va : BitVec 5) (vb : BitVec 5) (ahead : BitVec 4) (s : State) : Host.Outcome State Fault Refusal :=
  vsForm (wordVS 44#6 d va vb 7#5 ahead) d ahead s

/-- VRSUM (R225). -/
def execVrsum (d : BitVec 7) (va : BitVec 5) (ahead : BitVec 4) (s : State) : Host.Outcome State Fault Refusal :=
  vsForm (wordVS 44#6 d va 0#5 8#5 ahead) d ahead s

/-- VRMAX (R225). -/
def execVrmax (d : BitVec 7) (va : BitVec 5) (ahead : BitVec 4) (s : State) : Host.Outcome State Fault Refusal :=
  vsForm (wordVS 44#6 d va 0#5 9#5 ahead) d ahead s

/-- VRMIN (R225). -/
def execVrmin (d : BitVec 7) (va : BitVec 5) (ahead : BitVec 4) (s : State) : Host.Outcome State Fault Refusal :=
  vsForm (wordVS 44#6 d va 0#5 10#5 ahead) d ahead s

/-- VMOVS (R226). -/
def execVmovs (d : BitVec 7) (va : BitVec 5) (ahead : BitVec 4) (s : State) : Host.Outcome State Fault Refusal :=
  vsForm (wordVS 44#6 d va 0#5 11#5 ahead) d ahead s

/-- VIBRES (R292). -/
def execVibres (d : BitVec 7) (va : BitVec 5) (vb : BitVec 5) (ahead : BitVec 4) (s : State) : Host.Outcome State Fault Refusal :=
  vsForm (wordVS 44#6 d va vb 12#5 ahead) d ahead s

/-- VIBADD (R286). -/
def execVibadd (vd : BitVec 5) (va : BitVec 5) (vb : BitVec 5) (gp : BitVec 5) (s : State) : Host.Outcome State Fault Refusal :=
  vectorForm (wordV 45#6 0#6 vd va vb gp) gp (fun _ => false) 0 true s

/-- VIBSUB (R286). -/
def execVibsub (vd : BitVec 5) (va : BitVec 5) (vb : BitVec 5) (gp : BitVec 5) (s : State) : Host.Outcome State Fault Refusal :=
  vectorForm (wordV 45#6 1#6 vd va vb gp) gp (fun _ => false) 0 true s

/-- VEMBED (R287). -/
def execVembed (vd : BitVec 5) (va : BitVec 5) (gp : BitVec 5) (s : State) : Host.Outcome State Fault Refusal :=
  vectorForm (wordV 45#6 2#6 vd va 0#5 gp) gp (vgRefuses 2) 0 true s

/-- VSCHUR (R290). -/
def execVschur (vd : BitVec 5) (va : BitVec 5) (gp : BitVec 5) (s : State) : Host.Outcome State Fault Refusal :=
  vectorForm (wordV 45#6 3#6 vd va 0#5 gp) gp (vgRefuses 3) 0 true s

/-- VDAMP (R288). -/
def execVdamp (vd : BitVec 5) (va : BitVec 5) (vb : BitVec 5) (gp : BitVec 5) (s : State) : Host.Outcome State Fault Refusal :=
  vectorForm (wordV 45#6 4#6 vd va vb gp) gp (vgRefuses 4) 0 true s

/-- VSOLVE (R291). -/
def execVsolve (vd : BitVec 5) (va : BitVec 5) (gp : BitVec 5) (s : State) : Host.Outcome State Fault Refusal :=
  vectorForm (wordV 45#6 5#6 vd va 0#5 gp) gp (vgRefuses 5) 0 true s

end Sys2Proof.Machine
end

