-- ==== Sys2Proof/Machine/X64.lean ====
section
/-! DEFINITION. The X64 majors (R52 to R54, R85, R86, R116): integer division and FP64. -/

namespace Sys2Proof.Machine

/-- The core of an index lists X64 (R2, R52). -/
def hasX64 (c : Nat) : Bool := decide (c = 0 ∨ c = 4)

/-- The X64 core a thread of core c moves to (R52). -/
def x64Core (c : Nat) : Nat := if c < 4 then 0 else 4

/-- An X64 instruction: on a core without X64 the thread moves whole to core 0 or 4 and the instruction issues there
(check 2 of R36, R52, R53), once its vector queue has drained (R204). Slot 0 never leaves its core, so check 2 fails there
with EILL (log 14). -/
def issueX64 (f : Form) (s : State) (body : (self : Thread) → Here → Except Stop Here) :
    Host.Outcome State Fault Refusal :=
  let p := s.place
  if hasX64 p.c then issueHere f s body
  else if p.t = 0 then issueHere { word := f.word, points := f.points } s fun _ _ => .error (.trap .eill (tvalWord f.word))
  else
    match s.chip.slot p with
    | .live t =>
      if ((s.chip.cluster p.v).claims.any fun c => decide (c.uid = t.uid ∧ c.queue ≠ [])) then .next s
      else .next { s with chip := (s.chip.parkTo p (x64Core p.c) true).renegotiate p.v t.uid }
    | _ => .next s

/-- The quotient of m by n rounded toward zero (R56). -/
def tdiv (m n : Int) : Int := Int.tdiv m n

/-- A division of R85: EDIVZ where the divisor is zero. -/
def divForm (w : Half) (d a b : BitVec 7) (f : Word → Word → Word) (s : State) : Host.Outcome State Fault Refusal :=
  issueX64 (formDAB w d a b) s fun _ h => do
    let (x, h) ← h.read a
    let (y, h) ← h.read b
    if y = 0 then .error (.trap .edivz 0) else .ok (h.write d (f x y))

/-- DIV (R85). -/
def execDiv (d : BitVec 7) (a : BitVec 7) (b : BitVec 7) (s : State) : Host.Outcome State Fault Refusal :=
  divForm (wordR 56#6 d a b 0#5) d a b (fun x y => BitVec.ofInt 64 (tdiv x.toInt y.toInt)) s

/-- DIVU (R85). -/
def execDivu (d : BitVec 7) (a : BitVec 7) (b : BitVec 7) (s : State) : Host.Outcome State Fault Refusal :=
  divForm (wordR 56#6 d a b 1#5) d a b (fun x y => BitVec.ofNat 64 (x.toNat / y.toNat)) s

/-- REM (R85). -/
def execRem (d : BitVec 7) (a : BitVec 7) (b : BitVec 7) (s : State) : Host.Outcome State Fault Refusal :=
  divForm (wordR 56#6 d a b 2#5) d a b (fun x y => BitVec.ofInt 64 (x.toInt - y.toInt * tdiv x.toInt y.toInt)) s

/-- REMU (R85). -/
def execRemu (d : BitVec 7) (a : BitVec 7) (b : BitVec 7) (s : State) : Host.Outcome State Fault Refusal :=
  divForm (wordR 56#6 d a b 3#5) d a b (fun x y => BitVec.ofNat 64 (x.toNat - y.toNat * (x.toNat / y.toNat))) s

/-- FADD.D (R116). -/
def execFaddD (d : BitVec 7) (a : BitVec 7) (b : BitVec 7) (s : State) : Host.Outcome State Fault Refusal :=
  issueX64 (formDAB (wordR 56#6 d a b 4#5) d a b) s fun _ h => fpBinary fp64 d a b (fun r x y => fp64.add r false x y) h

/-- FSUB.D (R116). -/
def execFsubD (d : BitVec 7) (a : BitVec 7) (b : BitVec 7) (s : State) : Host.Outcome State Fault Refusal :=
  issueX64 (formDAB (wordR 56#6 d a b 5#5) d a b) s fun _ h => fpBinary fp64 d a b (fun r x y => fp64.add r true x y) h

/-- FMUL.D (R116). -/
def execFmulD (d : BitVec 7) (a : BitVec 7) (b : BitVec 7) (s : State) : Host.Outcome State Fault Refusal :=
  issueX64 (formDAB (wordR 56#6 d a b 6#5) d a b) s fun _ h => fpBinary fp64 d a b (fun r x y => fp64.mul r x y) h

/-- FDIV.D (R116). -/
def execFdivD (d : BitVec 7) (a : BitVec 7) (b : BitVec 7) (s : State) : Host.Outcome State Fault Refusal :=
  issueX64 (formDAB (wordR 56#6 d a b 7#5) d a b) s fun _ h => fpBinary fp64 d a b (fun r x y => fp64.div r x y) h

/-- FSQRT.D (R116). -/
def execFsqrtD (d : BitVec 7) (a : BitVec 7) (s : State) : Host.Outcome State Fault Refusal :=
  issueX64 (formDA (wordR 56#6 d a 0#7 8#5) d a) s fun _ h => fpUnary fp64 d a (fun r x => fp64.sqrt r x) h

/-- FMIN.D (R116). -/
def execFminD (d : BitVec 7) (a : BitVec 7) (b : BitVec 7) (s : State) : Host.Outcome State Fault Refusal :=
  issueX64 (formDAB (wordR 56#6 d a b 9#5) d a b) s fun _ h => fpBinary fp64 d a b (fun _ x y => fp64.minMax false x y) h

/-- FMAX.D (R116). -/
def execFmaxD (d : BitVec 7) (a : BitVec 7) (b : BitVec 7) (s : State) : Host.Outcome State Fault Refusal :=
  issueX64 (formDAB (wordR 56#6 d a b 10#5) d a b) s fun _ h => fpBinary fp64 d a b (fun _ x y => fp64.minMax true x y) h

/-- FEQ.D (R116). -/
def execFeqD (d : BitVec 7) (a : BitVec 7) (b : BitVec 7) (s : State) : Host.Outcome State Fault Refusal :=
  issueX64 (formDAB (wordR 56#6 d a b 11#5) d a b) s fun _ h => fpCompare fp64 d a b fp64.eq h

/-- FLT.D (R116). -/
def execFltD (d : BitVec 7) (a : BitVec 7) (b : BitVec 7) (s : State) : Host.Outcome State Fault Refusal :=
  issueX64 (formDAB (wordR 56#6 d a b 12#5) d a b) s fun _ h => fpCompare fp64 d a b fp64.lt h

/-- FLE.D (R116). -/
def execFleD (d : BitVec 7) (a : BitVec 7) (b : BitVec 7) (s : State) : Host.Outcome State Fault Refusal :=
  issueX64 (formDAB (wordR 56#6 d a b 13#5) d a b) s fun _ h => fpCompare fp64 d a b fp64.le h

/-- FCLASS.D (R116). -/
def execFclassD (d : BitVec 7) (a : BitVec 7) (s : State) : Host.Outcome State Fault Refusal :=
  issueX64 (formDA (wordR 56#6 d a 0#7 14#5) d a) s fun _ h => fpUnary fp64 d a (fun _ x => (fp64.classOf x, 0)) h

/-- CVT.D.S (R116). -/
def execCvtDS (d : BitVec 7) (a : BitVec 7) (s : State) : Host.Outcome State Fault Refusal :=
  issueX64 (formDA (wordR 56#6 d a 0#7 15#5) d a) s fun _ h => fpUnary fp32 d a (fun r x => convert fp32 fp64 r x) h

/-- CVT.S.D (R116). -/
def execCvtSD (d : BitVec 7) (a : BitVec 7) (s : State) : Host.Outcome State Fault Refusal :=
  issueX64 (formDA (wordR 56#6 d a 0#7 16#5) d a) s fun _ h => fpNarrow (nextDraw s) d a (fun r x => convert fp64 fp32 r (patOf fp64 x)) h

/-- CVT.D.L (R116). -/
def execCvtDL (d : BitVec 7) (a : BitVec 7) (s : State) : Host.Outcome State Fault Refusal :=
  issueX64 (formDA (wordR 56#6 d a 0#7 17#5) d a) s fun _ h => fpFromInt fp64 d a h

/-- CVT.L.D (R116). -/
def execCvtLD (d : BitVec 7) (a : BitVec 7) (s : State) : Host.Outcome State Fault Refusal :=
  issueX64 (formDA (wordR 56#6 d a 0#7 18#5) d a) s fun _ h => fpToInt fp64 (-2 ^ 63) (2 ^ 63 - 1) d a h

/-- FMADD.D (R116). -/
def execFmaddD (d : BitVec 7) (a : BitVec 7) (b : BitVec 7) (s : State) : Host.Outcome State Fault Refusal :=
  issueX64 (formFused (wordR 57#6 d a b 0#5) d a b) s fun _ h => fpFused fp64 d a b false false h

/-- FMSUB.D (R116). -/
def execFmsubD (d : BitVec 7) (a : BitVec 7) (b : BitVec 7) (s : State) : Host.Outcome State Fault Refusal :=
  issueX64 (formFused (wordR 57#6 d a b 1#5) d a b) s fun _ h => fpFused fp64 d a b false true h

/-- FNMSUB.D (R116). -/
def execFnmsubD (d : BitVec 7) (a : BitVec 7) (b : BitVec 7) (s : State) : Host.Outcome State Fault Refusal :=
  issueX64 (formFused (wordR 57#6 d a b 2#5) d a b) s fun _ h => fpFused fp64 d a b true false h

/-- FNMADD.D (R116). -/
def execFnmaddD (d : BitVec 7) (a : BitVec 7) (b : BitVec 7) (s : State) : Host.Outcome State Fault Refusal :=
  issueX64 (formFused (wordR 57#6 d a b 3#5) d a b) s fun _ h => fpFused fp64 d a b true true h

end Sys2Proof.Machine
end

