-- ==== Sys2Proof/Machine/Dispatch.lean ====
section
/-! DEFINITION. The meaning of every constructor of Instr: one call each. -/

namespace Sys2Proof.Machine

def exec (i : Instr) (s : State) : Host.Outcome State Fault Refusal :=
  match i with
  | .add d a b => Sys2Proof.Machine.execAdd d a b s
  | .sub d a b => Sys2Proof.Machine.execSub d a b s
  | .and d a b => Sys2Proof.Machine.execAnd d a b s
  | .or d a b => Sys2Proof.Machine.execOr d a b s
  | .xor d a b => Sys2Proof.Machine.execXor d a b s
  | .andn d a b => Sys2Proof.Machine.execAndn d a b s
  | .sll d a b => Sys2Proof.Machine.execSll d a b s
  | .srl d a b => Sys2Proof.Machine.execSrl d a b s
  | .sra d a b => Sys2Proof.Machine.execSra d a b s
  | .rol d a b => Sys2Proof.Machine.execRol d a b s
  | .ror d a b => Sys2Proof.Machine.execRor d a b s
  | .slt d a b => Sys2Proof.Machine.execSlt d a b s
  | .sltu d a b => Sys2Proof.Machine.execSltu d a b s
  | .min d a b => Sys2Proof.Machine.execMin d a b s
  | .max d a b => Sys2Proof.Machine.execMax d a b s
  | .minu d a b => Sys2Proof.Machine.execMinu d a b s
  | .maxu d a b => Sys2Proof.Machine.execMaxu d a b s
  | .mul d a b => Sys2Proof.Machine.execMul d a b s
  | .mulh d a b => Sys2Proof.Machine.execMulh d a b s
  | .mulhu d a b => Sys2Proof.Machine.execMulhu d a b s
  | .clz d a => Sys2Proof.Machine.execClz d a s
  | .ctz d a => Sys2Proof.Machine.execCtz d a s
  | .popc d a => Sys2Proof.Machine.execPopc d a s
  | .brev d a => Sys2Proof.Machine.execBrev d a s
  | .sextB d a => Sys2Proof.Machine.execSextB d a s
  | .sextH d a => Sys2Proof.Machine.execSextH d a s
  | .sextW d a => Sys2Proof.Machine.execSextW d a s
  | .zextW d a => Sys2Proof.Machine.execZextW d a s
  | .addi d a imm => Sys2Proof.Machine.execAddi d a imm s
  | .andi d a imm => Sys2Proof.Machine.execAndi d a imm s
  | .ori d a imm => Sys2Proof.Machine.execOri d a imm s
  | .xori d a imm => Sys2Proof.Machine.execXori d a imm s
  | .slti d a imm => Sys2Proof.Machine.execSlti d a imm s
  | .sltiu d a imm => Sys2Proof.Machine.execSltiu d a imm s
  | .slli d a sh => Sys2Proof.Machine.execSlli d a sh s
  | .srli d a sh => Sys2Proof.Machine.execSrli d a sh s
  | .srai d a sh => Sys2Proof.Machine.execSrai d a sh s
  | .rori d a sh => Sys2Proof.Machine.execRori d a sh s
  | .lui d imm => Sys2Proof.Machine.execLui d imm s
  | .auipc d imm => Sys2Proof.Machine.execAuipc d imm s
  | .ldB d a ahead off => Sys2Proof.Machine.execLdB d a ahead off s
  | .ldBu d a ahead off => Sys2Proof.Machine.execLdBu d a ahead off s
  | .ldH d a ahead off => Sys2Proof.Machine.execLdH d a ahead off s
  | .ldHu d a ahead off => Sys2Proof.Machine.execLdHu d a ahead off s
  | .ldW d a ahead off => Sys2Proof.Machine.execLdW d a ahead off s
  | .ldWu d a ahead off => Sys2Proof.Machine.execLdWu d a ahead off s
  | .ldD d a ahead off => Sys2Proof.Machine.execLdD d a ahead off s
  | .stB d a off => Sys2Proof.Machine.execStB d a off s
  | .stH d a off => Sys2Proof.Machine.execStH d a off s
  | .stW d a off => Sys2Proof.Machine.execStW d a off s
  | .stD d a off => Sys2Proof.Machine.execStD d a off s
  | .amoSwap d a b => Sys2Proof.Machine.execAmoSwap d a b s
  | .amoAdd d a b => Sys2Proof.Machine.execAmoAdd d a b s
  | .amoAnd d a b => Sys2Proof.Machine.execAmoAnd d a b s
  | .amoOr d a b => Sys2Proof.Machine.execAmoOr d a b s
  | .amoXor d a b => Sys2Proof.Machine.execAmoXor d a b s
  | .amoMin d a b => Sys2Proof.Machine.execAmoMin d a b s
  | .amoMax d a b => Sys2Proof.Machine.execAmoMax d a b s
  | .amoCas d a b => Sys2Proof.Machine.execAmoCas d a b s
  | .redAdd a b => Sys2Proof.Machine.execRedAdd a b s
  | .redOr a b => Sys2Proof.Machine.execRedOr a b s
  | .redMin a b => Sys2Proof.Machine.execRedMin a b s
  | .redMax a b => Sys2Proof.Machine.execRedMax a b s
  | .redFaddS a b => Sys2Proof.Machine.execRedFaddS a b s
  | .beq a b off => Sys2Proof.Machine.execBeq a b off s
  | .bne a b off => Sys2Proof.Machine.execBne a b off s
  | .blt a b off => Sys2Proof.Machine.execBlt a b off s
  | .bge a b off => Sys2Proof.Machine.execBge a b off s
  | .bltu a b off => Sys2Proof.Machine.execBltu a b off s
  | .bgeu a b off => Sys2Proof.Machine.execBgeu a b off s
  | .bbs a bit off => Sys2Proof.Machine.execBbs a bit off s
  | .bbc a bit off => Sys2Proof.Machine.execBbc a bit off s
  | .j off => Sys2Proof.Machine.execJ off s
  | .jal off => Sys2Proof.Machine.execJal off s
  | .jalr d a imm => Sys2Proof.Machine.execJalr d a imm s
  | .faddS d a b => Sys2Proof.Machine.execFaddS d a b s
  | .fsubS d a b => Sys2Proof.Machine.execFsubS d a b s
  | .fmulS d a b => Sys2Proof.Machine.execFmulS d a b s
  | .fdivS d a b => Sys2Proof.Machine.execFdivS d a b s
  | .fsqrtS d a => Sys2Proof.Machine.execFsqrtS d a s
  | .fminS d a b => Sys2Proof.Machine.execFminS d a b s
  | .fmaxS d a b => Sys2Proof.Machine.execFmaxS d a b s
  | .feqS d a b => Sys2Proof.Machine.execFeqS d a b s
  | .fltS d a b => Sys2Proof.Machine.execFltS d a b s
  | .fleS d a b => Sys2Proof.Machine.execFleS d a b s
  | .fclassS d a => Sys2Proof.Machine.execFclassS d a s
  | .fmaddS d a b => Sys2Proof.Machine.execFmaddS d a b s
  | .fmsubS d a b => Sys2Proof.Machine.execFmsubS d a b s
  | .fnmsubS d a b => Sys2Proof.Machine.execFnmsubS d a b s
  | .fnmaddS d a b => Sys2Proof.Machine.execFnmaddS d a b s
  | .cvtSL d a => Sys2Proof.Machine.execCvtSL d a s
  | .cvtSLu d a => Sys2Proof.Machine.execCvtSLu d a s
  | .cvtLS d a => Sys2Proof.Machine.execCvtLS d a s
  | .cvtLuS d a => Sys2Proof.Machine.execCvtLuS d a s
  | .cvtBf16S d a => Sys2Proof.Machine.execCvtBf16S d a s
  | .cvtSBf16 d a => Sys2Proof.Machine.execCvtSBf16 d a s
  | .cvtHS d a => Sys2Proof.Machine.execCvtHS d a s
  | .cvtSH d a => Sys2Proof.Machine.execCvtSH d a s
  | .cvtE4m3S d a => Sys2Proof.Machine.execCvtE4m3S d a s
  | .cvtSE4m3 d a => Sys2Proof.Machine.execCvtSE4m3 d a s
  | .cvtE5m2S d a => Sys2Proof.Machine.execCvtE5m2S d a s
  | .cvtSE5m2 d a => Sys2Proof.Machine.execCvtSE5m2 d a s
  | .cvtF4bS d a b => Sys2Proof.Machine.execCvtF4bS d a b s
  | .cvtSF4b d a b => Sys2Proof.Machine.execCvtSF4b d a b s
  | .spawn d a b => Sys2Proof.Machine.execSpawn d a b s
  | .take d a => Sys2Proof.Machine.execTake d a s
  | .reap d a => Sys2Proof.Machine.execReap d a s
  | .tend => Sys2Proof.Machine.execTend s
  | .tabort a => Sys2Proof.Machine.execTabort a s
  | .yield => Sys2Proof.Machine.execYield s
  | .mfc d n => Sys2Proof.Machine.execMfc d n s
  | .mtc a n => Sys2Proof.Machine.execMtc a n s
  | .self d => Sys2Proof.Machine.execSelf d s
  | .grade d => Sys2Proof.Machine.execGrade d s
  | .topo d a => Sys2Proof.Machine.execTopo d a s
  | .rep n sd sa sb len => Sys2Proof.Machine.execRep n sd sa sb len s
  | .trap a => Sys2Proof.Machine.execTrap a s
  | .eret => Sys2Proof.Machine.execEret s
  | .mfs d idx => Sys2Proof.Machine.execMfs d idx s
  | .mts d idx => Sys2Proof.Machine.execMts d idx s
  | .bkpt => Sys2Proof.Machine.execBkpt s
  | .treplay d => Sys2Proof.Machine.execTreplay d s
  | .wait d a => Sys2Proof.Machine.execWait d a s
  | .bmode d a b => Sys2Proof.Machine.execBmode d a b s
  | .cflush => Sys2Proof.Machine.execCflush s
  | .cinv a b => Sys2Proof.Machine.execCinv a b s
  | .home => Sys2Proof.Machine.execHome s
  | .bar n => Sys2Proof.Machine.execBar n s
  | .barv d a op n => Sys2Proof.Machine.execBarv d a op n s
  | .gred a n => Sys2Proof.Machine.execGred a n s
  | .gleave n => Sys2Proof.Machine.execGleave n s
  | .launch d a => Sys2Proof.Machine.execLaunch d a s
  | .gqry d a => Sys2Proof.Machine.execGqry d a s
  | .send d a b => Sys2Proof.Machine.execSend d a b s
  | .sendv d va b => Sys2Proof.Machine.execSendv d va b s
  | .gvt d => Sys2Proof.Machine.execGvt d s
  | .irvHost a b => Sys2Proof.Machine.execIrvHost a b s
  | .irvFlash a b => Sys2Proof.Machine.execIrvFlash a b s
  | .irvDb a b => Sys2Proof.Machine.execIrvDb a b s
  | .stamp d => Sys2Proof.Machine.execStamp d s
  | .cpy d a b => Sys2Proof.Machine.execCpy d a b s
  | .cpy2d d a b => Sys2Proof.Machine.execCpy2d d a b s
  | .cpymc d a b => Sys2Proof.Machine.execCpymc d a b s
  | .gath d a b => Sys2Proof.Machine.execGath d a b s
  | .scat d a b => Sys2Proof.Machine.execScat d a b s
  | .chain d a b => Sys2Proof.Machine.execChain d a b s
  | .ewait a b => Sys2Proof.Machine.execEwait a b s
  | .shopen d a b => Sys2Proof.Machine.execShopen d a b s
  | .publ a => Sys2Proof.Machine.execPubl a s
  | .bcarm a b => Sys2Proof.Machine.execBcarm a b s
  | .bcwait a => Sys2Proof.Machine.execBcwait a s
  | .claim a => Sys2Proof.Machine.execClaim a s
  | .vrel => Sys2Proof.Machine.execVrel s
  | .reneg a => Sys2Proof.Machine.execReneg a s
  | .vaddS vd va vb gp => Sys2Proof.Machine.execVaddS vd va vb gp s
  | .vsubS vd va vb gp => Sys2Proof.Machine.execVsubS vd va vb gp s
  | .vmulS vd va vb gp => Sys2Proof.Machine.execVmulS vd va vb gp s
  | .vfmaS vd va vb gp => Sys2Proof.Machine.execVfmaS vd va vb gp s
  | .vfmsS vd va vb gp => Sys2Proof.Machine.execVfmsS vd va vb gp s
  | .vminS vd va vb gp => Sys2Proof.Machine.execVminS vd va vb gp s
  | .vmaxS vd va vb gp => Sys2Proof.Machine.execVmaxS vd va vb gp s
  | .vabsS vd va gp => Sys2Proof.Machine.execVabsS vd va gp s
  | .vnegS vd va gp => Sys2Proof.Machine.execVnegS vd va gp s
  | .vrcpS vd va gp => Sys2Proof.Machine.execVrcpS vd va gp s
  | .vrsqS vd va gp => Sys2Proof.Machine.execVrsqS vd va gp s
  | .vexp2S vd va gp => Sys2Proof.Machine.execVexp2S vd va gp s
  | .vlog2S vd va gp => Sys2Proof.Machine.execVlog2S vd va gp s
  | .viadd vd va vb gp => Sys2Proof.Machine.execViadd vd va vb gp s
  | .visub vd va vb gp => Sys2Proof.Machine.execVisub vd va vb gp s
  | .vimul vd va vb gp => Sys2Proof.Machine.execVimul vd va vb gp s
  | .vand vd va vb gp => Sys2Proof.Machine.execVand vd va vb gp s
  | .vor vd va vb gp => Sys2Proof.Machine.execVor vd va vb gp s
  | .vxor vd va vb gp => Sys2Proof.Machine.execVxor vd va vb gp s
  | .vshl vd va vb gp => Sys2Proof.Machine.execVshl vd va vb gp s
  | .vshr vd va vb gp => Sys2Proof.Machine.execVshr vd va vb gp s
  | .vsra vd va vb gp => Sys2Proof.Machine.execVsra vd va vb gp s
  | .vld vd gp => Sys2Proof.Machine.execVld vd gp s
  | .vst vd gp => Sys2Proof.Machine.execVst vd gp s
  | .vlds vd vb gp => Sys2Proof.Machine.execVlds vd vb gp s
  | .vsts vd vb gp => Sys2Proof.Machine.execVsts vd vb gp s
  | .vgath vd vb gp => Sys2Proof.Machine.execVgath vd vb gp s
  | .vscat vd vb gp => Sys2Proof.Machine.execVscat vd vb gp s
  | .vperm vd va vb gp => Sys2Proof.Machine.execVperm vd va vb gp s
  | .vslide vd va vb gp => Sys2Proof.Machine.execVslide vd va vb gp s
  | .vsel vd va vb gp => Sys2Proof.Machine.execVsel vd va vb gp s
  | .vbcast vd gp => Sys2Proof.Machine.execVbcast vd gp s
  | .vcomp vd va gp => Sys2Proof.Machine.execVcomp vd va gp s
  | .vsprs vd va gp => Sys2Proof.Machine.execVsprs vd va gp s
  | .vcvtBf16S vd va gp => Sys2Proof.Machine.execVcvtBf16S vd va gp s
  | .vcvtHS vd va gp => Sys2Proof.Machine.execVcvtHS vd va gp s
  | .vcvtE4m3S vd va gp => Sys2Proof.Machine.execVcvtE4m3S vd va gp s
  | .vcvtE5m2S vd va gp => Sys2Proof.Machine.execVcvtE5m2S vd va gp s
  | .vcvtF4bS vd va gp => Sys2Proof.Machine.execVcvtF4bS vd va gp s
  | .vcvtSBf16 vd va gp => Sys2Proof.Machine.execVcvtSBf16 vd va gp s
  | .vcvtSH vd va gp => Sys2Proof.Machine.execVcvtSH vd va gp s
  | .vcvtSE4m3 vd va gp => Sys2Proof.Machine.execVcvtSE4m3 vd va gp s
  | .vcvtSE5m2 vd va gp => Sys2Proof.Machine.execVcvtSE5m2 vd va gp s
  | .vcvtSF4b vd va gp => Sys2Proof.Machine.execVcvtSF4b vd va gp s
  | .vcmpeqS d va vb ahead => Sys2Proof.Machine.execVcmpeqS d va vb ahead s
  | .vcmpneS d va vb ahead => Sys2Proof.Machine.execVcmpneS d va vb ahead s
  | .vcmpltS d va vb ahead => Sys2Proof.Machine.execVcmpltS d va vb ahead s
  | .vcmpleS d va vb ahead => Sys2Proof.Machine.execVcmpleS d va vb ahead s
  | .vcmpeqI d va vb ahead => Sys2Proof.Machine.execVcmpeqI d va vb ahead s
  | .vcmpneI d va vb ahead => Sys2Proof.Machine.execVcmpneI d va vb ahead s
  | .vcmpltI d va vb ahead => Sys2Proof.Machine.execVcmpltI d va vb ahead s
  | .vcmpleI d va vb ahead => Sys2Proof.Machine.execVcmpleI d va vb ahead s
  | .vrsum d va ahead => Sys2Proof.Machine.execVrsum d va ahead s
  | .vrmax d va ahead => Sys2Proof.Machine.execVrmax d va ahead s
  | .vrmin d va ahead => Sys2Proof.Machine.execVrmin d va ahead s
  | .vmovs d va ahead => Sys2Proof.Machine.execVmovs d va ahead s
  | .vibres d va vb ahead => Sys2Proof.Machine.execVibres d va vb ahead s
  | .vibadd vd va vb gp => Sys2Proof.Machine.execVibadd vd va vb gp s
  | .vibsub vd va vb gp => Sys2Proof.Machine.execVibsub vd va vb gp s
  | .vembed vd va gp => Sys2Proof.Machine.execVembed vd va gp s
  | .vschur vd va gp => Sys2Proof.Machine.execVschur vd va gp s
  | .vdamp vd va vb gp => Sys2Proof.Machine.execVdamp vd va vb gp s
  | .vsolve vd va gp => Sys2Proof.Machine.execVsolve vd va gp s
  | .mbset a b => Sys2Proof.Machine.execMbset a b s
  | .mbld vd a => Sys2Proof.Machine.execMbld vd a s
  | .mbupd d a vb => Sys2Proof.Machine.execMbupd d a vb s
  | .mma acc aslot bslot wait set => Sys2Proof.Machine.execMma acc aslot bslot wait set s
  | .mmaOw acc aslot bslot wait set => Sys2Proof.Machine.execMmaOw acc aslot bslot wait set s
  | .mmaHalf acc aslot bslot wait set => Sys2Proof.Machine.execMmaHalf acc aslot bslot wait set s
  | .mmaHalfOw acc aslot bslot wait set => Sys2Proof.Machine.execMmaHalfOw acc aslot bslot wait set s
  | .mmaSp acc aslot bslot wait set => Sys2Proof.Machine.execMmaSp acc aslot bslot wait set s
  | .mmaSpOw acc aslot bslot wait set => Sys2Proof.Machine.execMmaSpOw acc aslot bslot wait set s
  | .mmaHalfSp acc aslot bslot wait set => Sys2Proof.Machine.execMmaHalfSp acc aslot bslot wait set s
  | .mmaHalfSpOw acc aslot bslot wait set => Sys2Proof.Machine.execMmaHalfSpOw acc aslot bslot wait set s
  | .oclaim e n => Sys2Proof.Machine.execOclaim e n s
  | .orel n => Sys2Proof.Machine.execOrel n s
  | .old d a b => Sys2Proof.Machine.execOld d a b s
  | .ard a b => Sys2Proof.Machine.execArd a b s
  | .awr a b => Sys2Proof.Machine.execAwr a b s
  | .aclr b => Sys2Proof.Machine.execAclr b s
  | .mwait a b => Sys2Proof.Machine.execMwait a b s
  | .div d a b => Sys2Proof.Machine.execDiv d a b s
  | .divu d a b => Sys2Proof.Machine.execDivu d a b s
  | .rem d a b => Sys2Proof.Machine.execRem d a b s
  | .remu d a b => Sys2Proof.Machine.execRemu d a b s
  | .faddD d a b => Sys2Proof.Machine.execFaddD d a b s
  | .fsubD d a b => Sys2Proof.Machine.execFsubD d a b s
  | .fmulD d a b => Sys2Proof.Machine.execFmulD d a b s
  | .fdivD d a b => Sys2Proof.Machine.execFdivD d a b s
  | .fsqrtD d a => Sys2Proof.Machine.execFsqrtD d a s
  | .fminD d a b => Sys2Proof.Machine.execFminD d a b s
  | .fmaxD d a b => Sys2Proof.Machine.execFmaxD d a b s
  | .feqD d a b => Sys2Proof.Machine.execFeqD d a b s
  | .fltD d a b => Sys2Proof.Machine.execFltD d a b s
  | .fleD d a b => Sys2Proof.Machine.execFleD d a b s
  | .fclassD d a => Sys2Proof.Machine.execFclassD d a s
  | .cvtDS d a => Sys2Proof.Machine.execCvtDS d a s
  | .cvtSD d a => Sys2Proof.Machine.execCvtSD d a s
  | .cvtDL d a => Sys2Proof.Machine.execCvtDL d a s
  | .cvtLD d a => Sys2Proof.Machine.execCvtLD d a s
  | .fmaddD d a b => Sys2Proof.Machine.execFmaddD d a b s
  | .fmsubD d a b => Sys2Proof.Machine.execFmsubD d a b s
  | .fnmsubD d a b => Sys2Proof.Machine.execFnmsubD d a b s
  | .fnmaddD d a b => Sys2Proof.Machine.execFnmaddD d a b s
  | .rotationBoundary v c => Sys2Proof.Machine.execRotationBoundary v c s
  | .loadComplete v tid => Sys2Proof.Machine.execLoadComplete v tid s
  | .heldTrapDelivery v tid => Sys2Proof.Machine.execHeldTrapDelivery v tid s
  | .cdispRestart v c => Sys2Proof.Machine.execCdispRestart v c s
  | .debugHalt v c => Sys2Proof.Machine.execDebugHalt v c s
  | .debugResume v c => Sys2Proof.Machine.execDebugResume v c s
  | .debugStep v c => Sys2Proof.Machine.execDebugStep v c s
  | .debugAbort v c => Sys2Proof.Machine.execDebugAbort v c s
  | .ddataRead v c => Sys2Proof.Machine.execDdataRead v c s
  | .ddataWrite v c x => Sys2Proof.Machine.execDdataWrite v c x s
  | .tnqRead v c => Sys2Proof.Machine.execTnqRead v c s
  | .cpreWrite v c x => Sys2Proof.Machine.execCpreWrite v c x s
  | .displace v c => Sys2Proof.Machine.execDisplace v c s
  | .barrierYield v c => Sys2Proof.Machine.execBarrierYield v c s
  | .vacateComplete v c slot => Sys2Proof.Machine.execVacateComplete v c slot s
  | .contextWriteback v => Sys2Proof.Machine.execContextWriteback v s
  | .packetEnqueue k => Sys2Proof.Machine.execPacketEnqueue k s
  | .overflowRefill v c => Sys2Proof.Machine.execOverflowRefill v c s
  | .migrationArrival k => Sys2Proof.Machine.execMigrationArrival k s
  | .laneGrant v => Sys2Proof.Machine.execLaneGrant v s
  | .vectorCommandComplete v tid => Sys2Proof.Machine.execVectorCommandComplete v tid s
  | .gangInstructionEffect v pid gid => Sys2Proof.Machine.execGangInstructionEffect v pid gid s
  | .mmaStart v pid gid k => Sys2Proof.Machine.execMmaStart v pid gid k s
  | .mmaComplete v pid gid k => Sys2Proof.Machine.execMmaComplete v pid gid k s
  | .oldComplete v pid gid k => Sys2Proof.Machine.execOldComplete v pid gid k s
  | .accumulatorOpComplete v pid gid k => Sys2Proof.Machine.execAccumulatorOpComplete v pid gid k s
  | .gangReclaim v pid gid => Sys2Proof.Machine.execGangReclaim v pid gid s
  | .gangPark v pid gid => Sys2Proof.Machine.execGangPark v pid gid s
  | .engineCommandComplete v k => Sys2Proof.Machine.execEngineCommandComplete v k s
  | .chainDescriptorComplete v k => Sys2Proof.Machine.execChainDescriptorComplete v k s
  | .byteCountAdd k => Sys2Proof.Machine.execByteCountAdd k s
  | .messageArrival k => Sys2Proof.Machine.execMessageArrival k s
  | .antiMessageArrival k => Sys2Proof.Machine.execAntiMessageArrival k s
  | .messageAck k => Sys2Proof.Machine.execMessageAck k s
  | .messageHandover v k => Sys2Proof.Machine.execMessageHandover v k s
  | .packetForward k => Sys2Proof.Machine.execPacketForward k s
  | .tableEntryUpdate router v => Sys2Proof.Machine.execTableEntryUpdate router v s
  | .gvtRoundStart pid => Sys2Proof.Machine.execGvtRoundStart pid s
  | .gvtCut pid v => Sys2Proof.Machine.execGvtCut pid v s
  | .commitPhase pid => Sys2Proof.Machine.execCommitPhase pid s
  | .conflictNotice k => Sys2Proof.Machine.execConflictNotice k s
  | .irvPerform pid => Sys2Proof.Machine.execIrvPerform pid s
  | .launchSubmit x => Sys2Proof.Machine.execLaunchSubmit x s
  | .launchProcess pid => Sys2Proof.Machine.execLaunchProcess pid s
  | .chunkHandout pid lnum chunk => Sys2Proof.Machine.execChunkHandout pid lnum chunk s
  | .barrierArrival pid gid tid => Sys2Proof.Machine.execBarrierArrival pid gid tid s
  | .barrierComplete pid gid => Sys2Proof.Machine.execBarrierComplete pid gid s
  | .groupPlacement pid gid => Sys2Proof.Machine.execGroupPlacement pid gid s
  | .gangReservation pid gid => Sys2Proof.Machine.execGangReservation pid gid s
  | .reservationPreempt pid gid => Sys2Proof.Machine.execReservationPreempt pid gid s
  | .partitionPreempt pid => Sys2Proof.Machine.execPartitionPreempt pid s
  | .partitionResume pid => Sys2Proof.Machine.execPartitionResume pid s
  | .partitionCreate pid => Sys2Proof.Machine.execPartitionCreate pid s
  | .partitionDestroy pid => Sys2Proof.Machine.execPartitionDestroy pid s
  | .hndcfgWrite v x => Sys2Proof.Machine.execHndcfgWrite v x s
  | .scrcfgWrite v x => Sys2Proof.Machine.execScrcfgWrite v x s
  | .pcairnWrite pid x => Sys2Proof.Machine.execPcairnWrite pid x s
  | .frdatWrite pid x => Sys2Proof.Machine.execFrdatWrite pid x s
  | .rotctlWrite x => Sys2Proof.Machine.execRotctlWrite x s
  | .rotationRequest x => Sys2Proof.Machine.execRotationRequest x s
  | .rotationStart src dst => Sys2Proof.Machine.execRotationStart src dst s
  | .rotationCopy v => Sys2Proof.Machine.execRotationCopy v s
  | .rotationRemap v => Sys2Proof.Machine.execRotationRemap v s
  | .rotationResume v => Sys2Proof.Machine.execRotationResume v s
  | .selfTestStart pcn => Sys2Proof.Machine.execSelfTestStart pcn s
  | .selfTestEnd pcn outcome => Sys2Proof.Machine.execSelfTestEnd pcn outcome s
  | .errorStop v code core slot detail detail2 => Sys2Proof.Machine.execErrorStop v code core slot detail detail2 s
  | .cairnRestore v => Sys2Proof.Machine.execCairnRestore v s
  | .coastForwardEnd v => Sys2Proof.Machine.execCoastForwardEnd v s
  | .dieFence die => Sys2Proof.Machine.execDieFence die s
  | .masterTakeover => Sys2Proof.Machine.execMasterTakeover s
  | .pageWalkComplete pid region => Sys2Proof.Machine.execPageWalkComplete pid region s
  | .frespRetry x => Sys2Proof.Machine.execFrespRetry x s
  | .frespReject x => Sys2Proof.Machine.execFrespReject x s
  | .xlinv x => Sys2Proof.Machine.execXlinv x s
  | .xlinvDone => Sys2Proof.Machine.execXlinvDone s
  | .sliceHashSelWrite x => Sys2Proof.Machine.execSliceHashSelWrite x s
  | .sliceRehashComplete => Sys2Proof.Machine.execSliceRehashComplete s
  | .lineEviction tier line => Sys2Proof.Machine.execLineEviction tier line s
  | .writeThroughPerform v => Sys2Proof.Machine.execWriteThroughPerform v s
  | .windowBRead off n => Sys2Proof.Machine.execWindowBRead off n s
  | .windowBWrite off n x => Sys2Proof.Machine.execWindowBWrite off n x s
  | .attestationRequest x => Sys2Proof.Machine.execAttestationRequest x s
  | .attestationReport => Sys2Proof.Machine.execAttestationReport s
  | .powerSample watts => Sys2Proof.Machine.execPowerSample watts s
  | .thermalTrip => Sys2Proof.Machine.execThermalTrip s
  | .powerOn images => Sys2Proof.Machine.execPowerOn images s
  | .bringupClusterPass pcn => Sys2Proof.Machine.execBringupClusterPass pcn s
  | .gradeTimeout => Sys2Proof.Machine.execGradeTimeout s
  | .frameRetransmit k => Sys2Proof.Machine.execFrameRetransmit k s
  | .packageLost pkg => Sys2Proof.Machine.execPackageLost pkg s
  | .fabricPublicationData k => Sys2Proof.Machine.execFabricPublicationData k s
  | .fabricGvtFrame k => Sys2Proof.Machine.execFabricGvtFrame k s
  | .fabricGroupFrame k => Sys2Proof.Machine.execFabricGroupFrame k s
  | .ropeDigestFrame k => Sys2Proof.Machine.execRopeDigestFrame k s
  | .tieBreakEnd pid mine theirs => Sys2Proof.Machine.execTieBreakEnd pid mine theirs s
  | .imageDataFrame pid => Sys2Proof.Machine.execImageDataFrame pid s
  | .sliceGate => Sys2Proof.Machine.execSliceGate s
  | .sliceGateFrame k => Sys2Proof.Machine.execSliceGateFrame k s
  | .sliceAbandon => Sys2Proof.Machine.execSliceAbandon s
  | .registerWrite idx x => Sys2Proof.Machine.execRegisterWrite idx x s
  | .unassignedWord w => Sys2Proof.Machine.execUnassignedWord w s
  | .windowAWrite off x => Sys2Proof.Machine.execWindowAWrite off x s
  | .memoryDieLoss die => Sys2Proof.Machine.execMemoryDieLoss die s
  | .sliceUncorrectableError slice => Sys2Proof.Machine.execSliceUncorrectableError slice s
  | .cairnAcknowledge v => Sys2Proof.Machine.execCairnAcknowledge v s
  | .flashImageWritten pid => Sys2Proof.Machine.execFlashImageWritten pid s

end Sys2Proof.Machine
end

