-- ==== Sys2Proof/WellFormed.lean ====
section
/-! DEFINITION. Well-formed instructions: the fields of a word that must be zero are (R37), and a step names objects that the
device has. -/

namespace Sys2Proof

/-- set[2:0] is zero whenever set[3] is 0 (R37). -/
def setOk (set : BitVec 4) : Bool := set.getLsbD 3 || set.extractLsb' 0 3 == 0

/-- A VCN, a core, a slot (R2, R136, R138). -/
def vcnOk (v : Nat) : Bool := decide (v < 2048)
def coreOk (c : Nat) : Bool := decide (c < 8)
def slotOk (t : Nat) : Bool := decide (t < 16)

/-- A PASID, a group id, a chunk of a launch (R307, R371, R413). -/
def pasidOk (p : Nat) : Bool := decide (p < 2 ^ 20)
def groupOk (g : Nat) : Bool := decide (g < 256)
def chunkOk (c : Nat) : Bool := decide (c < 2 ^ 26)

/-- A physical cluster, a router, a die, a slice, a tier (R299, R301, R312). -/
def pcnOk (p : Nat) : Bool := decide (p < 2048)
def routerOk (r : Nat) : Bool := decide (r < 768)
def dieOk (d : Nat) : Bool := decide (d < 16)
def sliceOk (x : Nat) : Bool := decide (x < 512)
def tierOk (t : Nat) : Bool := decide (t < 2)

/-- A region VA[55:16], a line PA[47:6] (R315, R320). -/
def regionOk (r : Nat) : Bool := decide (r < 2 ^ 40)
def lineOk (l : Nat) : Bool := decide (l < 2 ^ 42)

/-- An index of window C, a host access of 1 to 8 bytes, a doubleword of window A (R415). -/
def registerOk (i : Nat) : Bool := decide (0x100 ≤ i ∧ i < 0x800)
def hostSizeOk (n : Nat) : Bool := decide (1 ≤ n ∧ n ≤ 8)
def windowAOk (off : Nat) : Bool := decide (off % 8 = 0 ∧ off < 2 ^ 16)

/-- A package number, a power sample, the code of a machine check, the outcome of a self-test (R391, R414, R425, R427). -/
def packageOk (p : Nat) : Bool := decide (p < 256)
def wattsOk (w : Nat) : Bool := decide (w < 2 ^ 14)
def codeOk (c : Nat) : Bool := decide (0x20 ≤ c ∧ c ≤ 0x22)
def outcomeOk (o : Nat) : Bool := decide (o < 3)

/-- The check of every constructor. -/
def Instr.wf : Instr → Bool
  | .add _ _ _ => true
  | .sub _ _ _ => true
  | .and _ _ _ => true
  | .or _ _ _ => true
  | .xor _ _ _ => true
  | .andn _ _ _ => true
  | .sll _ _ _ => true
  | .srl _ _ _ => true
  | .sra _ _ _ => true
  | .rol _ _ _ => true
  | .ror _ _ _ => true
  | .slt _ _ _ => true
  | .sltu _ _ _ => true
  | .min _ _ _ => true
  | .max _ _ _ => true
  | .minu _ _ _ => true
  | .maxu _ _ _ => true
  | .mul _ _ _ => true
  | .mulh _ _ _ => true
  | .mulhu _ _ _ => true
  | .clz _ _ => true
  | .ctz _ _ => true
  | .popc _ _ => true
  | .brev _ _ => true
  | .sextB _ _ => true
  | .sextH _ _ => true
  | .sextW _ _ => true
  | .zextW _ _ => true
  | .addi _ _ _ => true
  | .andi _ _ _ => true
  | .ori _ _ _ => true
  | .xori _ _ _ => true
  | .slti _ _ _ => true
  | .sltiu _ _ _ => true
  | .slli _ _ _ => true
  | .srli _ _ _ => true
  | .srai _ _ _ => true
  | .rori _ _ _ => true
  | .lui _ _ => true
  | .auipc _ _ => true
  | .ldB _ _ _ _ => true
  | .ldBu _ _ _ _ => true
  | .ldH _ _ _ _ => true
  | .ldHu _ _ _ _ => true
  | .ldW _ _ _ _ => true
  | .ldWu _ _ _ _ => true
  | .ldD _ _ _ _ => true
  | .stB _ _ _ => true
  | .stH _ _ _ => true
  | .stW _ _ _ => true
  | .stD _ _ _ => true
  | .amoSwap _ _ _ => true
  | .amoAdd _ _ _ => true
  | .amoAnd _ _ _ => true
  | .amoOr _ _ _ => true
  | .amoXor _ _ _ => true
  | .amoMin _ _ _ => true
  | .amoMax _ _ _ => true
  | .amoCas _ _ _ => true
  | .redAdd _ _ => true
  | .redOr _ _ => true
  | .redMin _ _ => true
  | .redMax _ _ => true
  | .redFaddS _ _ => true
  | .beq _ _ _ => true
  | .bne _ _ _ => true
  | .blt _ _ _ => true
  | .bge _ _ _ => true
  | .bltu _ _ _ => true
  | .bgeu _ _ _ => true
  | .bbs _ _ _ => true
  | .bbc _ _ _ => true
  | .j _ => true
  | .jal _ => true
  | .jalr _ _ _ => true
  | .faddS _ _ _ => true
  | .fsubS _ _ _ => true
  | .fmulS _ _ _ => true
  | .fdivS _ _ _ => true
  | .fsqrtS _ _ => true
  | .fminS _ _ _ => true
  | .fmaxS _ _ _ => true
  | .feqS _ _ _ => true
  | .fltS _ _ _ => true
  | .fleS _ _ _ => true
  | .fclassS _ _ => true
  | .fmaddS _ _ _ => true
  | .fmsubS _ _ _ => true
  | .fnmsubS _ _ _ => true
  | .fnmaddS _ _ _ => true
  | .cvtSL _ _ => true
  | .cvtSLu _ _ => true
  | .cvtLS _ _ => true
  | .cvtLuS _ _ => true
  | .cvtBf16S _ _ => true
  | .cvtSBf16 _ _ => true
  | .cvtHS _ _ => true
  | .cvtSH _ _ => true
  | .cvtE4m3S _ _ => true
  | .cvtSE4m3 _ _ => true
  | .cvtE5m2S _ _ => true
  | .cvtSE5m2 _ _ => true
  | .cvtF4bS _ _ _ => true
  | .cvtSF4b _ _ _ => true
  | .spawn _ _ _ => true
  | .take _ _ => true
  | .reap _ _ => true
  | .tend => true
  | .tabort _ => true
  | .yield => true
  | .mfc _ _ => true
  | .mtc _ _ => true
  | .self _ => true
  | .grade _ => true
  | .topo _ _ => true
  | .rep _ _ _ _ _ => true
  | .trap _ => true
  | .eret => true
  | .mfs _ _ => true
  | .mts _ _ => true
  | .bkpt => true
  | .treplay _ => true
  | .wait _ _ => true
  | .bmode _ _ _ => true
  | .cflush => true
  | .cinv _ _ => true
  | .home => true
  | .bar _ => true
  | .barv _ _ _ _ => true
  | .gred _ _ => true
  | .gleave _ => true
  | .launch _ _ => true
  | .gqry _ _ => true
  | .send _ _ _ => true
  | .sendv _ _ _ => true
  | .gvt _ => true
  | .irvHost _ _ => true
  | .irvFlash _ _ => true
  | .irvDb _ _ => true
  | .stamp _ => true
  | .cpy _ _ _ => true
  | .cpy2d _ _ _ => true
  | .cpymc _ _ _ => true
  | .gath _ _ _ => true
  | .scat _ _ _ => true
  | .chain _ _ _ => true
  | .ewait _ _ => true
  | .shopen _ _ _ => true
  | .publ _ => true
  | .bcarm _ _ => true
  | .bcwait _ => true
  | .claim _ => true
  | .vrel => true
  | .reneg _ => true
  | .vaddS _ _ _ _ => true
  | .vsubS _ _ _ _ => true
  | .vmulS _ _ _ _ => true
  | .vfmaS _ _ _ _ => true
  | .vfmsS _ _ _ _ => true
  | .vminS _ _ _ _ => true
  | .vmaxS _ _ _ _ => true
  | .vabsS _ _ _ => true
  | .vnegS _ _ _ => true
  | .vrcpS _ _ _ => true
  | .vrsqS _ _ _ => true
  | .vexp2S _ _ _ => true
  | .vlog2S _ _ _ => true
  | .viadd _ _ _ _ => true
  | .visub _ _ _ _ => true
  | .vimul _ _ _ _ => true
  | .vand _ _ _ _ => true
  | .vor _ _ _ _ => true
  | .vxor _ _ _ _ => true
  | .vshl _ _ _ _ => true
  | .vshr _ _ _ _ => true
  | .vsra _ _ _ _ => true
  | .vld _ _ => true
  | .vst _ _ => true
  | .vlds _ _ _ => true
  | .vsts _ _ _ => true
  | .vgath _ _ _ => true
  | .vscat _ _ _ => true
  | .vperm _ _ _ _ => true
  | .vslide _ _ _ _ => true
  | .vsel _ _ _ _ => true
  | .vbcast _ _ => true
  | .vcomp _ _ _ => true
  | .vsprs _ _ _ => true
  | .vcvtBf16S _ _ _ => true
  | .vcvtHS _ _ _ => true
  | .vcvtE4m3S _ _ _ => true
  | .vcvtE5m2S _ _ _ => true
  | .vcvtF4bS _ _ _ => true
  | .vcvtSBf16 _ _ _ => true
  | .vcvtSH _ _ _ => true
  | .vcvtSE4m3 _ _ _ => true
  | .vcvtSE5m2 _ _ _ => true
  | .vcvtSF4b _ _ _ => true
  | .vcmpeqS _ _ _ _ => true
  | .vcmpneS _ _ _ _ => true
  | .vcmpltS _ _ _ _ => true
  | .vcmpleS _ _ _ _ => true
  | .vcmpeqI _ _ _ _ => true
  | .vcmpneI _ _ _ _ => true
  | .vcmpltI _ _ _ _ => true
  | .vcmpleI _ _ _ _ => true
  | .vrsum _ _ _ => true
  | .vrmax _ _ _ => true
  | .vrmin _ _ _ => true
  | .vmovs _ _ _ => true
  | .vibres _ _ _ _ => true
  | .vibadd _ _ _ _ => true
  | .vibsub _ _ _ _ => true
  | .vembed _ _ _ => true
  | .vschur _ _ _ => true
  | .vdamp _ _ _ _ => true
  | .vsolve _ _ _ => true
  | .mbset _ _ => true
  | .mbld _ _ => true
  | .mbupd _ _ _ => true
  | .mma _ _ _ _ set => setOk set
  | .mmaOw _ _ _ _ set => setOk set
  | .mmaHalf _ _ _ _ set => setOk set
  | .mmaHalfOw _ _ _ _ set => setOk set
  | .mmaSp _ _ _ _ set => setOk set
  | .mmaSpOw _ _ _ _ set => setOk set
  | .mmaHalfSp _ _ _ _ set => setOk set
  | .mmaHalfSpOw _ _ _ _ set => setOk set
  | .oclaim _ _ => true
  | .orel _ => true
  | .old _ _ _ => true
  | .ard _ _ => true
  | .awr _ _ => true
  | .aclr _ => true
  | .mwait _ _ => true
  | .div _ _ _ => true
  | .divu _ _ _ => true
  | .rem _ _ _ => true
  | .remu _ _ _ => true
  | .faddD _ _ _ => true
  | .fsubD _ _ _ => true
  | .fmulD _ _ _ => true
  | .fdivD _ _ _ => true
  | .fsqrtD _ _ => true
  | .fminD _ _ _ => true
  | .fmaxD _ _ _ => true
  | .feqD _ _ _ => true
  | .fltD _ _ _ => true
  | .fleD _ _ _ => true
  | .fclassD _ _ => true
  | .cvtDS _ _ => true
  | .cvtSD _ _ => true
  | .cvtDL _ _ => true
  | .cvtLD _ _ => true
  | .fmaddD _ _ _ => true
  | .fmsubD _ _ _ => true
  | .fnmsubD _ _ _ => true
  | .fnmaddD _ _ _ => true
  | .rotationBoundary v c => vcnOk v && coreOk c
  | .loadComplete v _ => vcnOk v
  | .heldTrapDelivery v _ => vcnOk v
  | .cdispRestart v c => vcnOk v && coreOk c
  | .debugHalt v c => vcnOk v && coreOk c
  | .debugResume v c => vcnOk v && coreOk c
  | .debugStep v c => vcnOk v && coreOk c
  | .debugAbort v c => vcnOk v && coreOk c
  | .ddataRead v c => vcnOk v && coreOk c
  | .ddataWrite v c _ => vcnOk v && coreOk c
  | .tnqRead v c => vcnOk v && coreOk c
  | .cpreWrite v c _ => vcnOk v && coreOk c
  | .displace v c => vcnOk v && coreOk c
  | .barrierYield v c => vcnOk v && coreOk c
  | .vacateComplete v c slot => vcnOk v && coreOk c && slotOk slot
  | .contextWriteback v => vcnOk v
  | .packetEnqueue _ => true
  | .overflowRefill v c => vcnOk v && coreOk c
  | .migrationArrival _ => true
  | .laneGrant v => vcnOk v
  | .vectorCommandComplete v _ => vcnOk v
  | .gangInstructionEffect v pid gid => vcnOk v && pasidOk pid && groupOk gid
  | .mmaStart v pid gid _ => vcnOk v && pasidOk pid && groupOk gid
  | .mmaComplete v pid gid _ => vcnOk v && pasidOk pid && groupOk gid
  | .oldComplete v pid gid _ => vcnOk v && pasidOk pid && groupOk gid
  | .accumulatorOpComplete v pid gid _ => vcnOk v && pasidOk pid && groupOk gid
  | .gangReclaim v pid gid => vcnOk v && pasidOk pid && groupOk gid
  | .gangPark v pid gid => vcnOk v && pasidOk pid && groupOk gid
  | .engineCommandComplete v _ => vcnOk v
  | .chainDescriptorComplete v _ => vcnOk v
  | .byteCountAdd _ => true
  | .messageArrival _ => true
  | .antiMessageArrival _ => true
  | .messageAck _ => true
  | .messageHandover v _ => vcnOk v
  | .packetForward _ => true
  | .tableEntryUpdate router v => routerOk router && vcnOk v
  | .gvtRoundStart pid => pasidOk pid
  | .gvtCut pid v => pasidOk pid && vcnOk v
  | .commitPhase pid => pasidOk pid
  | .conflictNotice _ => true
  | .irvPerform pid => pasidOk pid
  | .launchSubmit _ => true
  | .launchProcess pid => pasidOk pid
  | .chunkHandout pid _ chunk => pasidOk pid && chunkOk chunk
  | .barrierArrival pid gid _ => pasidOk pid && groupOk gid
  | .barrierComplete pid gid => pasidOk pid && groupOk gid
  | .groupPlacement pid gid => pasidOk pid && groupOk gid
  | .gangReservation pid gid => pasidOk pid && groupOk gid
  | .reservationPreempt pid gid => pasidOk pid && groupOk gid
  | .partitionPreempt pid => pasidOk pid
  | .partitionResume pid => pasidOk pid
  | .partitionCreate pid => pasidOk pid
  | .partitionDestroy pid => pasidOk pid
  | .hndcfgWrite v _ => vcnOk v
  | .scrcfgWrite v _ => vcnOk v
  | .pcairnWrite pid _ => pasidOk pid
  | .frdatWrite pid _ => pasidOk pid
  | .rotctlWrite _ => true
  | .rotationRequest _ => true
  | .rotationStart src dst => pcnOk src && pcnOk dst
  | .rotationCopy v => vcnOk v
  | .rotationRemap v => vcnOk v
  | .rotationResume v => vcnOk v
  | .selfTestStart pcn => pcnOk pcn
  | .selfTestEnd pcn outcome => pcnOk pcn && outcomeOk outcome
  | .errorStop v code core slot _ _ => vcnOk v && codeOk code && coreOk core && slotOk slot
  | .cairnRestore v => vcnOk v
  | .coastForwardEnd v => vcnOk v
  | .dieFence die => dieOk die
  | .masterTakeover => true
  | .pageWalkComplete pid region => pasidOk pid && regionOk region
  | .frespRetry _ => true
  | .frespReject _ => true
  | .xlinv _ => true
  | .xlinvDone => true
  | .sliceHashSelWrite _ => true
  | .sliceRehashComplete => true
  | .lineEviction tier line => tierOk tier && lineOk line
  | .writeThroughPerform v => vcnOk v
  | .windowBRead _ n => hostSizeOk n
  | .windowBWrite _ n _ => hostSizeOk n
  | .attestationRequest _ => true
  | .attestationReport => true
  | .powerSample watts => wattsOk watts
  | .thermalTrip => true
  | .powerOn _ => true
  | .bringupClusterPass pcn => pcnOk pcn
  | .gradeTimeout => true
  | .frameRetransmit _ => true
  | .packageLost pkg => packageOk pkg
  | .fabricPublicationData _ => true
  | .fabricGvtFrame _ => true
  | .fabricGroupFrame _ => true
  | .ropeDigestFrame _ => true
  | .tieBreakEnd pid _ _ => pasidOk pid
  | .imageDataFrame pid => pasidOk pid
  | .sliceGate => true
  | .sliceGateFrame _ => true
  | .sliceAbandon => true
  | .registerWrite idx _ => registerOk idx
  | .unassignedWord _ => true
  | .windowAWrite off _ => windowAOk off
  | .memoryDieLoss die => dieOk die
  | .sliceUncorrectableError slice => sliceOk slice
  | .cairnAcknowledge v => vcnOk v
  | .flashImageWritten pid => pasidOk pid

/-- The instruction is well formed. -/
abbrev WellFormed (i : Instr) : Prop := i.wf = true

end Sys2Proof
end

