-- ==== Sys2Proof/Machine/Turn.lean ====
section
/-! DEFINITION. The turn of one slot: what completes for it before it issues (log 2), and the fetch and issue of its next
instruction (R68, R136). -/

namespace Sys2Proof.Machine

/-! ## What completes for the slot before it issues (log 2) -/

/-- A walk that a thread waits for ends, if it has not been reported. -/
def Chip.serveWalks (h : Chip) (uid : Nat) : Chip :=
  let seqs := ((h.findThread uid).map fun t => t.waitingOps.map (·.seq)).getD []
  match h.walks.find? fun w => !w.reported && (w.threads.contains uid || w.waiters.any seqs.contains) with
  | some w => h.walkComplete w.pid w.region
  | none => h

/-- The vector commands of a task: its claim is looked at, and its oldest command runs. -/
def Chip.serveVector (h : Chip) (v uid : Nat) : Chip :=
  match (h.cluster v).claimOf uid with
  | none => h
  | some c =>
    let h := if c.waits then h.serveClaims v else h
    if c.queue = [] ∨ h.limited v then h else h.completeVector v uid

/-- The oldest operation of a gang's queue goes on. -/
def Chip.serveGang (h : Chip) (v pid gid : Nat) : Chip :=
  let h := h.gangEffect v pid gid
  match (h.cluster v).gang pid gid with
  | none => h
  | some g =>
    match g.queue with
    | [] => h
    | q :: _ =>
      if isMma q.op.word then
        if q.started then h.mmaComplete v pid gid 0 else if h.limited v then h else h.mmaStart v pid gid 0
      else h.memberComplete v pid gid 0 (omemFn q.op.word == 2)

/-- The gang of a thread is served. -/
def Chip.serveGangs (h : Chip) (v : Nat) (t : Thread) : Chip :=
  match h.gangOf t with
  | some gid => if t.quiet then h.serveGang v t.pid gid else h
  | none => h

/-- The oldest engine command of the cluster goes on, and the oldest counted bytes on their way to it arrive. -/
def Chip.serveEngine (h : Chip) (v : Nat) : Chip :=
  let h := match (h.cluster v).cmds with
    | [] => h
    | c :: _ => h.engStep v 0 c.chain
  match h.flights.find? fun f => match f.2.body with | .count u _ _ _ => u == v | _ => false with
  | some f => if h.arrives ((h.cluster v).pid.getD 0) v f.2 then h.countAdd f.1 else h
  | none => h

/-- A thread that stands at a barrier arrives, and the barrier completes where it can. -/
def Chip.serveBarrier (h : Chip) (t : Thread) : Chip :=
  match t.wait with
  | .barrier gid _ _ => (h.barrierArrive t.pid gid t.uid).barrierComplete t.pid gid
  | _ => h

/-- The default schedule for the slot at `p`: the oldest write-through of its cluster is performed, and whatever its own
thread waits for goes on by one step. -/
def Chip.serve (h : Chip) (p : At) : Chip :=
  match h.slot p with
  | .live t =>
    if !h.running p.v then h
    else
      let h := h.performThrough p.v
      let h := (h.serveWalks t.uid).loadComplete t.uid
      let h := ((h.serveVector p.v t.uid).serveGangs p.v t).serveEngine p.v
      h.serveBarrier t
  | _ => h

/-! ## The issue turn of a slot (R68, R136) -/

/-- The slot may issue: its cluster exists and runs, its core's dispatch runs, it is not being vacated, and its partition
runs (R124, R160, R346, R385, R393, R401). Slot 0 runs for the cluster, whatever its partition. -/
def Chip.mayIssue (h : Chip) (p : At) : Bool :=
  let k := h.cluster p.v
  let q := h.part (k.pid.getD 0)
  decide (p.v < h.v) && !k.stopped && !k.paused &&
    (decide (p.t = 0) || (!(h.core p.v p.c).stopped && !(h.core p.v p.c).vacating.contains p.t && !q.halted && !q.off))

/-- A fetch that failed: a trap of the instruction, or a walk that the thread waits for (R68, R323). -/
def Chip.fetchFailed (h : Chip) (p : At) (t : Thread) : Blocked → Chip
  | .fault e x => (h.takeTrap p (raisedBy t e x)).endStep p
  | .walk pid r => h.waitWalk t p pid r 2
  | .stop _ => h

/-- The word that the slot's thread issues next, with the chip after its fetch; none where nothing issues. A fetch that fails
traps before the deferred faults that the instruction would report (log 53). -/
def State.fetched (s : State) : Option (Except Chip (Half × Chip)) :=
  let p := s.place
  match s.chip.slot p with
  | .live t =>
    if s.chip.mayIssue p then
      match s.chip.fetchNext t with
      | .ok r => some (.ok r)
      | .error e => some (.error (s.chip.fetchFailed p t e))
    else none
  | _ => none

/-- A fetched word decoded and executed at the place whose turn it is; an unassigned word raises EILL (R36). -/
noncomputable def State.run (s : State) (w : Half) : Host.Outcome State Fault Refusal :=
  match decode w with
  | .ok i => exec i s
  | .error _ => execUnassignedWord w s

/-- The slot whose turn it is issues one instruction, or its turn passes unused (R136). -/
noncomputable def State.issueOne (s : State) : Host.Outcome State Fault Refusal :=
  match s.fetched with
  | none => .next s
  | some (.error h) => .next { s with chip := h }
  | some (.ok (w, h)) => State.run { s with chip := h } w

/-- An outcome followed by `f`. -/
def andThen (o : Host.Outcome State Fault Refusal) (f : State → State) : Host.Outcome State Fault Refusal :=
  match o with
  | .next s => .next (f s)
  | .fault r => .fault r
  | .refused r => .refused r

end Sys2Proof.Machine
end

