-- ==== Sys2Proof/Machine/Screen.lean ====
section
/-! DEFINITION. Screened pairs (R166 to R177): the leading thread's turn, the trailing thread's turn, the load-value queue
and the store comparator, and how the trailing half follows what happens to the leading half from outside. The choices that
the rules leave are in log 50. -/

namespace Sys2Proof.Machine

/-! ## What an instruction is to a pair -/

/-- How a pair runs an instruction. -/
inductive Role where
  /-- it stays within the register range: each thread runs it for itself (R168) -/
  | inside
  /-- a value enters from outside: the trailing thread takes it from the load-value queue (R169) -/
  | value
  /-- an operation leaves the core: the comparator holds it until the trailing thread issues it (R170) -/
  | output
  /-- the leading thread waits until the trailing thread has reached it (R171) -/
  | sync
  deriving DecidableEq, Repr

/-- The role of a word on a core with or without X64: an X64 instruction computes on the thread's registers where it does not move
the thread (R52, R171). -/
def roleOf (x64 : Bool) (w : Half) : Role :=
  match accessOf w with
  | some (.load ..) => .value
  | some (.store _) => .output
  | some (.red _) => .output
  | some (.amo _) => .sync
  | none =>
    let m := major w
    if m < 0x20 ∨ m = 0x21 ∨ (x64 = true ∧ (m = 0x38 ∨ m = 0x39)) then .inside
    else if [0x28, 0x29, 0x2B, 0x2D].contains m then .output
    else .sync

/-- The value that a register field names, without taking it from a queue. -/
def Here.peek (x : Here) (r : Nat) : Word :=
  if r = 120 then
    match x.th.ldq with
    | e :: _ => (match e.arrival with | .landed (.value v _) => v | _ => 0)
    | [] => 0
  else if r = 121 then x.th.sdq.headD 0
  else if r < x.th.regLim then readGpr x.th x.file r else 0

/-- The operand values that the comparator holds with a word (R170): those of its register fields, of the scalar pair of the V
format, and of the second control register of an engine command (R258). -/
def Here.operands (x : Here) (w : Half) : List Word :=
  let y := x.landed (pointsOf w)
  let p := bits w 0 5
  let d := bits w 19 7
  [y.peek d, y.peek (bits w 12 7), y.peek (bits w 5 7)] ++
    if 0x28 ≤ major w ∧ major w ≤ 0x2D then [y.peek (2 * p), y.peek (2 * p + 1)]
    else if major w = 0x25 then [y.peek (d + 1)]
    else []

/-- What is due at a word has arrived: its operands are what they will be when it issues (R45). -/
def Here.operandsDue (x : Here) (w : Half) : Bool :=
  match x.consume (pointsOf w) with
  | .error (_, .stall) => false
  | _ => true

/-- The registers that a task's migration packet carries (R170, R194). -/
def Chip.leaving (h : Chip) (uid : Nat) : List Word :=
  (h.flights.findSome? fun f =>
    match f.2.body with
    | .migration _ q => if q.thread.uid = uid then some q.regs else none
    | _ => none).getD []

/-- What became of a thread at an instruction. -/
inductive Went where
  /-- it has not issued -/
  | stood
  /-- it has issued and stands past the instruction -/
  | passed (x : Here)
  /-- it trapped, or left its slot -/
  | left
  deriving DecidableEq, Repr

/-- What became of the thread `t` at a place. -/
def Chip.went (h : Chip) (t : Thread) (p : At) : Went :=
  match h.slot p, h.here? p with
  | .live _, some y =>
    if y.th.issued ≠ t.issued then .passed y
    else if y.th.traps = t.traps ∧ y.th.sup = t.sup then .stood
    else .left
  | _, _ => .left

/-- The code and TVAL of the trap the task raised last (R174). -/
def Chip.trapOf (h : Chip) (uid : Nat) : Option (Nat × Word) := (h.findThread uid).bind fun t => t.trapped

/-- The numbers of a trap, as a failed fetch hands them to the comparator. -/
def trapNumbers : Option (Nat × Word) → List Word
  | some (e, x) => [BitVec.ofNat 64 e, x]
  | none => []

/-- Operations of a thread that another state of it did not have, as entries of the load-value queue. -/
def newValues (old new : Thread) : List LdqEntry :=
  ((new.pend.map fun q => (⟨q.op, q.arrival⟩ : LdqEntry)) ++ new.ldq).filter fun e =>
    !(old.pend.any fun q => decide (q.op.seq = e.op.seq)) && !(old.ldq.any fun x => decide (x.op.seq = e.op.seq))

/-! ## Changing a pair -/

/-- The trailing half of the pair at `p` replaced. -/
def Chip.setPair (h : Chip) (p : At) (u : Thread) (q : Pair) : Chip := h.setSlot p.trail (.trailing u q)

/-- `f` applied to what the pair at `p` holds. -/
def Chip.modPair (h : Chip) (p : At) (f : Pair → Pair) : Chip :=
  match h.pairAt p with
  | some (u, q) => h.setPair p u (f q)
  | none => h

/-- The pair at `p` has met a mismatch of this kind (R175): 0 the comparator, 1 a vector result, 2 a trap. -/
def Chip.pairMismatch (h : Chip) (p : At) (kind : Nat) : Chip :=
  h.modCluster p.v fun k => { k with mismatch := some (p.c, p.t, kind) }

/-- The leading thread stands at a synchronising instruction; the comparator holds its word and operands (R170, R171). -/
def State.stage (s : State) (p : At) (y : Held) : State :=
  { s with chip := s.chip.modPair p fun q => { q with sync := some y, agreed := false } }

/-- A word with what it and, where it moves the thread, its packet carry (R170). -/
noncomputable def State.heldFor (s : State) (p : At) (uid : Nat) (w : Half) : Held :=
  let carries := match s.run w with
    | .next g => g.chip.leaving uid
    | _ => []
  ⟨some w, ((s.chip.here? p).map fun x => x.operands w).getD [] ++ carries⟩

/-- The thread at `p` stands where the operands of its next word are known. -/
def State.operandsDue (s : State) (p : At) (w : Half) : Bool := ((s.chip.here? p).map fun x => x.operandsDue w).getD false

/-! ## The turn of the leading thread (R167 to R171) -/

/-- The leading thread has issued: the pair is one instruction further apart. A value goes into the queue of 32, and an operation into
the comparator of 16, in place of what it does outside the core; where there is no room, and at a load behind an operation held, the
thread waits. -/
def State.leadPassed (s g : State) (p : At) (t u : Thread) (q : Pair) (r : Role) (y : Here) (e : Held) : State :=
  let new := newValues t y.th
  match r with
  | .value =>
    if q.held ≠ [] ∨ 32 < u.values.length + new.length then s
    else { g with chip := g.chip.setPair p { u with values := u.values ++ new } { q with lag := q.lag + 1 } }
  | .output =>
    if new ≠ [] then s.stage p e
    else if 16 ≤ q.held.length then s
    else { s with chip :=
      { (s.chip.putHere p y).setPair p u { q with lag := q.lag + 1, held := q.held ++ [e] } with nextSeq := g.chip.nextSeq } }
  | _ => { g with chip := g.chip.setPair p u { q with lag := q.lag + 1 } }

/-- The instruction on which the pair has agreed, issued once for both by the leading thread: the pair holds it no longer, unless
the thread still waits at it. -/
noncomputable def State.issueAgreed (s : State) (p : At) (t : Thread) (e : Option Held) : Host.Outcome State Fault Refusal :=
  let f : State := { s with chip := s.chip.modPair p fun q => { q with sync := none, agreed := false } }
  andThen f.issueOne fun g =>
    if g.chip.went t p = .stood then { g with chip := g.chip.modPair p fun q => { q with sync := e, agreed := true } } else g

/-- The leading thread's turn. -/
noncomputable def State.leadIssue (s : State) (p : At) (t u : Thread) (q : Pair) : Host.Outcome State Fault Refusal :=
  if q.sync.isSome then
    if q.agreed then s.issueAgreed p t q.sync else .next s
  else if 32 ≤ q.lag then .next s
  else
    match s.fetched with
    | none => .next s
    | some (.error h) =>
      .next (if h.went t p = .stood then { s with chip := h } else s.stage p ⟨none, t.pc :: trapNumbers (h.trapOf t.uid)⟩)
    | some (.ok (w, h)) =>
      let s : State := { s with chip := h }
      let e := s.heldFor p t.uid w
      let r := roleOf (hasX64 p.c) w
      if r = .sync then .next (if s.operandsDue p w then s.stage p e else s)
      else
        match s.run w with
        | .next g =>
          match g.chip.went t p with
          | .stood => .next (if r = .output then s else g)
          | .left => .next (s.stage p e)
          | .passed y => .next (s.leadPassed g p t u q r y e)
        | o => o

/-! ## The turn of the trailing thread (R167 to R171, R174, R175) -/

/-- The state in which the trailing thread stands in the slot of its leading half, whose turn it is. -/
def State.asTrailing (s : State) (p : At) (u : Thread) : State :=
  { s with chip := (s.chip.setSlot p (.live u)).modCore p.v p.c fun k => { k with turn := p.t } }

/-- The state in which the leading thread has its turn again. -/
def State.asLeading (s : State) (p : At) : State :=
  { s with chip := s.chip.modCore p.v p.c fun k => { k with turn := p.t } }

/-- A state that the trailing thread has reached, with the leading thread `lead` back in its slot and the trailing half in its own. -/
def State.back (g : State) (p : At) (lead : Slot) (u : Thread) (q : Pair) : State :=
  { g with chip := ((g.chip.setSlot p lead).setPair p u q).modCore p.v p.c fun k => { k with turn := p.t + 8 } }

/-- A new operation of the trailing thread takes the place in the queue that the leading thread's has (R169). -/
def takeValue (old : Thread) (e : LdqEntry) (new : Thread) : Thread :=
  let is := fun seq : Nat => (newValues old new).any fun x => decide (x.op.seq = seq)
  { new with
    pend := new.pend.map fun q => if is q.op.seq then { q with op := e.op, arrival := e.arrival } else q
    ldq := new.ldq.map fun x => if is x.op.seq then e else x }

/-- The trailing thread has issued what the leading thread issued `lag` instructions ago. -/
def State.trailPassed (s fetched g : State) (p : At) (u : Thread) (q : Pair) (r : Role) (y : Here) (e : Held) : State :=
  let lead := s.chip.slot p
  match r with
  | .value =>
    match u.values with
    | [] => s
    | v :: vs =>
      let th := { takeValue u v y.th with values := vs }
      State.back { fetched with chip := fetched.chip.putHere p { y with th := th } } p lead th { q with lag := q.lag - 1 }
  | .output =>
    match q.held with
    | [] => { s with chip := s.chip.pairMismatch p 0 }
    | x :: xs =>
      if x ≠ e then { s with chip := s.chip.pairMismatch p 0 }
      else
        let new := y.th.pend.filter fun a => (newValues u y.th).any fun x => decide (x.op.seq = a.op.seq)
        let lead := match lead.thread? with
          | some t => lead.withThread { t with pend := t.pend ++ new }
          | none => lead
        g.back p lead y.th { q with lag := q.lag - 1, held := xs }
  | _ => g.back p lead y.th { q with lag := q.lag - 1 }

/-- The code and TVAL of the trap that a word raises at the place whose turn it is, where it raises one. -/
noncomputable def State.trapBy (s : State) (p : At) (uid : Nat) (w : Half) : Option (Nat × Word) :=
  match State.run { s with chip := s.chip.modThread p fun t => { t with trapped := none } } w with
  | .next g => g.chip.trapOf uid
  | _ => none

/-- The trailing thread, in state `t`, at the instruction where the leading thread waits: both must have the same word and operands,
and both or neither raise the same trap (R171, R174). A failed fetch has no word: it holds the address and its trap. -/
noncomputable def State.meet (s t : State) (p : At) (uid : Nat) (x y : Held) (word : Option Half) : State :=
  let differs := match word with
    | some w => decide (t.trapBy p uid w ≠ (s.asLeading p).trapBy p uid w)
    | none => false
  if x ≠ y then { s with chip := s.chip.pairMismatch p 0 }
  else if differs then { s with chip := s.chip.pairMismatch p 2 }
  else { s with chip := s.chip.modPair p fun q => { q with agreed := true } }

/-- The trailing thread's turn: it issues what the leading thread has issued and nothing before it, while the pair is LIVE (R138,
R167). -/
noncomputable def State.trailIssue (s : State) (p : At) (u : Thread) (q : Pair) : Host.Outcome State Fault Refusal :=
  if (match s.chip.slot p with | .live _ => false | _ => true) then .next s
  else if q.lag = 0 ∧ (q.sync.isNone ∨ q.agreed) then .next s
  else
    let lead := s.chip.slot p
    let bad := fun kind : Nat => ({ s with chip := s.chip.pairMismatch p kind } : State)
    match (s.asTrailing p u).fetched with
    | none => .next s
    | some (.error h) =>
      if h.went u p = .stood then .next (State.back { s with chip := h } p lead u q)
      else
        match q.lag, q.sync with
        | 0, some y => .next (s.meet { s with chip := h } p u.uid ⟨none, u.pc :: trapNumbers (h.trapOf u.uid)⟩ y none)
        | _, _ => .next (bad 2)
    | some (.ok (w, h)) =>
      let f : State := { s with chip := h }
      let e := f.heldFor p u.uid w
      let r := roleOf (hasX64 p.c) w
      match q.lag, q.sync with
      | 0, some y => .next (if f.operandsDue p w then s.meet f p u.uid e y (some w) else f.back p lead u q)
      | _, _ =>
        if r = .sync then .next (bad 0)
        else
          match f.run w with
          | .next g =>
            match g.chip.went u p with
            | .stood => .next (f.back p lead u q)
            | .left => .next (bad 2)
            | .passed y => .next (s.trailPassed f g p u q r y e)
          | o => o

/-- The turn of a slot: of either half of a pair, or of a thread alone. -/
noncomputable def State.issue (s : State) : Host.Outcome State Fault Refusal :=
  let p := s.place
  match s.chip.slot p with
  | .trailing u q => s.trailIssue { p with t := p.t - 8 } u q
  | .live t =>
    match s.chip.pairAt p with
    | some (u, q) => s.leadIssue p t u q
    | none => s.issueOne
  | _ => .next s

/-! ## Following the leading half (R167, R168, R171) -/

/-- The registers of the trailing half whose counterparts have changed since `old`. -/
def followFile (old new : Map Word) (x u : Thread) : Map Word :=
  (List.range (min x.regLim u.regLim)).foldl (fun f r =>
    if old.getOr (x.regBase + r) 0 = new.getOr (x.regBase + r) 0 then f else writeGpr u f r (new.getOr (x.regBase + r) 0)) new

/-- The pc of the trailing half `u` after the leading half went from `t` to `x`: a step on from its own pc where the leading half made
a step, and otherwise where the leading half went. -/
def followPc (t x u : Thread) : Word := if x.pc = t.pc then u.pc else if x.pc = t.past.pc then u.past.pc else x.pc

/-- The flags of the trailing half: those that the leading half gained are added to its own; a write of them is taken over. -/
def followFlags (t x u : Thread) : BitVec 5 :=
  if t.fflags &&& x.fflags = t.fflags then u.fflags ||| (x.fflags &&& ~~~ t.fflags) else x.fflags

/-- The store data queue of the trailing half: what the leading half took from its own or put into it. -/
def followSdq (t x u : Thread) : List Word :=
  if x.sdq = t.sdq then u.sdq
  else if x.sdq = t.sdq.drop 1 then u.sdq.drop 1
  else if x.sdq.take t.sdq.length = t.sdq then u.sdq ++ x.sdq.drop t.sdq.length
  else x.sdq

/-- The trailing half of a pair that stands level with its leading half takes over what a step did to that half: what a
synchronising instruction did, once for the pair, or an event outside; what the step did not touch stays its own. -/
def Chip.followLevel (h old : Chip) (p : At) (x u : Thread) (q : Pair) : Chip :=
  let was := old.thread? p
  if q.lag ≠ 0 ∨ was = some x ∧ (old.core p.v p.c).file = (h.core p.v p.c).file then h
  else
    match old.pairAt p with
    | some (_, r) =>
      if r.lag ≠ 0 then h
      else
        let t := was.getD x
        let lim := if t.regLim = x.regLim then u.regLim else x.regLim
        let v := { x with regBase := u.regBase, regLim := lim, values := u.values, pc := followPc t x u, fflags := followFlags t x u,
                          sdq := followSdq t x u }
        (h.setPair p v q).modCore p.v p.c fun k => { k with file := followFile (old.core p.v p.c).file k.file x v }
    | none => h.setPair p { x with regBase := u.regBase, regLim := u.regLim, values := u.values } q

/-- The trailing half of a pair leaves every state with its leading half (R167). -/
def Chip.followSlot (h old : Chip) (v c t : Nat) : Chip :=
  let p : At := ⟨v, c, t⟩
  match h.slot p, h.slot p.trail with
  | .live x, .trailing u q => h.followLevel old p x u q
  | .halted x, .trailing u q => h.followLevel old p x u q
  | .free, .trailing .. => h.setSlot p.trail .free
  | .free, .ended .. => h.setSlot p.trail .free
  | .ended _ _ r a, .trailing u _ => h.setSlot p.trail (.ended u.regBase u.regLim r a)
  | _, _ => h

/-- Every pair of the screened cores. -/
def Chip.followPairs (h old : Chip) : Chip :=
  h.clusters.foldl (fun h k => k.2.cores.foldl (fun h c =>
    if c.2.screened then (List.range 8).foldl (fun h t => h.followSlot old k.1 c.1 t) h else h) h) h

/-- The machine check of every mismatch that has been met (R175): ESCREEN names the core, the pair and the kind of the difference. -/
def State.raiseMismatches (s : State) : State :=
  (s.chip.clusters.filter fun k => k.2.mismatch.isSome).foldl (fun s k =>
    match k.2.mismatch with
    | some (c, t, kind) =>
      let s := s.errorStop k.1 0x21 c t (BitVec.ofNat 16 kind) 0
      { s with chip := s.chip.modCluster k.1 fun k => { k with mismatch := none } }
    | none => s) s

end Sys2Proof.Machine
end

