-- ==== Sys2Proof/Machine/Step.lean ====
section
/-! DEFINITION. One step of the package. The schedule says which agent moves (log 2): the head of the agenda, or, with an
empty agenda, the slot whose turn it is on the core in focus. -/

namespace Sys2Proof.Machine

/-! ## After every step -/

/-- A ring in host memory or HBM4: the index of its BASE register, the bytes of a record, its vector (R321, R414, R426). -/
def ringOf : Nat → Nat × Nat × Nat
  | 0 => (0x428, 32, 1)
  | 1 => (0x490, 64, 2)
  | _ => (0x498, 64, 4)

/-- Bytes that the device writes for the host: within the command window, or in device memory (R417); none where they have to
wait. -/
def Chip.deviceWrite (h : Chip) (a : Nat) (bs : List Byte) : Option Chip :=
  if 2 ^ 47 ≤ a then
    if h.hostCovers (a % 2 ^ 47) bs.length then some { h with host := h.host.writeBytes (a % 2 ^ 47) bs } else none
  else some { h with hbm := h.hbm.writeBytes a bs }

/-- The bytes of a record when it is written: a fault record then counts the requests that wait (R323). -/
def Chip.recordBytes (h : Chip) (x : RingRec) : List Byte :=
  match x.walk with
  | none => x.bytes
  | some (pid, r) => x.bytes.take 16 ++ natToBytes 8 (((h.walkOf pid r).map Walk.waiting).getD 0) ++ x.bytes.drop 24

/-- A record written to its ring, where the ring has room and the window covers it (R323, R414, R417). -/
def Chip.ringWrite (h : Chip) (x : RingRec) : Option Chip :=
  if x.ring = 3 then
    if h.hostCovers x.addr x.bytes.length then some ({ h with host := h.host.writeBytes x.addr x.bytes }.raise 6) else none
  else
    let (base, n, vector) := ringOf x.ring
    let size := (h.reg (base + 1)).toNat
    let head := (h.reg (base + 2)).toNat
    let next := (head + 1) % size
    if size < 16 ∨ next = (h.reg (base + 3)).toNat then none
    else (h.deviceWrite ((h.reg base).toNat + n * head) (h.recordBytes x)).map fun h =>
      { h with regs := h.regs.put (base + 2) (BitVec.ofNat 64 next) }.raise vector

/-- The records that wait, in order. -/
def Chip.ringWrites (h : Chip) : List RingRec → Chip
  | [] => h
  | x :: xs =>
    match h.ringWrite x with
    | some h => h.ringWrites xs
    | none => { h with rings := h.rings ++ [x] }.ringWrites xs

/-- The interrupts raised whose write the command window covers are sent, in order; the others wait (R417). -/
def Chip.sendInterrupts (h : Chip) : Chip :=
  let covered := fun n => h.hostCovers (h.msixAt.getOr n 0) 4
  { h with msix := h.msix.filter fun n => !covered n, interrupts := h.interrupts ++ h.msix.filter covered }

/-- What follows every step at once, `old` being the chip before it: pairs, threads that wait for a faulted walk, quiet tasks whose
last engine command has completed, groups over several packages, records, and interrupts. -/
def Chip.settle (h old : Chip) : Chip :=
  let h := (h.followPairs old).parkWaiters.settleQuiet.settleGroups
  ({ h with rings := [] }.ringWrites h.rings).sendInterrupts

/-- A step ended, `old` being the chip before it: machine checks of screened pairs that disagreed are raised (R175). -/
def State.finish (s : State) (old : Chip) : State := State.raiseMismatches { s with chip := s.chip.settle old }

/-- The next turn of the core in focus (R136, R137). -/
def State.nextTurn (s : State) : State :=
  let h := s.chip
  let k := h.core s.focusV s.focusC
  { s with chip := if 15 ≤ k.turn then h.rotationBoundary s.focusV s.focusC
      else h.modCore s.focusV s.focusC fun k => { k with turn := k.turn + 1 } }

/-- What precedes an issue: 1 ns of device time, and the default schedule for the slot. -/
def State.before (s : State) : State :=
  let h : Chip := { s.chip with now := s.chip.now + 1 }
  { s with chip := h.serve s.place }

/-- What follows an issue, `old` being the chip before it. -/
def State.after (s : State) (old : Chip) : State := s.nextTurn.finish old

/-- The turn of the core in focus. -/
noncomputable def State.turn (s : State) : Host.Outcome State Fault Refusal := andThen s.before.issue fun g => g.after s.chip

/-! ## The step -/

/-- An event that the schedule may take: a well-formed row that is no word of an instruction. -/
def eventRow (i : Instr) : Bool :=
  (encode i).isNone && i.wf && (match i with | .unassignedWord _ => false | _ => true)

/-- A frame from another package enters the device (R427); a forwarded launch is taken in at once (R433). -/
def Chip.frameEnters (h : Chip) (f : WireFrame) : Chip :=
  let k := h.nextSeq
  let h := { h with flights := h.flights.put k { body := .frame f } }.tick
  if f.kind = 0 then h.onFrame k 0 Chip.frameLaunch else h

/-- The head of the agenda. -/
noncomputable def State.take (s : State) : Agenda → Host.Outcome State Fault Refusal
  | .event i => if eventRow i then andThen (exec i s) fun g => g.finish s.chip else .next s
  | .turn v c => andThen (State.issue { s with focusV := v, focusC := c }) fun g => g.after s.chip
  | .frame f => .next { s with chip := s.chip.frameEnters f }
  | .elapse ns => .next { s with chip := { s.chip with now := s.chip.now + ns } }
  | .corrected p => .next { s with pool := s.pool.correctedEvents p }
  | .differs v => .next { s with pool := s.pool.digestsDiffer v }
  | .targetError p => .next ((s.targetError p).finish s.chip)
  | .lineError a => .next (State.finish { s with chip := s.chip.loseLines [a / 64] } s.chip)
  | .logFull v => .next { s with chip := s.chip.modCluster v fun k => { k with logFull := true } }
  | .hostRead management k => .next (s.hostRead management k)
  | .barSize n => .next { s with chip := s.chip.setBar n }
  | .msixTable n a => .next { s with chip := { s.chip with msixAt := s.chip.msixAt.put n a } }
  | .thermalWarning => .next (State.finish { s with chip := s.chip.raise 7 } s.chip)
  | .selfTestFailed p => .next ((s.selfTestFailed p).finish s.chip)

/-- One step of the package. -/
noncomputable def step (s : State) : Host.Outcome State Fault Refusal :=
  if s.chip.lost then .fault .packageStopped
  else
    match s.agenda with
    | [] => s.turn
    | a :: rest => State.take { s with agenda := rest } a

/-! ## Placing an instruction where the next step fetches it -/

/-- Where an instruction is placed: its address, the PA of its page, and the leaf that maps it READ-SHARED (R318). -/
def placedAt : Word := Config.dispatcherEntry
def placedPa : Nat := 0x10000
def placedLeaf : Word := 0xD000000000010000#64

/-- Slot 0 of core 0 of cluster 0 in supervisor mode at that address, with nothing outstanding. -/
def Chip.placeThread (h : Chip) : Chip :=
  let p : At := ⟨0, 0, 0⟩
  let t := (h.thread? p).getD (dispatcher 0 0)
  let t := { t with pc := placedAt, sup := true, frame := none, suspended := none, wait := .none, pend := [], pid := 0 }
  (h.setSlot p (.live t)).modCore 0 0 fun k => { k with turn := 0, stopped := false }

/-- `s` with the instruction whose bits are `w` where `step` fetches next: the device is in service, its turn is that of slot
0 of core 0 of cluster 0, and that slot's thread stands at the word in a page of PASID 0 that its station holds. -/
def State.withFetchWord (s : State) (_nbits w : Nat) : State :=
  let h := s.chip.placeThread
  let h := h.modCluster 0 fun k => { k with stopped := false, paused := false, pid := none }
  { s with
    agenda := [], focusV := 0, focusC := 0
    chip := { h with
      lost := false, v := max h.v 64
      stations :=
        { station := stationOf 0 (regionOf placedAt.toNat), pid := 0, region := regionOf placedAt.toNat, leaf := placedLeaf
          level := 0 } :: h.stations
      hbm := h.hbm.writeBytes placedPa (natToBytes 4 w) } }

end Sys2Proof.Machine
end

