-- ==== Sys2Proof/Safety.lean ====
section
/-! DEFINITION. What claims speak of: runs, the issue of an instruction, and the canonical form of every memory. -/

namespace Sys2Proof.Machine

/-- `t` is reached from `s` in some number of steps. -/
inductive Reaches : State → State → Prop where
  | refl (s : State) : Reaches s s
  | step {s t u : State} (h : Reaches s t) (e : step t = .next u) : Reaches s u

/-- No step of a run from `s` is a fault or a refusal. -/
def Safe (s : State) : Prop := ∀ t, Reaches s t → ∃ u, step t = .next u

/-- Every step from a state in `P` that answers a next state answers one in `P`. -/
def Kept (P : State → Prop) : Prop := ∀ s t, P s → step s = .next t → P t

/-! ## An instruction issues -/

/-- The thread whose turn it is stands LIVE at an instruction of form `f`, and every check before the instruction's own
effect passes (R36, R45 to R47, R120): `y` is the thread with its due results written. -/
def Issues (s : State) (f : Form) (y : Here) : Prop :=
  ∃ t x, s.chip.slot s.place = .live t ∧ s.chip.here? s.place = some x ∧ x.ready f = .ok y

/-- The thread moved past its instruction (R48, R51). -/
def Here.passed (y : Here) : Here := { y with th := y.th.past }

/-- The chip in which the thread whose turn it is, `y`, stands past its instruction. -/
def State.passed (s : State) (y : Here) : Chip := s.chip.putHere s.place y.passed

/-- The fields a then b read as u then v, and leave the thread `z`. -/
def Reads2 (y : Here) (a b : BitVec 7) (u v : Word) (z : Here) : Prop :=
  ∃ h, y.passed.read a = .ok (u, h) ∧ h.read b = .ok (v, z)

/-- The fields a, b and d read as u, v and w in that order (R55), and leave the thread `z`. -/
def Reads3 (y : Here) (a b d : BitVec 7) (u v w : Word) (z : Here) : Prop :=
  ∃ h, Reads2 y a b u v h ∧ h.read d = .ok (w, z)

/-- The instruction's effect is the thread `z`; nothing else of the machine changes, but that a debug STEP ends. -/
def LeavesThread (i : Instr) (s : State) (z : Here) : Prop :=
  exec i s = .next { s with chip := (s.chip.putHere s.place z).endStep s.place }

/-- The instruction's effect is the chip `h`, but that a debug STEP ends. -/
def LeavesChip (i : Instr) (s : State) (h : Chip) : Prop :=
  exec i s = .next { s with chip := h.endStep s.place }

/-- The chip in which the thread whose turn it is stands as `z`. -/
def State.holding (s : State) (z : Here) : Chip := s.chip.putHere s.place z

/-- The instruction raises the precise trap `e` with this TVAL and does nothing else (R119). -/
def Raises (i : Instr) (s : State) (y : Here) (e : Trap) (v : Word) : Prop :=
  LeavesChip i s ((s.holding y).takeTrap s.place (raisedBy y.th e v))

/-- EILL and ESUPER carry the instruction's word (R126). -/
def Illegal (i : Instr) (s : State) (y : Here) : Prop := Raises i s y .eill (tvalWord (wordOf i))

/-- The thread gives up its turn at the instruction (R8, R45). -/
def Waits (i : Instr) (s : State) : Prop := exec i s = .next s

/-- A one-operand instruction writes `f u` to register field d, whatever register, lq or sq the fields name. -/
def OneOperand (i : Instr) (d a : BitVec 7) (f : Word → Word) : Prop :=
  ∀ s y u z, Issues s (form (wordOf i) [.dst d, .src a]) y → y.passed.read a = .ok (u, z) → LeavesThread i s (z.write d (f u))

/-- A two-operand instruction writes `f u v` to register field d, whatever register, lq or sq the fields name. -/
def TwoOperand (i : Instr) (d a b : BitVec 7) (f : Word → Word → Word) : Prop :=
  ∀ s y u v z, Issues s (form (wordOf i) [.dst d, .src a, .src b]) y → Reads2 y a b u v z →
    LeavesThread i s (z.write d (f u v))

/-- The thread with its pc at `x`. -/
def Here.goto (z : Here) (x : Word) : Here := { z with th := { z.th with pc := x } }

/-- A compare and branch goes `off` words from itself where `c` holds of its operands, and otherwise on. -/
def Branches (i : Instr) (a b : BitVec 7) (off : BitVec 9) (c : Word → Word → Bool) : Prop :=
  ∀ s y u v z, Issues s (form (wordOf i) [.src a, .src b]) y → Reads2 y a b u v z →
    LeavesThread i s (if c u v then Here.goto z (y.th.pc + 4 * off.signExtend 64) else z)

/-- The cores on which an instruction of the base set issues: every one (R52). -/
def anyCore (_ : State) : Prop := True

/-- The places at which an X64 instruction executes: the X64 cores (R52). -/
def x64Place (s : State) : Prop := s.place.c = 0 ∨ s.place.c = 4

/-- A floating-point instruction of one operand, a pattern of format f: register field d takes the pattern `op` gives, zero
above it, and FFLAGS the flags it raises beside those it held (R105, R106). -/
def FpOne (at_ : State → Prop) (i : Instr) (f : Fmt) (d a : BitVec 7) (op : Rnd → Nat → Nat × BitVec 5) : Prop :=
  ∀ s y u z, at_ s → Issues s (form (wordOf i) [.dst d, .src a]) y → y.passed.read a = .ok (u, z) →
    let r := op (rndOf z.th.frm.toNat) (u.toNat % 2 ^ f.width)
    LeavesThread i s ((z.write d (BitVec.ofNat 64 r.1)).flag r.2)

/-- The same for two operands. -/
def FpTwo (at_ : State → Prop) (i : Instr) (f : Fmt) (d a b : BitVec 7) (op : Rnd → Nat → Nat → Nat × BitVec 5) : Prop :=
  ∀ s y u v z, at_ s → Issues s (form (wordOf i) [.dst d, .src a, .src b]) y → Reads2 y a b u v z →
    let r := op (rndOf z.th.frm.toNat) (u.toNat % 2 ^ f.width) (v.toNat % 2 ^ f.width)
    LeavesThread i s ((z.write d (BitVec.ofNat 64 r.1)).flag r.2)

/-- The same for a fused form, whose addend is the destination register (R112). -/
def FpThree (at_ : State → Prop) (i : Instr) (f : Fmt) (d a b : BitVec 7) (op : Rnd → Nat → Nat → Nat → Nat × BitVec 5) : Prop :=
  ∀ s y u v w z, at_ s → Issues s (form (wordOf i) [.both d, .src a, .src b]) y → Reads3 y a b d u v w z →
    let r := op (rndOf z.th.frm.toNat) (u.toNat % 2 ^ f.width) (v.toNat % 2 ^ f.width) (w.toNat % 2 ^ f.width)
    LeavesThread i s ((z.write d (BitVec.ofNat 64 r.1)).flag r.2)

/-- A narrowing conversion (R94, R114): under FRM = 4 it takes the task's next draw and counts it, whatever its operand. -/
def Narrows (at_ : State → Prop) (i : Instr) (f : Fmt) (d a : BitVec 7) (op : Rnd → Nat → Nat × BitVec 5) : Prop :=
  ∀ s y u z, at_ s → Issues s (form (wordOf i) [.dst d, .src a]) y → y.passed.read a = .ok (u, z) →
    let k := op (if z.th.frm = 4 then .sr (nextDraw s) else rndOf z.th.frm.toNat) (u.toNat % 2 ^ f.width)
    LeavesThread i s (((z.takeDraws (if z.th.frm = 4 then 1 else 0)).write d (BitVec.ofNat 64 k.1)).flag k.2)

/-- An exact result rounded once; an invalid operation gives the canonical NaN and NV (R88, R94, R108). -/
def roundedOr (f : Fmt) (r : Rnd) : Option Num → Nat × BitVec 5
  | some v => f.round r v
  | none => (f.nanPat, flNV)

/-! ## The registers of MFS and MTS -/

/-- The indices of the thread's own registers (R24). -/
def threadRegister (i : Nat) : Bool := decide (i ≤ 0x009 ∨ (0x010 ≤ i ∧ i ≤ 0x014) ∨ i = 0x020 ∨ i = 0x021)

/-- The indices that name a register of the core band, the cluster band or the package band (R134, R160, R166, R179, R206, R255, R281,
R306, R321, R347, R362, R388, R411 to R416, R420 to R428, R434 to R437). -/
def deviceRegister (i : Nat) : Bool :=
  [(0x100, 0x103), (0x140, 0x147), (0x200, 0x203), (0x210, 0x210), (0x220, 0x220), (0x230, 0x238), (0x240, 0x240), (0x250, 0x253),
    (0x400, 0x401), (0x410, 0x418), (0x420, 0x421), (0x428, 0x42C), (0x430, 0x431), (0x448, 0x449), (0x450, 0x457), (0x460, 0x463),
    (0x470, 0x478), (0x47A, 0x47A), (0x480, 0x484), (0x490, 0x493), (0x498, 0x49B), (0x4A0, 0x4AB), (0x4C0, 0x4C4), (0x4C8, 0x4C8),
    (0x4D0, 0x4EF), (0x500, 0x51F)].any fun r => decide (r.1 ≤ i ∧ i ≤ r.2)

/-! ## Accesses to a SCRATCH bank of the thread's own cluster -/

/-- The access of `n` bytes at `ea` by the thread whose turn it is, `z` once its operands are read, goes to offset `o` of its own
cluster's scratch, in a bank of the mode, aligned, with nothing of its own outstanding that it would have to wait for. -/
def AtOwnBank (s : State) (y z : Here) (ea : Word) (n : Nat) (mode : BankMode) (o : Nat) : Prop :=
  let h := s.chip.putHere s.place z
  accessPlace h.v s.place.v ea.toNat n = some (.here o) ∧ ea.toNat % n = 0 ∧ (h.cluster s.place.v).mode (o / 65536) = mode ∧
    h.accessHeld s.place y.th ea.toNat n = false

/-- Nothing of the machine's memory differs, but that in cluster v address j reads as `f j` says. -/
def MemoryAfter (h g : Chip) (v : Nat) (f : Nat → Byte) : Prop :=
  (∀ j, (g.cluster v).scratch.read j = f j) ∧ (∀ u, u ≠ v → (g.cluster u).scratch = (h.cluster u).scratch) ∧
    g.hbm = h.hbm ∧ g.host = h.host ∧ g.flash = h.flash

/-- The address of the L format: the base plus the signed offset times the size (R71). -/
def effective (u : Word) (o : BitVec 8) (n : Nat) : Word := u + o.signExtend 64 * BitVec.ofNat 64 n

/-- A load of `n` bytes from a SCRATCH bank: its value stands in the thread as a result under way, in the load-data queue for
lq. -/
def LoadsScratch (i : Instr) (d a : BitVec 7) (k : BitVec 4) (n : Nat) (o : BitVec 8) (val : List Byte → Word) : Prop :=
  ∀ s y u z off, Issues s (accessForm (wordOf i) [.loadDst d, .src a] a (o.signExtend 64 * BitVec.ofNat 64 n) s) y →
    y.passed.read a = .ok (u, z) → AtOwnBank s y z (effective u o n) n .scratch off →
    ∃ g t op, LeavesChip i s g ∧ g.here? s.place = some ⟨t, z.file⟩ ∧
      (let r := Arrival.flying (.value (val ((s.chip.cluster s.place.v).scratch.readBytes off n)) 0)
       if d = 120 then t = { z.th with ldq := z.th.ldq ++ [⟨op, r⟩] }
       else t = { z.th with pend := z.th.pend ++ [⟨op, .window k.toNat, .reg d, r⟩] }) ∧
      op.ea = effective u o n ∧ MemoryAfter s.chip g s.place.v fun j => (s.chip.cluster s.place.v).scratch.read j

/-- A store of `n` bytes to a SCRATCH bank by a thread that keeps no log there. -/
def StoresScratch (i : Instr) (d a : BitVec 7) (n : Nat) (o : BitVec 8) : Prop :=
  ∀ s y u w x z off, Issues s (accessForm (wordOf i) [.data d, .src a] a (o.signExtend 64 * BitVec.ofNat 64 n) s) y →
    y.passed.read a = .ok (u, x) → x.readData d = .ok (w, z) → AtOwnBank s y z (effective u o n) n .scratch off →
    (y.th.sup = true ∨ y.th.quiet = true) → Memory.wf (s.chip.cluster s.place.v).scratch = true →
    ∃ g, LeavesChip i s g ∧ g.here? s.place = some z ∧
      MemoryAfter s.chip g s.place.v fun j =>
        if off ≤ j ∧ j < off + n then (wordBytes n w).getD (j - off) 0 else (s.chip.cluster s.place.v).scratch.read j

/-- The access of `n` bytes at `ea` by the thread whose turn it is, `z` once its operands are read, goes to the leaf `l` of a global
page, aligned, with nothing of its own outstanding that it would have to wait for. -/
def AtPage (s : State) (y z : Here) (ea : Word) (n : Nat) (l : Leaf) : Prop :=
  let h := s.holding z
  accessPlace h.v s.place.v ea.toNat n = some (.global ea.toNat) ∧ ea.toNat % n = 0 ∧
    h.accessHeld s.place y.th ea.toNat n = false ∧ (h.warm y.th.pid ea.toNat).resolve y.th.who ea.toNat ea = .ok l

/-- The bytes that cluster v holds or would fetch of a global line: the copy in its cache, or device memory (R184). -/
def Chip.lineCopy (h : Chip) (v pa n : Nat) : List Byte :=
  match (h.cluster v).cache.find? fun c => decide (c.pa = pa / 64 * 64) with
  | some c => (c.bytes.drop (pa % 64)).take n
  | none => h.hbm.readBytes pa n

/-- A load from a PRIVATE or READ-SHARED page by a thread with no store of its own to a PRIVATE line outstanding: the bytes of the
cluster's copy of the line, or of device memory, which alone count where the page is not cached. -/
def LoadsPage (i : Instr) (d a : BitVec 7) (k : BitVec 4) (n : Nat) (o : BitVec 8) (val : List Byte → Word) : Prop :=
  ∀ s y u z l, Issues s (accessForm (wordOf i) [.loadDst d, .src a] a (o.signExtend 64 * BitVec.ofNat 64 n) s) y →
    y.passed.read a = .ok (u, z) → AtPage s y z (effective u o n) n l → l.pub = none → (l.attr = .priv ∨ l.attr = .readShared) →
    (s.chip.cluster s.place.v).throughs = [] → (s.holding z).recordsOf y.th.uid = [] →
    let bs := if l.nc then s.chip.hbm.readBytes l.pa n else s.chip.lineCopy s.place.v l.pa n
    ∃ g t op, LeavesChip i s g ∧ g.here? s.place = some ⟨t, z.file⟩ ∧
      (let r := Arrival.flying (.value (val bs) 0)
       if d = 120 then t = { z.th with ldq := z.th.ldq ++ [⟨op, r⟩] }
       else t = { z.th with pend := z.th.pend ++ [⟨op, .window k.toNat, .reg d, r⟩] }) ∧
      op.ea = effective u o n ∧ MemoryAfter s.chip g s.place.v fun j => (s.chip.cluster s.place.v).scratch.read j

/-- A store to a PRIVATE page: a quiet task's and the supervisor's is a write-through of its cluster that is still to be performed; a
task that may be undone, with room for 3 units and no record of the line yet, makes a record of the bytes. Memory does not change. -/
def StoresPage (i : Instr) (d a : BitVec 7) (n : Nat) (o : BitVec 8) : Prop :=
  ∀ s y u w x z l, Issues s (accessForm (wordOf i) [.data d, .src a] a (o.signExtend 64 * BitVec.ofNat 64 n) s) y →
    y.passed.read a = .ok (u, x) → x.readData d = .ok (w, z) → AtPage s y z (effective u o n) n l → l.pub = none → l.attr = .priv →
    let v := s.place.v
    let kept := fun g => g.here? s.place = some z ∧ MemoryAfter s.chip g v fun j => (s.chip.cluster v).scratch.read j
    (y.th.sup = true ∨ y.th.quiet = true → ∃ g, LeavesChip i s g ∧ kept g ∧
      (g.cluster v).throughs = (s.chip.cluster v).throughs ++ [⟨y.th.uid, l.pa, false, wordBytes n w⟩]) ∧
    (y.th.sup = false → y.th.quiet = false → (s.holding z).recordsOf y.th.uid = [] → (s.holding z).room v y.th.uid 3 false = .enough →
      ∃ g k m, LeavesChip i s g ∧ kept g ∧ (g.cluster v).throughs = (s.chip.cluster v).throughs ∧
        (g.cluster v).log = (s.chip.cluster v).log ++
          [⟨y.th.uid, k, .redo (l.pa / 64 * 64) false (BitVec.ofNat 64 ((effective u o n).toNat / 64 * 64)) m⟩] ∧
        ∀ j, m.get j = if l.pa % 64 ≤ j ∧ j < l.pa % 64 + n then some ((wordBytes n w).getD (j - l.pa % 64) 0) else none)

/-- A load from a SCRATCH-T bank by a task that may be undone and has room, from a line that no uncommitted task of a greater or equal
stamp wrote: the line's rts becomes at least its stamp, and its signature holds the line (R188). -/
def LoadsTracked (i : Instr) (d a : BitVec 7) (k : BitVec 4) (n : Nat) (o : BitVec 8) (val : List Byte → Word) : Prop :=
  ∀ s y u z off, Issues s (accessForm (wordOf i) [.loadDst d, .src a] a (o.signExtend 64 * BitVec.ofNat 64 n) s) y →
    y.passed.read a = .ok (u, z) → AtOwnBank s y z (effective u o n) n .scratchT off → y.th.sup = false → y.th.quiet = false →
    let h := s.holding z
    let v := s.place.v
    let old := h.tag v (off / 64)
    h.ownReduction v y.th.uid false off n = false → h.room v y.th.uid 0 (!h.hasSig v y.th.uid) = .enough → old.u = false →
    ∃ g t op, LeavesChip i s g ∧ g.here? s.place = some ⟨t, z.file⟩ ∧
      (let r := Arrival.flying (.value (val ((s.chip.cluster v).scratch.readBytes off n)) 0)
       if d = 120 then t = { z.th with ldq := z.th.ldq ++ [⟨op, r⟩] }
       else t = { z.th with pend := z.th.pend ++ [⟨op, .window k.toNat, .reg d, r⟩] }) ∧
      g.tag v (off / 64) = { old with rts := maxStamp old.rts y.th.stamp } ∧
      (∃ x ∈ (g.cluster v).sigs, x.uid = y.th.uid ∧ scratchKey (off / 64) ∈ x.lines) ∧
      MemoryAfter s.chip g v fun j => (s.chip.cluster v).scratch.read j

/-- A store to a SCRATCH-T bank by a task that may be undone, the first to the line, with room for 3 units, where no uncommitted task
wrote the line, none with a greater stamp read it and no other task has its stamp: the line's old bytes and tags go into a record, its
bytes change and it bears the task's stamp (R187, R188). -/
def StoresTracked (i : Instr) (d a : BitVec 7) (n : Nat) (o : BitVec 8) : Prop :=
  ∀ s y u w x z off, Issues s (accessForm (wordOf i) [.data d, .src a] a (o.signExtend 64 * BitVec.ofNat 64 n) s) y →
    y.passed.read a = .ok (u, x) → x.readData d = .ok (w, z) → AtOwnBank s y z (effective u o n) n .scratchT off →
    y.th.sup = false → y.th.quiet = false → Memory.wf (s.chip.cluster s.place.v).scratch = true →
    let h := s.holding z
    let v := s.place.v
    let old := h.tag v (off / 64)
    let mem := (s.chip.cluster v).scratch
    h.ownReduction v y.th.uid false off n = false → h.room v y.th.uid 3 false = .enough → h.hasUndo v y.th.uid (off / 64) = false →
    old.u = false → old.rts.toNat ≤ y.th.stamp.toNat → (∀ x ∈ (h.cluster v).sigs, x.uid = y.th.uid) →
    ∃ g k, LeavesChip i s g ∧ g.here? s.place = some z ∧
      (g.cluster v).log = (s.chip.cluster v).log ++ [⟨y.th.uid, k, .undo (off / 64) (mem.readBytes (64 * (off / 64)) 64) old⟩] ∧
      g.tag v (off / 64) = { old with wts := y.th.stamp, u := true, writer := y.th.uid } ∧
      MemoryAfter s.chip g v fun j => if off ≤ j ∧ j < off + n then (wordBytes n w).getD (j - off) 0 else mem.read j

/-- A returning AMO on a SCRATCH bank by a thread that keeps no log there; `cas` says that d is read too. -/
def AtomicScratch (i : Instr) (d a b : BitVec 7) (cas : Bool) (f : Word → Word → Word → Option Word) : Prop :=
  ∀ s y u w x h z off, Issues s (accessForm (wordOf i) [if cas then .both d else .loadDst d, .src a, .src b] a 0 s) y →
    Reads2 y a b u w h → (if cas then h.read d = .ok (x, z) else z = h) → AtOwnBank s y z u 8 .scratch off →
    (y.th.sup = true ∨ y.th.quiet = true) → Memory.wf (s.chip.cluster s.place.v).scratch = true →
    let old := (s.chip.cluster s.place.v).scratch
    let v := old.read64 off
    ∃ g t op, LeavesChip i s g ∧ g.here? s.place = some ⟨t, z.file⟩ ∧
      (if d = 120 then t = { z.th with ldq := z.th.ldq ++ [⟨op, .flying (.value v 0)⟩] }
       else t = { z.th with pend := z.th.pend ++ [⟨op, .next, .reg d, .flying (.value v 0)⟩] }) ∧ op.ea = u ∧
      MemoryAfter s.chip g s.place.v fun j =>
        match f v w x with
        | some r => if off ≤ j ∧ j < off + 8 then (wordBytes 8 r).getD (j - off) 0 else old.read j
        | none => old.read j

/-- A reduction on a SCRATCH-T bank: a record for a non-quiet task that has room; in supervisor mode applied at once, with the
flags of its rounding, if any, raised (R81, R83). -/
def Reduces (i : Instr) (a b : BitVec 7) (k : RedKind) (f : List Byte → Word → List Byte) (fl : List Byte → Word → BitVec 5) :
    Prop :=
  ∀ s y u w z off, Issues s (accessForm (wordOf i) [.src a, .src b] a 0 s) y → Reads2 y a b u w z →
    AtOwnBank s y z u k.size .scratchT off →
    let old := (s.chip.cluster s.place.v).scratch
    (y.th.sup = false → y.th.quiet = false → s.chip.room s.place.v y.th.uid 1 false = .enough →
      ∃ g n, LeavesChip i s g ∧ g.here? s.place = some z ∧
        (g.cluster s.place.v).log = (s.chip.cluster s.place.v).log ++ [⟨y.th.uid, n, .red k false off u w⟩] ∧
        MemoryAfter s.chip g s.place.v old.read) ∧
    (y.th.sup = true → Memory.wf old = true →
      ∃ g, LeavesChip i s g ∧ g.here? s.place = some (z.flag (fl (old.readBytes off k.size) w)) ∧
        MemoryAfter s.chip g s.place.v fun j =>
          if off ≤ j ∧ j < off + k.size then (f (old.readBytes off k.size) w).getD (j - off) 0 else old.read j)

/-! ## Numbers and NaNs (R87, R110, R221) -/

/-- The value of a finite number; 0 for what has none. -/
def Num.rat : Num → ℚ
  | .fin neg m e => (if neg then -1 else 1) * (m : ℚ) * (2 : ℚ) ^ e
  | _ => 0

/-- The value of a finite FP32 pattern. -/
def ratOf (x : Half) : ℚ := (fp32.decode x.toNat).rat

/-- A finite FP32 pattern, and a NaN. -/
def finitePat (x : Half) : Prop := x.toNat % 2 ^ 31 < 0x7F800000
def nanPattern (x : Half) : Prop := 0x7F800000 < x.toNat % 2 ^ 31

/-- Of two elements of a group of four, x at index i ranks before y at index j (R221). -/
def ranksBefore (x y : Half) (i j : Nat) : Prop :=
  let p := x.toNat % 2 ^ 31
  let q := y.toNat % 2 ^ 31
  (nanPattern x ∧ (¬ nanPattern y ∨ i < j)) ∨ (¬ nanPattern x ∧ ¬ nanPattern y ∧ (q < p ∨ (p = q ∧ i < j)))

/-- An element of an FP32 register is an extreme of its numbers: no number lies beyond it, +0 lying above -0 (R110, R225). -/
def isExtreme (max : Bool) (f : Nat → Half) (x : Half) : Prop :=
  (∃ e < 64, f e = x) ∧ ¬ nanPattern x ∧ ∀ e < 64, ¬ nanPattern (f e) →
    if max then (fp32.lt x.toNat (f e).toNat).1 = false ∧ ¬ (x = 0x80000000#32 ∧ f e = 0)
    else (fp32.lt (f e).toNat x.toNat).1 = false ∧ ¬ (x = 0 ∧ f e = 0x80000000#32)

/-! ## Engine commands (R260 to R264, R270) -/

/-- The k-th command c of cluster v's queue, no non-quiet task's, is due to carry out its descriptor d, which passes the checks of its
issue and counts no bytes. -/
def EngineDue (s : State) (v k : Nat) (c : EngCmd) (d : Desc) : Prop :=
  let K := s.chip.cluster v
  s.chip.running v = true ∧ K.paused = false ∧ K.cmds[k]? = some c ∧ c.counting = false ∧ s.chip.engReady c = true ∧ K.throughs = [] ∧
    c.who.mode ≠ .spec ∧ c.groups = [] ∧ c.descs[c.completed]? = some d ∧ d.bc = false ∧
    (∀ e ∈ s.chip.clusters.flatMap (fun k => k.2.cmds), e.seq = c.seq → e = c) ∧
    s.chip.descTrap v c.who (tvalWord c.op.word) d = none

/-- The descriptor is carried out with this effect: alone, after which its command leaves the queue, or as the next of a checked chain,
which goes on. -/
def EngineDoes (s : State) (v k : Nat) (c : EngCmd) (d : Desc) (after : Chip → Prop) : Prop :=
  let K := s.chip.cluster v
  (c.chain = false → c.checked = false → c.descs = [d] →
    ∃ g, exec (.engineCommandComplete v k) s = .next { s with chip := g } ∧ after g ∧
      (g.cluster v).cmds = K.cmds.filter fun e => decide (e.seq ≠ c.seq)) ∧
  (c.chain = true → c.checked = true →
    ∃ g, exec (.chainDescriptorComplete v k) s = .next { s with chip := g } ∧ after g ∧
      (g.cluster v).cmds = if c.completed + 1 < c.descs.length
        then K.cmds.map fun e => if e.seq = c.seq then { e with completed := e.completed + 1, counting := false } else e
        else K.cmds.filter fun e => decide (e.seq ≠ c.seq))

/-- The bytes that a CPY, CPY2D, GATH or SCAT moves, in the order of R260: source, destination and number, where `m` is the scratch that
holds the offsets. -/
def Desc.moves (d : Desc) (m : Mem) : List (Nat × Nat × Nat) :=
  let n := bits d.c0 0 32
  let off := fun i : Nat => (BitVec.ofNat 32 (bytesToNat (m.readBytes (d.c1.toNat + 4 * i) 4))).signExtend 64
  let row := fun (a : Word) (r : Nat) (stride : BitVec 32) => (a + BitVec.ofNat 64 r * stride.signExtend 64).toNat
  let elem := fun (a : Word) (i : Nat) => (a + BitVec.ofNat 64 (i * d.esize)).toNat
  match d.fn with
  | 0 => [(d.x.toNat, d.y.toNat, n)]
  | 1 => (List.range (bits d.c0 32 16 + 1)).map fun r =>
      (row d.x r (d.c1.extractLsb' 32 32), row d.y r (d.c1.extractLsb' 0 32), n)
  | 3 => (List.range n).map fun i => ((d.x + off i).toNat, elem d.y i, d.esize)
  | _ => (List.range n).map fun i => (elem d.x i, (d.y + off i).toNat, d.esize)

/-- Byte j once the moves are made, each reading `m` as it was: the last one that covers it wins. -/
def movedByte (m : Mem) (ps : List (Nat × Nat × Nat)) (j : Nat) : Byte :=
  match ps.reverse.find? fun p => decide (p.2.1 ≤ j ∧ j < p.2.1 + p.2.2) with
  | some p => m.read (p.1 + (j - p.2.1))
  | none => m.read j

/-- The leaf of the global page at `a` that the maker of a command finds. -/
def EngCmd.finds (h : Chip) (c : EngCmd) (a : Word) (l : Leaf) : Prop :=
  let w := { c.who with rejected := ((h.findThread c.uid).map (·.rejected)).getD c.who.rejected }
  (h.warm w.pid a.toNat).resolve w a.toNat a = .ok l

/-! ## Memories in canonical form (log 6) -/

/-- Every memory of a cluster is in canonical form. -/
def Cluster.canonical (k : Cluster) : Prop := Memory.wf k.scratch = true

/-- Every cluster listed is. -/
def canonicalClusters (m : Map Cluster) : Prop := ∀ p ∈ m, p.2.canonical

/-- Every memory of an image is. -/
def FlashImage.canonical (i : FlashImage) : Prop :=
  Memory.wf i.hbm = true ∧ canonicalClusters i.clusters ∧ canonicalClusters i.part.saved

/-- Every memory that the chip holds is in canonical form: HBM4, flash, host memory, the scratch banks of every cluster,
those of clusters that a partition set aside, and those of images and of the points that a roped partition may go back to. -/
structure Chip.Canonical (h : Chip) : Prop where
  hbm : Memory.wf h.hbm = true
  flash : Memory.wf h.flash = true
  host : Memory.wf h.host = true
  clusters : canonicalClusters h.clusters
  parts : ∀ p ∈ h.parts, canonicalClusters p.2.saved
  images : ∀ p ∈ h.images, p.2.canonical
  older : ∀ p ∈ h.older, ∀ i ∈ p.2, i.canonical
  atPoints : ∀ p ∈ h.atPoints, ∀ i ∈ p.2, i.canonical

/-! ## Commands of the vector pool and of the matrix engine -/

/-- The `n` bytes at `x` of the thread whose turn it is, `z` once its operands are read, lie in SCRATCH banks of its own cluster, with
nothing of its own outstanding that a read would have to wait for. -/
def InScratch (s : State) (y z : Here) (x n : Nat) : Prop :=
  x + n ≤ 0x200000 ∧ (∀ j < n, (s.chip.cluster s.place.v).mode ((x + j) / 65536) = .scratch) ∧
    (s.holding z).accessHeld s.place y.th x n = false

/-- Those bytes. -/
def State.scratchAt (s : State) (x n : Nat) : List Byte := (s.chip.cluster s.place.v).scratch.readBytes x n

/-- The thread holds the claim `c`, which does not wait (R207). -/
def Holds (s : State) (y : Here) (c : Claim) : Prop :=
  (s.chip.cluster s.place.v).claimOf y.th.uid = some c ∧ c.waiting = false

/-- The command `q` joins the end of its context's queue, and the thread `z` goes on with the pending operation it keeps for the
command, if any, and `draws` draw indices taken (R207, R208, R213). -/
def Queues (i : Instr) (s : State) (y z : Here) (c : Claim) (q : VCmd) (keep : Option (Due × Dest)) (draws : Nat) : Prop :=
  ∃ g, LeavesChip i s g ∧ (g.cluster s.place.v).claimOf y.th.uid = some { c with queue := c.queue ++ [q] } ∧
    g.here? s.place = some { z with th := { z.th with
      pend := z.th.pend ++ (keep.map fun k => (⟨q.op, k.1, k.2, .waiting⟩ : Pend)).toList
      counters := { z.th.counters with draw := z.th.counters.draw + draws } } } ∧
    MemoryAfter s.chip g s.place.v (s.chip.cluster s.place.v).scratch.read ∧ g.tasks = s.chip.tasks

/-- The command of the word of `i` with this mask and scalar. -/
def State.command (s : State) (i : Instr) (y : Here) (mask x : Word) : VCmd :=
  ⟨vectorOp y.th (wordOf i) mask x s.chip.nextSeq, mask, x, false⟩

/-- A compute command of the V format (R207): ELANE without a claim, EILL for a scalar its entry refuses, a wait while the queue
holds 8, and otherwise queued; `faults` says that it can fault in the pool, and `draws` what it takes under FRM = 4. -/
def VectorCommand (i : Instr) (gp : BitVec 5) (refuses : Word → Prop) (draws : Nat) (faults : Bool) : Prop :=
  ∀ s y, Issues s (form (wordOf i) [.pair gp]) y →
    ((s.chip.cluster s.place.v).claimOf y.th.uid = none → Raises i s y .elane 0) ∧
    (∀ c, Holds s y c →
      let m := y.passed.pair gp
      (refuses m.2 → Illegal i s y) ∧ (¬ refuses m.2 → 8 ≤ c.queue.length → Waits i s) ∧
      (¬ refuses m.2 → c.queue.length < 8 → Queues i s y y.passed c (s.command i y m.1 m.2)
        (if faults then some (.vector, .none) else none) (if y.th.frm = 4 then draws else 0)))

/-- A vector memory command (R217, R218): its scalar must lie in a window, and for VLD and VST be word-aligned; within the cluster or
in global memory it is queued once no engine command of its task may overlap it. -/
def VectorMemory (i : Instr) (gp : BitVec 5) (consecutive : Prop) : Prop :=
  ∀ s y c, Issues s (vmPoints (wordOf i) gp s) y → Holds s y c →
    let m := y.passed.pair gp
    let place := accessPlace s.chip.v s.place.v m.2.toNat 1
    (place = none → Raises i s y .ewindow m.2) ∧
    (place ≠ none → consecutive → m.2.toNat % 4 ≠ 0 → Raises i s y .ealign m.2) ∧
    ((∃ o, place = some (.here o) ∨ place = some (.global o)) → (consecutive → m.2.toNat % 4 = 0) →
      (s.passed y).vmHeld s.place y.th (wordOf i) m.2 = false →
      (8 ≤ c.queue.length → Waits i s) ∧
      (c.queue.length < 8 → Queues i s y y.passed c (s.command i y m.1 m.2) (some (.vector, .none)) 0))

/-- A command with a scalar result, due after its ahead field (R227). -/
def VectorScalar (i : Instr) (d : BitVec 7) (ahead : BitVec 4) : Prop :=
  ∀ s y, Issues s (form (wordOf i) [.vsDst d]) y →
    ((s.chip.cluster s.place.v).claimOf y.th.uid = none → Raises i s y .elane 0) ∧
    (∀ c, Holds s y c → (8 ≤ c.queue.length → Waits i s) ∧
      (c.queue.length < 8 →
        Queues i s y y.passed c (s.command i y (BitVec.allOnes 64) 0) (some (.window ahead.toNat, .reg d)) 0))

/-- A mailbox command of the pool at a mailbox of the thread's own cluster (R294, R296, R297). -/
def MailboxCommand (i : Instr) (uses : List Use) (a : BitVec 7) (keep : Due × Dest) : Prop :=
  ∀ s y u z c o, Issues s (accessForm (wordOf i) uses a 0 s) y → Holds s y c → y.passed.read a = .ok (u, z) →
    accessPlace s.chip.v s.place.v u.toNat 1 = some (.here o) →
    (0xFEF0 < u.toNat % 65536 → Raises i s y .ewindow u) ∧
    (u.toNat % 65536 ≤ 0xFEF0 → u.toNat % 16 ≠ 0 → Raises i s y .ealign u) ∧
    (u.toNat % 65536 ≤ 0xFEF0 → u.toNat % 16 = 0 → y.th.accessWaiting = false →
      s.chip.spanBusy y.th.uid (spanOf s.place.v u.toNat 272) = false → c.queue.length < 8 →
      Queues i s y z c (s.command i y (BitVec.allOnes 64) u) (some keep) 0)

/-- A command that computes each active element of vd from the elements with its number of va, vb and vd, and leaves every other
element of the context alone (R208 to R210). -/
def Elementwise (i : Instr) (d a b : BitVec 5) (f : Rnd → Half → Half → Half → Half) : Prop :=
  ∀ (h : Chip) (t : Thread) (v : Nat) (regs : Map Half) (q : VCmd), q.op.word = wordOf i →
    ∃ r, h.vectorRun t v regs q = .ok (r, h) ∧ ∀ n e, e < 64 → vget r.regs n e =
      if n = d.toNat ∧ q.mask.getLsbD e = true then
        f (rndOf q.op.frm) (vget regs a.toNat e) (vget regs b.toNat e) (vget regs d.toNat e)
      else vget regs n e

/-- The thread belongs to a gang and stands at home in task mode, and its gang's state stands at its cluster (R230, R232). -/
def InGang (s : State) (y : Here) (gid : Nat) (g : Gang) : Prop :=
  y.th.sup = false ∧ y.th.quiet = true ∧ y.th.away = false ∧ s.chip.gangOf y.th = some gid ∧
    (s.chip.cluster s.place.v).gang y.th.pid gid = some g

/-- A gang instruction (R233): a thread outside any gang raises EGANG; a member arrives, waits, and goes on once the instruction has
taken effect, with its count of gang instructions raised, or takes the trap of all eight members. -/
def GangInstruction (i : Instr) (desc : Thread → Word) : Prop :=
  ∀ s y, Issues s (form (wordOf i)) y →
    (y.th.quiet = false → Raises i s y .egang (tvalWord (wordOf i))) ∧
    (∀ gid g, InGang s y gid g →
      (y.th.wait = .gangDone none → LeavesThread i s { y.passed with th := { y.passed.th with
        wait := .none, counters := { y.passed.th.counters with gang := y.th.counters.gang + 1 } } }) ∧
      (∀ t x, y.th.wait = .gangDone (some (t, x)) → ∃ h : Chip, LeavesChip i s (h.takeTrap s.place (raisedBy y.th t x)) ∧
        h.slot s.place = .live { y.th with wait := .none }) ∧
      (y.th.wait = .none → (s.chip.group y.th.pid gid).shortOf (y.th.counters.gang + 1) = false →
        ∃ h op, LeavesChip i s h ∧ h.slot s.place = .live { y.th with wait := .gang (y.th.counters.gang + 1) } ∧
          op.word = wordOf i ∧ op.y = desc y.th ∧
          (h.cluster s.place.v).gang y.th.pid gid = some { g with
            arrived := g.arrived ++ [(y.th.homeC, y.th.uid, y.th.counters.gang + 1, op)] }) ∧
      (y.th.wait = .gang (y.th.counters.gang + 1) → (s.chip.group y.th.pid gid).shortOf (y.th.counters.gang + 1) = false →
        Waits i s))

/-- The engine accepts the command `c` for the thread `z`: it joins the cluster's queue with the task's next token, which the
instruction writes, and the thread keeps its report (R258, R266, R268). -/
def Accepts (i : Instr) (s : State) (y z : Here) (d : BitVec 7) (c : EngCmd) : Prop :=
  let token := y.th.counters.engine + 1
  ∃ g t, LeavesChip i s g ∧ (g.cluster s.place.v).cmds = (s.chip.cluster s.place.v).cmds ++ [c] ∧ c.uid = y.th.uid ∧
    c.token = token ∧ c.completed = 0 ∧ c.checked = false ∧ c.groups = groupIds y.th.grps ∧ c.op.word = wordOf i ∧
    g.here? s.place = some (Here.write { z with th := t } d (BitVec.ofNat 64 token)) ∧
    t.pend = z.th.pend ++ [⟨c.op, .engine token, .none, .waiting⟩] ∧ t.counters = { z.th.counters with engine := token } ∧
    t.pc = z.th.pc ∧ t.ldq = z.th.ldq ∧ t.sdq = z.th.sdq ∧
    MemoryAfter s.chip g s.place.v (s.chip.cluster s.place.v).scratch.read

/-- The scoreboard of the task and the queue of the cluster have an entry free (R266, R267). -/
def EngineRoom (s : State) (y : Here) : Prop :=
  s.chip.openCmds y.th.uid < 16 ∧ (s.chip.cluster s.place.v).cmds.length < 64

/-- A data command (R258 to R261): it raises the first trap of its descriptor, and otherwise is accepted with it. -/
def DataCommand (i : Instr) (fn : Nat) (d a b : BitVec 7) : Prop :=
  ∀ s y u v c0 c1 h1 h2 z, Issues s (form (wordOf i) [.ctrl d, .src a, .src b]) y → Reads2 y a b u v h1 →
    h1.read d = .ok (c0, h2) → h2.read (d + 1) = .ok (c1, z) →
    let desc : Desc := { fn := fn, x := u, y := v, c0 := c0, c1 := c1 }
    let trap := s.chip.descTrap s.place.v y.th.who (tvalWord (wordOf i)) desc
    (bits c0 60 4 ≠ 0 → Illegal i s y) ∧ (bits c0 60 4 = 0 → ∀ e x, trap = some (e, x) → Raises i s y e x) ∧
    (bits c0 60 4 = 0 → trap = none → s.chip.engHeld y.th s.place = false → EngineRoom s y →
      ∃ c, Accepts i s y z d c ∧ c.descs = [desc] ∧ c.chain = false ∧ c.fill = false) ∧
    (bits c0 60 4 = 0 → trap = none → s.chip.engHeld y.th s.place = false → ¬ EngineRoom s y → Waits i s)

/-- A record with `m` joins the log of the task at its cluster, which has room for it (R191, R192). -/
def Logs (i : Instr) (s : State) (y : Here) (z : Here) (r : LogRec) : Prop :=
  ∃ g n, LeavesChip i s g ∧ (g.cluster s.place.v).log = (s.chip.cluster s.place.v).log ++ [⟨y.th.uid, n, r⟩] ∧
    g.here? s.place = some z

/-- A send (R350, R351) of the payload `bs`: its record is made, its message is on its way within the package, and its index is
written and counted. -/
def Sends (i : Instr) (s : State) (y z : Here) (d : BitVec 7) (c stamp : Word) (bs : List Byte) : Prop :=
  ∃ g m k f n, LeavesChip i s g ∧ m.sender = y.th.uid ∧ m.sendIdx = y.th.counters.send ∧ m.senderStamp = y.th.stamp ∧
    m.destV = bits c 16 11 ∧ m.handler = bits c 0 10 ∧ m.stamp = stamp ∧ m.payload = bs ∧ m.pid = y.th.pid ∧
    (g.cluster s.place.v).log = (s.chip.cluster s.place.v).log ++ [⟨y.th.uid, n, .send m⟩] ∧
    g.flights.get k = some f ∧ f.body = .message m ∧
    g.here? s.place = some (Here.write { z with th := { z.th with
      counters := { z.th.counters with send := y.th.counters.send + 1 } } } d (BitVec.ofNat 64 y.th.counters.send))

/-! ## Events -/

/-- The event changes the chip and nothing else. -/
def Becomes (i : Instr) (s : State) (h : Chip) : Prop := exec i s = .next { s with chip := h }

/-- The event finds nothing to act on: nothing changes. -/
def Ignored (i : Instr) (s : State) : Prop := exec i s = .next s

/-- The thread `x` that stood at `p` has left its slot: its context is saved and queued as an arrival on its core (R161), in the
overflow area where the queue of 40 is full (R140). -/
def LeftSlot (h g : Chip) (p : At) (x : Here) : Prop :=
  g.slot p = .free ∧ (∃ q ∈ (g.cluster p.v).parked, q.thread = x.th ∧ q.regs = saveFile x.th x.file ∧ q.core = p.c) ∧
    { uid := x.th.uid, arrival := true, seq := h.nextSeq : Entry } ∈
      (if (h.core p.v p.c).queue.length < 40 then (g.core p.v p.c).queue else (g.core p.v p.c).overflow) ∧
    p.t ∉ (g.core p.v p.c).vacating

/-- The slot at `p` is listed and is `x`: every slot in which something has happened is. -/
def Chip.listed (h : Chip) (p : At) (x : Slot) : Prop :=
  ∃ k c, h.clusters.get p.v = some k ∧ k.cores.get p.c = some c ∧ c.slots.get p.t = some x

/-- The chip after a debug command that answers `r` (R135). -/
def Chip.answered (h : Chip) (v c r : Nat) : Chip :=
  h.modCore v c fun k => { k with debugPending := false, dcmd := 0, dstatRes := BitVec.ofNat 2 r }

/-- Packet k has left the network; a packet sent since has a later number. -/
def Delivered (h g : Chip) (k : Nat) : Prop :=
  (h.flights.map (·.1)).Nodup → k < h.nextSeq → ∀ p ∈ g.flights, p.1 ≠ k

/-- A packet with this body is in flight. -/
def InFlight (g : Chip) (b : Packetry) : Prop := ∃ n f, g.flights.get n = some f ∧ f.body = b

/-- A fresh entry of an inbound queue. -/
def freshEntry (h : Chip) (uid : Nat) (arrival : Bool) : Entry := { uid := uid, arrival := arrival, seq := h.nextSeq }

/-! ## Frames of the fabric (R427) -/

/-- Frame k in flight is `f`, of this kind, and the next in order from a package that is not lost, for an active partition no earlier
frame of which still waits. -/
def NextFrame (h : Chip) (k kind : Nat) (f : WireFrame) : Prop :=
  h.frameIn k = some f ∧ f.kind = kind ∧ f.received = false ∧ f.seq = h.frameGot.getOr f.src 0 + 1 ∧ f.src ∉ h.lostPkgs ∧
    (h.part f.pid).active = true ∧ h.frameBehind f = false

/-- The event in which a frame of this kind is taken (R427, R429 to R433, R437). -/
def TakesFrame (k kind : Nat) (i : Instr) : Prop :=
  (kind = 1 ∧ i = .messageArrival k) ∨ (kind = 2 ∧ i = .antiMessageArrival k) ∨ (kind = 3 ∧ i = .messageAck k) ∨
    (kind = 4 ∧ i = .fabricPublicationData k) ∨ (kind = 5 ∧ i = .fabricGvtFrame k) ∨ (kind = 6 ∧ i = .fabricGroupFrame k) ∨
    (kind = 7 ∧ i = .ropeDigestFrame k) ∨ (kind = 9 ∧ i = .sliceGateFrame k)

end Sys2Proof.Machine
end

