-- ==== Sys2Proof/Certificates/Slice0/Obligations.lean ====
section
/-! DEFINITION. The statements for the provers: what the rules of the spec say the machine does. -/

open Sys2Proof Sys2Proof.Machine

/-! ## Encoding (R33 to R41) -/

/-- Decoding the word of a well-formed instruction gives the instruction back, every field at every value (R34, R38, R39). -/
def Obligations.EncodedWordDecodesToItsInstruction : Prop :=
  ∀ (i : Instr) (w : Half), i.wf = true → encode i = some w → decode w = .ok i

/-- A word that decodes is the encoding of the instruction it decodes to, which is well-formed: no bit of a word is ignored
(R37). -/
def Obligations.DecodedWordIsItsEncoding : Prop :=
  ∀ (w : Half) (i : Instr), decode w = .ok i → i.wf = true ∧ encode i = some w

/-- The words that the spec works out (R41, R57 to R66) decode to the instructions it writes beside them. -/
def Obligations.WorkedWordsDecode : Prop :=
  decode 0x0418B180#32 = .ok (.add 3 11 12) ∧ decode 0x40583101#32 = .ok (.ldW 11 3 1 1) ∧
  decode 0xA0340443#32 = .ok (.vfmaS 8 1 2 3) ∧ decode 0xC120101B#32 = .ok (.mmaHalf 2 0 1 1 0xB) ∧
  decode 0x84211100#32 = .ok (.rep 2 1 1 1 0) ∧ decode 0x042860E1#32 = .ok (.sub 5 6 7) ∧
  decode 0x0848E000#32 = .ok (.clz 9 14) ∧ decode 0x24409083#32 = .ok (.srai 8 9 3) ∧
  decode 0x2C2FFFFF#32 = .ok (.auipc 5 0x7FFFF) ∧ decode 0x608301FD#32 = .ok (.bne 3 0 0x1FD) ∧
  decode 0x6477F002#32 = .ok (.bbs 14 63 2) ∧ decode 0x6C000010#32 = .ok (.jal 16) ∧
  decode 0x70001000#32 = .ok (.jalr 0 1 0)

/-! ## Register fields (R17 to R20) -/

/-- g0 reads as zero and a write to it is discarded; any other register reads what was last written to it, and no other register of the
file changes. lq as a source pops the oldest entry of the load-data queue once its data has arrived, the thread waits while it has not,
and sq as a destination pushes onto the store-data queue; no other part of the thread changes. A field that names a register at or above
REGLIM, or 122 to 127, raises EREG with the register number in TVAL, and the first failing field in the order given decides; lq and sq
fields raise it where the queue is empty or full (R17 to R20, R36). -/
def Obligations.RegisterAndQueueFields : Prop :=
  ((∀ (t : Thread) (m : Map Word) (r q : Nat) (x : Word),
      readGpr t m 0 = 0 ∧ writeGpr t m 0 x = m ∧ (r ≠ 0 → readGpr t (writeGpr t m r x) r = x) ∧
      (q ≠ r → readGpr t (writeGpr t m r x) q = readGpr t m q)) ∧
   (∀ (h : Here) (x : Word),
      (∀ op v f es, h.th.ldq = ⟨op, .landed (.value v f)⟩ :: es → h.read 120 = .ok (v, { h with th := { h.th with ldq := es } })) ∧
      (∀ op es, h.th.ldq = ⟨op, .waiting⟩ :: es → h.read 120 = .error .stall) ∧
      (∀ op r es, h.th.ldq = ⟨op, .flying r⟩ :: es → h.read 120 = .error .stall) ∧
      h.write 121 x = { h with th := { h.th with sdq := h.th.sdq ++ [x] } } ∧
      (∀ v vs, h.th.sdq = v :: vs → h.readData 121 = .ok (v, { h with th := { h.th with sdq := vs } })))) ∧
  ((∀ (t : Thread) (d a b : BitVec 7),
      (¬ owned t d → d ≠ 120 → d ≠ 121 → checkUses t [.dst d, .src a, .src b] 0 = some (d.zeroExtend 64)) ∧
      (owned t d → ¬ owned t a → a ≠ 120 → checkUses t [.dst d, .src a, .src b] 0 = some (a.zeroExtend 64)) ∧
      (owned t d → owned t a → ¬ owned t b → b ≠ 120 → checkUses t [.dst d, .src a, .src b] 0 = some (b.zeroExtend 64)) ∧
      (owned t d → owned t a → owned t b → checkUses t [.dst d, .src a, .src b] 0 = none) ∧
      (∀ r : BitVec 7, owned t r = true ↔ r = 0 ∨ (r.toNat < t.regLim ∧ r.toNat < 120))) ∧
   (∀ (t : Thread), t.suspended = none → t.regLim ≤ 120 →
      (checkUses t [.src 120] 0 = none ↔ t.ldq ≠ []) ∧ (t.ldq = [] → checkUses t [.src 120] 0 = some 120) ∧
      (checkUses t [.src 120, .src 120] 0 = none ↔ 2 ≤ t.ldq.length) ∧
      (checkUses t [.loadDst 120] 0 = none ↔ t.ldq.length < 16) ∧
      (checkUses t [.dst 121] 0 = none ↔ t.sdq.length < 16) ∧ (16 ≤ t.sdq.length → checkUses t [.dst 121] 0 = some 121) ∧
      (checkUses t [.data 121] 0 = none ↔ t.sdq ≠ [])))

/-- A thread with nothing pending passes the checks exactly when the mode may run the instruction and every field passes; a supervisor-only
instruction in task mode raises ESUPER before any field is looked at. A result that has arrived is written just before the instruction
that is due to wait for it, with its flags; before that the register keeps its value; a due result that has not arrived holds the
instruction back; a fault is reported there (R36, R45, R46, R120). -/
def Obligations.ChecksAndConsumptionPoints : Prop :=
  (∀ (x : Here) (f : Form), x.th.pend = [] →
     (f.superOnly = true → x.th.sup = false → x.ready f = .error (x, .trap .esuper (tvalWord f.word))) ∧
     ((f.superOnly = true → x.th.sup = true) → ∀ v, checkUses x.th f.uses 0 = some v → x.ready f = .error (x, .trap .ereg v)) ∧
     ((f.superOnly = true → x.th.sup = true) → checkUses x.th f.uses 0 = none → x.ready f = .ok x)) ∧
  (∀ (x : Here) (op : Op) (n : Nat) (d : BitVec 7) (c : Points) (v : Word) (f : BitVec 5) (e : Trap),
     let q := fun n a => ({ op := op, due := .window n, dest := .reg d, arrival := a } : Pend)
     (x.th.pend = [q 0 (.landed (.value v f))] → d ≠ 121 →
       x.consume c = .ok ((({ x with th := { x.th with pend := [] } } : Here).flag f).write d v)) ∧
     (x.th.pend = [q (n + 1) (.landed (.value v f))] → c.closes = false → c.windows = false → x.consume c = .ok x) ∧
     (x.th.pend = [q 0 .waiting] → x.consume c = .error (x, .stall)) ∧
     (∀ r, x.th.pend = [q 0 (.flying r)] → x.consume c = .error (x, .stall)) ∧
     (x.th.pend = [q 0 (.landed (.fault e v))] → x.consume c = .error (x, .deferred (q 0 (.landed (.fault e v))) false)) ∧
     (∀ bad : Pend, bad.due = .next → bad.arrival = .landed (.fault e v) → d ≠ 121 →
       let y := (({ x with th := { x.th with pend := [] } } : Here).flag f).write d v
       let r : Except (Here × Stop) Here := .error ({ y with th := { y.th with pend := [bad] } }, .deferred bad false)
       (x.th.pend = [q 0 (.landed (.value v f)), bad] → op.seq < bad.op.seq → x.consume c = r) ∧
       (x.th.pend = [bad, q 0 (.landed (.value v f))] → bad.op.seq < op.seq → bad.dest = .none → x.consume c = r)) ∧
     (x.th.pend = [q (n + 1) (.landed (.value v f))] → x.th.past.pend = [q n (.landed (.value v f))]))

/-! ## Integer instructions (R55 to R67) -/

/-- Each ALU instruction writes the value of R57's table; CLZ, CTZ and POPC write counts of R58's table, and the other BIT instructions the
patterns it gives; the immediate forms write the values of R59 to R61, and AUIPC adds to the address of its own word. -/
def Obligations.IntegerBitAndImmediateResults : Prop :=
  ((∀ d a b : BitVec 7,
      TwoOperand (.add d a b) d a b (fun x y => x + y) ∧ TwoOperand (.sub d a b) d a b (fun x y => x - y) ∧
      TwoOperand (.and d a b) d a b (fun x y => x &&& y) ∧ TwoOperand (.or d a b) d a b (fun x y => x ||| y) ∧
      TwoOperand (.xor d a b) d a b (fun x y => x ^^^ y) ∧ TwoOperand (.andn d a b) d a b (fun x y => x &&& ~~~y) ∧
      TwoOperand (.sll d a b) d a b (fun x y => x <<< (y.toNat % 64)) ∧
      TwoOperand (.srl d a b) d a b (fun x y => x >>> (y.toNat % 64)) ∧
      TwoOperand (.sra d a b) d a b (fun x y => x.sshiftRight (y.toNat % 64)) ∧
      TwoOperand (.rol d a b) d a b (fun x y => x.rotateLeft (y.toNat % 64)) ∧
      TwoOperand (.ror d a b) d a b (fun x y => x.rotateRight (y.toNat % 64)) ∧
      TwoOperand (.slt d a b) d a b (fun x y => if x.toInt < y.toInt then 1 else 0) ∧
      TwoOperand (.sltu d a b) d a b (fun x y => if x.toNat < y.toNat then 1 else 0) ∧
      TwoOperand (.min d a b) d a b (fun x y => if x.toInt ≤ y.toInt then x else y) ∧
      TwoOperand (.max d a b) d a b (fun x y => if x.toInt ≥ y.toInt then x else y) ∧
      TwoOperand (.minu d a b) d a b (fun x y => if x.toNat ≤ y.toNat then x else y) ∧
      TwoOperand (.maxu d a b) d a b (fun x y => if x.toNat ≥ y.toNat then x else y) ∧
      TwoOperand (.mul d a b) d a b (fun x y => x * y) ∧
      TwoOperand (.mulh d a b) d a b (fun x y => BitVec.ofInt 64 ((x.toInt * y.toInt).fdiv (2 ^ 64))) ∧
      TwoOperand (.mulhu d a b) d a b (fun x y => BitVec.ofNat 64 (x.toNat * y.toNat / 2 ^ 64))) ∧
   (∀ d a : BitVec 7,
      (∃ n : Word → Nat, OneOperand (.clz d a) d a (fun x => BitVec.ofNat 64 (n x)) ∧ ∀ x, n x ≤ 64 ∧
        (∀ j < n x, x.getLsbD (63 - j) = false) ∧ (n x < 64 → x.getLsbD (63 - n x) = true)) ∧
      (∃ n : Word → Nat, OneOperand (.ctz d a) d a (fun x => BitVec.ofNat 64 (n x)) ∧ ∀ x, n x ≤ 64 ∧
        (∀ j < n x, x.getLsbD j = false) ∧ (n x < 64 → x.getLsbD (n x) = true)) ∧
      OneOperand (.popc d a) d a (fun x => BitVec.ofNat 64 ((List.range 64).countP fun j => x.getLsbD j)) ∧
      (∃ f : Word → Word, OneOperand (.brev d a) d a f ∧ ∀ x, ∀ j < 64, (f x).getLsbD j = x.getLsbD (63 - j)) ∧
      OneOperand (.sextB d a) d a (fun x => (x.truncate 8).signExtend 64) ∧
      OneOperand (.sextH d a) d a (fun x => (x.truncate 16).signExtend 64) ∧
      OneOperand (.sextW d a) d a (fun x => (x.truncate 32).signExtend 64) ∧
      OneOperand (.zextW d a) d a (fun x => (x.truncate 32).zeroExtend 64))) ∧
  (∀ (d a : BitVec 7) (k : BitVec 12) (n : BitVec 6) (u : BitVec 19),
     OneOperand (.addi d a k) d a (fun x => x + k.signExtend 64) ∧
     OneOperand (.andi d a k) d a (fun x => x &&& k.signExtend 64) ∧
     OneOperand (.ori d a k) d a (fun x => x ||| k.signExtend 64) ∧
     OneOperand (.xori d a k) d a (fun x => x ^^^ k.signExtend 64) ∧
     OneOperand (.slti d a k) d a (fun x => if x.toInt < k.toInt then 1 else 0) ∧
     OneOperand (.sltiu d a k) d a (fun x => if x.toNat < (k.signExtend 64).toNat then 1 else 0) ∧
     OneOperand (.slli d a n) d a (fun x => x <<< n.toNat) ∧
     OneOperand (.srli d a n) d a (fun x => x >>> n.toNat) ∧
     OneOperand (.srai d a n) d a (fun x => x.sshiftRight n.toNat) ∧
     OneOperand (.rori d a n) d a (fun x => x.rotateRight n.toNat) ∧
     (∀ s y, Issues s (form (wordOf (.lui d u)) [.dst d]) y →
       LeavesThread (.lui d u) s (y.passed.write d (u.signExtend 64 * 4096))) ∧
     (∀ s y, Issues s (form (wordOf (.auipc d u)) [.dst d]) y →
       LeavesThread (.auipc d u) s (y.passed.write d (y.th.pc + u.signExtend 64 * 4096))))

/-- The conditional branches take the condition of their row, and go 4·sext(off) bytes from their own address (R63, R64); J goes to
its target, JAL writes g1 first, and JALR computes its target before it writes the link, raising EALIGN with the target in TVAL
where it is no word address (R65, R66). -/
def Obligations.BranchesAndJumps : Prop :=
  (∀ (a b : BitVec 7) (off : BitVec 9),
    Branches (.beq a b off) a b off (fun x y => decide (x = y)) ∧ Branches (.bne a b off) a b off (fun x y => decide (x ≠ y)) ∧
    Branches (.blt a b off) a b off (fun x y => decide (x.toInt < y.toInt)) ∧
    Branches (.bge a b off) a b off (fun x y => decide (x.toInt ≥ y.toInt)) ∧
    Branches (.bltu a b off) a b off (fun x y => decide (x.toNat < y.toNat)) ∧
    Branches (.bgeu a b off) a b off (fun x y => decide (x.toNat ≥ y.toNat)) ∧
    (∀ (bit : BitVec 6) (o : BitVec 12) s y u z, Issues s (form (wordOf (.bbs a bit o)) [.src a]) y →
      y.passed.read a = .ok (u, z) →
      LeavesThread (.bbs a bit o) s (if u.getLsbD bit.toNat then Here.goto z (y.th.pc + 4 * o.signExtend 64) else z)) ∧
    (∀ (bit : BitVec 6) (o : BitVec 12) s y u z, Issues s (form (wordOf (.bbc a bit o)) [.src a]) y →
      y.passed.read a = .ok (u, z) →
      LeavesThread (.bbc a bit o) s (if u.getLsbD bit.toNat then z else Here.goto z (y.th.pc + 4 * o.signExtend 64)))) ∧
  (∀ (o : BitVec 26) s y, Issues s (form (wordOf (.j o))) y →
    LeavesThread (.j o) s (Here.goto y.passed (y.th.pc + 4 * o.signExtend 64))) ∧
  (∀ (o : BitVec 26) s y, Issues s (form (wordOf (.jal o)) [.dst 1]) y →
    LeavesThread (.jal o) s (Here.goto (y.passed.write 1 (y.th.pc + 4)) (y.th.pc + 4 * o.signExtend 64))) ∧
  (∀ (d a : BitVec 7) (k : BitVec 12) s y u z, Issues s (form (wordOf (.jalr d a k)) [.dst d, .src a]) y →
    y.passed.read a = .ok (u, z) →
    ((u + k.signExtend 64).toNat % 4 = 0 →
      LeavesThread (.jalr d a k) s (Here.goto (z.write d (y.th.pc + 4)) (u + k.signExtend 64))) ∧
    ((u + k.signExtend 64).toNat % 4 ≠ 0 →
      LeavesChip (.jalr d a k) s ((s.chip.putHere s.place y).takeTrap s.place (raisedBy y.th .ealign (u + k.signExtend 64)))))

/-! ## Floating point (R87 to R116) -/

/-- FADD.S, FSUB.S and FMUL.S round the exact sum, difference and product once; FDIV.S and FSQRT.S, the minimum and maximum,
the compares and FCLASS.S write what R108 to R111 give for their patterns (FRM = 4 acts as RNE, R94). -/
def Obligations.Fp32Results : Prop :=
  ∀ d a b : BitVec 7,
    FpTwo anyCore (.faddS d a b) fp32 d a b
      (fun r x y => roundedOr fp32 r (addNum r (fp32.decode x) (fp32.decode y))) ∧
    FpTwo anyCore (.fsubS d a b) fp32 d a b
      (fun r x y => roundedOr fp32 r (addNum r (fp32.decode x) (negNum (fp32.decode y)))) ∧
    FpTwo anyCore (.fmulS d a b) fp32 d a b (fun r x y => roundedOr fp32 r (mulNum (fp32.decode x) (fp32.decode y))) ∧
    FpTwo anyCore (.fdivS d a b) fp32 d a b (fun r x y => fp32.div r x y) ∧
    FpOne anyCore (.fsqrtS d a) fp32 d a (fun r x => fp32.sqrt r x) ∧
    FpTwo anyCore (.fminS d a b) fp32 d a b (fun _ x y => fp32.minMax false x y) ∧
    FpTwo anyCore (.fmaxS d a b) fp32 d a b (fun _ x y => fp32.minMax true x y) ∧
    FpTwo anyCore (.feqS d a b) fp32 d a b (fun _ x y => (if (fp32.eq x y).1 then 1 else 0, (fp32.eq x y).2)) ∧
    FpTwo anyCore (.fltS d a b) fp32 d a b (fun _ x y => (if (fp32.lt x y).1 then 1 else 0, (fp32.lt x y).2)) ∧
    FpTwo anyCore (.fleS d a b) fp32 d a b (fun _ x y => (if (fp32.le x y).1 then 1 else 0, (fp32.le x y).2)) ∧
    FpOne anyCore (.fclassS d a) fp32 d a (fun _ x => (fp32.classOf x, 0)) ∧
    FpThree anyCore (.fmaddS d a b) fp32 d a b (fun r x y c => fp32.fma r false false x y c) ∧
    FpThree anyCore (.fmsubS d a b) fp32 d a b (fun r x y c => fp32.fma r false true x y c) ∧
    FpThree anyCore (.fnmsubS d a b) fp32 d a b (fun r x y c => fp32.fma r true false x y c) ∧
    FpThree anyCore (.fnmaddS d a b) fp32 d a b (fun r x y c => fp32.fma r true true x y c)

/-- The special operands of R108, R109 and R111: a quotient by zero, 0/0, ∞/∞, 0·∞, ∞ - ∞, the root of a negative number, and a compare
with a NaN, in every rounding mode and for FP32 and FP64 alike. A value that a format holds rounds to its own pattern, in every mode
and with no flag: the zeros, subnormals and normals of FP64, FP32, BF16, FP16, E5M2 and E4M3 (R87, R94). -/
def Obligations.RoundingAndSpecialOperands : Prop :=
  (∀ f : Fmt, f = fp32 ∨ f = fp64 → ∀ (r : Rnd) (x y : Nat),
     (∀ s m e t g, f.decode x = .fin s m e → m ≠ 0 → f.decode y = .fin t 0 g →
       f.div r x y = (f.signPat (s != t) + f.infPat, flDZ)) ∧
     (∀ s e t g, f.decode x = .fin s 0 e → f.decode y = .fin t 0 g → f.div r x y = (f.nanPat, flNV)) ∧
     (∀ s t, f.decode x = .inf s → f.decode y = .inf t → f.div r x y = (f.nanPat, flNV)) ∧
     (∀ s e t, f.decode x = .fin s 0 e → f.decode y = .inf t → f.mul r x y = (f.nanPat, flNV)) ∧
     (∀ s, f.decode x = .inf s → f.decode y = .inf (!s) → f.add r false x y = (f.nanPat, flNV)) ∧
     (∀ m e, f.decode x = .fin true m e → m ≠ 0 → f.sqrt r x = (f.nanPat, flNV)) ∧
     (∀ e, f.decode x = .fin true 0 e → f.sqrt r x = (f.signPat true, 0)) ∧
     (∀ s, f.decode x = .nan s → f.lt x y = (false, flNV) ∧ f.le x y = (false, flNV) ∧ (f.eq x y).1 = false)) ∧
  (∀ f : Fmt, f ∈ [fp64, fp32, bf16, fp16, e5m2, e4m3] → ∀ (r : Rnd) (x : Nat) (s : Bool) (m : Nat) (e : Int),
     x < 2 ^ f.width → f.decode x = .fin s m e → f.round r (f.decode x) = (x, 0))

/-- The conversions between integers, FP32 and the narrower formats write the value rounded once to the target (R113 to R115);
a narrowing one rounds stochastically under FRM = 4. -/
def Obligations.Fp32Conversions : Prop :=
  ∀ d a b : BitVec 7,
    (∀ s y u z, Issues s (form (wordOf (.cvtSL d a)) [.dst d, .src a]) y → y.passed.read a = .ok (u, z) →
      let r := fp32.round (rndOf z.th.frm.toNat) (numOf u.toInt 0 false)
      LeavesThread (.cvtSL d a) s ((z.write d (BitVec.ofNat 64 r.1)).flag r.2)) ∧
    (∀ s y u z, Issues s (form (wordOf (.cvtSLu d a)) [.dst d, .src a]) y → y.passed.read a = .ok (u, z) →
      let r := fp32.round (rndOf z.th.frm.toNat) (numOf u.toNat 0 false)
      LeavesThread (.cvtSLu d a) s ((z.write d (BitVec.ofNat 64 r.1)).flag r.2)) ∧
    (∀ s y u z, Issues s (form (wordOf (.cvtLS d a)) [.dst d, .src a]) y → y.passed.read a = .ok (u, z) →
      let r := fp32.toInt64 (rndOf z.th.frm.toNat) (-2 ^ 63) (2 ^ 63 - 1) (u.toNat % 2 ^ 32)
      LeavesThread (.cvtLS d a) s ((z.write d r.1).flag r.2)) ∧
    (∀ s y u z, Issues s (form (wordOf (.cvtLuS d a)) [.dst d, .src a]) y → y.passed.read a = .ok (u, z) →
      let r := fp32.toInt64 (rndOf z.th.frm.toNat) 0 (2 ^ 64 - 1) (u.toNat % 2 ^ 32)
      LeavesThread (.cvtLuS d a) s ((z.write d r.1).flag r.2)) ∧
    Narrows anyCore (.cvtBf16S d a) fp32 d a (fun r x => bf16.round r (fp32.decode x)) ∧
    Narrows anyCore (.cvtHS d a) fp32 d a (fun r x => fp16.round r (fp32.decode x)) ∧
    Narrows anyCore (.cvtE4m3S d a) fp32 d a (fun r x => e4m3.round r (fp32.decode x)) ∧
    Narrows anyCore (.cvtE5m2S d a) fp32 d a (fun r x => e5m2.round r (fp32.decode x)) ∧
    FpOne anyCore (.cvtSBf16 d a) bf16 d a (fun r x => fp32.round r (bf16.decode x)) ∧
    FpOne anyCore (.cvtSH d a) fp16 d a (fun r x => fp32.round r (fp16.decode x)) ∧
    FpOne anyCore (.cvtSE4m3 d a) e4m3 d a (fun r x => fp32.round r (e4m3.decode x)) ∧
    FpOne anyCore (.cvtSE5m2 d a) e5m2 d a (fun r x => fp32.round r (e5m2.decode x)) ∧
    (∀ s y u v z, Issues s (form (wordOf (.cvtF4bS d a b)) [.dst d, .src a, .src b]) y → Reads2 y a b u v z →
      let k := toF4B (if z.th.frm = 4 then .sr (nextDraw s) else rndOf z.th.frm.toNat) (v.toNat % 256) (v.toNat / 256 % 256)
        (fp32.decode (u.toNat % 2 ^ 32))
      LeavesThread (.cvtF4bS d a b) s
        (((z.takeDraws (if z.th.frm = 4 then 1 else 0)).write d (BitVec.ofNat 64 k.1)).flag k.2)) ∧
    (∀ s y u v z, Issues s (form (wordOf (.cvtSF4b d a b)) [.dst d, .src a, .src b]) y → Reads2 y a b u v z →
      let k := fp32.round (rndOf z.th.frm.toNat) (decodeF4B (u.toNat % 16) (v.toNat % 256) (v.toNat / 256 % 256))
      LeavesThread (.cvtSF4b d a b) s ((z.write d (BitVec.ofNat 64 k.1)).flag k.2))

/-- The FP64 forms do on an X64 core what their FP32 counterparts do, at FP64 (R116). -/
def Obligations.Fp64Results : Prop :=
  ∀ d a b : BitVec 7,
    FpTwo x64Place (.faddD d a b) fp64 d a b
      (fun r x y => roundedOr fp64 r (addNum r (fp64.decode x) (fp64.decode y))) ∧
    FpTwo x64Place (.fsubD d a b) fp64 d a b
      (fun r x y => roundedOr fp64 r (addNum r (fp64.decode x) (negNum (fp64.decode y)))) ∧
    FpTwo x64Place (.fmulD d a b) fp64 d a b (fun r x y => roundedOr fp64 r (mulNum (fp64.decode x) (fp64.decode y))) ∧
    FpTwo x64Place (.fdivD d a b) fp64 d a b (fun r x y => fp64.div r x y) ∧
    FpOne x64Place (.fsqrtD d a) fp64 d a (fun r x => fp64.sqrt r x) ∧
    FpTwo x64Place (.fminD d a b) fp64 d a b (fun _ x y => fp64.minMax false x y) ∧
    FpTwo x64Place (.fmaxD d a b) fp64 d a b (fun _ x y => fp64.minMax true x y) ∧
    FpTwo x64Place (.feqD d a b) fp64 d a b (fun _ x y => (if (fp64.eq x y).1 then 1 else 0, (fp64.eq x y).2)) ∧
    FpTwo x64Place (.fltD d a b) fp64 d a b (fun _ x y => (if (fp64.lt x y).1 then 1 else 0, (fp64.lt x y).2)) ∧
    FpTwo x64Place (.fleD d a b) fp64 d a b (fun _ x y => (if (fp64.le x y).1 then 1 else 0, (fp64.le x y).2)) ∧
    FpOne x64Place (.fclassD d a) fp64 d a (fun _ x => (fp64.classOf x, 0)) ∧
    FpThree x64Place (.fmaddD d a b) fp64 d a b (fun r x y c => fp64.fma r false false x y c) ∧
    FpThree x64Place (.fmsubD d a b) fp64 d a b (fun r x y c => fp64.fma r false true x y c) ∧
    FpThree x64Place (.fnmsubD d a b) fp64 d a b (fun r x y c => fp64.fma r true false x y c) ∧
    FpThree x64Place (.fnmaddD d a b) fp64 d a b (fun r x y c => fp64.fma r true true x y c) ∧
    FpOne x64Place (.cvtDS d a) fp32 d a (fun r x => fp64.round r (fp32.decode x)) ∧
    Narrows x64Place (.cvtSD d a) fp64 d a (fun r x => fp32.round r (fp64.decode x)) ∧
    (∀ s y u z, x64Place s → Issues s (form (wordOf (.cvtDL d a)) [.dst d, .src a]) y → y.passed.read a = .ok (u, z) →
      let r := fp64.round (rndOf z.th.frm.toNat) (numOf u.toInt 0 false)
      LeavesThread (.cvtDL d a) s ((z.write d (BitVec.ofNat 64 r.1)).flag r.2)) ∧
    (∀ s y u z, x64Place s → Issues s (form (wordOf (.cvtLD d a)) [.dst d, .src a]) y → y.passed.read a = .ok (u, z) →
      let r := fp64.toInt64 (rndOf z.th.frm.toNat) (-2 ^ 63) (2 ^ 63 - 1) u.toNat
      LeavesThread (.cvtLD d a) s ((z.write d r.1).flag r.2))

/-- A division writes the quotient rounded toward zero or its remainder where the divisor is not zero; a zero divisor raises EDIVZ with
TVAL 0 and no other effect. An X64 instruction of a task on a core without X64, whose vector commands have completed, moves the whole
thread to the queue of core 0 or 4 of its cluster and has no other effect (R52, R53, R85). Slot 0 never moves: off those cores X64 raises
EILL there, which is the model's choice (log 14). -/
def Obligations.DivisionAndX64Cores : Prop :=
  (∀ (d a b : BitVec 7) s y u v z,
     (let D := fun (i : Instr) (q : Word) =>
       x64Place s → Issues s (form (wordOf i) [.dst d, .src a, .src b]) y → Reads2 y a b u v z →
         (v ≠ 0 → LeavesThread i s (z.write d q)) ∧
         (v = 0 → LeavesChip i s ((s.chip.putHere s.place y).takeTrap s.place (raisedBy y.th .edivz 0)))
     D (.div d a b) (BitVec.ofInt 64 (u.toInt.tdiv v.toInt)) ∧ D (.rem d a b) (BitVec.ofInt 64 (u.toInt.tmod v.toInt)) ∧
     D (.divu d a b) (BitVec.ofNat 64 (u.toNat / v.toNat)) ∧ D (.remu d a b) (BitVec.ofNat 64 (u.toNat % v.toNat)))) ∧
  (∀ (i : Instr) (s : State) (t : Thread),
     (∃ w, encode i = some w ∧ (fld w 26 6 = 0x38 ∨ fld w 26 6 = 0x39)) → ¬ x64Place s → s.chip.slot s.place = .live t →
     (s.place.t ≠ 0 → (∀ c ∈ (s.chip.cluster s.place.v).claims, c.uid = t.uid → c.queue = []) →
       exec i s = .next { s with chip := (s.chip.parkTo s.place (if s.place.c < 4 then 0 else 4) true).renegotiate s.place.v t.uid }) ∧
     (s.place.t = 0 → ∀ y, Issues s (form (wordOf i)) y → Illegal i s y))

/-! ## Memory (R27, R28, R70 to R84) -/

/-- A byte memory in canonical form reads back what was written, every other address reads as before, and the canonical form
stays; a number's low bytes written little-endian read back as the number (R6). -/
def Obligations.MemoryReadsBack : Prop :=
  ∀ (m : Mem) (k n x : Nat) (bs : List Byte), Memory.wf m = true →
    Memory.wf (m.writeBytes k bs) = true ∧
    (∀ j, (m.writeBytes k bs).read j = if k ≤ j ∧ j < k + bs.length then bs.getD (j - k) 0 else m.read j) ∧
    bytesToNat ((m.writeBytes k (natToBytes n x)).readBytes k n) = x % 256 ^ n

/-- The checks of an access come in the order window, alignment, permission of a peer cluster, bank mode; each raises its precise trap
with the address in TVAL. An address below 2 MiB leads to this cluster's scratch; in the peer window to the cluster it names, which is
this one's scratch for its own VCN and must be below V; from 2^33 to 2^56 to global memory; elsewhere to nothing (R8, R27 to R29). -/
def Obligations.AccessChecksAndWindows : Prop :=
  (∀ (h : Chip) (t : Thread) (p : At) (a : Access) (op : Op) (due : Due) (dest : Dest),
     let ea := op.ea.toNat
     (accessPlace h.v p.v ea a.size = none → h.access t p a op due dest = .error (.trap .ewindow op.ea)) ∧
     (∀ x, accessPlace h.v p.v ea a.size = some x → ea % a.size ≠ 0 →
       h.access t p a op due dest = .error (.trap .ealign op.ea)) ∧
     (∀ u o, accessPlace h.v p.v ea a.size = some (.remote u o) → ea % a.size = 0 → (h.part (h.pidAt p.v t)).holds u = false →
       h.access t p a op due dest = .error (.trap .eperm op.ea)) ∧
     (∀ o, accessPlace h.v p.v ea a.size = some (.here o) → ea % a.size = 0 →
       (h.cluster p.v).mode (o / 65536) ≠ .scratch → (h.cluster p.v).mode (o / 65536) ≠ .scratchT →
       h.access t p a op due dest = .error (.trap .ebankmode op.ea))) ∧
  (∀ V v a : Nat,
     (a < 0x200000 → accessPlace V v a 1 = some (.here a)) ∧
     (0x200000 ≤ a → a < 0x100000000 → accessPlace V v a 1 = none) ∧
     (0x100000000 ≤ a → a < 0x200000000 → (a - 0x100000000) / 2 ^ 21 < V → (a - 0x100000000) / 2 ^ 21 ≠ v →
       accessPlace V v a 1 = some (.remote ((a - 0x100000000) / 2 ^ 21) (a % 2 ^ 21))) ∧
     (0x100000000 ≤ a → a < 0x200000000 → (a - 0x100000000) / 2 ^ 21 < V → (a - 0x100000000) / 2 ^ 21 = v →
       accessPlace V v a 1 = some (.here (a % 2 ^ 21))) ∧
     (0x100000000 ≤ a → a < 0x200000000 → V ≤ (a - 0x100000000) / 2 ^ 21 → accessPlace V v a 1 = none) ∧
     (0x200000000 ≤ a → a < 2 ^ 56 → accessPlace V v a 1 = some (.global a)) ∧
     (2 ^ 56 ≤ a → accessPlace V v a 1 = none))

/-- A load from a SCRATCH bank of the thread's own cluster completes: the value of its bytes, extended as R70 says, is on its way to its
register or is the newest entry of the load-data queue; it reads memory at once and changes none. A store to a SCRATCH bank by a quiet
task or in supervisor mode completes: exactly its bytes change, in all the memory of the machine, and no register but what its operands
pop. A load from a PRIVATE or READ-SHARED page completes with the bytes of the cluster's copy of the line or of device memory; a store
to a PRIVATE page completes as a write-through of the cluster, or as a record of a task that may be undone. Such a task's first load and
store of a SCRATCH-T line complete with the line's tags, its signature and its record of the old bytes written (R70, R71, R73, R74, R75,
R184, R186 to R188, R191). -/
def Obligations.ScratchLoadsAndStores : Prop :=
  (∀ (d a : BitVec 7) (k : BitVec 4) (o : BitVec 8),
     LoadsScratch (.ldB d a k o) d a k 1 o (fun bs => (BitVec.ofNat 8 (bytesToNat bs)).signExtend 64) ∧
     LoadsScratch (.ldBu d a k o) d a k 1 o (fun bs => BitVec.ofNat 64 (bytesToNat bs)) ∧
     LoadsScratch (.ldH d a k o) d a k 2 o (fun bs => (BitVec.ofNat 16 (bytesToNat bs)).signExtend 64) ∧
     LoadsScratch (.ldHu d a k o) d a k 2 o (fun bs => BitVec.ofNat 64 (bytesToNat bs)) ∧
     LoadsScratch (.ldW d a k o) d a k 4 o (fun bs => (BitVec.ofNat 32 (bytesToNat bs)).signExtend 64) ∧
     LoadsScratch (.ldWu d a k o) d a k 4 o (fun bs => BitVec.ofNat 64 (bytesToNat bs)) ∧
     LoadsScratch (.ldD d a k o) d a k 8 o (fun bs => BitVec.ofNat 64 (bytesToNat bs))) ∧
  (∀ (d a : BitVec 7) (o : BitVec 8),
     StoresScratch (.stB d a o) d a 1 o ∧ StoresScratch (.stH d a o) d a 2 o ∧ StoresScratch (.stW d a o) d a 4 o ∧
     StoresScratch (.stD d a o) d a 8 o) ∧
  (∀ (d a : BitVec 7) (k : BitVec 4) (o : BitVec 8),
     let zero := fun bs => BitVec.ofNat 64 (bytesToNat bs)
     let sign := fun (n : Nat) bs => (BitVec.ofNat n (bytesToNat bs)).signExtend 64
     (LoadsPage (.ldB d a k o) d a k 1 o (sign 8) ∧ LoadsPage (.ldBu d a k o) d a k 1 o zero ∧
       LoadsPage (.ldH d a k o) d a k 2 o (sign 16) ∧ LoadsPage (.ldHu d a k o) d a k 2 o zero ∧
       LoadsPage (.ldW d a k o) d a k 4 o (sign 32) ∧ LoadsPage (.ldWu d a k o) d a k 4 o zero ∧
       LoadsPage (.ldD d a k o) d a k 8 o zero) ∧
     (LoadsTracked (.ldB d a k o) d a k 1 o (sign 8) ∧ LoadsTracked (.ldBu d a k o) d a k 1 o zero ∧
       LoadsTracked (.ldH d a k o) d a k 2 o (sign 16) ∧ LoadsTracked (.ldHu d a k o) d a k 2 o zero ∧
       LoadsTracked (.ldW d a k o) d a k 4 o (sign 32) ∧ LoadsTracked (.ldWu d a k o) d a k 4 o zero ∧
       LoadsTracked (.ldD d a k o) d a k 8 o zero)) ∧
  (∀ (d a : BitVec 7) (o : BitVec 8),
     (StoresPage (.stB d a o) d a 1 o ∧ StoresPage (.stH d a o) d a 2 o ∧ StoresPage (.stW d a o) d a 4 o ∧ StoresPage (.stD d a o) d a 8 o) ∧
     (StoresTracked (.stB d a o) d a 1 o ∧ StoresTracked (.stH d a o) d a 2 o ∧ StoresTracked (.stW d a o) d a 4 o ∧
       StoresTracked (.stD d a o) d a 8 o))

/-- A returning AMO on a SCRATCH bank by a quiet task or in supervisor mode completes: the old doubleword is on its way to its register,
and memory takes the value of R77's table; a compare that fails writes nothing. A reduction on a SCRATCH-T line by a non-quiet task
with room in its LOG completes with one record appended and memory unchanged; in supervisor mode it is applied at once (R77, R80,
R81). -/
def Obligations.AtomicsAndReductions : Prop :=
  (∀ (d a b : BitVec 7),
     AtomicScratch (.amoSwap d a b) d a b false (fun _ y _ => some y) ∧
     AtomicScratch (.amoAdd d a b) d a b false (fun z y _ => some (z + y)) ∧
     AtomicScratch (.amoAnd d a b) d a b false (fun z y _ => some (z &&& y)) ∧
     AtomicScratch (.amoOr d a b) d a b false (fun z y _ => some (z ||| y)) ∧
     AtomicScratch (.amoXor d a b) d a b false (fun z y _ => some (z ^^^ y)) ∧
     AtomicScratch (.amoMin d a b) d a b false (fun z y _ => some (if z.toInt ≤ y.toInt then z else y)) ∧
     AtomicScratch (.amoMax d a b) d a b false (fun z y _ => some (if z.toInt ≥ y.toInt then z else y)) ∧
     AtomicScratch (.amoCas d a b) d a b true (fun z y x => if z = x then some y else none)) ∧
  (∀ (a b : BitVec 7),
     Reduces (.redAdd a b) a b .add (fun z y => wordBytes 8 (BitVec.ofNat 64 (bytesToNat z) + y)) (fun _ _ => 0) ∧
     Reduces (.redOr a b) a b .or (fun z y => wordBytes 8 (BitVec.ofNat 64 (bytesToNat z) ||| y)) (fun _ _ => 0) ∧
     Reduces (.redMin a b) a b .min (fun z y => wordBytes 8
       (if (BitVec.ofNat 64 (bytesToNat z)).toInt ≤ y.toInt then BitVec.ofNat 64 (bytesToNat z) else y)) (fun _ _ => 0) ∧
     Reduces (.redMax a b) a b .max (fun z y => wordBytes 8
       (if (BitVec.ofNat 64 (bytesToNat z)).toInt ≥ y.toInt then BitVec.ofNat 64 (bytesToNat z) else y)) (fun _ _ => 0) ∧
     Reduces (.redFaddS a b) a b .faddS (fun z y => natToBytes 4 (sumFp32 [bytesToNat z, y.toNat % 2 ^ 32]).1)
       (fun z y => (sumFp32 [bytesToNat z, y.toNat % 2 ^ 32]).2))

/-- The domain checks of R73: a quiet task raises EQUIET at a SCRATCH-T bank and at a COHERENT page, a store to a READ-SHARED page and any
access to a HOST page raise EPERM whoever makes it, and a task that has a reduction record over the bytes raises EPERM at SCRATCH-T
(R82). Before a task's first write to a scratch line its 64 old bytes and tags are put into a record of 3 units at the cluster; a line
it has already recorded gets no second one (R187, R191). -/
def Obligations.DomainChecksAndUndoRecords : Prop :=
  (∀ (h : Chip) (w : Who) (v off n : Nat) (bs : List Byte) (ea : Word),
     ((h.cluster v).mode (off / 65536) = .scratchT → w.mode = .quiet →
       h.readScratch w v off n ea = .error (.fault .equiet ea) ∧ h.writeScratch w v off bs ea = .error (.fault .equiet ea)) ∧
     ((h.cluster v).mode (off / 65536) = .scratchT → w.mode = .spec →
       (h.ownReduction v w.uid false off n = true → h.readScratch w v off n ea = .error (.fault .eperm ea)) ∧
       (h.ownReduction v w.uid false off bs.length = true → h.writeScratch w v off bs ea = .error (.fault .eperm ea))) ∧
     (∀ va l, (h.warm w.pid va).translate w.pid va = some l → regionOf va ∉ w.rejected → l.pub = none →
       (l.attr = .host → h.readGlobal w v va n ea = .error (.fault .eperm ea) ∧
         h.writeGlobal w v va bs ea = .error (.fault .eperm ea)) ∧
       (l.attr = .readShared → h.writeGlobal w v va bs ea = .error (.fault .eperm ea)) ∧
       (l.attr = .coherent → w.mode = .quiet → h.readGlobal w v va n ea = .error (.fault .equiet ea) ∧
         h.writeGlobal w v va bs ea = .error (.fault .equiet ea)))) ∧
  (∀ (h g : Chip) (w : Who) (v line : Nat) (ea : Word), h.room v w.uid 3 false = .enough → h.makeUndo w v line ea = .ok g →
     (h.hasUndo v w.uid line = true → g = h) ∧
     (h.hasUndo v w.uid line = false →
       (g.cluster v).log = (h.cluster v).log ++
         [⟨w.uid, h.nextSeq, .undo line ((h.cluster v).scratch.readBytes (64 * line) 64) (h.tag v line)⟩] ∧
       (g.cluster v).scratch = (h.cluster v).scratch ∧ g.hbm = h.hbm))

/-! ## Frames of instructions of the thread alone -/

/-- An instruction whose effect is its thread leaves alone every other slot, every other core's register file, all memory, the tasks, the
packets in flight and the pool; its own file is the thread's, and its thread as stated, but that a debug STEP ends. An ALU, BIT,
immediate, branch, jump, FP, FMA or CVT instruction never changes memory, a task or a packet in flight, whether it completes, waits or
traps (R55, R105). -/
def Obligations.RegisterInstructionsStayInTheirThread : Prop :=
  (∀ (i : Instr) (s : State) (f : Form) (y z : Here), Issues s f y → LeavesThread i s z →
     ∃ t, exec i s = .next t ∧ (∀ q, q ≠ s.place → t.chip.slot q = s.chip.slot q) ∧
       (∀ v c, ¬ (v = s.place.v ∧ c = s.place.c) → (t.chip.core v c).file = (s.chip.core v c).file) ∧
       (∃ b, t.chip.here? s.place = some { z with th := { z.th with stepOnce := b } }) ∧
       MemoryAfter s.chip t.chip s.place.v (s.chip.cluster s.place.v).scratch.read ∧
       t.chip.tasks = s.chip.tasks ∧ t.chip.parts = s.chip.parts ∧ t.chip.flights = s.chip.flights ∧
       t.chip.regs = s.chip.regs ∧ t.pool = s.pool ∧ t.agenda = s.agenda) ∧
  (∀ (i : Instr) (w : Half) (s t : State), encode i = some w →
     (1 ≤ (fld w 26 6).toNat ∧ (fld w 26 6).toNat ≤ 0xB ∨ 0x18 ≤ (fld w 26 6).toNat ∧ (fld w 26 6).toNat ≤ 0x1F) →
     exec i s = .next t →
       MemoryAfter s.chip t.chip s.place.v (s.chip.cluster s.place.v).scratch.read ∧ t.chip.tasks = s.chip.tasks ∧
       t.chip.flights = s.chip.flights ∧ t.pool = s.pool ∧ t.agenda = s.agenda)

/-! ## Traps (R119 to R132) -/

/-- A trap of a task in task mode that is not held, with a handler, sets the task aside and starts the handler: SUP 1, the PC at TVEC,
TCAUSE, TEPC, TCPC and TVAL written, both queues empty and no window open. A trap of a non-quiet task in task mode that is not the floor
task is held: the thread leaves its slot with the trap's registers kept for its delivery, and the slot is FREE. A trap with no handler
halts the slot with its trap registers written and puts a notice into the core's queue; a nested trap halts it with NEST set and the first
trap's registers kept, and in slot 0 stops the core's dispatch (R122 to R125, R134, R161). What a nested trap of slot 0 leaves in its
registers is the model's reading (log 12). -/
def Obligations.TrapsAreDeliveredHeldOrHalt : Prop :=
  (∀ (h : Chip) (p : At) (t : Thread) (r : Raised) (held : Bool),
     h.slot p = .live t → p.t ≠ 0 → t.sup = false → r.trap ≠ .ebreak → t.traps.vec ≠ 0 →
     (t.speculative = false ∨ h.floorStamp t.pid t.stamp = true) →
     ∃ u, (h.takeTrap p r held).slot p = .live u ∧ u.sup = true ∧ u.pc = t.traps.vec ∧
       u.traps.cause = BitVec.ofNat 11 (r.trap.code + (if r.saved.isSome then 0x100 else 0) + (if r.frame then 0x400 else 0)) ∧
       u.traps.epc = r.epc ∧ u.traps.cpc = r.cpc ∧ u.traps.val = r.tval ∧ u.traps.vec = t.traps.vec ∧
       u.ldq = [] ∧ u.sdq = [] ∧ u.pend = [] ∧ u.frame = none ∧
       (∃ x, u.suspended = some x ∧ x.ldq = t.ldq ∧ x.sdq = t.sdq ∧ x.frame = t.frame) ∧
       (∀ q, q ≠ p → (h.takeTrap p r held).slot q = h.slot q) ∧ (h.takeTrap p r held).hbm = h.hbm) ∧
  ((∀ (h : Chip) (p : At) (t : Thread) (r : Raised),
      h.slot p = .live t → p.t ≠ 0 → t.sup = false → r.trap ≠ .ebreak → t.speculative = true → h.floorStamp t.pid t.stamp = false →
      (h.takeTrap p r).slot p = .free ∧
      ∃ q ∈ ((h.takeTrap p r).cluster p.v).parked, q.thread.uid = t.uid ∧ q.thread.held = some (r.cause, r.epc, r.cpc, r.tval) ∧
        q.core = p.c ∧ q.regs = saveFile t (h.core p.v p.c).file) ∧
   (∀ (h : Chip) (p : At) (t : Thread) (r : Raised), h.slot p = .live t → r.trap ≠ .ebreak → (h.core p.v p.c).notices = [] →
      (p.t ≠ 0 → t.sup = false → t.traps.vec = 0 → t.speculative = false →
        (∃ u, (h.takeTrap p r).slot p = .halted u ∧ u.traps.epc = r.epc ∧ u.traps.cpc = r.cpc ∧ u.traps.val = r.tval ∧ u.pc = r.cpc) ∧
        ((h.takeTrap p r).core p.v p.c).notices = [notice p.t false false r.saved.isSome r.trap.code]) ∧
      (p.t ≠ 0 → t.sup = true →
        (∃ u, (h.takeTrap p r).slot p = .halted u ∧ u.traps = t.traps) ∧
        ((h.takeTrap p r).core p.v p.c).notices = [notice p.t true false r.saved.isSome r.trap.code]) ∧
      (p.t = 0 → (∃ u, (h.takeTrap p r).slot p = .halted u) ∧ ((h.takeTrap p r).core p.v p.c).stopped = true ∧
        ((h.takeTrap p r).core p.v p.c).notices = [notice 0 true false r.saved.isSome r.trap.code] ∧ 5 ∈ (h.takeTrap p r).msix)))

/-- TRAP raises ETRAP with its operand in TVAL, to resume behind itself; BKPT halts for the debug port where DEN is 1 and the partition
is not bounded, and otherwise does nothing. WAIT ends once an event of its mask stands (bit 0 a notice, 1 a queue entry, 2 an ENDED
slot, 3 a debug command), writing the events of the mask that stand; until then its turns pass; a mask of none of the four bits raises
EILL (R128, R131, R133). -/
def Obligations.TrapBreakpointAndWait : Prop :=
  ((∀ (a : BitVec 7) s y u z, Issues s (form (wordOf (.trap a)) [.src a]) y → y.passed.read a = .ok (u, z) →
     LeavesChip (.trap a) s ((s.chip.putHere s.place y).takeTrap s.place
       { trap := .etrap, tval := u, epc := y.th.pc, cpc := y.th.pc + 4, frame := y.th.frame.isSome })) ∧
   (∀ s y, Issues s (form (wordOf .bkpt)) y →
     ((s.chip.core s.place.v s.place.c).den = true → (s.chip.part (s.chip.pidAt s.place.v y.th)).bounded = false →
       LeavesChip .bkpt s ((s.chip.putHere s.place y).takeTrap s.place
         { trap := .ebreak, tval := 0, epc := y.th.pc, cpc := y.th.pc + 4, frame := y.th.frame.isSome })) ∧
     ((s.chip.core s.place.v s.place.c).den = false ∨ (s.chip.part (s.chip.pidAt s.place.v y.th)).bounded = true →
       LeavesThread .bkpt s y.passed))) ∧
  (∀ (d a : BitVec 7) s y u z, Issues s (form (wordOf (.wait d a)) [.dst d, .src a] true) y → y.passed.read a = .ok (u, z) →
     let e := s.chip.coreEvents s.place.v s.place.c &&& u.toNat
     (u ≠ 0 → u.toNat < 16 → e ≠ 0 → LeavesThread (.wait d a) s (z.write d (BitVec.ofNat 64 e))) ∧
     (u ≠ 0 → u.toNat < 16 → e = 0 → exec (.wait d a) s = .next s) ∧
     (u = 0 ∨ 16 ≤ u.toNat →
       LeavesChip (.wait d a) s ((s.chip.putHere s.place y).takeTrap s.place (raisedBy y.th .eill (tvalWord (wordOf (.wait d a)))))))

/-- ERET of a handler whose deferred operation, if any, has been replayed puts the suspended task back: SUP 0, the PC at TCPC, the queues,
windows and repeat frame as they were set aside; where no task is suspended it raises EILL. TREPLAY re-executes a handler's deferred
operation: once it has been performed g(d) takes 0 and the task its result; where it faults again g(d) takes the trap code and
TCAUSE.CODE and TVAL describe the fault; with nothing to replay it raises EILL (R129, R132). -/
def Obligations.ReturnsAndReplays : Prop :=
  (∀ s y, Issues s (form (wordOf .eret) [] true) y →
     (∀ u, y.th.suspended = some u → (y.th.traps.cause.getLsbD 8 = false ∨ y.th.traps.cause.getLsbD 9 = true) →
       LeavesThread .eret s { y with th := { y.passed.th with
         sup := false, pc := y.th.traps.cpc, ldq := u.ldq, sdq := u.sdq, pend := u.pend, frame := u.frame, suspended := none
         saved := none, counters := { y.th.counters with draw := u.draw } } }) ∧
     (y.th.suspended = none →
       LeavesChip .eret s ((s.chip.putHere s.place y).takeTrap s.place (raisedBy y.th .eill (tvalWord (wordOf .eret)))))) ∧
  (∀ (d : BitVec 7) s y, Issues s (form (wordOf (.treplay d)) [.dst d] true) y →
     let h := s.passed y
     let waits := y.th.suspended.isSome && y.th.saved.isSome && y.th.traps.cause.getLsbD 8 && !y.th.traps.cause.getLsbD 9
     (waits = true → ∀ g, h.replay s.place y.th = .done g → LeavesChip (.treplay d) s (g.writeDst s.place d 0)) ∧
     (waits = true → ∀ u q ldq n sg o, y.th.suspended = some u → y.th.saved = some (q, ldq) → accessOf q.op.word = some (.load n sg) →
       accessPlace s.chip.v s.place.v q.op.ea.toNat n = some (.here o) → (s.chip.cluster s.place.v).mode (o / 65536) = .scratch →
       replayFull u q ldq = false →
       LeavesThread (.treplay d) s ((y.passed.replayed u q ldq (loadValue n sg (s.scratchAt o n)) 0).write d 0)) ∧
     (waits = true → ∀ e v, h.replay s.place y.th = .again e v →
       LeavesThread (.treplay d) s (({ y.passed with th := { y.passed.th with rejected := [], traps := { y.passed.th.traps with
         cause := (y.passed.th.traps.cause &&& 0x700) ||| BitVec.ofNat 11 e.code, val := v } } } : Here).write d
           (BitVec.ofNat 64 e.code))) ∧
     (waits = false →
       LeavesChip (.treplay d) s ((s.chip.putHere s.place y).takeTrap s.place (raisedBy y.th .eill (tvalWord (wordOf (.treplay d)))))))

/-! ## System registers (R23 to R25, R130) -/

/-- MFS completes for every register that its index names: the thread's own by R24's table in task mode and supervisor mode alike, but
REGBASE and REGLIM in supervisor mode only; every other register of the device in supervisor mode, and in task mode where its access is R.
An index that names no register raises EILL, a supervisor register in task mode ESUPER, and so does a register of the package band in a
dispatcher supplied with the partition, with the word in TVAL (R24, R36, R130, R421). That FFLAGS is read once every earlier command of the
thread has given its flags is R211's; that a handler waits for them too is the model's choice (log 51). -/
def Obligations.MfsReadsRegisters : Prop :=
  ∀ (d : BitVec 7) (n : BitVec 14) s y, Issues s (form (wordOf (.mfs d n)) [.dst d]) y →
    let i : Instr := .mfs d n
    let gives := fun x : Word => LeavesThread i s (y.passed.write d x)
    let g : State := { s with chip := s.passed y }
    let r := n.toNat
    let word := tvalWord (wordOf i)
    (∀ e ∈ [(0x000, BitVec.ofNat 64 ((if y.th.sup then 1 else 0) + (if y.th.quiet then 2 else 0) + (if y.th.cores then 4 else 0) +
          (if y.th.away then 8 else 0) + 16 * y.th.ldq.length + 512 * y.th.sdq.length)), (0x001, y.th.frm.zeroExtend 64),
        (0x003, if y.th.sup then 0 else y.th.stamp), (0x004, y.th.fmtA), (0x005, y.th.fmtB), (0x006, y.th.fmtC),
        (0x007, y.th.grps.zeroExtend 64), (0x008, BitVec.ofNat 64 (256 * y.th.carryCount + y.th.carryBase)),
        (0x009, BitVec.ofNat 64 (65536 * y.th.homeC + y.th.homeV)), (0x010, y.th.traps.cause.zeroExtend 64),
        (0x011, y.th.traps.epc), (0x012, y.th.traps.cpc), (0x013, y.th.traps.val), (0x014, y.th.traps.vec)],
      r = e.1 → gives e.2) ∧
    (r = 0x002 → s.chip.flagsDue s.place.v y.th.uid = false → gives (y.th.fflags.zeroExtend 64)) ∧
    (r = 0x002 → s.chip.flagsDue s.place.v y.th.uid = true → Waits i s) ∧
    (r = 0x020 → y.th.sup = true → gives (BitVec.ofNat 64 y.th.regBase)) ∧
    (r = 0x021 → y.th.sup = true → gives (BitVec.ofNat 64 y.th.regLim)) ∧
    (r = 0x020 ∨ r = 0x021 → y.th.sup = false → Raises i s y .esuper word) ∧
    (deviceRegister r = true →
      (y.th.sup = true ∨ readOnly r = true → r < 0x400 ∨ s.chip.ownDispatcher s.place = false →
        ∃ x t, g.readReg s.place.v s.place.c r = some (x, t) ∧
          exec i s = .next { t with chip := (t.chip.writeDst s.place d x).endStep s.place }) ∧
      (y.th.sup = false → readOnly r = false → Raises i s y .esuper word) ∧
      (0x400 ≤ r → s.chip.ownDispatcher s.place = true → Raises i s y .esuper word)) ∧
    (deviceRegister r = false → threadRegister r = false → Illegal i s y)

/-- MTS completes for the thread register that its index names: FRM, FFLAGS and the carry window in both modes, the format shadows, the trap
registers and the allocation in supervisor mode; a value outside the field, or an index that cannot be written, raises EILL, a supervisor
register in task mode ESUPER. In supervisor mode it writes a device register as that register's own rule says, and raises EILL where that
refuses the value, where the index names no register, and where the register has access R alone; in task mode a writable register raises
ESUPER, and so does the package band in a dispatcher supplied with the partition (R24, R25, R130, R421). Which writes are refused where the
rules name none is the model's choice (log 23). -/
def Obligations.MtsWritesRegisters : Prop :=
  (∀ (d : BitVec 7) (n : BitVec 14) s y u z, Issues s (form (wordOf (.mts d n)) [.src d]) y → y.passed.read d = .ok (u, z) →
    let i : Instr := .mts d n
    let r := n.toNat
    let leaves := fun t => LeavesThread i s { z with th := t }
    let others := (s.holding z).othersFor s.place r u.toNat
    let field := fun (fits : Prop) (t : Thread) => (fits → leaves t) ∧ (¬ fits → Illegal i s y)
    (r = 0x001 → field (u.toNat ≤ 4) { z.th with frm := BitVec.ofNat 3 u.toNat }) ∧
    (r = 0x002 → s.chip.flagsDue s.place.v y.th.uid = false → field (u.toNat < 32) { z.th with fflags := BitVec.ofNat 5 u.toNat }) ∧
    (r = 0x002 → s.chip.flagsDue s.place.v y.th.uid = true → Waits i s) ∧
    (r = 0x000 ∨ r = 0x003 ∨ r = 0x007 ∨ r = 0x009 → Illegal i s y) ∧
    (y.th.sup = true →
      (r = 0x004 → field (u.toNat < 2 ^ 52) { z.th with fmtA := u }) ∧ (r = 0x005 → field (u.toNat < 2 ^ 52) { z.th with fmtB := u }) ∧
      (r = 0x006 → field (u.toNat < 2 ^ 52) { z.th with fmtC := u }) ∧
      (r = 0x010 → field (u.toNat < 2 ^ 11) { z.th with traps := { z.th.traps with cause := BitVec.ofNat 11 u.toNat } }) ∧
      (r = 0x011 → field (u.toNat % 4 = 0) { z.th with traps := { z.th.traps with epc := u } }) ∧
      (r = 0x012 → field (u.toNat % 4 = 0) { z.th with traps := { z.th.traps with cpc := u } }) ∧
      (r = 0x013 → leaves { z.th with traps := { z.th.traps with val := u } }) ∧
      (r = 0x014 → field (u.toNat % 4 = 0) { z.th with traps := { z.th.traps with vec := u } }) ∧
      (r = 0x020 → field (allocOk others u.toNat z.th.regLim = true ∧ (s.place.t = 0 → u = 0)) { z.th with regBase := u.toNat }) ∧
      (r = 0x021 → field (allocOk others z.th.regBase u.toNat = true ∧
        (s.holding z).pairLimit s.place { z.th with regLim := u.toNat } r u.toNat = true) { z.th with regLim := u.toNat })) ∧
    (∀ a k, r = 0x008 → u = BitVec.ofNat 64 (256 * k + a) → a < 128 → 0 < k → k ≤ 32 →
      (a + k ≤ z.th.regLim → leaves { z.th with carryCount := k, carryBase := a }) ∧
      (z.th.regLim < a + k → Raises i s y .ereg (BitVec.ofNat 64 (a + k - 1)))) ∧
    (r = 0x008 → (∀ a k, a < 128 → 0 < k → k ≤ 32 → u ≠ BitVec.ofNat 64 (256 * k + a)) → Illegal i s y) ∧
    (y.th.sup = false → (0x004 ≤ r ∧ r ≤ 0x006) ∨ (0x010 ≤ r ∧ r ≤ 0x014) ∨ r = 0x020 ∨ r = 0x021 →
      Raises i s y .esuper (tvalWord (wordOf i))) ∧
    (r < 0x100 → threadRegister r = false → Illegal i s y)) ∧
  (∀ (d : BitVec 7) (n : BitVec 14) s y u z, Issues s (form (wordOf (.mts d n)) [.src d]) y → y.passed.read d = .ok (u, z) →
    0x100 ≤ n.toNat →
    let i : Instr := .mts d n
    let r := n.toNat
    let t : State := { s with chip := s.holding z }
    (deviceRegister r = false → Illegal i s y) ∧
    (deviceRegister r = true → 0x400 ≤ r → s.chip.ownDispatcher s.place = true → Raises i s y .esuper (tvalWord (wordOf i))) ∧
    (deviceRegister r = true → r < 0x400 ∨ s.chip.ownDispatcher s.place = false → readOnly r = true → Illegal i s y) ∧
    (deviceRegister r = true → r < 0x400 ∨ s.chip.ownDispatcher s.place = false → readOnly r = false →
      (y.th.sup = false → Raises i s y .esuper (tvalWord (wordOf i))) ∧
      (y.th.sup = true →
        (∀ w, t.writeReg s.place.v s.place.c r u = some w → exec i s = .next { w with chip := w.chip.endStep s.place }) ∧
        (∀ m, plainMask r = some m → u &&& m = u → plainRange r u = true → ∃ k : Nat, (r ≠ 0x4C8 → k = s.chip.gateNum) ∧
          exec i s = .next { t with chip := ({ t.chip with regs := t.chip.regs.put r u, gateNum := k } : Chip).endStep s.place }) ∧
        (t.writeReg s.place.v s.place.c r u = none → Illegal i s y)))) ∧
  (∀ (d : BitVec 7) (n : BitVec 14) s t, s.chip.slot s.place = .live t → t.pend = [] → owned t d = true →
    let m := (s.chip.core s.place.v s.place.c).file
    let u := readGpr t.past m d.toNat
    let next := fun x : Thread => exec (.mts d n) s = .next { s with chip := (s.holding ⟨x, m⟩).endStep s.place }
    (n = 0x001 → u.toNat ≤ 4 → next { t.past with frm := BitVec.ofNat 3 u.toNat }) ∧
    (n = 0x002 → u.toNat < 32 → s.chip.flagsDue s.place.v t.uid = false → next { t.past with fflags := BitVec.ofNat 5 u.toNat }) ∧
    (∀ a k, n = 0x008 → u = BitVec.ofNat 64 (256 * k + a) → a < 128 → 0 < k → k ≤ 32 → a + k ≤ t.regLim →
      next { t.past with carryCount := k, carryBase := a }) ∧
    (t.sup = true →
      (n = 0x004 → u.toNat < 2 ^ 52 → next { t.past with fmtA := u }) ∧
      (n = 0x013 → next { t.past with traps := { t.past.traps with val := u } }) ∧
      (n = 0x014 → u.toNat % 4 = 0 → next { t.past with traps := { t.past.traps with vec := u } }) ∧
      (n = 0x141 → u.toNat < 16 → exec (.mts d n) s = .next { s with
        chip := ((s.holding ⟨t.past, m⟩).modCore s.place.v s.place.c fun k => { k with dsel := BitVec.ofNat 4 u.toNat }).endStep s.place }) ∧
      (∀ q, plainMask n.toNat = some q → n ≠ 0x4C8 → u &&& q = u → plainRange n.toNat u = true →
        s.chip.ownDispatcher s.place = false → exec (.mts d n) s = .next { s with chip :=
          ({ (s.holding ⟨t.past, m⟩) with regs := s.chip.regs.put n.toNat u } : Chip).endStep s.place })))

/-- What a write of a register leaves there, for the registers that hold what was written to them: the debug port's selection, the
handler store's index and the registers of the package band with no effect of their own; a bit outside the fields, or a value outside
a field's range, is refused (R25, R460). -/
def Obligations.RegisterWritesReadBack : Prop :=
  ∀ (s : State) (v c : Nat) (x : Word),
    (x.toNat < 16 → ∃ t, s.writeReg v c 0x141 x = some t ∧ t.readReg v c 0x141 = some (x, t)) ∧
    (x.toNat < 2 ^ 16 → ∃ t, s.writeReg v c 0x142 x = some t ∧ t.readReg v c 0x142 = some (x, t)) ∧
    (x.toNat < 2 → ∃ t, s.writeReg v c 0x146 x = some t ∧ t.readReg v c 0x146 = some (x, t)) ∧
    (x.toNat < 2 ^ 10 → ∃ t, s.writeReg v c 0x250 x = some t ∧ t.readReg v c 0x250 = some (x, t)) ∧
    (16 ≤ x.toNat → s.writeReg v c 0x141 x = none) ∧ (2 ^ 16 ≤ x.toNat → s.writeReg v c 0x142 x = none) ∧
    (∀ i m, plainMask i = some m → x &&& m = x → plainRange i x = true →
      ∃ t, s.writeReg v c i x = some t ∧ t.readReg v c i = some (x, t) ∧
        ∀ j, j ≠ i → t.chip.regs.get j = s.chip.regs.get j) ∧
    (∀ i m, plainMask i = some m → x &&& m ≠ x → s.writeReg v c i x = none) ∧
    (x.toNat < 1000 ∨ 5000000 < x.toNat → s.writeReg v c 0x462 x = none) ∧
    (x.toNat < 2000 ∨ 12000 < x.toNat → s.writeReg v c 0x4AA x = none)

/-! ## Banks, the cluster cache and home (R178 to R186, R196) -/

/-- BMODE in supervisor mode puts the banks its mask selects into a mode and fills them with zeros, writing 0; where one of them
holds live state it changes nothing and writes the mask of those; it raises EPERM for CAIRN and EILL for an empty mask, a mask or a
mode beyond its range (R180). -/
def Obligations.BankModesSwitch : Prop :=
  ∀ (d a b : BitVec 7) s y u w z, Issues s (form (wordOf (.bmode d a b)) [.dst d, .src a, .src b] true) y → Reads2 y a b u w z →
    let i : Instr := .bmode d a b
    let h := s.holding z
    let v := s.place.v
    (u = 0 ∨ 2 ^ 32 ≤ u.toNat ∨ 5 < w.toNat → Illegal i s y) ∧
    (u ≠ 0 → u.toNat < 2 ^ 32 → w.toNat ≤ 5 →
      ((w = 5 ∨ ∃ n < 32, u.getLsbD n = true ∧ (h.cluster v).mode n = .cairn) → Raises i s y .eperm u) ∧
      (w ≠ 5 → (∀ n < 32, u.getLsbD n = true → (h.cluster v).mode n ≠ .cairn) →
        ((∃ n < 32, u.getLsbD n = true ∧ h.bankLive v n = true) →
          ∃ m : Word, LeavesThread i s (z.write d m) ∧
            ∀ n < 64, m.getLsbD n = (decide (n < 32) && u.getLsbD n && h.bankLive v n)) ∧
        ((∀ n < 32, u.getLsbD n = true → h.bankLive v n = false ∧ h.bankInUse v n = false) →
          ∃ g, LeavesChip i s g ∧ g.here? s.place = some (z.write d 0) ∧
            (∀ n < 32, (g.cluster v).mode n = if u.getLsbD n then bankModeOf w.toNat else (h.cluster v).mode n) ∧
            (Memory.wf (h.cluster v).scratch = true → MemoryAfter s.chip g v fun j =>
              if u.getLsbD (j / 65536) then 0 else (h.cluster v).scratch.read j))))

/-- CFLUSH waits for the write-throughs of its thread; CINV drops the lines of its range from the cluster cache, and no other part of
the machine changes; HOME of a thread that is away takes it to the queue of its home core as a packet, and does nothing at home
(R185, R186, R194, R196). -/
def Obligations.CacheAndHome : Prop :=
  (∀ s y, Issues s (form (wordOf .cflush)) y →
    ((s.passed y).hasThroughs s.place.v y.th.uid = false → LeavesThread .cflush s y.passed) ∧
    ((s.passed y).hasThroughs s.place.v y.th.uid = true → Waits .cflush s)) ∧
  (∀ (a b : BitVec 7) s y u w z, Issues s (form (wordOf (.cinv a b)) [.src a, .src b]) y → Reads2 y a b u w z →
    let h := s.holding z
    let inside := 0 < w.toNat ∧ w.toNat ≤ 2 ^ 32 ∧ windowOf u.toNat = .global ∧ windowOf (u.toNat + w.toNat - 1) = .global
    (¬ inside → LeavesThread (.cinv a b) s z) ∧
    (inside → LeavesChip (.cinv a b) s (h.modCluster s.place.v fun k =>
      { k with cache := k.cache.filter fun c => !h.invalidates y.th.pid u.toNat w.toNat c.pa }))) ∧
  (∀ s y, Issues s (form (wordOf .home)) y →
    (y.th.away = false → LeavesThread .home s y.passed) ∧
    (y.th.away = true → (s.passed y).mayLeave s.place y.th = false → Waits .home s) ∧
    (y.th.away = true → (s.passed y).mayLeave s.place y.th = true →
      ∃ g f q, LeavesChip .home s g ∧ g.slot s.place = .free ∧ g.flights.get s.chip.nextSeq = some f ∧
        f.body = .migration y.th.homeV q ∧ q.thread = { y.th.past with stepOnce := false } ∧ q.core = y.th.homeC ∧ q.access = none ∧
        q.regs = carried y.th y.file))

/-! ## Repeat frames (R48 to R51) -/

/-- REP checks the words it captures and starts a frame at the first of them, replay 0; a word that a frame may not hold raises EREP with
the word in TVAL. Inside a frame the thread goes from position to position, from the last one to the next replay, and after the last replay
behind the captured words; replay i runs a three-register word with its fields raised by i times the strides, from the words as captured
(R48, R49, R51). That a word which cannot be fetched is a trap of REP is the model's reading (log 17). -/
def Obligations.RepeatFramesReplay : Prop :=
  (∀ (n : BitVec 6) (sd sa sb len : BitVec 4) s y,
    let i : Instr := .rep n sd sa sb len
    Issues s (form (wordOf i)) y →
    (∀ ws g, (s.passed y).capture y.th (wordOf i) (len.toNat + 1) (y.th.pc + 4) = .ok (ws, g) →
      LeavesChip i s (g.modThread s.place fun t => { t with frame := some ⟨wordOf i, y.th.pc, 0, 0, ws⟩ })) ∧
    (∀ ws : List Half, ws.length = len.toNat + 1 →
      (∀ j w, ws[j]? = some w →
        let a := y.th.pc + 4 + BitVec.ofNat 64 (4 * j)
        windowOf a.toNat = .global ∧ regionOf a.toNat ∉ y.th.rejected ∧ captureRefused (wordOf i) w = false ∧
          ∃ l, s.chip.translate y.th.pid a.toNat = some l ∧ l.attr = .readShared ∧ l.pub = none ∧
            w = BitVec.ofNat 32 (bytesToNat (s.chip.hbm.readBytes l.pa 4))) →
      LeavesChip i s ((s.passed y).modThread s.place fun t => { t with frame := some ⟨wordOf i, y.th.pc, 0, 0, ws⟩ })) ∧
    (∀ e v, (s.passed y).capture y.th (wordOf i) (len.toNat + 1) (y.th.pc + 4) = .error (.fault e v) → Raises i s y e v)) ∧
  (∀ (h : Chip) (t : Thread) (rep : Half) (a : Word) (w : Half) g, h.fetchAt t.who a = .ok (w, g) → captureRefused rep w = true →
    h.capture t rep 1 a = .error (.fault .erep (w.zeroExtend 64))) ∧
  (∀ (h : Chip) (t : Thread) (rep : Half) (a : Word) (w : Half) g, h.fetchAt t.who a = .ok (w, g) → captureRefused rep w = false →
    h.capture t rep 1 a = .ok ([w], g)) ∧
  (∀ (h : Chip) (t : Thread) (f : Frame) (w : Half), t.frame = some f → f.words[f.j]? = some w →
    h.fetchNext t = .ok (stagger f.word w f.i, h)) ∧
  (∀ (t : Thread) (f : Frame), t.frame = some f →
    (f.j + 1 < repLen f.word → t.past.frame = some { f with j := f.j + 1 } ∧ t.past.pc = f.at (f.j + 1)) ∧
    (f.j + 1 = repLen f.word → f.i + 1 < repCount f.word →
      t.past.frame = some { f with i := f.i + 1, j := 0 } ∧ t.past.pc = f.at 0) ∧
    (f.j + 1 = repLen f.word → f.i + 1 = repCount f.word →
      t.past.frame = none ∧ t.past.pc = f.base + 4 + BitVec.ofNat 64 (4 * repLen f.word))) ∧
  (∀ (rep w : Half) (i : Nat), major w ∈ [0x01, 0x1D, 0x1E] → captureRefused rep w = false → i < repCount rep →
    (fld (stagger rep w i) 19 7).toNat = (fld w 19 7).toNat + i * (fld rep 16 4).toNat ∧
    (fld (stagger rep w i) 12 7).toNat = (fld w 12 7).toNat + i * (fld rep 12 4).toNat ∧
    (fld (stagger rep w i) 5 7).toNat = (fld w 5 7).toNat + i * (fld rep 8 4).toNat ∧
    fld (stagger rep w i) 26 6 = fld w 26 6 ∧ fld (stagger rep w i) 0 5 = fld w 0 5)

/-- The registers of the device read after reset as their field maps say; slot 0 of every core is LIVE in supervisor mode with REGBASE 0
and REGLIM 32, every other slot is FREE, every bank is SCRATCH and holds zeros, no partition is active, and every memory is in canonical
form (R138, R139, R179). That REGBASE, the common values and the memories the rules give no contents stand at zero is the model's choice
(logs 4 and 6). -/
def Obligations.ResetState : Prop :=
  (∀ r ∈ [(0x100, 1), (0x101, 1), (0x102, 0), (0x103, 0), (0x144, 0), (0x145, 0), (0x146, 0), (0x147, 0), (0x200, 0), (0x201, 0),
       (0x202, 0), (0x203, 256), (0x210, 0), (0x220, 32 * 2 ^ 32 + 160), (0x230, 0), (0x238, 16 * 2 ^ 32 + 8 * 2 ^ 24),
       (0x240, 64), (0x250, 0), (0x400, 0), (0x401, 0), (0x420, 0), (0x428, 0), (0x429, 0), (0x42A, 0), (0x448, 0), (0x449, 0),
       (0x450, 0), (0x460, 32), (0x461, 0), (0x462, 1000000), (0x470, 0), (0x471, 1000), (0x472, 2 ^ 64 - 1), (0x473, 0), (0x474, 0),
       (0x476, 0), (0x477, 0), (0x478, 0), (0x4A0, 0), (0x4A4, 0), (0x4AA, 12000), (0x4AB, 0), (0x4C0, 0), (0x4C8, 1000)],
     (State.reset.readReg 0 0 r.1).map (·.1) = some (BitVec.ofNat 64 r.2)) ∧
  ((∀ v c, ∃ t, State.reset.chip.slot ⟨v, c, 0⟩ = .live t ∧ t.sup = true ∧ t.regBase = 0 ∧ t.regLim = 32) ∧
   (∀ v c t, t ≠ 0 → State.reset.chip.slot ⟨v, c, t⟩ = .free) ∧
   (∀ v b j, (State.reset.chip.cluster v).mode b = .scratch ∧ (State.reset.chip.cluster v).scratch.read j = 0) ∧
   (∀ p, (State.reset.chip.part p).active = false) ∧ State.reset.chip.Canonical)

/-! ## Tasks (R146 to R158, R409, R410) -/

/-- SPAWN of a task makes a task at the next number, its packet as R147 says and on its way to its core, writes the spawn index and
counts it; a bad control word raises EILL, a stamp not above the spawner's ESTAMP, an entry that is no word address EALIGN, and a
supervisor EILL (R146, R147). -/
def Obligations.SpawnMakesATask : Prop :=
  ∀ (d a b : BitVec 7) s y u v c z, Issues s (form (wordOf (.spawn d a b)) [.both d, .src a, .src b]) y →
    let i : Instr := .spawn d a b
    let n := bits c 11 5
    let base := bits c 4 7
    let shape := bits c 20 44 = 0 ∧ bits c 3 1 = 0 ∧ bits c 16 4 ≠ 0 ∧ n ≤ 16 ∧ 3 + n ≤ 8 * bits c 16 4
    let owned := n = 0 ∨ base + n ≤ y.th.regLim
    (y.th.sup = true → Illegal i s y) ∧
    (y.th.sup = false → Reads3 y a b d u v c z →
      (¬ shape → Illegal i s y) ∧
      (shape → ¬ owned → Raises i s y .ereg (BitVec.ofNat 64 (base + n - 1))) ∧
      (shape → owned → v.toNat ≤ y.th.stamp.toNat → Raises i s y .estamp v) ∧
      (shape → owned → y.th.stamp.toNat < v.toNat → u.toNat % 4 ≠ 0 → Raises i s y .ealign u) ∧
      (shape → owned → y.th.stamp.toNat < v.toNat → u.toNat % 4 = 0 →
        ∃ g k f, LeavesChip i s g ∧
          g.here? s.place = some (Here.write { z with th := { z.th with
            counters := { z.th.counters with spawn := z.th.counters.spawn + 1 } } } d (BitVec.ofNat 64 y.th.counters.spawn)) ∧
          g.tasks.get s.chip.nextUid = some k ∧ g.nextUid = s.chip.nextUid + 1 ∧ k.pid = y.th.pid ∧ k.stage = .queued ∧
          k.packet = {
            origin := .spawn, pc := u, stamp := v, regn := bits c 16 4
            args := (List.range n).map fun j => readGpr y.th z.file (base + j)
            fmtA := y.th.fmtA, fmtB := y.th.fmtB, fmtC := y.th.fmtC, grps := y.th.grps, quiet := y.th.quiet, cores := y.th.cores
            tvec := y.th.traps.vec, priority := y.th.priority, homeV := y.th.homeV, homeC := bits c 0 3 } ∧
          g.flights.get s.chip.nextSeq = some f ∧ f.body = .task y.th.homeV (bits c 0 3) s.chip.nextUid))

/-- TAKE and REAP of slot 0 (R148, R150): TAKE starts the head of its core's queue in a slot and reports kind and slot, REAP frees the
lowest ENDED slot and reports it with its flags; where there is none an operand of 1 writes 0 and 0 waits; any other operand, or another
slot, raises EILL. A started packet's thread is LIVE in its slot as its packet says, its arguments from g3 up and its other registers
zero (R26). -/
def Obligations.TakeAndReap : Prop :=
  (∀ (d a : BitVec 7) s y u z, y.passed.read a = .ok (u, z) →
    let h := s.holding z
    let v := s.place.v
    let c := s.place.c
    (Issues s (form (wordOf (.take d a)) [.dst d, .src a] true) y →
      let h' := match h.floorBuffer v c with
        | some w => h.abort w
        | none => h
      (s.place.t ≠ 0 ∨ 1 < u.toNat → Illegal (.take d a) s y) ∧
      (s.place.t = 0 → u.toNat ≤ 1 →
        (∀ g kind slot, h'.takeHead v c = some (g, kind, slot) →
          LeavesChip (.take d a) s (g.writeDst s.place d (BitVec.ofNat 64 (2 ^ 63 + kind * 16 + slot)))) ∧
        (h'.takeHead v c = none → u = 1 → LeavesChip (.take d a) s (h'.writeDst s.place d 0)) ∧
        (h'.takeHead v c = none → u = 0 → Waits (.take d a) s))) ∧
    (Issues s (form (wordOf (.reap d a)) [.dst d, .src a] true) y →
      (s.place.t ≠ 0 ∨ 1 < u.toNat → Illegal (.reap d a) s y) ∧
      (s.place.t = 0 → u.toNat ≤ 1 →
        (∀ t b l r ab, t < 16 → h.slot ⟨v, c, t⟩ = .ended b l r ab → (∀ q < t, ∀ b l r ab, h.slot ⟨v, c, q⟩ ≠ .ended b l r ab) →
          LeavesChip (.reap d a) s ((h.setSlot ⟨v, c, t⟩ .free).writeDst s.place d
            (BitVec.ofNat 64 (2 ^ 63 + (if r then 32 else 0) + (if ab then 16 else 0) + t)))) ∧
        ((∀ q < 16, ∀ b l r ab, h.slot ⟨v, c, q⟩ ≠ .ended b l r ab) →
          (u = 1 → LeavesThread (.reap d a) s (z.write d 0)) ∧ (u = 0 → Waits (.reap d a) s))))) ∧
  (∀ (h : Chip) (v c : Nat) k slot base t, h.startable v c = some (k, slot, (base, none)) → k.entry.arrival = false →
    h.task? k.entry.uid = some t → t.packet.message = none →
    ∃ g u, h.takeHead v c = some (g, t.packet.origin.kind, slot) ∧ g.slot ⟨v, c, slot⟩ = .live u ∧ u.uid = k.entry.uid ∧
      u.pc = t.packet.pc ∧ u.stamp = t.packet.stamp ∧ u.regBase = base ∧ u.regLim = 8 * t.packet.regn ∧ u.sup = false ∧
      u.quiet = t.packet.quiet ∧ u.grps = t.packet.grps ∧ u.traps = { vec := t.packet.tvec } ∧ u.fflags = 0 ∧ u.frm = 0 ∧
      (∀ r < 8 * t.packet.regn, readGpr u (g.core v c).file r = if 3 ≤ r then t.packet.args.getD (r - 3) 0 else 0) ∧
      (∀ q, q ≠ slot → g.slot ⟨v, c, q⟩ = h.slot ⟨v, c, q⟩))

/-- TEND and TABORT of a task with nothing outstanding end its thread: the slot is ENDED, with ABORTED for TABORT; a quiet task is over,
and a non-quiet one that ended by TEND stays until it commits; in slot 0 they raise EILL. YIELD of a task that no queued packet waits for
does nothing, and otherwise parks its thread with a new queue entry (R151 to R155). That slot 0 raises EILL for them, and a handler of a
task does not, is the model's reading (log 15). -/
def Obligations.TasksEndAndYield : Prop :=
  (∀ s y, Issues s (form (wordOf .tend)) y →
    (y.th.sup = true → y.th.suspended = none → Illegal .tend s y) ∧
    ((y.th.sup = true → y.th.suspended.isSome) →
      ((s.passed y).endHeld s.place y.th = true → Waits .tend s) ∧
      ((s.passed y).endHeld s.place y.th = false →
        (∀ q, y.th.endFault = some q →
          LeavesChip .tend s ((s.holding y).takeTrap s.place (reportOf y.th q false))) ∧
        (y.th.endFault = none → (s.passed y).linkedShadows y.th = [] →
          ∃ g, LeavesChip .tend s g ∧ g.slot s.place = .ended y.th.regBase y.th.regLim false false ∧
            (y.th.quiet = true → s.chip.openCmds y.th.uid = 0 → g.task? y.th.uid = none) ∧
            (y.th.quiet = false →
              g.task? y.th.uid = (s.chip.task? y.th.uid).map (fun k => { k with stage := .ended }) ∧
              ((s.passed y).hasThroughs s.place.v y.th.uid = false →
                MemoryAfter s.chip g s.place.v (s.chip.cluster s.place.v).scratch.read)))))) ∧
  (∀ (a : BitVec 7) s, tabortWaits a s = true → Waits (.tabort a) s) ∧
  (∀ (a : BitVec 7) s y u z, tabortWaits a s = false → Issues (discardFaults a s) (form (wordOf (.tabort a)) [.src a]) y →
    y.passed.read a = .ok (u, z) →
    let s' := discardFaults a s
    (y.th.sup = true → y.th.suspended = none → exec (.tabort a) s = .next { s with chip :=
      ((s'.holding y).takeTrap s.place (raisedBy y.th .eill (tvalWord (wordOf (.tabort a))))).endStep s.place }) ∧
    ((y.th.sup = true → y.th.suspended.isSome) → (s'.holding z).endHeld s.place y.th = false → y.th.endFault = none →
      ∃ g, exec (.tabort a) s = .next { s with chip := g } ∧ g.slot s.place = .ended y.th.regBase y.th.regLim false true ∧
        (y.th.quiet = true → s.chip.openCmds y.th.uid = 0 → g.task? y.th.uid = none))) ∧
  (∀ s y, Issues s (form (wordOf .yield)) y →
    let h := s.passed y
    let leaves := s.place.t ≠ 0 ∧ h.headWantsSlot s.place.v s.place.c = true ∧ (y.th.quiet && h.bound y.th) = false
    (¬ leaves → LeavesThread .yield s y.passed) ∧
    (leaves → LeavesChip .yield s ((h.modThread s.place fun t => { t with stepOnce := false }).park s.place true)))

/-- MFC writes the value a common register had when the rotation began, MTC waits for the rotation boundary, both raise EILL from
number 16 up; SELF, GRADE and TOPO write the words of R156, R409 and R410, TOPO raising EILL above 11 bits and EWINDOW for a VCN of V
or more. -/
def Obligations.CommonRegistersAndQueries : Prop :=
  (∀ (d n : BitVec 7) s y, Issues s (form (wordOf (.mfc d n)) [.dst d]) y →
    (n.toNat < 16 → LeavesThread (.mfc d n) s
      (y.passed.write d ((s.chip.core s.place.v s.place.c).common.getOr n.toNat 0))) ∧
    (16 ≤ n.toNat → Illegal (.mfc d n) s y)) ∧
  (∀ (a n : BitVec 7) s y u z, Issues s (form (wordOf (.mtc a n)) [.src a]) y → y.passed.read a = .ok (u, z) →
    (n.toNat < 16 → LeavesChip (.mtc a n) s ((s.holding z).modCore s.place.v s.place.c fun k =>
      { k with pendingCommon := k.pendingCommon ++ [(n.toNat, s.place.t, u)] })) ∧
    (16 ≤ n.toNat → Illegal (.mtc a n) s y)) ∧
  (∀ (d : BitVec 7) s y, Issues s (form (wordOf (.self d)) [.dst d]) y →
    (y.th.sup = true → LeavesThread (.self d) s (y.passed.write d (BitVec.ofNat 64 (8 * s.place.v + s.place.c)))) ∧
    (y.th.sup = false → LeavesThread (.self d) s (y.passed.write d (BitVec.ofNat 64
      (2 ^ 19 * (if (s.chip.part y.th.pid).bounded then 1 else 0) + 2 ^ 18 * (if y.th.quiet then 1 else 0) +
        8 * y.th.homeV + y.th.homeC))))) ∧
  (∀ (d : BitVec 7) s y, Issues s (form (wordOf (.grade d)) [.dst d]) y →
    (y.th.sup = true → ∃ w : Word, LeavesThread (.grade d) s (y.passed.write d w) ∧ bits w 0 12 = s.chip.v % 2 ^ 12 ∧ bits w 12 8 = 64 ∧
      bits w 20 8 = (s.chip.v + 63) / 64 % 256 ∧ bits w 28 8 = (if s.chip.gradeB then 0x18 else 0x19) ∧
      bits w 56 1 = (if s.chip.reduced then 1 else 0) ∧ bits w 57 7 = 0) ∧
    (y.th.sup = false → LeavesThread (.grade d) s (y.passed.write d (s.chip.part y.th.pid).grade))) ∧
  (∀ (d a : BitVec 7) s y u z, Issues s (form (wordOf (.topo d a)) [.dst d, .src a]) y → y.passed.read a = .ok (u, z) →
    let V := if y.th.sup then s.chip.v else bits (s.chip.part y.th.pid).grade 0 12
    (2 ^ 11 ≤ u.toNat → Illegal (.topo d a) s y) ∧
    (u.toNat < 2 ^ 11 → V ≤ u.toNat → Raises (.topo d a) s y .ewindow u) ∧
    (u.toNat < 2 ^ 11 → u.toNat < V → LeavesThread (.topo d a) s (z.write d (topoWord V u.toNat)))) ∧
  topoWord 1800 1799 = 0x04807D8FC1B80707#64

/-! ## Lanes, vector commands and mailboxes (R198 to R229, R282 to R297) -/

/-- The first CLAIM of a cluster is granted what it asks for, with a context; a CLAIM or RENEG of the only claim, once its commands
have completed, sets its grant anew; RENEG of 0 waits for the commands and changes nothing; VREL gives the claim up; without a claim
VREL and RENEG raise ELANE, and a number of lanes that is no multiple of 8 from 8 to 64 raises EILL (R199 to R203). -/
def Obligations.ClaimsOfLanes : Prop :=
  (∀ (a : BitVec 7) s y u z, Issues s (form (wordOf (.claim a)) [.src a]) y → y.passed.read a = .ok (u, z) →
    let k := s.chip.cluster s.place.v
    let good := u.toNat % 8 = 0 ∧ 8 ≤ u.toNat ∧ u.toNat ≤ 64
    (¬ good → Illegal (.claim a) s y) ∧
    (good → k.claims = [] →
      ∃ g n, LeavesChip (.claim a) s g ∧ g.here? s.place = some { z with th := { z.th with wait := .none } } ∧
        (g.cluster s.place.v).claims = [{ uid := y.th.uid, request := u.toNat, grant := u.toNat, seq := n
                                          second := if k.screen then some [] else none }]) ∧
    (good → ∀ c, Holds s y c → c.queue ≠ [] → Waits (.claim a) s) ∧
    (good → ∀ c, k.claims = [c] → c.uid = y.th.uid → c.waiting = false → c.queue = [] →
      ∃ g, LeavesChip (.claim a) s g ∧ g.here? s.place = some z ∧
        (g.cluster s.place.v).claims = [{ c with request := u.toNat, grant := u.toNat, resident := true, awaits := false }])) ∧
  (∀ s y, Issues s (form (wordOf .vrel)) y →
    ((s.chip.cluster s.place.v).claimOf y.th.uid = none → Raises .vrel s y .elane 0) ∧
    (∀ c, Holds s y c → c.queue ≠ [] → Waits .vrel s) ∧
    (∀ c, Holds s y c → c.queue = [] →
      ∃ g, LeavesChip .vrel s g ∧ g.here? s.place = some y.passed ∧ (g.cluster s.place.v).claimOf y.th.uid = none)) ∧
  (∀ (a : BitVec 7) s y u z, Issues s (form (wordOf (.reneg a)) [.src a]) y → y.passed.read a = .ok (u, z) →
    (u = 0 → (s.chip.cluster s.place.v).claimOf y.th.uid = none → Raises (.reneg a) s y .elane 0) ∧
    (u = 0 → ∀ c, Holds s y c → c.queue = [] → LeavesThread (.reneg a) s z) ∧
    (u = 0 → ∀ c, Holds s y c → c.queue ≠ [] → Waits (.reneg a) s) ∧
    (u ≠ 0 → ¬ (u.toNat % 8 = 0 ∧ 8 ≤ u.toNat ∧ u.toNat ≤ 64) → Illegal (.reneg a) s y) ∧
    (u.toNat % 8 = 0 → 8 ≤ u.toNat → u.toNat ≤ 64 → (s.chip.cluster s.place.v).claimOf y.th.uid = none →
      Raises (.reneg a) s y .elane 0) ∧
    (u.toNat % 8 = 0 → 8 ≤ u.toNat → u.toNat ≤ 64 →
      ∀ c, (s.chip.cluster s.place.v).claims = [c] → c.uid = y.th.uid → c.waiting = false → c.queue = [] →
        ∃ g, LeavesChip (.reneg a) s g ∧ g.here? s.place = some z ∧
          (g.cluster s.place.v).claims = [{ c with request := u.toNat, grant := u.toNat, resident := true, awaits := false }]))

/-- Every command of the vector pool issues into its context's queue with the operands it reads at issue (R207, R213, R217, R227,
R285 to R291, R296, R297). -/
def Obligations.VectorCommandsIssue : Prop :=
  (∀ vd va vb gp : BitVec 5,
    (∀ i ∈ [Instr.vaddS vd va vb gp, .vsubS vd va vb gp, .vmulS vd va vb gp, .vfmaS vd va vb gp, .vfmsS vd va vb gp,
        .vminS vd va vb gp, .vmaxS vd va vb gp, .vabsS vd va gp, .vnegS vd va gp, .vrcpS vd va gp, .vrsqS vd va gp,
        .vexp2S vd va gp, .vlog2S vd va gp, .viadd vd va vb gp, .visub vd va vb gp, .vimul vd va vb gp, .vand vd va vb gp,
        .vor vd va vb gp, .vxor vd va vb gp, .vshl vd va vb gp, .vshr vd va vb gp, .vsra vd va vb gp, .vperm vd va vb gp,
        .vsel vd va vb gp, .vbcast vd gp, .vcomp vd va gp, .vsprs vd va gp, .vcvtSBf16 vd va gp, .vcvtSH vd va gp,
        .vcvtSE4m3 vd va gp, .vcvtSE5m2 vd va gp, .vcvtSF4b vd va gp], VectorCommand i gp (fun _ => False) 0 false) ∧
    (∀ i ∈ [Instr.vcvtBf16S vd va gp, .vcvtHS vd va gp, .vcvtE4m3S vd va gp, .vcvtE5m2S vd va gp, .vcvtF4bS vd va gp],
      VectorCommand i gp (fun _ => False) 64 false) ∧
    VectorCommand (.vslide vd va vb gp) gp (fun x => 64 < x.toInt ∨ x.toInt < -64) 0 false ∧
    VectorCommand (.vibadd vd va vb gp) gp (fun _ => False) 0 true ∧
    VectorCommand (.vibsub vd va vb gp) gp (fun _ => False) 0 true ∧
    VectorCommand (.vembed vd va gp) gp
      (fun x => bits x 0 8 = 0 ∨ 8 < bits x 0 8 ∨ 7 < bits x 8 8 ∨ bits x 16 48 ≠ 0) 0 true ∧
    VectorCommand (.vschur vd va gp) gp (fun x => vgRefuses 3 x = true) 0 true ∧
    VectorCommand (.vdamp vd va vb gp) gp (fun x => bits x 4 60 ≠ 0) 0 true ∧
    VectorCommand (.vsolve vd va gp) gp (fun x => vgRefuses 5 x = true) 0 true ∧
    VectorMemory (.vld vd gp) gp True ∧ VectorMemory (.vst vd gp) gp True ∧ VectorMemory (.vlds vd vb gp) gp False ∧
    VectorMemory (.vsts vd vb gp) gp False ∧ VectorMemory (.vgath vd vb gp) gp False ∧ VectorMemory (.vscat vd vb gp) gp False) ∧
  (∀ (d : BitVec 7) (va vb : BitVec 5) (ahead : BitVec 4),
    ∀ i ∈ [Instr.vcmpeqS d va vb ahead, .vcmpneS d va vb ahead, .vcmpltS d va vb ahead, .vcmpleS d va vb ahead,
      .vcmpeqI d va vb ahead, .vcmpneI d va vb ahead, .vcmpltI d va vb ahead, .vcmpleI d va vb ahead, .vrsum d va ahead,
      .vrmax d va ahead, .vrmin d va ahead, .vmovs d va ahead, .vibres d va vb ahead], VectorScalar i d ahead) ∧
  (∀ (d a : BitVec 7) (v : BitVec 5),
    MailboxCommand (.mbld v a) [.src a] a (.vector, .none) ∧
    MailboxCommand (.mbupd d a v) [.vsDst d, .src a] a (.window 0, .reg d))

/-- What a command computes in each element, a scalar result's bits, and its end: the context takes the elements, the queue loses the
command, and the thread takes the flags or, for a scalar, the result that it consumes later; the copies of a screened pair must agree, and
where their flags differ the pair has a mismatch and the command stays (R172, R175, R208, R210, R214, R216, R220, R221, R224, R225, R226,
R292). An integer command of a thread alone completes whatever its operands. What VRCP.S, VRSQ.S, VEXP2.S and VLOG2.S give is not among
them. -/
def Obligations.VectorCommandsCompute : Prop :=
  (∀ vd va vb gp : BitVec 5,
    let fp := fun (i : Instr) (f : Rnd → Nat → Nat → Nat → Nat) =>
      Elementwise i vd va vb fun r x y z => BitVec.ofNat 32 (f r x.toNat y.toNat z.toNat)
    fp (.vaddS vd va vb gp) (fun r x y _ => (fp32.add r false x y).1) ∧
    fp (.vsubS vd va vb gp) (fun r x y _ => (fp32.add r true x y).1) ∧
    fp (.vmulS vd va vb gp) (fun r x y _ => (fp32.mul r x y).1) ∧
    fp (.vfmaS vd va vb gp) (fun r x y z => (fp32.fma r false false x y z).1) ∧
    fp (.vfmsS vd va vb gp) (fun r x y z => (fp32.fma r false true x y z).1) ∧
    fp (.vminS vd va vb gp) (fun _ x y _ => (fp32.minMax false x y).1) ∧
    fp (.vmaxS vd va vb gp) (fun _ x y _ => (fp32.minMax true x y).1) ∧
    Elementwise (.viadd vd va vb gp) vd va vb (fun _ x y _ => x + y) ∧
    Elementwise (.visub vd va vb gp) vd va vb (fun _ x y _ => x - y) ∧
    Elementwise (.vimul vd va vb gp) vd va vb (fun _ x y _ => x * y) ∧
    Elementwise (.vand vd va vb gp) vd va vb (fun _ x y _ => x &&& y) ∧
    Elementwise (.vor vd va vb gp) vd va vb (fun _ x y _ => x ||| y) ∧
    Elementwise (.vxor vd va vb gp) vd va vb (fun _ x y _ => x ^^^ y) ∧
    Elementwise (.vshl vd va vb gp) vd va vb (fun _ x y _ => x <<< (y.toNat % 32)) ∧
    Elementwise (.vshr vd va vb gp) vd va vb (fun _ x y _ => x >>> (y.toNat % 32)) ∧
    Elementwise (.vsra vd va vb gp) vd va vb (fun _ x y _ => x.sshiftRight (y.toNat % 32)) ∧
    (∀ (h : Chip) t v regs q, q.op.word = wordOf (.vperm vd va vb gp) → ∃ r, h.vectorRun t v regs q = .ok (r, h) ∧
      ∀ e < 64, vget r.regs vd.toNat e =
        if q.mask.getLsbD e then vget regs va.toNat ((vget regs vb.toNat e).toNat % 64) else vget regs vd.toNat e) ∧
    (∀ (h : Chip) t v regs q, q.op.word = wordOf (.vsel vd va vb gp) → ∃ r, h.vectorRun t v regs q = .ok (r, h) ∧
      ∀ e < 64, vget r.regs vd.toNat e = if q.mask.getLsbD e then vget regs va.toNat e else vget regs vb.toNat e) ∧
    (∀ (h : Chip) t v regs q, q.op.word = wordOf (.vbcast vd gp) → ∃ r, h.vectorRun t v regs q = .ok (r, h) ∧
      ∀ e < 64, vget r.regs vd.toNat e = if q.mask.getLsbD e then q.scalar.truncate 32 else vget regs vd.toNat e) ∧
    (∀ (h : Chip) t v regs q, q.op.word = wordOf (.vslide vd va vb gp) → -64 ≤ q.scalar.toInt → q.scalar.toInt ≤ 64 →
      ∃ r, h.vectorRun t v regs q = .ok (r, h) ∧ ∀ e : Nat, e < 64 →
        let j := (e : Int) + q.scalar.toInt
        vget r.regs vd.toNat e = if q.mask.getLsbD e = false then vget regs vd.toNat e
          else if j < 0 then vget regs vb.toNat (j + 64).toNat
          else if j < 64 then vget regs va.toNat j.toNat else vget regs vb.toNat (j - 64).toNat) ∧
    (∀ (h : Chip) t v regs q, q.op.word = wordOf (.vcomp vd va gp) → ∃ r, h.vectorRun t v regs q = .ok (r, h) ∧
      ∀ e < 64, vget r.regs vd.toNat e = match ((List.range 64).filter fun n => q.mask.getLsbD n)[e]? with
        | some n => vget regs va.toNat n
        | none => vget regs vd.toNat e) ∧
    (∀ (h : Chip) t v regs q, q.op.word = wordOf (.vsprs vd va gp) → ∃ r, h.vectorRun t v regs q = .ok (r, h) ∧ ∀ e < 64,
      let x := fun i => vget regs va.toNat i
      let before := fun j => ranksBefore (x (e / 4 * 4 + j)) (x e) (e / 4 * 4 + j) e
      (q.mask.getLsbD e = false → vget r.regs vd.toNat e = vget regs vd.toNat e) ∧
      (q.mask.getLsbD e = true → (∃ i < 4, ∃ j < 4, i ≠ j ∧ before i ∧ before j) → vget r.regs vd.toNat e = 0) ∧
      (q.mask.getLsbD e = true → (¬ ∃ i < 4, ∃ j < 4, i ≠ j ∧ before i ∧ before j) → vget r.regs vd.toNat e = x e))) ∧
  (∀ (d : BitVec 7) (va vb : BitVec 5) (ahead : BitVec 4) (h : Chip) t v regs q,
    let x := fun e => vget regs va.toNat e
    let gives := fun (i : Instr) (p : Word → BitVec 5 → Prop) => q.op.word = wordOf i →
      ∃ r, h.vectorRun t v regs q = .ok (r, h) ∧ r.regs = regs ∧ p r.value r.flags
    let anySignals := ∃ e < 64, (fp32.decode (x e).toNat).isSnan = true
    gives (.vrsum d va ahead) (fun w f =>
      let sum := ((List.range 64).map fun e => ratOf (x e)).sum
      ((∃ e < 64, nanPattern (x e)) → w = 0x7FC00000 ∧ f = flNV) ∧
      ((∀ e < 64, finitePat (x e)) → sum ≠ 0 → ∃ neg m k, (Num.fin neg m k).rat = sum ∧
        w = BitVec.ofNat 64 (fp32.round .rne (.fin neg m k)).1 ∧ f = (fp32.round .rne (.fin neg m k)).2) ∧
      ((∀ e < 64, x e = 0x80000000#32) → f = 0 ∧ w = 0x80000000) ∧
      ((∀ e < 64, finitePat (x e)) → sum = 0 → (∃ e < 64, x e ≠ 0x80000000#32) → f = 0 ∧ w = 0) ∧
      ((∃ e < 64, x e = 0x7F800000#32) → (∃ e < 64, x e = 0xFF800000#32) → w = 0x7FC00000 ∧ f = flNV) ∧
      ((∀ e < 64, ¬ nanPattern (x e)) → (∃ e < 64, x e = 0x7F800000#32) → (∀ e < 64, x e ≠ 0xFF800000#32) →
        w = 0x7F800000 ∧ f = 0)) ∧
    (∀ i max, (i, max) ∈ [(Instr.vrmax d va ahead, true), (.vrmin d va ahead, false)] → gives i fun w f =>
      ((∀ e < 64, nanPattern (x e)) → w = 0x7FC00000) ∧ ((∃ e < 64, ¬ nanPattern (x e)) → isExtreme max x (w.truncate 32) ∧ w.toNat < 2 ^ 32) ∧
      (anySignals → f = flNV) ∧ (¬ anySignals → f = 0)) ∧
    (q.op.word = wordOf (.vibres d va vb ahead) →
      let a := vreg regs va.toNat
      let b := vreg regs vb.toNat
      let y := fun e => vget regs vb.toNat e
      let es := ibLayout (ibDim a)
      let good := ibOk a = true ∧ ibOk b = true ∧ ibDim a = ibDim b
      (¬ good → ∃ n, h.vectorRun t v regs q = .error (.fault .edim n)) ∧
      (good → ∃ r, h.vectorRun t v regs q = .ok (r, h) ∧ r.regs = regs ∧
        ((∀ e ∈ es, x e = y e) → r.value = 0 ∧ r.flags = 0) ∧
        ((∃ e ∈ es, x e ≠ y e ∧ (nanPattern (x e) ∨ nanPattern (y e))) → r.value = 0x7FC00000) ∧
        ((∀ e ∈ es, x e = y e ∨ (finitePat (x e) ∧ finitePat (y e))) → ∃ m k,
          let top := (Num.fin false m k).rat
          (∀ e ∈ es, x e ≠ y e → |ratOf (x e) - ratOf (y e)| ≤ top) ∧
          (top = 0 ∨ ∃ e ∈ es, x e ≠ y e ∧ top = |ratOf (x e) - ratOf (y e)|) ∧
          r.value = BitVec.ofNat 64 (fp32.round .rne (.fin false m k)).1 ∧ r.flags = (fp32.round .rne (.fin false m k)).2)))) ∧
  (∀ (d : BitVec 7) (va vb : BitVec 5) (ahead : BitVec 4) (h : Chip) t v regs q,
    let compares := fun (i : Instr) (f : Half → Half → Bool) => q.op.word = wordOf i →
      ∃ r, h.vectorRun t v regs q = .ok (r, h) ∧ r.regs = regs ∧
        ∀ e < 64, r.value.getLsbD e = f (vget regs va.toNat e) (vget regs vb.toNat e)
    compares (.vcmpeqS d va vb ahead) (fun x y => (fp32.eq x.toNat y.toNat).1) ∧
    compares (.vcmpneS d va vb ahead) (fun x y => !(fp32.eq x.toNat y.toNat).1) ∧
    compares (.vcmpltS d va vb ahead) (fun x y => (fp32.lt x.toNat y.toNat).1) ∧
    compares (.vcmpleS d va vb ahead) (fun x y => (fp32.le x.toNat y.toNat).1) ∧
    compares (.vcmpeqI d va vb ahead) (fun x y => decide (x = y)) ∧
    compares (.vcmpneI d va vb ahead) (fun x y => decide (x ≠ y)) ∧
    compares (.vcmpltI d va vb ahead) (fun x y => decide (x.toInt < y.toInt)) ∧
    compares (.vcmpleI d va vb ahead) (fun x y => decide (x.toInt ≤ y.toInt)) ∧
    (q.op.word = wordOf (.vmovs d va ahead) → ∃ r, h.vectorRun t v regs q = .ok (r, h) ∧ r.regs = regs ∧
      r.value = vget regs va.toNat 1 ++ vget regs va.toNat 0)) ∧
  (∀ s v tid p t c q qs d, s.chip.running v = true → s.chip.limited v = false → s.chip.placeOf tid = some p →
    s.chip.listed p (.live t) → (s.chip.cluster v).claimOf tid = some c → c.queue = q :: qs → c.resident = true → c.grant ≠ 0 →
    (∀ x ∈ (s.chip.cluster v).parked, x.thread.uid ≠ tid) → s.chip.runCommand t v c.v q = .ok (d, s.chip) →
    s.chip.copyAgrees t v c q (.ok (d, s.chip)) = true →
    ∃ g, exec (.vectorCommandComplete v tid) s = .next { s with chip := g } ∧
      (g.cluster v).claimOf tid = some { c with v := d.regs, second := s.chip.secondAfter t v c q, queue := qs } ∧
      g.slot p = .live (if givesScalar q.op.word then t.arrive q.op.seq (.value d.value d.flags)
        else { t.settle q.op.seq with fflags := t.fflags ||| d.flags })) ∧
  (∀ s v tid p t c q qs (vd va vb gp : BitVec 5),
    s.chip.running v = true → s.chip.limited v = false → s.chip.placeOf tid = some p →
    s.chip.listed p (.live t) → (s.chip.cluster v).claimOf tid = some c → c.queue = q :: qs → c.resident = true → c.grant ≠ 0 →
    (∀ x ∈ (s.chip.cluster v).parked, x.thread.uid ≠ tid) → c.second = none →
    ∀ k ∈ [(Instr.viadd vd va vb gp, fun x y : Half => x + y), (.visub vd va vb gp, fun x y => x - y),
        (.vimul vd va vb gp, fun x y => x * y), (.vand vd va vb gp, fun x y => x &&& y), (.vor vd va vb gp, fun x y => x ||| y),
        (.vxor vd va vb gp, fun x y => x ^^^ y)], q.op.word = wordOf k.1 →
      ∃ g r, exec (.vectorCommandComplete v tid) s = .next { s with chip := g } ∧
        (g.cluster v).claimOf tid = some { c with v := r, queue := qs } ∧ g.slot p = .live (t.settle q.op.seq) ∧
        ∀ e < 64, vget r vd.toNat e =
          if q.mask.getLsbD e then k.2 (vget c.v va.toNat e) (vget c.v vb.toNat e) else vget c.v vd.toNat e) ∧
  (∀ s v tid p t c w q d e g f, s.chip.running v = true → s.chip.limited v = false → s.chip.placeOf tid = some p →
    s.chip.listed p (.live t) → (s.chip.cluster v).claimOf tid = some c → c.queue ≠ [] → c.queue.head? = some q →
    c.resident = true → c.grant ≠ 0 → c.second = some w →
    s.chip.runCommand t v c.v q = .ok (d, g) → s.chip.runCommand t v w q = .ok (e, f) → d.flags ≠ e.flags →
    exec (.vectorCommandComplete v tid) s = .next { s with chip := s.chip.mismatched tid 1 })

/-- MBSET in supervisor mode writes a whole fresh record at a mailbox of its own cluster: no last update, no residual, the
configuration with its valid bit, and a zero block of the dimension given; a bad configuration raises EGBPCFG (R293 to R295). -/
def Obligations.MailboxSet : Prop :=
  (∀ (a b : BitVec 7) s y u w z off, Issues s (accessForm (wordOf (.mbset a b)) [.src a, .src b] a 0 s) y → Reads2 y a b u w z →
    accessPlace s.chip.v s.place.v u.toNat 1 = some (.here off) → u.toNat % 65536 ≤ 0xFEF0 → u.toNat % 16 = 0 →
    let good := 1 ≤ bits w 32 4 ∧ bits w 32 4 ≤ 8 ∧ bits w 36 28 = 0 ∧ bits w 10 2 = 0
    let old := (s.chip.cluster s.place.v).scratch
    (¬ good → Raises (.mbset a b) s y .egbpcfg u) ∧
    (good → (s.holding z).accessHeld s.place y.th u.toNat 272 = false → (s.chip.cluster s.place.v).mode (off / 65536) = .scratchT →
      y.th.sup = true → Memory.wf old = true →
      ∃ g, LeavesChip (.mbset a b) s g ∧ g.here? s.place = some z ∧ off ∈ (g.cluster s.place.v).mailboxes ∧
        MemoryAfter s.chip g s.place.v fun j =>
          if off ≤ j ∧ j < off + 272 then (mailboxFresh w).getD (j - off) 0 else old.read j)) ∧
  (∀ w : Word, (mailboxFresh w).length = 272 ∧ recordField (mailboxFresh w) 0 8 = 0 ∧ recordField (mailboxFresh w) 8 4 = 0 ∧
    recordField (mailboxFresh w) 12 4 = bits w 12 20 * 4096 + 2048 + bits w 0 10 ∧
    (∀ e < 63, recordField (mailboxFresh w) (16 + 4 * e) 4 = 0) ∧ recordField (mailboxFresh w) 268 4 = bits w 32 4)

/-! ## The matrix engine (R230 to R255) -/

/-- The instructions of a gang, and those of one member: OLD, ARD, AWR and ACLR put an operation into the gang's queue, OLD writes its
token, ACLR may give a name up, and MWAIT ends once the fills and set bits it names are done (R233, R236 to R246, R249). -/
def Obligations.GangInstructionsIssue : Prop :=
  (∀ (acc : BitVec 3) (as bs : BitVec 4) (wait : BitVec 8) (set : BitVec 4),
    ∀ i ∈ [Instr.mma acc as bs wait set, .mmaOw acc as bs wait set, .mmaHalf acc as bs wait set, .mmaHalfOw acc as bs wait set,
      .mmaSp acc as bs wait set, .mmaSpOw acc as bs wait set, .mmaHalfSp acc as bs wait set, .mmaHalfSpOw acc as bs wait set],
      GangInstruction i fun _ => 0) ∧
  (∀ e n : BitVec 7, GangInstruction (.orel n) (fun _ => 0) ∧
    (e.toNat ≤ 2 → GangInstruction (.oclaim e n) fun t => if e = 0 then t.fmtA else if e = 1 then t.fmtB else t.fmtC)) ∧
  (∀ (d a b : BitVec 7) s y x c z gid g, InGang s y gid g → g.queue.length < 16 → Reads2 y a b x c z →
    let h := s.holding z
    (Issues s (form (wordOf (.old d a b)) [.dst d, .src a, .src b]) y → bits c 17 15 = 0 → oldFirst c + oldCount c ≤ 64 →
      ∀ q, g.slots.get (bits c 0 4) = some q → windowOf x.toNat = .scratch ∨ windowOf x.toNat = .global →
      x.toNat % 16 = 0 → bits c 32 4 = 0 → h.memberHeld y.th s.place = false →
      ∃ r o, LeavesChip (.old d a b) s r ∧ (r.cluster s.place.v).gang y.th.pid gid = some { g with queue := g.queue ++ [o] } ∧
        o.op.ea = x ∧ o.op.y = c ∧ o.uid = y.th.uid ∧ o.member = y.th.homeC ∧ o.fills = [bits c 0 4] ∧
        r.here? s.place = some (Here.write { z with th := { z.th with
          wait := .none, pend := z.th.pend ++ [⟨o.op, .omem, .none, .waiting⟩]
          counters := { z.th.counters with old := y.th.counters.old + 1 } } } d (BitVec.ofNat 64 (y.th.counters.old + 1)))) ∧
    (∀ i fn, (i = .ard a b ∧ fn = 3 ∨ i = .awr a b ∧ fn = 4) → Issues s (form (wordOf i) [.src a, .src b]) y →
      accRefused fn c = false → (fn = 3 → accFmt c ≠ 2 ∧ accFmt c ≤ 4) → accAddress x c = .ok () →
      ∀ m, g.accs.get (bits c 0 3) = some m → m.released.length < 8 → y.th.homeC ∉ m.released →
      h.memberHeld y.th s.place = false →
      ∃ r o, LeavesChip i s r ∧ (r.cluster s.place.v).gang y.th.pid gid = some { g with queue := g.queue ++ [o] } ∧
        o.op.ea = x ∧ o.op.y = c ∧ o.uid = y.th.uid ∧ o.member = y.th.homeC ∧ o.names = [bits c 0 3] ∧
        r.here? s.place = some { z with th := { z.th with
          wait := .none, pend := z.th.pend ++ [⟨o.op, .omem, .none, .waiting⟩]
          counters := { z.th.counters with draw := z.th.counters.draw + if fn = 3 ∧ accFmt c ≠ 0 ∧ accSr c then 512 else 0 } } }) ∧
    (Issues s (form (wordOf (.mwait a b)) [.src a, .src b]) y →
      (y.th.counters.old < x.toNat ∨ bits c 8 56 ≠ 0 → Illegal (.mwait a b) s y) ∧
      (x.toNat ≤ y.th.counters.old → bits c 8 56 = 0 → (∀ q ∈ g.queue, q.uid ≠ y.th.uid ∧ q.set = none) →
        LeavesThread (.mwait a b) s { z with th := { z.th with wait := .none } }))) ∧
  (∀ (b : BitVec 7) s y c z gid g, InGang s y gid g → g.queue.length < 16 → y.passed.read b = .ok (c, z) →
    Issues s (form (wordOf (.aclr b)) [.src b]) y → accRefused 5 c = false →
    ∀ m, g.accs.get (bits c 0 3) = some m → m.released.length < 8 → y.th.homeC ∉ m.released →
    (s.holding z).memberHeld y.th s.place = false →
    ∃ r o n, LeavesChip (.aclr b) s r ∧ (r.cluster s.place.v).gang y.th.pid gid = some n ∧ n.queue = g.queue ++ [o] ∧
      n.slots = g.slots ∧ o.op.y = c ∧ o.member = y.th.homeC ∧
      n.accs.get (bits c 0 3) = some (if accRel c then { m with released := m.released ++ [y.th.homeC] } else m) ∧
      r.here? s.place = some { z with th := { z.th with wait := .none } })

/-- What happens in the matrix engine: an instruction that eight members stand at takes effect for all of them; a multiply starts, and
when it completes its accumulator holds, element by element, the groups added in order; fills and accumulator operations complete, and one
that operations before it hold back is checked; an orphaned gang is parked or reclaimed (R233, R236, R237, R239, R242 to R247, R249 to R251,
R253, R254). -/
def Obligations.MatrixEngineEvents : Prop :=
  (∀ s v pid gid g a as, s.chip.running v = true → (s.chip.cluster v).paused = false → (s.chip.cluster v).gang pid gid = some g →
    g.arrived = a :: as →
    8 ≤ g.arrived.length → g.orphan = false → g.parked = false → g.stopped = false →
    (∀ x ∈ as, x.2.2.2.word = a.2.2.2.word ∧ x.2.2.2.y = a.2.2.2.y) →
    let w := a.2.2.2.word
    let takes := fun (n : Gang) => ∃ h, exec (.gangInstructionEffect v pid gid) s = .next { s with chip := h } ∧
      (h.cluster v).gang pid gid = some { n with arrived := [], effects := g.effects + 1 } ∧
      ∀ p t, s.chip.listed p (.live t) → (∃ x ∈ g.arrived, x.2.1 = t.uid) → s.chip.placeOf t.uid = some p →
        h.slot p = .live { t with wait := .gangDone none }
    (major w = 0x30 → g.mmaTrap w = none → g.queue.length < 16 → ∃ q, q.op = a.2.2.2 ∧ q.wait = BitVec.ofNat 8 (bits w 4 8) ∧
      q.set = (if bits w 3 1 = 1 then some (bits w 0 3) else none) ∧ takes { g with queue := g.queue ++ [q] }) ∧
    (major w = 0x31 → omemFn w = 0 → bits w 5 7 ≤ 15 → bits w 12 7 ≤ 2 → 1 ≤ descCode a.2.2.2.y → descCode a.2.2.2.y ≤ 5 →
      g.slots.get (bits w 5 7) = none → (s.chip.cluster v).slotsFree ≠ 0 →
      takes { g with slots := g.slots.put (bits w 5 7) { code := descCode a.2.2.2.y, index := bits a.2.2.2.y 0 48 } }) ∧
    (major w = 0x31 → omemFn w = 1 → bits w 5 7 ≤ 15 → (g.slots.get (bits w 5 7)).isSome →
      (∀ q ∈ g.queue, bits w 5 7 ∉ q.reads) → takes { g with slots := g.slots.erase (bits w 5 7) })) ∧
  (∀ s v pid gid g k q, s.chip.running v = true → (s.chip.cluster v).paused = false → (s.chip.cluster v).gang pid gid = some g →
    g.queue[k]? = some q →
    (isMma q.op.word = true → s.chip.limited v = false → q.started = false → g.ready k q = true →
      (g.accs.get (mmaAcc q.op.word)).isSome →
      ∃ h, exec (.mmaStart v pid gid k) s = .next { s with chip := h } ∧ (h.cluster v).gang pid gid = some { g with
        queue := g.queue.map fun e => if e.seq = q.seq then { e with started := true } else e }) ∧
    (isMma q.op.word = true → q.started = true → g.stopped = false →
      ∀ a b c, g.slots.get (mmaA q.op.word) = some a → g.slots.get (mmaB q.op.word) = some b →
      g.accs.get (mmaAcc q.op.word) = some c → c.released.length < 8 →
      ∃ h n, exec (.mmaComplete v pid gid k) s = .next { s with chip := h } ∧ (h.cluster v).gang pid gid = some n ∧
        n.accs.get (mmaAcc q.op.word) = some { c with elems := mmaRun (mmaSub q.op.word) a b c.elems } ∧
        n.queue = g.queue.filter (fun e => decide (e.seq ≠ q.seq)) ∧ n.slots = g.slots) ∧
    (isMma q.op.word = false → g.ready k q = true → ∀ t f n, s.chip.findThread q.uid = some t →
      s.chip.memberRun t v g q = .ok (f, n, s.chip) →
      let e : Instr := if omemFn q.op.word = 2 then .oldComplete v pid gid k else .accumulatorOpComplete v pid gid k
      ∃ h, exec e s = .next { s with chip := h } ∧
        (h.cluster v).gang pid gid = some ({ g with slots := n.slots, accs := n.accs }.dropOp q.seq)) ∧
    (isMma q.op.word = false → g.ready k q = false → q.checked = false → ∀ t f n c, s.chip.findThread q.uid = some t →
      s.chip.memberRun t v g q = .ok (f, n, c) →
      let e : Instr := if omemFn q.op.word = 2 then .oldComplete v pid gid k else .accumulatorOpComplete v pid gid k
      ∃ h, exec e s = .next { s with chip := h } ∧ (h.cluster v).gang pid gid = some { g with
        queue := g.queue.map fun e => if e.seq = q.seq then { e with checked := true } else e }) ∧
    (g.ready k q = true → major q.op.word = 0x31 → omemFn q.op.word = 5 → ∀ c, g.accs.get (bits q.op.y 0 3) = some c →
      let cleared : Acc := { c with elems := c.elems.filter fun e => decide (e.1 / 512 ≠ q.member) }
      ∃ h, exec (.accumulatorOpComplete v pid gid k) s = .next { s with chip := h } ∧
        (h.cluster v).gang pid gid = some ({ g with accs := g.accs.put (bits q.op.y 0 3) cleared }.dropOp q.seq)) ∧
    (g.ready k q = true → major q.op.word = 0x31 → omemFn q.op.word = 2 → ∀ o t, g.slots.get (bits q.op.y 0 4) = some o →
      s.chip.findThread q.uid = some t → o.code ≠ 5 → oldMeta q.op.y = false → oldCount q.op.y = 1 →
      q.op.ea.toNat + 128 ≤ 0x200000 → (∀ b < 32, (s.chip.cluster v).mode b = .scratch) →
      ∃ h n, exec (.oldComplete v pid gid k) s = .next { s with chip := h } ∧
        (h.cluster v).gang pid gid = some ({ g with slots := g.slots.put (bits q.op.y 0 4) n }.dropOp q.seq) ∧ n.code = o.code ∧
        ∀ j < 128, n.bytes.getOr (128 * oldFirst q.op.y + j) 0 = (s.chip.cluster v).scratch.read (q.op.ea.toNat + j))) ∧
  (∀ sub (a b : OpSlot) (c : Map Half) (i j : Nat), sub < 8 → i < 64 → j < mmaColumns sub →
    let n := (if sub / 4 % 2 = 1 then 2 else 1) * 8
    (mmaRun sub a b c).getOr (64 * i + j) 0 = BitVec.ofNat 32 (accumulate (groupLen a.code) n
      (a.rowA (decide (sub / 4 % 2 = 1)) i) (b.colB (decide (sub / 4 % 2 = 1)) j)
      (if sub % 2 = 1 then 0 else (c.getOr (64 * i + j) 0).toNat))) ∧
  (∀ s v pid gid g, s.chip.running v = true → (s.chip.cluster v).paused = false → (s.chip.cluster v).gang pid gid = some g →
    g.orphan = true → g.parked = false →
    (s.chip.thirdGang v = true → (∀ q ∈ g.queue, q.started = false) →
      ∃ h, exec (.gangPark v pid gid) s = .next { s with chip := h } ∧
        (h.cluster v).gang pid gid = some { g with parked := true }) ∧
    (s.chip.allLive pid gid = true →
      ∃ h, exec (.gangReclaim v pid gid) s = .next { s with chip := h } ∧
        (h.cluster v).gang pid gid = some { g with orphan := false }))

/-! ## The copy engines (R258 to R280) -/

/-- The instructions of the copy engines: data commands and chains are accepted with the task's next token; EWAIT ends once what it asks
for is complete; SHOPEN makes a shadow with a free backing and PUBL marks one; BCARM sets EXPECT and BCWAIT waits until COUNT reaches it
(R258 to R261, R266 to R269, R273, R274, R276, R278). -/
def Obligations.EngineInstructions : Prop :=
  (∀ d a b : BitVec 7, DataCommand (.cpy d a b) 0 d a b ∧ DataCommand (.cpy2d d a b) 1 d a b ∧ DataCommand (.cpymc d a b) 2 d a b ∧
    DataCommand (.gath d a b) 3 d a b ∧ DataCommand (.scat d a b) 4 d a b) ∧
  (∀ (d a b : BitVec 7) s y u n z, Reads2 y a b u n z →
    let h := s.holding z
    let k := s.chip.cluster s.place.v
    (let i : Instr := .chain d a b
     Issues s (form (wordOf i) [.dst d, .src a, .src b]) y →
      (n = 0 ∨ 4096 < n.toNat → Illegal i s y) ∧
      (0 < n.toNat → n.toNat ≤ 4096 → u.toNat + 32 * n.toNat ≤ 0x200000 →
        (u.toNat % 32 ≠ 0 → Raises i s y .ealign u) ∧
        (u.toNat % 32 = 0 → (∀ j < n.toNat, k.mode ((u.toNat + 32 * j) / 65536) = .scratch) → h.engHeld y.th s.place = false →
          h.spanBusy y.th.uid (spanOf s.place.v u.toNat (32 * n.toNat)) = false → EngineRoom s y →
          ∃ c, Accepts i s y z d c ∧ c.descs = chainDescs k.scratch u.toNat n.toNat ∧ c.chain = true))) ∧
    (let i : Instr := .ewait a b
     Issues s (ewaitForm (wordOf i) a b s) y →
      let most := match y.th.chains.get u.toNat with
        | some m => m
        | none => 1
      let fits := u.toNat ≤ y.th.counters.engine ∧ (u = 0 → n = 0) ∧ (u ≠ 0 → n.toNat ≤ most)
      (¬ fits → Illegal i s y) ∧
      (fits → h.engineBusy y.th.uid u.toNat n.toNat = true → Waits i s) ∧
      (fits → h.engineBusy y.th.uid u.toNat n.toNat = false → LeavesThread i s z)) ∧
    (let i : Instr := .shopen d a b
     let h := h.warm y.th.pid u.toNat
     Issues s (form (wordOf i) [.dst d, .src a, .src b]) y →
      (y.th.sup = true → Illegal i s y) ∧
      (y.th.sup = false → y.th.quiet = true → Raises i s y .equiet u) ∧
      (y.th.sup = false → y.th.quiet = false → bits n 1 63 ≠ 0 → Illegal i s y) ∧
      (y.th.sup = false → bits n 1 63 = 0 →
        (∀ l r b bs, y.th.quiet = false → windowOf u.toNat = .global → h.resolve y.th.who u.toNat u = .ok l → l.pub = some r →
          h.pubBase r = u.toNat → (∀ x ∈ h.shadows, x.uid = y.th.uid → x.record ≠ r) →
          (h.shadows.filter fun x => decide (x.uid = y.th.uid)).length < 4 → h.engHeld y.th s.place = false → EngineRoom s y →
          h.floorStamp y.th.pid y.th.stamp = false → h.freeBackings r = b :: bs →
          ∃ c g, Accepts i s y z d c ∧ c.fill = true ∧ c.descs = [] ∧ LeavesChip i s g ∧ g.shadows = s.chip.shadows ++
            [{ uid := y.th.uid, v := s.place.v, record := r, base := u.toNat, backing := b }])))) ∧
  (∀ (a b : BitVec 7) s t x k e v, let i : Instr := .ewait a b
    s.chip.slot s.place = .live t → s.chip.here? s.place = some x → x.th.ldq = [] →
    ∀ q : Pend, x.th.pend = [q] → q.due = .engine k → q.arrival = .landed (.fault e v) → a ≠ 120 →
    let u := readGpr x.th x.file a.toNat
    (u = 0 ∨ k ≤ u.toNat → LeavesChip i s ((s.holding x).takeTrap s.place (reportOf x.th q false))) ∧
    (u ≠ 0 → u.toNat < k → checkUses x.th [.src a, .src b] 0 = none → Issues s (ewaitForm (wordOf i) a b s) x)) ∧
  (∀ (a : BitVec 7) s y u z, y.passed.read a = .ok (u, z) →
    (Issues s (form (wordOf (.publ a)) [.src a]) y →
      ((∀ x ∈ s.chip.shadows, ¬ (x.uid = y.th.uid ∧ x.base = u.toNat)) → Raises (.publ a) s y .eperm u) ∧
      ((∃ x ∈ s.chip.shadows, x.uid = y.th.uid ∧ x.base = u.toNat) →
        LeavesChip (.publ a) s { s.holding z with nextSeq := s.chip.nextSeq + 1, shadows := s.chip.shadows.map fun x =>
          if x.uid = y.th.uid ∧ x.base = u.toNat then { x with marked := x.marked.or (some s.chip.nextSeq) } else x })) ∧
    (Issues s (form (wordOf (.bcwait a)) [.src a]) y → u.toNat < 0x200000 →
      let m := (s.chip.cluster s.place.v).scratch
      (u.toNat % 16 ≠ 0 → Raises (.bcwait a) s y .ealign u) ∧
      (u.toNat % 16 = 0 → (s.chip.cluster s.place.v).mode (u.toNat / 65536) = .scratch →
        (y.th.sup = false → y.th.quiet = false → Raises (.bcwait a) s y .eperm u) ∧
        (y.th.sup = true ∨ y.th.quiet = true → (s.holding z).accessHeld s.place y.th u.toNat 16 = false →
          ((m.read64 (u.toNat + 8)).toNat ≤ (m.read64 u.toNat).toNat → LeavesThread (.bcwait a) s z) ∧
          ((m.read64 u.toNat).toNat < (m.read64 (u.toNat + 8)).toNat → Waits (.bcwait a) s))))) ∧
  (∀ (a b : BitVec 7) s y u n z, Issues s (form (wordOf (.bcarm a b)) [.src a, .src b]) y → Reads2 y a b u n z →
    let old := (s.chip.cluster s.place.v).scratch
    (n = 0 → Illegal (.bcarm a b) s y) ∧
    (n ≠ 0 → u.toNat < 0x200000 → u.toNat % 16 = 0 → (s.chip.cluster s.place.v).mode (u.toNat / 65536) = .scratch →
      y.th.sup = true ∨ y.th.quiet = true → (s.holding z).accessHeld s.place y.th u.toNat 16 = false → Memory.wf old = true →
      ∃ g, LeavesChip (.bcarm a b) s g ∧ g.here? s.place = some z ∧ MemoryAfter s.chip g s.place.v fun j =>
        if u.toNat + 8 ≤ j ∧ j < u.toNat + 16 then (wordBytes 8 n).getD (j - (u.toNat + 8)) 0 else old.read j))

/-- A copy within a cluster's own SCRATCH banks, of a quiet task or the supervisor, completes: its destination takes the bytes that its
source held before it, whether or not the two overlap, no other byte of the machine's memory changes, and it leaves the queue; a
descriptor of a chain does the same and the chain goes on; counted bytes are added to their counter. CPY2D, GATH and SCAT move their rows
and elements so, where destination bytes overlap the last in order remaining; CPYMC writes the bytes at every receiver of its mask; a copy
to a PRIVATE page writes device memory, and one from a PRIVATE or READ-SHARED page reads it (R260, R262, R264, R270, R271, R272). -/
def Obligations.EngineCompletions : Prop :=
  (∀ s v k c d, let K := s.chip.cluster v
    s.chip.running v = true → K.paused = false → K.cmds[k]? = some c → c.counting = false → s.chip.engReady c = true → K.throughs = [] →
    Memory.wf K.scratch = true → c.who.mode ≠ .spec → c.groups = [] → c.descs[c.completed]? = some d → d.fn = 0 → d.bc = false →
    d.x.toNat + d.len ≤ 0x200000 → d.y.toNat + d.len ≤ 0x200000 → 0 < d.len → (∀ b < 32, K.mode b = .scratch) →
    (∀ e ∈ s.chip.clusters.flatMap (fun k => k.2.cmds), e.seq = c.seq → e = c) →
    let after := fun g => MemoryAfter s.chip g v fun j =>
      if d.y.toNat ≤ j ∧ j < d.y.toNat + d.len then K.scratch.read (d.x.toNat + (j - d.y.toNat)) else K.scratch.read j
    (c.chain = false → c.checked = false → c.descs = [d] → s.chip.descTrap v c.who (tvalWord c.op.word) d = none →
      ∃ g, exec (.engineCommandComplete v k) s = .next { s with chip := g } ∧ after g ∧
        (g.cluster v).cmds = K.cmds.filter fun e => decide (e.seq ≠ c.seq)) ∧
    (c.chain = true → c.checked = true →
      ∃ g, exec (.chainDescriptorComplete v k) s = .next { s with chip := g } ∧ after g ∧
        (g.cluster v).cmds = if c.completed + 1 < c.descs.length
          then K.cmds.map fun e => if e.seq = c.seq then { e with completed := e.completed + 1, counting := false } else e
          else K.cmds.filter fun e => decide (e.seq ≠ c.seq))) ∧
  (∀ s v k c d, EngineDue s v k c d → d.fn ≠ 2 →
    let K := s.chip.cluster v
    let ps := d.moves K.scratch
    Memory.wf K.scratch = true → (∀ b < 32, K.mode b = .scratch) → d.x.toNat < 0x200000 → d.y.toNat < 0x200000 →
    (∀ p ∈ ps, p.1 + p.2.2 ≤ 0x200000 ∧ p.2.1 + p.2.2 ≤ 0x200000) →
    (3 ≤ d.fn → d.c1.toNat + 4 * bits d.c0 0 32 ≤ 0x200000 ∧ ∀ p ∈ ps, p.1 % 4 = 0 ∧ p.2.1 % 4 = 0) →
    EngineDoes s v k c d fun g => MemoryAfter s.chip g v (movedByte K.scratch ps)) ∧
  (∀ s v k c d, EngineDue s v k c d → d.fn = 2 →
    let n := bits d.c0 0 32
    let off := d.y.toNat % 2 ^ 21
    let base := if d.y.toNat < 0x100000000 then v else (d.y.toNat - 0x100000000) / 2 ^ 21
    let receives := fun u => base ≤ u ∧ u < base + 16 ∧ (bits d.c0 32 16).testBit (u - base) = true
    d.x.toNat + n ≤ 0x200000 → off + n ≤ 0x200000 → (∀ b < 32, (s.chip.cluster v).mode b = .scratch) →
    (∀ u, receives u → (∀ b < 32, (s.chip.cluster u).mode b = .scratch) ∧ Memory.wf (s.chip.cluster u).scratch = true) →
    EngineDoes s v k c d fun g => g.hbm = s.chip.hbm ∧ g.host = s.chip.host ∧ g.flash = s.chip.flash ∧
      (∀ u, receives u → ∀ j, (g.cluster u).scratch.read j =
        if off ≤ j ∧ j < off + n then (s.chip.cluster v).scratch.read (d.x.toNat + (j - off)) else (s.chip.cluster u).scratch.read j) ∧
      ∀ u, ¬ receives u → (g.cluster u).scratch = (s.chip.cluster u).scratch) ∧
  (∀ s v k c d l, EngineDue s v k c d → d.fn = 0 →
    let n := bits d.c0 0 32
    let K := s.chip.cluster v
    (∀ b < 32, K.mode b = .scratch) → l.pub = none →
    (d.x.toNat + n ≤ 0x200000 → d.y.toNat % 64 + n ≤ 64 → 0x200000000 ≤ d.y.toNat → c.finds s.chip d.y l → l.attr = .priv →
      Memory.wf s.chip.hbm = true →
      EngineDoes s v k c d fun g => (∀ u, (g.cluster u).scratch = (s.chip.cluster u).scratch) ∧ g.host = s.chip.host ∧
        g.flash = s.chip.flash ∧ ∀ j, g.hbm.read j =
          if l.pa ≤ j ∧ j < l.pa + n then K.scratch.read (d.x.toNat + (j - l.pa)) else s.chip.hbm.read j) ∧
    (d.y.toNat + n ≤ 0x200000 → d.x.toNat % 64 + n ≤ 64 → 0x200000000 ≤ d.x.toNat → c.finds s.chip d.x l →
      (l.attr = .priv ∨ l.attr = .readShared) → Memory.wf K.scratch = true →
      EngineDoes s v k c d fun g => MemoryAfter s.chip g v fun j =>
        if d.y.toNat ≤ j ∧ j < d.y.toNat + n then s.chip.hbm.read (l.pa + (j - d.y.toNat)) else K.scratch.read j)) ∧
  (∀ s k f u a n cmd, s.chip.flights.get k = some f → f.body = .count u a n cmd →
    s.chip.arrives ((s.chip.cluster u).pid.getD 0) u f = true → Memory.wf (s.chip.cluster u).scratch = true →
    let old := (s.chip.cluster u).scratch
    ∃ g, exec (.byteCountAdd k) s = .next { s with chip := g } ∧ g.flights.get k = none ∧ MemoryAfter s.chip g u fun j =>
      if a ≤ j ∧ j < a + 8 then (wordBytes 8 (old.read64 a + BitVec.ofNat 64 n)).getD (j - a) 0 else old.read j)

/-! ## Groups, messages and virtual time (R350, R351, R360, R361, R371 to R380) -/

/-- The instructions of a task upon its groups (R374 to R380), and where each completes: BAR and BARV of a quiet task arrive, stand until
their barrier is released, and then go on, BARV with the combined value and its flags; GRED contributes, at once for a quiet task and by a
record otherwise; GLEAVE leaves the group; GQRY reads each of its four fields; LAUNCH keeps a well-formed launch, in a record, or for a
quiet task, which has none, with the task, and writes its count. A slot that names no group, and supervisor mode, raise EILL. -/
def Obligations.GroupInstructions : Prop :=
  (∀ (n : BitVec 7) s y gid, Issues s (form (wordOf (.bar n))) y →
    (y.th.sup = true ∨ slotGroup y.th n.toNat = none → Illegal (.bar n) s y) ∧
    (y.th.sup = false → slotGroup y.th n.toNat = some gid →
      (y.th.quiet = false → Raises (.bar n) s y .equiet 0) ∧
      (y.th.quiet = true → y.th.wait = .none →
        LeavesThread (.bar n) s { y with th := { y.th with wait := .barrier gid none 0 } }) ∧
      (∀ g o x, y.th.quiet = true → y.th.wait = .barrier g o x → Waits (.bar n) s) ∧
      (∀ r f m, y.th.quiet = true → y.th.wait = .released r f m →
        LeavesThread (.bar n) s { y.passed with th := { y.passed.th with wait := .none } }))) ∧
  (∀ (d a : BitVec 7) (op : BitVec 3) (n : BitVec 2) s y x z gid, let i : Instr := .barv d a op n
    Issues s (form (wordOf i) [.dst d, .src a]) y → y.passed.read a = .ok (x, z) →
    (y.th.sup = true ∨ slotGroup y.th n.toNat = none → Illegal i s y) ∧
    (y.th.sup = false → slotGroup y.th n.toNat = some gid → 5 < op.toNat → Illegal i s y) ∧
    (y.th.sup = false → slotGroup y.th n.toNat = some gid →
    (op.toNat ≤ 5 → y.th.quiet = false → Raises i s y .equiet 0) ∧
    (op.toNat ≤ 5 → y.th.quiet = true →
      (∀ g o w, y.th.wait = .barrier g o w → Waits i s) ∧
      (y.th.wait = .none → LeavesThread i s { z with th := { y.th with wait := .barrier gid (some op.toNat) x } }) ∧
      (∀ r f, y.th.wait = .released r f false →
        LeavesThread i s (Here.write { z with th := { z.th with wait := .none, fflags := z.th.fflags ||| f } } d r)) ∧
      (∀ r f, y.th.wait = .released r f true → LeavesChip i s
        ((s.holding { z with th := { y.th with wait := .none } }).takeTrap s.place
          (raisedBy y.th .eill (tvalWord (wordOf i)))))))) ∧
  (∀ (a n : BitVec 7) s y x z gid, Issues s (form (wordOf (.gred a n)) [.src a]) y → y.passed.read a = .ok (x, z) →
    (y.th.sup = true ∨ slotGroup y.th n.toNat = none → Illegal (.gred a n) s y) ∧
    (y.th.sup = false → slotGroup y.th n.toNat = some gid → y.th.quiet = true →
      LeavesChip (.gred a n) s ((s.holding z).modGroup y.th.pid gid fun g =>
        if g.rop = 5 then { g with terms := g.terms ++ [x.truncate 32] } else { g with red := combine g.rop g.red x })) ∧
    (y.th.sup = false → slotGroup y.th n.toNat = some gid → y.th.quiet = false → s.chip.room s.place.v y.th.uid 1 false = .enough →
      Logs (.gred a n) s y z (.gred gid x))) ∧
  (∀ (n : BitVec 7) s y gid, Issues s (form (wordOf (.gleave n))) y →
    let leaves : Here := { y.passed with th := { y.passed.th with grps := y.passed.th.grps &&& ~~~(1#36 <<< (32 + n.toNat)) } }
    (y.th.sup = true ∨ slotGroup y.th n.toNat = none → Illegal (.gleave n) s y) ∧
    (y.th.sup = false → slotGroup y.th n.toNat = some gid → (s.chip.group y.th.pid gid).gang = true →
      Raises (.gleave n) s y .eperm (n.zeroExtend 64)) ∧
    (y.th.sup = false → slotGroup y.th n.toNat = some gid → (s.chip.group y.th.pid gid).gang = false →
      (y.th.quiet = false → LeavesThread (.gleave n) s leaves) ∧
      (y.th.quiet = true → ∃ g, LeavesChip (.gleave n) s g ∧ g.here? s.place = some leaves ∧
        (g.group y.th.pid gid).members = (s.chip.group y.th.pid gid).members.filter (· ≠ y.th.uid)))) ∧
  (∀ (d a : BitVec 7) s y x z gid, Issues s (form (wordOf (.gqry d a)) [.dst d, .src a]) y → y.passed.read a = .ok (x, z) →
    let g := s.chip.group y.th.pid gid
    let f := bits x 4 3
    (y.th.sup = true ∨ slotGroup y.th (bits x 0 2) = none ∨ bits x 2 2 ≠ 0 ∨ bits x 7 57 ≠ 0 ∨ 3 < f → Illegal (.gqry d a) s y) ∧
    (y.th.sup = false → slotGroup y.th (bits x 0 2) = some gid → bits x 2 2 = 0 → bits x 7 57 = 0 →
      (f = 0 → LeavesThread (.gqry d a) s (z.write d (BitVec.ofNat 64
        (gid + 256 * (if g.gang then 1 else 0) + 512 * (if g.cores then 1 else 0))))) ∧
      (f = 1 → LeavesThread (.gqry d a) s (z.write d (BitVec.ofNat 64
        (g.vcn0.toNat % 2 ^ 11 + 2 ^ 16 * (g.vcnn.toNat % 2 ^ 11) + 2 ^ 32 * g.banks.toNat)))) ∧
      (f = 2 → LeavesThread (.gqry d a) s (z.write d (g.arrive.zeroExtend 64))) ∧
      (f = 3 → y.th.quiet = false → Raises (.gqry d a) s y .equiet 0) ∧
      (f = 3 → y.th.quiet = true → let v := g.total.getD g.combined
        (v.2 = 0 → LeavesThread (.gqry d a) s (z.write d v.1)) ∧
        ∃ r, LeavesChip (.gqry d a) s r ∧ r.here? s.place = some (Here.write (z.flag v.2) d v.1) ∧
          MemoryAfter s.chip r s.place.v (s.chip.cluster s.place.v).scratch.read))) ∧
  (∀ (d a : BitVec 7) s y x z r b, let i : Instr := .launch d a
    Issues s (form (wordOf i) [.dst d, .src a]) y → y.passed.read a = .ok (x, z) →
    let h := s.holding z
    let args := recArgs r
    (y.th.sup = true → Illegal i s y) ∧
    (y.th.sup = false → launchWindow x 64 = true → x.toNat % 64 = 0 → h.accessHeld s.place y.th x.toNat 64 = false →
      h.hasThroughs s.place.v y.th.uid = false →
      h.readBytes y.th.who s.place.v x.toNat 64 = .ok (r, h) →
      (launchRefused r = true → Illegal i s y) ∧
      (launchRefused r = false → args < 2 ^ 64 → launchWindow (BitVec.ofNat 64 args) 128 = true →
        h.accessHeld s.place y.th args 128 = false → h.readBytes y.th.who s.place.v args 128 = .ok (b, h) →
        blkMalformed b false = false → blkImages b = 0 →
        (∀ g ∈ recordGroups r, g ∈ groupIds y.th.grps ∧ (h.group y.th.pid g).gang = false) →
        bits y.th.stamp 24 40 < recVt r → beyondTime r = false → (h.part y.th.pid).bounded = false →
        let after := Here.write { z with th := { z.th with counters := { z.th.counters with launch := y.th.counters.launch + 1 } } } d
          (BitVec.ofNat 64 (y.th.counters.launch + 1))
        (y.th.quiet = false → h.room s.place.v y.th.uid 6 false = .enough → Logs i s y after (.launch r b y.th.traps.vec)) ∧
        (y.th.quiet = true → ∀ k, h.task? y.th.uid = some k → ∃ g, LeavesChip i s g ∧ g.here? s.place = some after ∧
          g.task? y.th.uid = some { k with launches := k.launches ++ [(r, b, y.th.traps.vec)] })))) ∧
  (∀ (d a : BitVec 7) s y x z, let i : Instr := .launch d a
    Issues s (form (wordOf i) [.dst d, .src a]) y → y.passed.read a = .ok (x, z) → y.th.sup = false → x.toNat % 64 = 0 →
    InScratch s y z x.toNat 64 → (s.holding z).hasThroughs s.place.v y.th.uid = false →
    let r := s.scratchAt x.toNat 64
    let b := s.scratchAt (recArgs r) 128
    launchRefused r = false → InScratch s y z (recArgs r) 128 → blkMalformed b false = false → blkImages b = 0 →
    (∀ g ∈ recordGroups r, g ∈ groupIds y.th.grps ∧ (s.chip.group y.th.pid g).gang = false) →
    bits y.th.stamp 24 40 < recVt r → beyondTime r = false → (s.chip.part y.th.pid).bounded = false →
    (y.th.quiet = true ∨ s.chip.room s.place.v y.th.uid 6 false = .enough) →
    ∃ g, LeavesChip i s g ∧ g.here? s.place = some (Here.write { z with th := { z.th with
      counters := { z.th.counters with launch := y.th.counters.launch + 1 } } } d (BitVec.ofNat 64 (y.th.counters.launch + 1))))

/-- SEND and SENDV of a task make a record, put a message on its way and write its index (R350, R351); their checks come in the order
mode, quiet task, window, permission, handler, stamp. GVT waits for the floor, STAMP reads the stamp, and the IRV forms make their
records (R360, R361). -/
def Obligations.SendsStampsAndIrvs : Prop :=
  (∀ (d : BitVec 7) s y z c stamp i unit least bs, let h := s.holding z
    let fits := sendRefused c unit least = false
    let vcn := bits c 16 11
    let handler := bits c 0 10
    (((∃ a b x h1, i = .send d a b ∧ unit = 8 ∧ least = 0 ∧ Issues s (form (wordOf i) [.bothOwned d, .src a, .src b]) y ∧
        Reads2 y a b x stamp h1 ∧ h1.read d = .ok (c, z) ∧
        ((sendLen c = 0 ∧ bs = []) ∨ (sendLen c ≠ 0 ∧ h.payload y.th s.place x (sendLen c) 8 = .ok (bs, h)) ∨
          (sendLen c ≠ 0 ∧ x.toNat % 8 = 0 ∧ InScratch s y z x.toNat (sendLen c) ∧ bs = s.scratchAt x.toNat (sendLen c))))) ∨
      (∃ va b h1 k, i = .sendv d va b ∧ unit = 4 ∧ least = 4 ∧ Issues s (form (wordOf i) [.bothOwned d, .src b]) y ∧
        y.passed.read b = .ok (stamp, h1) ∧ h1.read d = .ok (c, z) ∧ Holds s y k ∧ k.queue = [] ∧
        bs = ((vreg k.v va.toNat).flatMap fun x => natToBytes 4 x.toNat).take (sendLen c))) →
    (y.th.sup = true ∨ ¬ fits → Illegal i s y) ∧
    (y.th.sup = false → fits → y.th.quiet = true → Raises i s y .equiet 0) ∧
    (y.th.sup = false → fits → y.th.quiet = false →
      (s.chip.v ≤ vcn → Raises i s y .ewindow (BitVec.ofNat 64 vcn)) ∧
      (vcn < s.chip.v → (s.chip.part y.th.pid).holds vcn = false → Raises i s y .eperm (BitVec.ofNat 64 vcn)) ∧
      (vcn < s.chip.v → (s.chip.part y.th.pid).holds vcn = true →
        (((s.chip.cluster s.place.v).handler handler).valid = false → Raises i s y .egbpcfg (BitVec.ofNat 64 handler)) ∧
        (((s.chip.cluster s.place.v).handler handler).valid = true →
          (bits stamp 24 40 ≤ bits y.th.stamp 24 40 → Raises i s y .estamp stamp) ∧
          (bits y.th.stamp 24 40 < bits stamp 24 40 → y.th.counters.send ≠ 65536 →
            s.chip.room s.place.v y.th.uid 1 false = .enough → (s.chip.part y.th.pid).routeOf handler = none →
            Sends i s y z d c stamp bs))))) ∧
  (∀ (d : BitVec 7) s y,
    (Issues s (form (wordOf (.gvt d)) [.dst d]) y →
      (y.th.sup = true → LeavesThread (.gvt d) s
        (y.passed.write d ((s.chip.part (s.chip.pidAt s.place.v y.th)).gvt.getD (BitVec.allOnes 64)))) ∧
      (y.th.sup = false → (s.chip.part y.th.pid).gvt = some y.th.stamp → LeavesThread (.gvt d) s (y.passed.write d y.th.stamp)) ∧
      (y.th.sup = false → (s.chip.part y.th.pid).gvt ≠ some y.th.stamp → Waits (.gvt d) s)) ∧
    (Issues s (form (wordOf (.stamp d)) [.dst d]) y →
      LeavesThread (.stamp d) s (y.passed.write d (if y.th.sup then 0 else y.th.stamp)))) ∧
  (∀ (a b : BitVec 7) s y x w z bs, Reads2 y a b x w z → y.th.sup = false → y.th.quiet = false →
    let h := s.holding z
    (Issues s (form (wordOf (.irvDb a b)) [.src a, .src b]) y →
      (8 ≤ x.toNat → Illegal (.irvDb a b) s y) ∧
      (x.toNat < 8 → h.room s.place.v y.th.uid 3 false = .enough → Logs (.irvDb a b) s y z (.irv .db x.toNat w []))) ∧
    (Issues s (form (wordOf (.irvFlash a b)) [.src a, .src b]) y →
      (x.toNat % 64 ≠ 0 → Raises (.irvFlash a b) s y .ealign x) ∧
      (x.toNat % 64 = 0 → 64 * (s.chip.part y.th.pid).irvSize.toNat < x.toNat + 64 → Raises (.irvFlash a b) s y .eperm x) ∧
      (x.toNat % 64 = 0 → x.toNat + 64 ≤ 64 * (s.chip.part y.th.pid).irvSize.toNat →
        h.payload y.th s.place w 64 64 = .ok (bs, h) → h.room s.place.v y.th.uid 3 false = .enough →
        Logs (.irvFlash a b) s y z (.irv .flash x.toNat w bs)) ∧
      (x.toNat % 64 = 0 → x.toNat + 64 ≤ 64 * (s.chip.part y.th.pid).irvSize.toNat → w.toNat % 64 = 0 → InScratch s y z w.toNat 64 →
        h.room s.place.v y.th.uid 3 false = .enough →
        Logs (.irvFlash a b) s y z (.irv .flash x.toNat w (s.scratchAt w.toNat 64)))) ∧
    (Issues s (form (wordOf (.irvHost a b)) [.src a, .src b]) y →
      (windowOf x.toNat ≠ .global → Raises (.irvHost a b) s y .ewindow x) ∧
      (∀ l, windowOf x.toNat = .global → x.toNat % 64 = 0 → h.warm y.th.pid x.toNat = h → h.resolve y.th.who x.toNat x = .ok l →
        (l.attr ≠ .host → Raises (.irvHost a b) s y .eperm x) ∧
        (l.attr = .host → h.payload y.th s.place w 64 64 = .ok (bs, h) → h.room s.place.v y.th.uid 3 false = .enough →
          Logs (.irvHost a b) s y z (.irv .host (l.pa % 2 ^ 47) w bs))) ∧
      (∀ l, windowOf x.toNat = .global → x.toNat % 64 = 0 → regionOf x.toNat ∉ y.th.rejected →
        h.translate y.th.pid x.toNat = some l → l.attr = .host → w.toNat % 64 = 0 → InScratch s y z w.toNat 64 →
        h.room s.place.v y.th.uid 3 false = .enough →
        Logs (.irvHost a b) s y z (.irv .host (l.pa % 2 ^ 47) w (s.scratchAt w.toNat 64)))))

/-! ## Events of a core (R124, R134, R135, R144, R145, R158, R160, R161) -/

/-- The debug port acts on the slot that DSEL selects: HALT, RESUME, STEP and ABORT of a slot in the state each needs, with result 0, and
otherwise result 2; HALT waits for the end of an instruction within which the thread waits, and ABORT as TABORT does; DDATA reads and writes the item that DIDX selects of a halted thread; TNQ gives its oldest notice and drops it. A
write of CDISP restarts a stopped dispatch, and a host register write has the effect of the register (R124, R134, R135, R415). -/
def Obligations.DebugPort : Prop :=
  (∀ s (v c : Nat),
    let h := s.chip
    let k := h.core v c
    let p := h.selected v c
    let does := fun (i : Instr) (n : Nat) (pre : Slot → Prop) (ready : Slot → Prop) (g : Slot → Chip → Prop) =>
      (k.debugPending = false ∨ k.dcmd.toNat ≠ n → Ignored i s) ∧
      (k.debugPending = true → k.dcmd.toNat = n → h.portSlot p = false → Becomes i s (h.answered v c 2)) ∧
      (k.debugPending = true → k.dcmd.toNat = n → h.portSlot p = true → ¬ pre (h.slot p) → Becomes i s (h.answered v c 2)) ∧
      (k.debugPending = true → k.dcmd.toNat = n → h.portSlot p = true → ready (h.slot p) →
        ∃ g', Becomes i s g' ∧ g (h.slot p) g' ∧ (g'.core v c).debugPending = false ∧ (g'.core v c).dstatRes = 0)
    let halted := fun x : Slot => ∃ t, x = .halted t
    does (.debugHalt v c) 1 (fun x => ∃ t, x = .live t ∨ x = .halted t) (fun x => ∃ t, x = .live t ∧ t.wait = .none ∨ x = .halted t)
      (fun x g => (∀ t, x = .halted t → g.slot p = .halted t) ∧
        ∀ t, x = .live t → g.slot p = .halted { t with stepOnce := false }) ∧
    (k.debugPending = true → k.dcmd.toNat = 1 → h.portSlot p = true → ∀ t, h.slot p = .live t → t.wait ≠ .none →
      Ignored (.debugHalt v c) s) ∧
    does (.debugResume v c) 2 halted (fun x => ∃ t, x = .halted t ∧ t.suspended = none) (fun x g =>
      ∀ t, x = .halted t → g.slot p = .live t) ∧
    does (.debugStep v c) 3 halted halted (fun x g => ∀ t, x = .halted t → g.slot p = .live { t with stepOnce := true }) ∧
    does (.debugAbort v c) 4 halted (fun x => ∃ t, x = .halted t ∧ h.endHeld p t = false ∧ t.windowsOpen = false) (fun x g =>
      ∀ t, x = .halted t → t.quiet = true → g.slot p = .ended t.regBase t.regLim false true) ∧
    (k.debugPending = true → k.dcmd.toNat = 4 → h.portSlot p = true → ∀ t, h.slot p = .halted t →
      h.endHeld p t = true ∨ t.windowsOpen = true → Ignored (.debugAbort v c) s)) ∧
  (∀ s (v c : Nat) (x : BitVec 64),
    let h := s.chip
    let p := h.selected v c
    let i := (h.core v c).didx.toNat
    let answer := fun (w : Word) (r : Nat) => Becomes (.ddataRead v c) s { h.portResult v c r with hostAnswer := some w }
    (h.portThread p = none → answer 0 2 ∧ Becomes (.ddataWrite v c x) s (h.portResult v c 2)) ∧
    (∀ y, h.portThread p = some y →
      (i < 0x78 → i < y.th.regLim → answer (readGpr y.th y.file i) 0) ∧ (i < 0x78 → y.th.regLim ≤ i → answer 0 2) ∧
      (i = 0x2000 → answer y.th.pc 0) ∧
      (∀ j w, j < 16 → i = 0x90 + j → y.th.sdq[j]? = some w → answer w 0) ∧
      (∀ j e w f, j < 16 → i = 0x80 + j → y.th.ldq[j]? = some e → e.arrival = .landed (.value w f) → answer w 0) ∧
      (∀ j w, i = 0x1000 + j → j < 0x1000 → y.th.reg j = some w → answer w 0) ∧
      (p.t ≠ 0 → i < 0x78 → i < y.th.regLim → y.th.awaits i = false →
        Becomes (.ddataWrite v c x) s ((h.putHere p { y with file := writeGpr y.th y.file i x }).portResult v c 0)) ∧
      (p.t ≠ 0 → i < 0x78 → i < y.th.regLim → y.th.awaits i = true → Becomes (.ddataWrite v c x) s (h.portResult v c 1)) ∧
      (p.t ≠ 0 → i = 0x2000 → x.toNat % 4 = 0 →
        Becomes (.ddataWrite v c x) s ((h.putHere p { y with th := { y.th with pc := x } }).portResult v c 0)) ∧
      (p.t = 0 → Becomes (.ddataWrite v c x) s (h.portResult v c 2))) ∧
    ((h.core v c).notices = [] → Becomes (.tnqRead v c) s { h with hostAnswer := some 0 }) ∧
    (∀ w ws, (h.core v c).notices = w :: ws →
      Becomes (.tnqRead v c) s { h.modCore v c (fun k => { k with notices := ws }) with hostAnswer := some w })) ∧
  (∀ s (v c : Nat),
    ((s.chip.core v c).stopped = false → Ignored (.cdispRestart v c) s) ∧
    ((s.chip.core v c).stopped = true → ∃ g t, Becomes (.cdispRestart v c) s g ∧ (g.core v c).stopped = false ∧
      g.slot ⟨v, c, 0⟩ = .live t ∧ t.pc = s.chip.dispatchEntry v ∧ t.sup = true ∧ t.regBase = 0 ∧ t.regLim = 32 ∧ t.traps = {})) ∧
  (∀ s (n : Nat) (x : BitVec 64),
    let sel := s.chip.reg 0x4A3
    let v := bits sel 16 11
    let i : Instr := .registerWrite n x
    (n < 0x100 ∨ 0x7FF < n ∨ readOnly n = true ∨ (n < 0x400 ∧ s.chip.v ≤ v) → Ignored i s) ∧
    (0x100 ≤ n → n ≤ 0x7FF → readOnly n = false → 0x400 ≤ n ∨ v < s.chip.v →
      (s.writeReg v (bits sel 0 3) n x = none → Ignored i s) ∧
      (∀ t, s.writeReg v (bits sel 0 3) n x = some t → exec i s = .next t)))

/-- What happens at the slots of a core between issues: a rotation boundary, once the turn of slot 15 has come, makes the highest slot's
MTC write of a register the register's value and begins the next rotation; SCREEN takes effect there; displacement and barrier yield take the slot of the thread with the greatest stamp; a
write of CPRE marks slots, both halves of a pair as one, and each is freed once its vacate completes; the oldest cached context leaves a
full cache (R137, R144, R145, R158, R160, R161, R167, R176). -/
def Obligations.SlotsBetweenIssues : Prop :=
  (∀ s (v c : Nat) t q, (s.chip.core v c).turn < 15 ∨ s.chip.slot ⟨v, c, 15⟩ = .live t ∨ s.chip.slot ⟨v, c, 15⟩ = .trailing t q →
    Ignored (.rotationBoundary v c) s) ∧
  (∀ s (v c : Nat), 15 ≤ (s.chip.core v c).turn → (∀ t, s.chip.slot ⟨v, c, 15⟩ ≠ .live t) →
    (∀ t q, s.chip.slot ⟨v, c, 15⟩ ≠ .trailing t q) →
    ∃ g, Becomes (.rotationBoundary v c) s g ∧ (g.core v c).rotation = (s.chip.core v c).rotation + 1 ∧
    (g.core v c).turn = 0 ∧ (g.core v c).pendingCommon = [] ∧ (g.core v c).screened = (s.chip.cluster v).screen ∧
    (∀ n, (∀ w ∈ (s.chip.core v c).pendingCommon, w.1 ≠ n) →
      (g.core v c).common.getOr n 0 = (s.chip.core v c).common.getOr n 0) ∧
    ∀ n t x, (n, t, x) ∈ (s.chip.core v c).pendingCommon →
      (∀ w ∈ (s.chip.core v c).pendingCommon, w.1 = n → w ≠ (n, t, x) → w.2.1 < t) → (g.core v c).common.getOr n 0 = x) ∧
  (∀ s (v c t : Nat) x,
    let h := s.chip
    let p : At := ⟨v, c, t⟩
    t ≠ 0 → t < 16 → h.slot p = .live x.th → h.here? p = some x → (h.core v c).stopped = false →
    let only := fun (f : Thread → Bool) => ∀ u y, (u, y) ∈ h.threadsOf v c → u ≠ t → f y = true → y.stamp.toNat < x.th.stamp.toNat
    (∀ k, h.head v c = some k → k.floor = true → h.freeSlot v c = none → (h.core v c).vacating = [] → x.th.quiet = false →
      (∀ u y, (u, y) ∈ h.threadsOf v c → h.bound y = false) → only (fun y => !y.quiet) →
      ∃ g, Becomes (.displace v c) s g ∧ LeftSlot h g p x) ∧
    (h.headWantsSlot v c = true → x.th.quiet = true → h.barrierWaiter x.th = true → h.bound x.th = false →
      only (fun y => y.quiet && h.barrierWaiter y && !h.bound y) → ∃ g, Becomes (.barrierYield v c) s g ∧ LeftSlot h g p x) ∧
    (t ∈ (h.core v c).vacating → ∃ g, Becomes (.vacateComplete v c t) s g ∧ LeftSlot h g p x)) ∧
  (∀ s (v c : Nat),
    (s.chip.head v c = none → Ignored (.displace v c) s) ∧ (s.chip.headWantsSlot v c = false → Ignored (.barrierYield v c) s) ∧
    (∀ t, t ∉ (s.chip.core v c).vacating → Ignored (.vacateComplete v c t) s)) ∧
  (∀ s (v c : Nat) (x : BitVec 64),
    let k := s.chip.core v c
    let holds := fun t => ∃ u q, s.chip.slot ⟨v, c, t⟩ = .live u ∨ s.chip.slot ⟨v, c, t⟩ = .halted u ∨ s.chip.slot ⟨v, c, t⟩ = .trailing u q
    (x.getLsbD 0 = true ∨ 2 ^ 16 ≤ x.toNat → Ignored (.cpreWrite v c x) s) ∧
    (x.getLsbD 0 = false → x.toNat < 2 ^ 16 → (∀ t, x.getLsbD t = true → holds t) →
      ∃ g, Becomes (.cpreWrite v c x) s g ∧ ∀ t, t ∈ (g.core v c).vacating ↔
        t ∈ k.vacating ∨ t ≠ 0 ∧ ∃ j < 16, x.getLsbD j = true ∧ t = if k.screened = true ∧ 8 ≤ j then j - 8 else j)) ∧
  (∀ s (v : Nat),
    let ps := (s.chip.cluster v).parked
    (cacheUse ps ≤ 56 → Ignored (.contextWriteback v) s) ∧
    (∀ a q b, ps = a ++ q :: b → (∀ x ∈ a, x.cached = false) → q.cached = true → 56 < cacheUse ps →
      (∀ x ∈ a ++ b, x.thread.uid ≠ q.thread.uid) →
      ∃ g, Becomes (.contextWriteback v) s g ∧ (g.cluster v).parked = a ++ { q with cached := false } :: b))

/-! ## Events of the memory system (R45, R75, R200, R312 to R316, R320 to R324) -/

/-- Load data that is under way arrives at its operation, and waiting claims are served. A page walk that finds a leaf installs it at the
station, and one that faults is reported once in a fault record; the driver answers with a retry or a reject; XLINV drops the entries it
names and stays BUSY until accesses translated before are performed. SLICE_HASH_SEL takes a value that fits the live slices and a rehash
empties the core side; a line leaves a tier, a dirty one of the core side for the memory side; the oldest write-through of a cluster is
performed (R45, R312, R315, R320 to R324). The walk of the station in one event is the model's choice (log 13). -/
def Obligations.MemorySystemEvents : Prop :=
  (∀ s (v tid : Nat) u t seq r, s.chip.threads.find? (fun x => decide (x.2.uid = tid)) = some (u, t) → t.inFlight = some (seq, r) →
    Becomes (.loadComplete v tid) s (s.chip.mapThread tid fun t => t.arrive seq r)) ∧
  (∀ (t : Thread) (seq : Nat) (r : Result), (∀ e ∈ t.ldq, e.op.seq = seq → ⟨e.op, .landed r⟩ ∈ (t.arrive seq r).ldq) ∧
    (∀ e ∈ t.ldq, e.op.seq ≠ seq → e ∈ (t.arrive seq r).ldq) ∧ (t.arrive seq r).ldq.length = t.ldq.length) ∧
  (∀ s (v : Nat), s.chip.running v = true → Becomes (.laneGrant v) s (s.chip.serveClaims v)) ∧
  (∀ s (pid region : Nat) w, s.chip.walkOf pid region = some w →
    let h := s.chip
    let i : Instr := .pageWalkComplete pid region
    (w.reported = true → Ignored i s) ∧
    (w.reported = false →
      (∀ leaf level, h.walk pid (region * 2 ^ 16) = .ok (leaf, level) → w.waiters = [] → w.threads = [] →
        let e : StationEntry :=
          { station := stationOf pid region, pid := pid, region := region / regionsOf level * regionsOf level, leaf := leaf
            level := level }
        let full := 8192 ≤ h.stations.countP fun x => decide (x.station = e.station)
        ∃ g, Becomes i s g ∧ g.walkOf pid region = none ∧ e ∈ g.stations ∧ (¬ full → g.stations = h.stations ++ [e]) ∧
          ∀ x ∈ g.stations, x = e ∨ x ∈ h.stations) ∧
      (∀ reason level, h.walk pid (region * 2 ^ 16) = .error (reason, level) →
        ∃ g, Becomes i s g ∧ g.walkOf pid region = some { w with reported := true } ∧ g.reg 0x1428 = h.reg 0x1428 + 1 ∧
          g.rings = h.rings ++
            [{ ring := 0, bytes := faultRecord w reason level (h.reg 0x1428).toNat, walk := some (pid, region) }]))) ∧
  (∀ s (pid region : Nat), s.chip.walkOf pid region = none → Ignored (.pageWalkComplete pid region) s) ∧
  (∀ s (x : BitVec 64) w, x &&& 0x4FFFFFFFFFFFFFFF#64 = x →
    let h := s.chip
    let pid := bits x 40 20
    let region := bits x 0 40
    h.walkOf pid region = some w →
    (x.getLsbD 62 = false → ∃ g, Becomes (.frespRetry x) s g ∧ g.reg 0x42C = x ∧
      g.walkOf pid region = some { w with reported := false }) ∧
    (x.getLsbD 62 = true → w.reported = true → w.waiters = [] → ∃ g, Becomes (.frespReject x) s g ∧ g.reg 0x42C = x ∧
      g.walkOf pid region = none ∧
      ∀ p t, p.t ≠ 0 → h.slot p = .live t → t.uid ∈ w.threads → ∃ u, g.slot p = .live u ∧ region ∈ u.rejected ∧ u.pc = t.pc)) ∧
  (∀ s (x : BitVec 64), x &&& 0x4FFFFFFFFFFFFFFF#64 = x →
    let h := s.chip
    let first := bits x 0 40
    ∃ g, Becomes (.xlinv x) s g ∧ g.reg 0x430 = x ||| 0x8000000000000000#64 ∧
      ∀ e, e ∈ g.stations ↔ e ∈ h.stations ∧
        ¬ (e.pid = bits x 40 20 ∧ (x.getLsbD 62 = true ∨
          (first < e.region + regionsOf e.level ∧ e.region < first + (h.reg 0x431).toNat)))) ∧
  (∀ s,
    let h := s.chip
    let busy := ∃ k ∈ h.clusters, (∃ t ∈ k.2.throughs, h.unmapped t.pa = true) ∨
      ∃ e ∈ k.2.log, (∃ pa co va m, e.body = .redo pa co va m ∧ h.unmapped pa = true) ∨
        ∃ kd pa ea y, e.body = .red kd true pa ea y ∧ h.unmapped pa = true
    (busy → Ignored .xlinvDone s) ∧
    (¬ busy → ∃ g, Becomes .xlinvDone s g ∧ g.reg 0x430 = h.reg 0x430 &&& 0x7FFFFFFFFFFFFFFF#64 ∧ g.removed = [])) ∧
  (∀ s (x : BitVec 64), x.toNat < 64 →
    let h := s.chip
    let fits := h.anyPartition = false ∧ x.toNat ≤ 32 ∧ h.liveSlices = 512 - x.toNat
    (fits → ∃ g, Becomes (.sliceHashSelWrite x) s g ∧ g.reg 0x410 = x ||| 0x4000000000000000#64) ∧
    (¬ fits → ∃ g, Becomes (.sliceHashSelWrite x) s g ∧ g.reg 0x410 = h.reg 0x410 ||| 0x8000000000000000#64)) ∧
  (∀ s,
    ((s.chip.reg 0x410).getLsbD 62 = false → Ignored .sliceRehashComplete s) ∧
    ((s.chip.reg 0x410).getLsbD 62 = true → ∃ g, Becomes .sliceRehashComplete s g ∧ (g.reg 0x410).getLsbD 62 = false ∧
      g.tiers.slices = [] ∧ g.hbm = s.chip.hbm ∧
      ∀ i line, s.chip.tiers.slices = [(i, [⟨line, true⟩])] →
        ⟨line, true⟩ ∈ g.tiers.channels.getOr (channelOf (64 * line)) [])) ∧
  (∀ s (line : Nat),
    let held := fun (m : Map (List TierLine)) (y : TierLine) => ∃ p ∈ m, y ∈ p.2
    (∃ g, Becomes (.lineEviction 0 line) s g ∧ (∀ y, held g.tiers.slices y → y.line ≠ line) ∧ g.hbm = s.chip.hbm ∧
      (held s.chip.tiers.slices ⟨line, true⟩ → ⟨line, true⟩ ∈ g.tiers.channels.getOr (channelOf (64 * line)) [])) ∧
    (∃ g, Becomes (.lineEviction 1 line) s g ∧ (∀ y, held g.tiers.channels y → y.line ≠ line) ∧
      g.tiers.slices = s.chip.tiers.slices ∧ g.hbm = s.chip.hbm)) ∧
  (∀ s (v : Nat),
    ((s.chip.cluster v).throughs = [] → Ignored (.writeThroughPerform v) s) ∧
    (∀ t ts, (s.chip.cluster v).throughs = t :: ts → Memory.wf s.chip.hbm = true →
      ∃ g, Becomes (.writeThroughPerform v) s g ∧ (g.cluster v).throughs = ts ∧
        ∀ a, g.hbm.read a = if t.pa ≤ a ∧ a < t.pa + t.bytes.length then t.bytes.getD (a - t.pa) 0 else s.chip.hbm.read a))

/-! ## Events of the network (R122, R140, R193 to R197, R304, R305, R333, R348 to R356, R394, R395) -/

/-- A task's packet that reaches its core joins the queue of 40, whose last 8 entries are for arrivals and the floor task, or the overflow
area behind it, which refills the queue in its order; a migrating thread that brings no access becomes an arrival at its new cluster, and
one whose access meets a region that is gone goes home with the address; a held trap is delivered once its task is the floor task (R122,
R140, R195, R197). Where an access waits while its thread migrates is the model's choice (log 30). -/
def Obligations.PacketsAndArrivals : Prop :=
  (∀ s (k : Nat) f v c uid t, s.chip.flights.get k = some f → f.body = .task v c uid → s.chip.task? uid = some t →
    let h := s.chip
    let e := freshEntry h uid false
    let q := h.core v c
    let full := (if h.floorStamp t.pid t.packet.stamp = true then 40 else 32) ≤ q.queue.length
    (h.arrives t.pid v f = false → Ignored (.packetEnqueue k) s) ∧
    (h.arrives t.pid v f = true → ∃ g, Becomes (.packetEnqueue k) s g ∧ Delivered h g k ∧
      (full → (g.core v c).overflow = q.overflow ++ [e] ∧ (g.core v c).queue = q.queue) ∧
      (¬ full → (g.core v c).queue = q.queue ++ [e] ∧ (g.core v c).overflow = q.overflow))) ∧
  (∀ s (v c : Nat) e x,
    let h := s.chip
    let q := h.core v c
    e ∈ q.overflow → h.ticket v e = some x →
    (∀ e' ∈ q.overflow, e' ≠ e → ∀ x', h.ticket v e' = some x' → x.before x' = true ∧ x'.before x = false) →
    let limit := if x.floor = true ∨ e.arrival = true then 40 else 32
    (limit ≤ q.queue.length → Ignored (.overflowRefill v c) s) ∧
    (q.queue.length < limit → ∃ g, Becomes (.overflowRefill v c) s g ∧ (g.core v c).queue = q.queue ++ [{ e with seq := h.nextSeq }] ∧
      (g.core v c).overflow = q.overflow.filter fun y => decide (y.uid ≠ e.uid))) ∧
  (∀ s (k : Nat) f v q, s.chip.flights.get k = some f → f.body = .migration v q →
    let h := s.chip
    (h.arrives q.thread.pid v f = false → Ignored (.migrationArrival k) s) ∧
    (h.arrives q.thread.pid v f = true → q.access = none → q.claim = none →
      ∃ g x, Becomes (.migrationArrival k) s g ∧ Delivered h g k ∧ x ∈ (g.cluster v).parked ∧
        x.thread = { q.thread with away := decide (v ≠ q.thread.homeV) } ∧ x.regs = q.regs ∧
        (h.coreFits v q.core q.thread.regLim (h.floorStamp q.thread.pid q.thread.stamp) = true → x.core = q.core) ∧
        (if (h.core v x.core).queue.length < 40 then freshEntry h q.thread.uid true ∈ (g.core v x.core).queue
          else freshEntry h q.thread.uid true ∈ (g.core v x.core).overflow)) ∧
    (∀ a x, h.arrives q.thread.pid v f = true → q.access = some a → q.bounced = none → h.bounces v q.claim a = some x →
      ∃ g, Becomes (.migrationArrival k) s g ∧ Delivered h g k ∧
        InFlight g (.migration q.thread.homeV { q with bounced := some x }))) ∧
  (∀ s (v tid : Nat) q, (s.chip.cluster v).context tid = some q →
    (q.thread.held = none → Ignored (.heldTrapDelivery v tid) s) ∧
    (q.thread.held.isSome → s.chip.floorStamp q.thread.pid q.thread.stamp = true →
      (s.chip.core v q.core).queued tid = false →
      ∃ g, Becomes (.heldTrapDelivery v tid) s g ∧
        (if (s.chip.core v q.core).queue.length < 40
          then (g.core v q.core).queue = (s.chip.core v q.core).queue ++ [freshEntry s.chip tid true]
          else (g.core v q.core).overflow = (s.chip.core v q.core).overflow ++ [freshEntry s.chip tid true])))

/-- A message that reaches its cluster is kept until it is handed over, annihilates with its anti-message where that came first, and
otherwise is only acknowledged if it is known; an anti-message takes its positive from the set or waits for it. An acknowledgement that
overtook the sender's cut counts on to it. A cluster hands the least message over as a task with its handler's inputs (R348, R351 to R356,
R394, R395, R452). That a message whose handler is invalid does not hold back the others is the model's reading (log 29). -/
def Obligations.MessagesArriveAndAreHandedOver : Prop :=
  (∀ s (n : Nat) f m, s.chip.flights.get n = some f → f.body = .message m → m.srcPkg = (s.chip.part m.pid).pkg →
    let h := s.chip
    let v := m.destV
    let k := h.cluster v
    let a := antiOf m
    let known := (∃ x ∈ k.pending, a.names x.message = true) ∨ ∃ x ∈ k.annihilated, x.names m = true
    let acked := fun g : Chip => Becomes (.messageArrival n) s g ∧ Delivered h g n ∧
      InFlight g (.ack a m.srcV k.cutNo ((m.payload.length + 63) / 64))
    (h.arrives m.pid v f = false → Ignored (.messageArrival n) s) ∧
    (h.arrives m.pid v f = true → known → ∃ g, acked g ∧ g.cluster v = k) ∧
    (h.arrives m.pid v f = true → ¬ known → (∃ x ∈ k.orphans, x.names m = true) → ∃ g, acked g ∧ g.cluster v = { k with
      orphans := k.orphans.filter (fun x => !x.names m)
      annihilated := k.annihilated ++ [a] }) ∧
    (h.arrives m.pid v f = true → ¬ known → (∀ x ∈ k.orphans, x.names m = false) → ∃ g, acked g ∧ g.cluster v = { k with
      pending := k.pending ++ [{ message := m, overflow := !(h.landed n).pendingRoom v m }] })) ∧
  (∀ s (n : Nat) f a, s.chip.flights.get n = some f → f.body = .anti a → a.srcPkg = (s.chip.part a.pid).pkg →
    let h := s.chip
    let v := a.destV
    let k := h.cluster v
    let acked := fun g : Chip => Becomes (.antiMessageArrival n) s g ∧ Delivered h g n ∧
      InFlight g (.ack a a.srcV k.cutNo 0)
    (h.arrives a.pid v f = false → Ignored (.antiMessageArrival n) s) ∧
    let known := ∃ x, (x ∈ k.annihilated ∨ x ∈ k.orphans) ∧ a.same x = true
    (h.arrives a.pid v f = true → known → ∃ g, acked g ∧ g.cluster v = k) ∧
    (h.arrives a.pid v f = true → ¬ known →
      ((∀ x ∈ k.pending, a.names x.message = false) → ∃ g, acked g ∧ g.cluster v = { k with orphans := k.orphans ++ [a] }) ∧
      (∀ x, k.pending.find? (fun x => a.names x.message) = some x → x.task = none →
        ∃ g, acked g ∧ (∀ y ∈ (g.cluster v).pending, a.names y.message = false) ∧
          (g.cluster v).annihilated = k.annihilated ++ [a]))) ∧
  (∀ s (n : Nat) f a v cut units, s.chip.flights.get n = some f → f.body = .ack a v cut units →
    let h := s.chip
    let late := (h.cluster v).cutNo < cut
    (h.arrives a.pid v f = false → Ignored (.messageAck n) s) ∧
    (h.arrives a.pid v f = true → ∃ g, Becomes (.messageAck n) s g ∧ Delivered h g n ∧
      (late → (g.cluster v).late = (h.cluster v).late ++ [a.stamp]) ∧ (¬ late → g.cluster v = h.cluster v))) ∧
  (∀ s (v k : Nat) x, (s.chip.cluster v).pending[k]? = some x →
    let h := s.chip
    let m := x.message
    let e := (h.cluster v).handler m.handler
    m.destV = v → h.handable v x = true → h.present m.pid v = true → (h.cluster v).stopped = false → (h.cluster v).paused = false →
    (h.part m.pid).halted = false →
    (∀ y ∈ (h.cluster v).pending, h.handable v y = true → m.stamp.toNat ≤ y.message.stamp.toNat) →
    ∃ g t, Becomes (.messageHandover v k) s g ∧ g.tasks.get h.nextUid = some t ∧ t.pid = m.pid ∧ t.packet.origin = .message ∧
      t.packet.message = some m ∧ t.packet.pc = e.pc ∧ t.packet.tvec = e.tvec ∧ t.packet.regn = e.regn ∧ t.packet.stamp = m.stamp ∧
      t.packet.homeV = v ∧ t.packet.homeC = e.core ∧ t.packet.quiet = false ∧
      (∀ y ∈ (g.cluster v).pending, (antiOf m).names y.message = true → y.task = some h.nextUid) ∧
      ((h.core v e.core).queue.length < 32 → (g.core v e.core).queue = (h.core v e.core).queue ++ [freshEntry h h.nextUid false]))

/-- A router holds a packet while its own entry for the VCN is invalid, delivers it where the entry names its cluster, and forwards it
where the packet's GEN is older; a table update replaces the old entry at one router alone. A conflict notice takes the lease of its
line down to its stamp (R304, R305, R333). -/
def Obligations.RoutersAndNotices : Prop :=
  (∀ s (k : Nat) f v, s.chip.flights.get k = some f → f.body.dest = some v →
    let e := s.chip.routerEntry (f.pcn.toNat / 4) v
    let older := 1 ≤ (e.gen - f.gen).toNat ∧ (e.gen - f.gen).toNat ≤ 127
    (s.chip.ahead f = true → Ignored (.packetForward k) s) ∧
    (s.chip.ahead f = false → ∃ g f', Becomes (.packetForward k) s g ∧ g.flights.get k = some f' ∧ f'.body = f.body ∧
      (e.valid = false → f' = { f with held := true }) ∧
      (e.valid = true → e.pcn = f.pcn → f' = { f with held := false }) ∧
      (e.valid = true → e.pcn ≠ f.pcn → older → f' = { f with
        pcn := e.pcn, gen := e.gen, held := false, src := f.pcn.toNat / 4, order := s.chip.nextSeq }) ∧
      (e.valid = true → e.pcn ≠ f.pcn → ¬ older → f' = f))) ∧
  (∀ s (r v : Nat), ∃ g, Becomes (.tableEntryUpdate r v) s g ∧ g.routerEntry r v = s.chip.vmap.getOr v {} ∧
    ∀ q u, ¬ (q = r ∧ u = v) → g.routerEntry q u = s.chip.routerEntry q u) ∧
  (∀ s (k : Nat) f v line w b, s.chip.flights.get k = some f → f.body = .notice v line w b →
    let h := s.chip
    let arrives := h.arrives ((h.cluster v).pid.getD 0) v f
    (arrives = false → Ignored (.conflictNotice k) s) ∧
    (arrives = true → Becomes (.conflictNotice k) s ({ h with flights := h.flights.erase k }.performNotice v line w b)) ∧
    (arrives = true → b = false → w = none →
      (∀ x ∈ (h.cluster v).sigs, sigHolds x.lines (coherentKey line) = false) →
      ∃ g, Becomes (.conflictNotice k) s g ∧ (g.cluster v).leases.get line = none) ∧
    (∀ w', arrives = true → b = false → w = some w' →
      (∀ x ∈ (h.cluster v).sigs, sigHolds x.lines (coherentKey line) = true → (h.stampOf x.uid).toNat ≤ w'.toNat) →
      ∃ g, Becomes (.conflictNotice k) s g ∧
        (g.cluster v).leases.get line = ((h.cluster v).leases.get line).map fun l => if w'.toNat < l.toNat then w' else l))

/-! ## Events of virtual time and of launches (R307, R356, R357, R361, R364 to R386) -/

/-- A GVT round begins when its time has come; a cluster's cut adds the stamps of its unfinished tasks, of messages not yet handed over and
of messages under way; the commit phase makes the least stamp reported the GVT, ends the round and frees what a committed task held. A
redo byte that commits goes to its address. A released action is performed in order (R356, R357, R361). -/
def Obligations.VirtualTime : Prop :=
  (∀ s (pid : Nat),
    let h := s.chip
    let q := h.part pid
    let due := q.active = true ∧ q.halted = false ∧ q.off = false ∧ q.round = none ∧ q.nextRound ≤ h.now
    (¬ due → Ignored (.gvtRoundStart pid) s) ∧
    (due → ∃ g, Becomes (.gvtRoundStart pid) s g ∧ (g.part pid).round = some [] ∧ (g.part pid).reports = q.unplacedStamps ∧
      (g.part pid).roundNo = q.roundNo + 1 ∧ ∀ v, g.cluster v = h.cluster v)) ∧
  (∀ s (pid v : Nat) vs,
    let h := s.chip
    let q := h.part pid
    q.round = some vs →
    let cuts := v ∉ vs ∧ q.holds v = true ∧ q.off = false ∧ h.present pid v = true ∧ (h.cluster v).stopped = false
    (¬ cuts → Ignored (.gvtCut pid v) s) ∧
    (cuts → q.pkgCount = 0 → ∃ g xs, Becomes (.gvtCut pid v) s g ∧
      (g.part pid).round = some (vs ++ [v]) ∧ (g.part pid).reports = q.reports ++ xs ∧ (g.cluster v).cutNo = q.roundNo ∧
      (g.cluster v).late = [] ∧
      (∀ x ∈ (h.cluster v).pending, x.task = none → x.message.pid = pid → x.message.stamp ∈ xs) ∧
      (∀ a ∈ (h.cluster v).orphans, a.pid = pid → a.stamp ∈ xs) ∧
      (∀ w, (h.cluster v).lastMin = some w → w ∈ xs) ∧
      ((h.cluster v).lastMin = none →
      (∀ u t, (u, t) ∈ h.tasks → t.pid = pid → t.packet.homeV = v → t.stage = .queued ∨ t.stage = .running → t.packet.stamp ∈ xs) ∧
      (∀ w ∈ (h.cluster v).late, w ∈ xs) ∧
      (∀ n f m, (n, f) ∈ h.flights → f.body = .message m → m.srcV = v → m.pid = pid → m.stamp ∈ xs)))) ∧
  (∀ s (pid : Nat),
    let h := s.chip
    let q := h.part pid
    let c := h.localCandidate pid
    q.pkgCount = 0 → q.halted = false → q.off = false →
    (q.allCut = false ∨ h.commitHeld pid c = true → Ignored (.commitPhase pid) s) ∧
    (q.allCut = true → q.cairn = 0 → q.roped = false → q.ropeMine = [] →
      (h.committingSet pid c = [] → ∃ g, Becomes (.commitPhase pid) s g ∧ (g.part pid).gvt = (if c = noStamp then none else some c) ∧
        (g.part pid).round = none ∧ (g.part pid).reports = [] ∧ g.tasks = h.tasks ∧ g.hbm = h.hbm ∧
        ∀ v line w, (h.cluster v).pid = some pid → (line, w) ∈ (g.cluster v).leases → c ≠ noStamp ∧ c.toNat ≤ w.toNat) ∧
      (∀ uid t, h.committingSet pid c = [(uid, t)] → h.openCmds uid = 0 → h.recordsOf uid = [] → h.shadows = [] → t.launch = none →
        t.exitCode = none → groupIds t.packet.grps = [] →
        ∃ g, Becomes (.commitPhase pid) s g ∧ (g.part pid).gvt = (if c = noStamp then none else some c) ∧
          g.tasks = h.tasks.erase uid ∧ g.hbm = h.hbm ∧
          ∀ v, (g.cluster v).sigs = (h.cluster v).sigs.filter fun x => decide (x.uid ≠ uid)))) ∧
  (∀ (h : Chip) (pid v pa o : Nat) (w : Word) (b : Byte), Memory.wf h.hbm = true →
    ∀ a, (h.performLazy pid w (.drain v pa false [(o, b)])).hbm.read a = if a = pa + o then b else h.hbm.read a) ∧
  (∀ s (pid : Nat),
    let h := s.chip
    let q := h.part pid
    (q.irvs = [] → Ignored (.irvPerform pid) s) ∧
    (∀ x xs, q.irvs = x :: xs → q.released x = false → Ignored (.irvPerform pid) s) ∧
    (∀ x xs, q.irvs = x :: xs → q.halted = false → q.released x = true → q.irvDone = none → q.roped = false →
      (x.kind = .host → h.hostCovers x.addr 64 = false → Ignored (.irvPerform pid) s) ∧
      (x.kind = .host → h.hostCovers x.addr 64 = true → ∃ g, Becomes (.irvPerform pid) s g ∧ (g.part pid).irvs = xs ∧
        g.host = h.host.writeBytes x.addr x.payload) ∧
      (x.kind = .flash →
        let a := 64 * q.irvBase.toNat + x.addr
        ∃ g, Becomes (.irvPerform pid) s g ∧ (g.part pid).irvs = xs ∧
          g.flash = if Config.bootRefuses a x.payload then h.flash else h.flash.writeBytes a x.payload) ∧
      (x.kind = .db → ∃ g, Becomes (.irvPerform pid) s g ∧ (g.part pid).irvs = xs ∧ g.reg (0x450 + x.addr % 8) = x.y ∧
        g.msix = h.msix ++ [56 + x.addr % 8])))

/-- The launch window: a record, the partition that a group-table access goes to, an entry of its table; LSUB hands a record over unless
its slot is BUSY. The first launch handed over is refused with its reason, or accepted as the next launch number with every chunk still to
place; a device launch is always accepted. A chunk handed out places a task for each of its indices (R307, R364 to R369, R371, R379). The
order in which a launch's refusals are tried is the model's reading (log 28). -/
def Obligations.Launches : Prop :=
  (∀ s (off : Nat) (x : BitVec 64),
    let h := s.chip
    let i : Instr := .windowAWrite off x
    let gid := (off - 0xC000) / 32
    (off % 8 ≠ 0 ∨ h.stage = 15 → Ignored i s) ∧
    (off % 8 = 0 → h.stage ≠ 15 →
      (off < 0x4000 → ∃ g, Becomes i s g ∧ g.winA.recs.getOr (off / 8) 0 = x ∧
        ∀ j, j ≠ off / 8 → g.winA.recs.getOr j 0 = h.winA.recs.getOr j 0) ∧
      (off = 0x8008 → ∃ g, Becomes i s g ∧ g.winA.gtsel = BitVec.ofNat 20 x.toNat) ∧
      (0xC000 ≤ off → off < 0xE000 → off % 32 = 0 → ∃ g, Becomes i s g ∧
        (g.group h.winA.gtsel.toNat gid).banks.toNat = x.toNat % 2 ^ 32 ∧
        (g.group h.winA.gtsel.toNat gid).vcn0.toNat = x.toNat / 2 ^ 32 % 2 ^ 11 ∧
        (g.group h.winA.gtsel.toNat gid).vcnn.toNat = x.toNat / 2 ^ 48 % 2 ^ 11) ∧
      (0xC000 ≤ off → off < 0xE000 → off % 32 = 8 → ∃ g, Becomes i s g ∧
        (g.group h.winA.gtsel.toNat gid).flags = BitVec.ofNat 8 x.toNat &&& 0x77#8 ∧
        (g.group h.winA.gtsel.toNat gid).arrive.toNat = x.toNat / 2 ^ 32) ∧
      (0xC000 ≤ off → off < 0xE000 → 16 ≤ off % 32 → Ignored i s))) ∧
  (∀ s (x : BitVec 64),
    let h := s.chip
    let slot := bits x 0 8
    let pid := bits x 8 20
    let busy := (h.winA.lstat.getOr slot 0).getLsbD 61
    h.stage ≠ 15 → (busy = true → Ignored (.launchSubmit x) s) ∧
    (busy = false → ∃ g, Becomes (.launchSubmit x) s g ∧ g.winA.lstat.getOr slot 0 = 0x2000000000000000#64 ∧
      (g.part pid).reqs = (h.part pid).reqs ++ [{ slot := some slot, record := h.winA.record slot, block := [], tvec := 0 }])) ∧
  (∀ s (pid : Nat) r rs,
    let h := s.chip
    let q := h.part pid
    let i : Instr := .launchProcess pid
    q.reqs = r :: rs →
    (q.active = true → q.halted = true ∨ q.off = true ∨ q.tooEarly r = true → Ignored i s) ∧
    ((q.active = true → q.halted = false ∧ q.off = false ∧ q.tooEarly r = false) → r.run = none →
      (r.slot = none → r.forwarded = false → ∃ g, Becomes i s g ∧ (g.part pid).reqs = rs ∧ (g.part pid).lnum = q.lnum + 1 ∧
        (g.part pid).jobs = q.jobs ++ [newJob q r r.block h.now] ∧ (g.part pid).gvt = some (q.gvt.getD (indexStamp r.record 0))) ∧
      (∀ k, r.slot = some k →
        (recMalformed r.record = true → h.launchChecks pid r = .error (.refuse 1)) ∧
        (recMalformed r.record = false → (recordGroups r.record).any (fun g => (h.group pid g).gang) = false → q.active = false →
          h.launchChecks pid r = .error (.refuse 2)) ∧
        (∀ n, h.launchChecks pid r = .error (.refuse n) → ∃ g, Becomes i s g ∧ (g.part pid).reqs = rs ∧ (g.part pid).jobs = q.jobs ∧
          g.winA.lstat.getOr k 0 = BitVec.ofNat 64 (n * 2 ^ 48) ∧ 0 ∈ g.msix) ∧
        (∀ b is h', h.launchChecks pid r = .ok (b, is, h') → ∃ g, Becomes i s g ∧
          g.winA.lstat.getOr k 0 = BitVec.ofNat 64 (2 ^ 62 + ((h'.part pid).lnum + 1) % 2 ^ 32) ∧ 0 ∈ g.msix ∧
          (g.part pid).lnum = (h'.part pid).lnum + 1)))) ∧
  (∀ s (pid lnum chunk : Nat) j,
    let h := s.chip
    let i : Instr := .chunkHandout pid lnum chunk
    (h.part pid).jobs.find? (fun j => decide (j.lnum = lnum) && j.unplaced.contains chunk) = some j →
    ((h.part pid).halted = true ∨ (h.part pid).off = true ∨ h.master ∈ h.fences → Ignored i s) ∧
    ((h.part pid).halted = false → (h.part pid).off = false → h.master ∉ h.fences → ∃ g, Becomes i s g ∧
      ∀ n, n < 64 → 64 * chunk + n < j.count → ∃ t, g.tasks.get (h.nextUid + n) = some t ∧ t.pid = pid ∧ t.launch = some lnum ∧
        t.stage = .queued ∧ t.packet = h.launchPacket pid j (64 * chunk + n)))

/-- A member that stands at its group's barrier, its writes performed, arrives; once as many have arrived as the group expects, each goes
on with the combined value and the count restarts; the waiting members of a group that all fit are granted together; a group that has
waited 20 us reserves its clusters, and 2 us later the threads that are no members leave them, but never the floor task (R340, R376, R381
to R383). -/
def Obligations.BarriersAndPlacement : Prop :=
  (∀ s (pid gid tid : Nat) t op x,
    let h := s.chip
    let g0 := h.group pid gid
    let room := g0.arrive = 0 ∨ g0.arrivals.length < g0.arrive.toNat
    h.findThread tid = some t → t.wait = .barrier gid op x → t.pid = pid → h.settled tid = true →
    ((∃ a ∈ g0.arrivals, a.1 = tid) ∨ ¬ room ∨ (∃ v ∈ h.whereIs tid, (h.cluster v).stopped = true) → Ignored (.barrierArrival pid gid tid) s) ∧
    ((∀ a ∈ g0.arrivals, a.1 ≠ tid) → room → (∀ v ∈ h.whereIs tid, (h.cluster v).stopped = false) → ∃ g, Becomes (.barrierArrival pid gid tid) s g ∧
      (g.group pid gid).arrivals = g0.arrivals ++ [(tid, op, x)])) ∧
  (∀ s (pid gid : Nat),
    let h := s.chip
    let g0 := h.group pid gid
    let need := if g0.arrive = 0 then h.quietMembers pid gid else g0.arrive.toNat
    let r := barrierValue (g0.arrivals.map (·.2))
    (h.part pid).pkgCount = 0 →
    (g0.arrivals = [] ∨ g0.arrivals.length < need → Ignored (.barrierComplete pid gid) s) ∧
    (g0.arrivals ≠ [] → need ≤ g0.arrivals.length → ∃ g, Becomes (.barrierComplete pid gid) s g ∧
      (g.group pid gid).arrivals = [] ∧ (g.group pid gid).epoch = g0.epoch + 1 ∧
      ∀ p t, p.t ≠ 0 → h.slot p = .live t → (∃ a ∈ g0.arrivals, a.1 = t.uid) →
        g.slot p = .live { t with wait := .released r.1 r.2.1 r.2.2 })) ∧
  (∀ s (pid gid : Nat),
    let h := s.chip
    (h.placeable pid gid = false → Ignored (.groupPlacement pid gid) s) ∧
    (h.placeable pid gid = true → ∃ g, Becomes (.groupPlacement pid gid) s g ∧ (g.group pid gid).waiting = none ∧
      (∀ m ∈ h.waitingMembers pid gid, m.1 ∈ (g.group pid gid).granted) ∧
      ∀ v, (h.cluster v).reserved = some (pid, gid) → (g.cluster v).reserved = none)) ∧
  (∀ s (pid gid t : Nat),
    let h := s.chip
    (h.group pid gid).waiting = some t →
    (h.now < t + 20000 → Ignored (.gangReservation pid gid) s) ∧
    (t + 20000 ≤ h.now → ∃ g, Becomes (.gangReservation pid gid) s g ∧
      ∀ m ∈ h.waitingMembers pid gid, ∀ v, m.2.packet.homeV = v → h.outranked pid gid v = false → (h.cluster v).reserved = none →
        (g.cluster v).reserved = some (pid, gid)) ∧
    let due := fun v => (h.cluster v).reserved = some (pid, gid) ∧ (h.cluster v).reservedAt + 2000 ≤ h.now
    ((∀ c ∈ homesOf (h.waitingMembers pid gid), ¬ due c.1) → Ignored (.reservationPreempt pid gid) s) ∧
    (∃ g, Becomes (.reservationPreempt pid gid) s g ∧
      (∀ p x, h.slot p = .live x → x.uid ∈ (h.group pid gid).members ∨ h.floorStamp x.pid x.stamp = true → g.slot p = .live x) ∧
      ∀ c ∈ homesOf (h.waitingMembers pid gid), due c.1 → (h.core c.1 c.2).stopped = false →
        g.coreHolds c.1 c.2 (h.waitingMembers pid gid) = true ∨
          ∀ n x, 0 < n → n < 16 → g.slot ⟨c.1, c.2, n⟩ = .live x →
            x.uid ∈ (h.group pid gid).members ∨ h.floorStamp x.pid x.stamp = true))

/-! ## Events of partitions and of the fabric (R160, R166, R347, R385, R388, R397 to R400, R413, R427 to R437) -/

/-- Writes of a cluster's SCRCFG and HNDCFG and of a partition's PCAIRN and FRDAT store their values, or change nothing but a refusal bit
where the rule refuses them; a create command gives the partition its clusters with its own screening and dispatcher and no handler, a
destroy command takes them away; a pre-empted partition's threads leave their slots, and it resumes where no other runs on its clusters
(R166, R347, R385, R388, R413, R428). What PCAIRN counts as uncommitted, and that a screened cluster of several packages is refused, are
the model's readings (logs 25 and 59). -/
def Obligations.PartitionControls : Prop :=
  (∀ s (v : Nat) (x : BitVec 64),
    let h := s.chip
    let k := h.cluster v
    let i : Instr := .scrcfgWrite v x
    let bad := x &&& 0x101#64 ≠ x ∨ (x ≠ k.scrWord ∧ h.scrBusy v = true) ∨ (x.getLsbD 0 = true ∧ h.spread v = true)
    (bad → Ignored i s) ∧
    (¬ bad → ∃ g, Becomes i s g ∧ g.cluster v = { k with screen := x.getLsbD 0, checked := x.getLsbD 8 })) ∧
  (∀ s (v : Nat) (x : BitVec 64),
    let k := s.chip.cluster v
    let i : Instr := .hndcfgWrite v x
    let bad := x &&& 0x9FFF770F#64 ≠ x ∨
      (x.getLsbD 31 = true ∧ (bits x 0 4 = 0 ∨ 6 < bits x 12 3 ∨ 256 < bits x 16 8 + 2 ^ bits x 12 3))
    (bad → Ignored i s) ∧
    (¬ bad → ∃ g, Becomes i s g ∧
      (g.cluster v).handler k.hndIdx.toNat = { pc := k.hndPc, tvec := k.hndTvec, cfg := BitVec.ofNat 32 x.toNat } ∧
      ∀ n, n ≠ k.hndIdx.toNat → (g.cluster v).handler n = k.handler n)) ∧
  (∀ s (pid : Nat) (x : BitVec 64),
    let h := s.chip
    let q := h.part pid
    let i : Instr := .pcairnWrite pid x
    let n := bits x 40 4
    (q.active = false ∨ h.anyTask pid = true ∨ 8 < n → ∃ g, Becomes i s g ∧ g.part pid = { q with cairnRefused := true } ∧
      ∀ v, g.cluster v = h.cluster v) ∧
    let wrong := (q.roped = true ∧ (bits x 0 40 = 0 ∨ bits x 44 12 = 0)) ∨ (bits x 56 8 ≠ 0 ∧ h.reg 0x4C4 = 0)
    (q.active = true → wrong → ∃ g, Becomes i s g ∧ (g.part pid).cairnRefused = true ∧ (g.part pid).cairn = q.cairn) ∧
    (q.active = true → h.anyTask pid = false → n ≤ 8 → ¬ wrong → (∀ v, q.holds v = true → h.present pid v = true) →
      (∀ v b, h.bankLive v b = false) →
      ∃ g, Becomes i s g ∧ (g.part pid).cairn = x ∧ (g.part pid).cairnRefused = false ∧
        ∀ v b, v < 2048 → q.holds v = true → h.present pid v = true → b < 32 → (g.cluster v).mode b =
          if bits x 0 40 ≠ 0 ∧ 32 - n ≤ b then .cairn
          else if (h.cluster v).mode b = .cairn then .scratch else (h.cluster v).mode b)) ∧
  (∀ s (pid : Nat) (x : BitVec 64),
    let q := s.chip.part pid
    let n := q.fridx.toNat
    let i : Instr := .frdatWrite pid x
    let bad := x &&& 0x80000000000000FF#64 ≠ x ∨ bits q.fabcfg 8 8 < bits x 0 8
    (bad → Ignored i s) ∧ (¬ bad → ∃ g, Becomes i s g ∧ (g.part pid).frdatWord n = x)) ∧
  (∀ s (pid : Nat),
    let h := s.chip
    let q := h.part pid
    let i : Instr := .partitionCreate pid
    (h.mayCreate pid = false → Becomes i s (h.modPart pid fun q => { q with refused := true })) ∧
    (h.mayCreate pid = true → h.sharers pid = [] → ∃ g, Becomes i s g ∧
      (let r := g.part pid
       r.active = true ∧ r.gvt = none ∧ r.lnum = 0 ∧ r.groups = [] ∧ r.cairn = 0 ∧ r.period = 1000 ∧ r.grade = s.gradeWord ∧
         r.irvBase = 0 ∧ r.irvSize = 0) ∧
      (∀ v, v < 2048 → q.holds v = true → (g.cluster v).pid = some pid ∧ (g.cluster v).screen = q.screen ∧
        (g.cluster v).checked = q.checked ∧ (g.cluster v).handlers = [] ∧
        (q.disp ≠ 0 → ∀ c, c < 8 → ∃ t, g.slot ⟨v, c, 0⟩ = .live t ∧ t.pc = q.disp ∧ t.sup = true ∧ t.pid = pid)))) ∧
  (∀ s (pid : Nat),
    let h := s.chip
    let q := h.part pid
    let i : Instr := .partitionDestroy pid
    (h.mayDestroy pid = false → Becomes i s (h.modPart pid fun q => { q with refused := true })) ∧
    (h.mayDestroy pid = true → ∃ g, Becomes i s g ∧ (g.part pid).active = false ∧
      ∀ v, v < 2048 → q.holds v = true → h.present pid v = true → (g.cluster v).pid = none)) ∧
  (∀ s (pid : Nat),
    let h := s.chip
    let q := h.part pid
    (q.active = false ∨ q.off = true → Ignored (.partitionPreempt pid) s) ∧
    (q.active = true → q.off = false → ∃ g, Becomes (.partitionPreempt pid) s g ∧ (g.part pid).off = true ∧
      ∀ v c t x, v < 2048 → c < 8 → 0 < t → t < 16 → q.holds v = true → h.present pid v = true → (h.core v c).stopped = false →
        h.slot ⟨v, c, t⟩ = .live x →
        g.slot ⟨v, c, t⟩ = .free ∧ ∃ k ∈ (g.cluster v).parked, k.thread = x ∧ k.core = c) ∧
    (h.mayResume pid = false → Ignored (.partitionResume pid) s) ∧
    (h.mayResume pid = true → ∃ g, Becomes (.partitionResume pid) s g ∧ (g.part pid).off = false ∧
      ∀ v, (h.cluster v).pid = some pid → g.cluster v = h.cluster v))

/-- A frame that comes early or is of another kind waits; one not acknowledged in 20 us is sent again, and a package that acknowledges
nothing for 10 ms is lost with every partition that reaches it. In order, a publication's data becomes an ended task that owns the written
backing, and GVT values, group reports and digests are taken in; an interval whose digests agree advances the count, and a tie-break that
agrees clears the divergence while another halts the partition (R427, R430 to R435). The numbering of a pure acknowledgement and the body
of a group frame are the model's choices (log 24). -/
def Obligations.FabricFrames : Prop :=
  (∀ s (k kind : Nat) i f, TakesFrame k kind i → s.chip.frameIn k = some f →
    f.kind ≠ kind ∨ (f.received = false ∧ s.chip.frameGot.getOr f.src 0 + 1 < f.seq) → Ignored i s) ∧
  (∀ s (k : Nat) f, s.chip.unacked.get k = some f →
    let h := s.chip
    let held := f.received = true ∨ h.now < f.since + 20000 ∨ f.dest ∈ h.lostPkgs
    (held → Ignored (.frameRetransmit k) s) ∧
    (¬ held → ∃ g, Becomes (.frameRetransmit k) s g ∧ g.wire = h.wire ++ [{ f with ack := h.frameGot.getOr f.dest 0 }])) ∧
  (∀ s (pkg : Nat),
    let h := s.chip
    (h.silent pkg = false ∨ pkg ∈ h.lostPkgs → Ignored (.packageLost pkg) s) ∧
    (h.silent pkg = true → pkg ∉ h.lostPkgs → ∃ g, Becomes (.packageLost pkg) s g ∧ pkg ∈ g.lostPkgs ∧
      ∀ pid q, (pid, q) ∈ h.parts → q.reaches pkg = true → (g.part pid).halted = true)) ∧
  (∀ s (k : Nat) f m, s.chip.flights.get k = some f → f.body = .publication m →
    let h := s.chip.warm m.pid m.fmtA.toNat
    let i : Instr := .fabricPublicationData k
    ((s.chip.part m.pid).halted = true → Ignored i s) ∧
    ((s.chip.part m.pid).halted = false → h.mappedBuffer m.pid m.fmtA.toNat = none →
      ∃ g, Becomes i s g ∧ (g.part m.pid).halted = true) ∧
    (∀ r n ns, (s.chip.part m.pid).halted = false → h.mappedBuffer m.pid m.fmtA.toNat = some r → h.pubSize r = m.payload.length →
      h.floorStamp m.pid m.stamp = false → h.freeBackings r = n :: ns →
      ∃ g t, Becomes i s g ∧ g.tasks.get h.nextUid = some t ∧ t.stage = .ended ∧ t.packet.stamp = m.stamp ∧ t.pid = m.pid ∧
        g.hbm = h.hbm.writeBytes (h.backing r n) m.payload ∧
        ∃ x ∈ g.shadows, x.uid = h.nextUid ∧ x.record = r ∧ x.backing = n ∧ x.marked.isSome)) ∧
  (∀ s (k : Nat) f c, NextFrame s.chip k 5 f → (s.chip.part f.pid).allCut = false →
    (f.body = [0, c] → (s.chip.part f.pid).remoteCandidates.get f.src = none → ∃ g, Becomes (.fabricGvtFrame k) s g ∧
      (g.part f.pid).remoteCandidates.get f.src = some c ∧ g.frameGot.getOr f.src 0 = f.seq) ∧
    (f.body = [1, c] → (s.chip.part f.pid).remoteStops.get f.src = none → ∃ g, Becomes (.fabricGvtFrame k) s g ∧
      (g.part f.pid).remoteStops.get f.src = some c ∧ g.frameGot.getOr f.src 0 = f.seq)) ∧
  (∀ s (k : Nat) f gid rep, NextFrame s.chip k 6 f → f.body = 0 :: gid :: rep → ∃ g, Becomes (.fabricGroupFrame k) s g ∧
    (g.group f.pid gid.toNat).remotes.get f.src = some rep ∧ g.frameGot.getOr f.src 0 = f.seq) ∧
  (∀ s (k : Nat) f n a b c d, NextFrame s.chip k 7 f → f.body = [n, a, b, c, d] → (s.chip.part f.pid).ropeMine = [] →
    ∃ g, Becomes (.ropeDigestFrame k) s g ∧ (g.part f.pid).ropeTheirs.get n.toNat = some (d ++ c ++ b ++ a)) ∧
  (∀ (h : Chip) (pid : Nat) a,
    let q := h.part pid
    q.diverged = false → q.ropeMine.get q.ropeAgreed = some a →
    (q.ropeTheirs.get q.ropeAgreed = some a → ((h.ropeCompare pid 1).part pid).ropeAgreed = q.ropeAgreed + 1) ∧
    (∀ b, q.ropeTheirs.get q.ropeAgreed = some b → a ≠ b → h.images = [] →
      ((h.ropeCompare pid 1).part pid).diverged = true ∧ ((h.ropeCompare pid 1).part pid).halted = true)) ∧
  (∀ s (pid : Nat) (mine theirs : BitVec 256),
    let h := s.chip
    let q := h.part pid
    let i : Instr := .tieBreakEnd pid mine theirs
    (q.tie = none → Ignored i s) ∧
    (∀ k a b, q.tie = some (k, a, b) →
      (q.ropeMine.get k ≠ some mine ∨ q.ropeTheirs.get k ≠ some theirs → Ignored i s) ∧
      (q.ropeMine = [(k, mine)] → q.ropeTheirs.get k = some theirs → q.ropeAgreed = k → mine = theirs → mine = a ∨ mine = b →
        ∃ g, Becomes i s g ∧ (g.part pid).diverged = false ∧ (g.part pid).tie = none ∧ (g.part pid).ropeAgreed = k + 1) ∧
      (q.ropeMine.get k = some mine → q.ropeTheirs.get k = some theirs → ¬ (mine = theirs ∧ (mine = a ∨ mine = b)) → h.images = [] →
        ∃ g, Becomes i s g ∧ (g.part pid).halted = true)))

/-- At a slice gate the occupant of a package is pre-empted and the partition that is next resumes once every package of it has reported; 2
us after the gate the slice is abandoned and the occupant resumes. A flash image that is written becomes the partition's last, and every
S-th is sent to the store; a partner's acknowledgement makes the new cairn point the cluster's last (R400, R436, R437). Which package
reports at a gate is the model's choice (log 24). -/
def Obligations.SlicesAndImages : Prop :=
  (∀ s,
    let h := s.chip
    let n := h.now / h.gatePeriod
    let due := h.fgate.getLsbD 63 = true ∧ h.gateAt = none ∧ h.gateNum < n ∧ (h.part h.incoming).count ≠ 0
    (¬ due → Ignored .sliceGate s) ∧
    (∀ p q, due → h.occupant = some p → h.incoming = q → p ≠ q →
      ∃ g, Becomes .sliceGate s g ∧ g.gateNum = n ∧ g.gateAt = some (n * h.gatePeriod) ∧ g.gateOut = some p ∧ (g.part p).off = true ∧
        g.gateNext = h.gateNext ∧ ∀ d, d ≤ (h.part q).count → d ≠ (h.part q).pkg →
          ∃ f ∈ g.wire, f.kind = 9 ∧ f.pid = q ∧ f.dest = d ∧ f.body = [BitVec.ofNat 64 n])) ∧
  (∀ s (k : Nat) f n, NextFrame s.chip k 9 f → f.body = [n] → n.toNat = s.chip.gateNum → s.chip.gateAt.isSome →
    ∃ g, Becomes (.sliceGateFrame k) s g ∧ f.src ∈ g.gateReports ∧ g.frameGot.getOr f.src 0 = f.seq ∧
      ∀ t, s.chip.gateAt = some t → s.chip.now ≤ t + 2000 → s.chip.mayResume s.chip.incoming = true →
        (∀ d, d ≤ (s.chip.part s.chip.incoming).count →
          d = (s.chip.part s.chip.incoming).pkg ∨ d = f.src ∨ d ∈ s.chip.gateReports) →
        (g.part s.chip.incoming).off = false ∧ g.gateAt = none ∧ g.gateNext = (s.chip.gateNext + 1) % s.chip.gateEntries) ∧
  (∀ s,
    let h := s.chip
    (h.gateAt = none → Ignored .sliceAbandon s) ∧
    (∀ t, h.gateAt = some t →
      (h.now < t + 2000 → Ignored .sliceAbandon s) ∧
      (t + 2000 ≤ h.now → ∃ g, Becomes .sliceAbandon s g ∧ g.gateAt = none ∧ g.gateNext = h.gateNext ∧
        ∀ p, h.gateOut = some p → h.mayResume p = true → (g.part p).off = false))) ∧
  (∀ s (pid : Nat),
    let h := s.chip
    let q := h.part pid
    (h.images.get (2 * pid + 1) = none → Ignored (.flashImageWritten pid) s) ∧
    (∀ x, h.images.get (2 * pid + 1) = some x → ∃ g, Becomes (.flashImageWritten pid) s g ∧ g.images.get (2 * pid) = some x ∧
      (g.part pid).imageBusy = false ∧ (g.part pid).imagesTaken = q.imagesTaken + 1 ∧
      (q.roped = false → (g.part pid).launched = (q.launched.filter fun l => decide (x.part.lnum < l.1))) ∧
      (g.part pid).imageVt = if bits q.cairn 56 8 ≠ 0 ∧ h.reg 0x4C4 ≠ 0 ∧ (q.imagesTaken + 1) % bits q.cairn 56 8 = 0
        then some x.vt else q.imageVt) ∧
    (q.imageVt = none → Ignored (.imageDataFrame pid) s) ∧
    (∀ vt, q.imageVt = some vt → ∃ g f, Becomes (.imageDataFrame pid) s g ∧ g.wire = h.wire ++ [f] ∧ f.kind = 8 ∧ f.pid = pid ∧
      f.seq = h.frameSeq.getOr f.dest 0 + 1 ∧ (∃ n, g.unacked.get n = some f) ∧ (g.part pid).imageVt = none ∧
      f.body = h.reg 0x4C4 :: BitVec.ofNat 64 vt ::
        (match h.images.get (2 * pid) with | some x => if x.vt = vt then h.imageWords pid x else [] | none => []))) ∧
  (∀ s (v : Nat),
    let k := s.chip.cluster v
    (k.cairnNext = none → ∃ g, Becomes (.cairnAcknowledge v) s g ∧ g.cluster v = k) ∧
    (∀ c, k.cairnNext = some c → ∃ g, Becomes (.cairnAcknowledge v) s g ∧ g.cluster v =
      { k with cairn := some c, cairnNext := none, inputs := k.inputsNext, inputsNext := [] }))

/-! ## Events of the pool, of bring-up and of the host attachment (R304, R309, R389 to R408, R411, R416, R420 to R425, R462) -/

/-- A rotation drains its source, copies it, remaps the VCN and ends with the source FALLOW; a self-test that passes makes a cluster SPARE
and one that fails retires it with an entry of the report; ROTCTL takes a FALLOWN of 32 to 64 and ROTREQ asks for a rotation of a VCN
(R390 to R393, R407, R408, R411). -/
def Obligations.RotationAndSelfTest : Prop :=
  (∀ s (src dst : Nat),
    (s.rotationOf src dst = none → Ignored (.rotationStart src dst) s) ∧
    (∀ v, s.rotationOf src dst = some v → ∃ t, exec (.rotationStart src dst) s = .next t ∧
      t.pool.rotations = s.pool.rotations ++ [{ v := v, src := src, dst := dst, step := .drain }] ∧ v ∉ t.pool.requests ∧
      (t.chip.cluster v).paused = true ∧ (t.chip.cluster v).holding = true ∧
      ∀ c n x, c < 8 → 0 < n → n < 16 → (s.chip.core v c).stopped = false → s.chip.slot ⟨v, c, n⟩ = .live x → t.chip.slot ⟨v, c, n⟩ = .free)) ∧
  (∀ s (v : Nat) r, s.pool.rotation v = some r →
    let e := s.chip.vmap.getOr v {}
    (r.step ≠ .drain ∨ s.chip.drained v = false → Ignored (.rotationCopy v) s) ∧
    (r.step = .drain → s.chip.drained v = true → ∃ t, exec (.rotationCopy v) s = .next t ∧
      t.pool.rotation v = some { r with step := .copied } ∧ (t.chip.cluster v).cache = [] ∧ (t.chip.cluster v).leases = [] ∧
      (t.chip.cluster v).scratch = (s.chip.cluster v).scratch) ∧
    (r.step ≠ .copied → Ignored (.rotationRemap v) s) ∧
    (r.step = .copied → ∃ t, exec (.rotationRemap v) s = .next t ∧ t.pool.rotation v = some { r with step := .remapped } ∧
      t.chip.vmap.getOr v {} = { valid := true, pcn := BitVec.ofNat 11 r.dst, gen := e.gen + 1 } ∧
      (t.chip.cluster v).holding = false) ∧
    (r.step ≠ .remapped → Ignored (.rotationResume v) s) ∧
    (r.step = .remapped → r.src ≠ r.dst → ∃ t, exec (.rotationResume v) s = .next t ∧ t.pool.rotation v = none ∧
      (t.pool.pcn r.dst).state = .live v ∧ (t.pool.pcn r.src).state = .fallow ∧ (t.chip.cluster v).paused = false)) ∧
  (∀ s (p : Nat),
    let due := s.fallowCount < s.fallowTarget ∧ s.chip.reduced = false ∧ s.canRotate = false ∧
      (s.pool.longest fun x => decide (x.2.state = .spare) && !s.pool.fills x.1) = some p
    (¬ due → Ignored (.selfTestStart p) s) ∧
    (due → ∃ t, exec (.selfTestStart p) s = .next t ∧ (t.pool.pcn p).state = .fallow ∧ t.chip = s.chip)) ∧
  (∀ s (p n : Nat),
    let old := (s.pool.pcn p).age
    let age := if n = 1 then raiseAge old 2 else old
    ((s.pool.pcn p).state ≠ .fallow ∨ s.pool.fills p = true → Ignored (.selfTestEnd p n) s) ∧
    ((s.pool.pcn p).state = .fallow → s.pool.fills p = false →
      (n ≤ 1 → age.toNat < 16 → ∃ t, exec (.selfTestEnd p n) s = .next t ∧ (t.pool.pcn p).state = .spare ∧
        (t.pool.pcn p).age = age ∧ t.chip = s.chip) ∧
      (1 < n ∨ 16 ≤ age.toNat → ∃ t e, exec (.selfTestEnd p n) s = .next t ∧ (t.pool.pcn p).state = .retired ∧
        t.pool.retired = s.pool.retired ++ [e] ∧ e.age = age ∧ e.pcn = BitVec.ofNat 11 p ∧
        e.cause.toNat = (if 1 < n then 2 else 1) ∧ 3 ∈ t.chip.msix))) ∧
  (∀ s (x : BitVec 64),
    let bad := x &&& 0x8000007F#64 ≠ x ∨ bits x 0 7 < 32 ∨ 64 < bits x 0 7
    (bad → Ignored (.rotctlWrite x) s) ∧
    (¬ bad → ∃ t, exec (.rotctlWrite x) s = .next t ∧ t.chip.reg 0x460 = x)) ∧
  (∀ s (x : BitVec 64),
    (2 ^ 12 ≤ x.toNat ∨ s.chip.v ≤ bits x 0 11 ∨ x.getLsbD 11 = false → Ignored (.rotationRequest x) s) ∧
    (x.toNat < 2 ^ 12 → bits x 0 11 < s.chip.v → x.getLsbD 11 = true → ∃ t, exec (.rotationRequest x) s = .next t ∧
      bits x 0 11 ∈ t.pool.requests ∧ t.chip = s.chip))

/-- A machine check that can arise stops its cluster and adds to its counter; the restore of a stopped cluster takes its last cairn and a
target, and ends with the VCN on it and the failed cluster FALLOW, or with its partition halted where the digests differ; a fenced die's table entries are invalid, and the lowest live die is
master in place of a fenced one and sends again the launched tasks that the die has lost (R175, R248, R309, R401 to R404, R407). What a
restore leaves of the threads it restarts is the model's choice (log 27). -/
def Obligations.ErrorsAndRestores : Prop :=
  (∀ s (v code c n : Nat) (d : BitVec 16) (d2 : BitVec 64),
    let e := s.chip.vmap.getOr v {}
    let i : Instr := .errorStop v code c n d d2
    let arises := code = 0x22 ∨ (code = 0x21 ∧ ∃ p ∈ (s.chip.cluster v).cores, p.2.screened = true) ∨
      (code = 0x20 ∧ (s.chip.cluster v).mirrored.isSome)
    let bad := ¬ arises ∨ e.valid = false ∨ (s.chip.cluster v).stopped = true
    (bad → Ignored i s) ∧
    (¬ bad → s.pool.rotation v = none → s.pool.restores = [] → ∃ t, exec i s = .next t ∧ (t.chip.cluster v).stopped = true ∧
      (t.pool.pcn e.pcn.toNat).age = raiseAge (s.pool.pcn e.pcn.toNat).age (if code = 0x22 then 8 else 4) ∧
      ((s.chip.cluster v).pid = none → ∃ x ∈ t.chip.rings, x.ring = 1))) ∧
  (∀ s (v : Nat), s.pool.restores.find? (fun r => decide (r.v = v)) = none →
    Ignored (.cairnRestore v) s ∧ Ignored (.coastForwardEnd v) s) ∧
  (∀ s (v : Nat) r, s.pool.restores.find? (fun r => decide (r.v = v)) = some r →
    (r.target.isSome → Ignored (.cairnRestore v) s) ∧ (r.target = none → Ignored (.coastForwardEnd v) s) ∧
    (∀ p, r.target = none → r.wish.or (s.restoreTarget v) = some p → s.pool.restores.head? = some r →
      (∀ x ∈ s.pool.restores, x.target = none) → s.pool.rotations = [] →
      ∃ t, exec (.cairnRestore v) s = .next t ∧ (∃ x ∈ t.chip.rings, x.ring = 1) ∧
        t.pool.restores.find? (fun r => decide (r.v = v)) = some { r with target := some p, image := (s.chip.cluster v).cairn }) ∧
    (r.target.isSome → r.differs = true → ∃ t, exec (.coastForwardEnd v) s = .next t ∧ (∀ x ∈ t.pool.restores, x.v ≠ v) ∧
      t.chip.vmap = s.chip.vmap ∧ ∀ pid, (s.chip.cluster v).pid = some pid → (t.chip.part pid).halted = true) ∧
    (∀ p, r.target = some p → p ≠ r.failed → r.differs = false → ∃ t, exec (.coastForwardEnd v) s = .next t ∧
      t.chip.vmap.getOr v {} = { valid := true, pcn := BitVec.ofNat 11 p, gen := (s.chip.vmap.getOr v {}).gen + 1 } ∧
      (t.pool.pcn p).state = .live v ∧ (t.pool.pcn r.failed).state = .fallow ∧ (t.chip.cluster v).stopped = false ∧
      (t.chip.cluster v).holding = false ∧ ∀ x ∈ t.pool.restores, x.v ≠ v)) ∧
  (∀ s (die : Nat),
    (16 ≤ die ∨ die ∈ s.chip.fences → Ignored (.dieFence die) s) ∧
    (die < 16 → die ∉ s.chip.fences → ∃ t, exec (.dieFence die) s = .next t ∧ die ∈ t.chip.fences ∧
      ∀ v e, s.chip.vmap.get v = some e → e.pcn.toNat / 128 = die → (t.chip.vmap.getOr v {}).valid = false)) ∧
  (∀ s,
    let h := s.chip
    (h.master ∉ h.fences → Ignored .masterTakeover s) ∧
    (∀ d, h.master ∈ h.fences → d < 16 → d ∉ h.fences → (∀ x < d, x ∈ h.fences) →
      ∃ g, Becomes .masterTakeover s g ∧ g.master = d ∧ g.fences = h.fences ∧ g.tasks = h.tasks ∧
        ∀ u t, (u, t) ∈ h.tasks → t.packet.homeV < 2048 → (h.vmap.getOr t.packet.homeV {}).valid = true →
          (h.cluster t.packet.homeV).stopped = false → t.stage = .queued → t.packet.origin = .launch →
          (∃ j ∈ (h.part t.pid).jobs, j.holds t = true) → (h.core t.packet.homeV t.packet.homeC).queued u = false →
          (∀ n f v c, (n, f) ∈ h.flights → f.body ≠ .task v c u) → InFlight g (.task t.packet.homeV t.packet.homeC u)))

/-- The four firmware images load or the module stays in recovery; clusters pass their power-on self-test, the 512th opens reduced service
with V of 448, and the last grades the module, unless 90 s pass first; window B reads and writes device memory at WBBASE; a report over the
nonce is built and sent; the limiter and a thermal trip act on power and temperature; the loss of a memory die is a loss of the package,
and an uncorrectable slice error halts the partitions that have lines there and no flash image (R405, R416, R420 to R425, R462). How a
package comes to V is read as log 26 says, and what is left of a package that is lost as log 31. -/
def Obligations.BringUpAndHost : Prop :=
  (∀ s (x : BitVec 8),
    let h := s.chip
    let good := ∀ k < 4, x.getLsbD (2 * k) = true ∨ x.getLsbD (2 * k + 1) = true
    (h.booted = true ∨ h.stage ≠ 0 → Ignored (.powerOn x) s) ∧
    (h.booted = false → h.stage = 0 → good → Becomes (.powerOn x) s
      { h with booted := true, loaded := (List.range 4).map fun k => if x.getLsbD (2 * k) then 0 else 1 }) ∧
    (h.booted = false → h.stage = 0 → ¬ good → Becomes (.powerOn x) s { h with stage := 15, msix := h.msix ++ [6] })) ∧
  (∀ s (p : Nat),
    let h := s.chip
    let i : Instr := .bringupClusterPass p
    let q := s.pool.enter p .spare
    let fits := h.booted = true ∧ p < 2048 ∧ (s.pool.pcn p).state = .untested ∧ h.stage < 4
    (¬ fits → Ignored i s) ∧
    (fits → h.stage = 0 → s.pool.passed + 1 < 512 → ∃ t, exec i s = .next t ∧ t.pool.passed = s.pool.passed + 1 ∧
      (t.pool.pcn p).state = .spare ∧ t.chip = h) ∧
    (fits → h.stage = 0 → s.pool.passed + 1 = 512 → ∃ t, exec i s = .next t ∧ t.pool.passed = 512 ∧ t.chip.stage = 2 ∧
      t.chip.reduced = true ∧ t.chip.v = 448) ∧
    (fits → h.stage = 2 → s.pool.passed + 1 + q.gone = 2048 → h.gradeB = false →
      (1920 ≤ s.pool.passed + 1 → ∃ t, exec i s = .next t ∧ t.chip.stage = 3 ∧ t.chip.reduced = false ∧ t.chip.v = 1920) ∧
      (s.pool.passed + 1 < 1920 → ∃ t, exec i s = .next t ∧ (t.pool.pcn p).state = .spare ∧ t.chip = h))) ∧
  (∀ s,
    let h := s.chip
    let due := h.stage = 2 ∧ 90000000000 ≤ h.now
    (¬ due → Ignored .gradeTimeout s) ∧ (due → Becomes .gradeTimeout s { h with stage := 4, msix := h.msix ++ [6] })) ∧
  (∀ s (off n : Nat) (x : BitVec 64),
    let h := s.chip
    let a := (h.reg 0x4A0 &&& 0x7FFFFFFFFFFFFFFF#64).toNat + off
    let fits := 1 ≤ n ∧ n ≤ 8 ∧ off + n ≤ h.barSize ∧ h.stage ≠ 15
    (¬ fits → Ignored (.windowBRead off n) s ∧ Ignored (.windowBWrite off n x) s) ∧
    (fits → (∃ g, Becomes (.windowBRead off n) s g ∧ g.hbm = h.hbm ∧
        g.hostAnswer = some (BitVec.ofNat 64 (bytesToNat (h.hbm.readBytes a n)))) ∧
      (Memory.wf h.hbm = true → ∃ g, Becomes (.windowBWrite off n x) s g ∧ ∀ j, g.hbm.read j =
        if a ≤ j ∧ j < a + n then (wordBytes n x).getD (j - a) 0 else h.hbm.read j))) ∧
  (∀ s (x : BitVec 64),
    let h := s.chip
    (∃ g, Becomes (.attestationRequest x) s g ∧ g.attesting = some [h.reg 0x4A6, h.reg 0x4A7, h.reg 0x4A8, x]) ∧
    (h.attesting = none → Ignored .attestationReport s) ∧
    (h.attesting.isSome → ∃ g bs, Becomes .attestationReport s g ∧ g.attesting = none ∧
      g.rings = h.rings ++ [{ ring := 3, bytes := bs, addr := (h.reg 0x4A5).toNat }])) ∧
  (∀ s (w : Nat),
    let h := s.chip
    ∃ g, Becomes (.powerSample w) s g ∧ (g.reg 0x4AB).toNat = min w 16383 ∧
      g.msix = if (h.regs.getOr 0x4AA 12000).toNat < min w 16383 then h.msix ++ [7] else h.msix) ∧
  (∀ s (d : Nat) i, i = .thermalTrip ∨ (i = .memoryDieLoss d ∧ d ≤ 16) →
    ∃ g, Becomes i s g ∧ g.lost = true ∧ ∀ pid q, (pid, q) ∈ s.chip.parts → q.active = true → (g.part pid).halted = true) ∧
  (∀ s (d : Nat), 16 < d → Ignored (.memoryDieLoss d) s) ∧
  (∀ s (n : Nat),
    let h := s.chip
    let hit := fun pid => ∃ l ∈ h.linesOf n, ∃ r ∈ h.pagesOf pid, r.1 < 64 * l + 64 ∧ 64 * l < r.1 + r.2
    (512 ≤ n → Ignored (.sliceUncorrectableError n) s) ∧
    (n < 512 → h.images = [] → ∃ g, Becomes (.sliceUncorrectableError n) s g ∧
      (∀ pid q, (pid, q) ∈ h.parts → q.active = true → hit pid → (g.part pid).halted = true) ∧
      ∀ pid, ¬ hit pid → g.part pid = h.part pid))

/-! ## Fetching and stepping (R36, R68, R136) -/

/-- A step of a package that runs: with nothing scheduled, after the device's own progress, the slot whose turn it is issues the
instruction at its PC, or EILL where the word decodes to none, or its turn passes; with an event scheduled, that happens instead; what
follows every step follows. The leading half of a screened pair issues in its turn too once both halves agree on a synchronising
instruction; until then it waits there, and it is never more than 32 instructions ahead. The schedule, one event or one issue a step, is the
model's choice (log 2), and so is which instructions synchronise beside those of R171 (log 50; R36, R136, R167, R171). -/
def Obligations.StepRunsTheDecodedInstruction : Prop :=
  ∀ s : State, s.chip.lost = false →
    let b := s.before
    let p := b.place
    let after := fun g : State => g.after s.chip
    (s.agenda = [] → b.chip.pairAt p = none → (∀ u q, b.chip.slot p ≠ .trailing u q) →
      (∀ w h i, b.fetched = some (.ok (w, h)) → decode w = .ok i → step s = andThen (exec i { b with chip := h }) after) ∧
      (∀ w h e, b.fetched = some (.ok (w, h)) → decode w = .error e →
        step s = andThen (exec (.unassignedWord w) { b with chip := h }) after) ∧
      (∀ h, b.fetched = some (.error h) → step s = .next (after { b with chip := h })) ∧
      (b.fetched = none → step s = .next (after b))) ∧
    (∀ t u q, s.agenda = [] → b.chip.slot p = .live t → b.chip.pairAt p = some (u, q) →
      (∀ y, q.sync = some y → q.agreed = false → step s = .next (after b)) ∧
      (∀ y w h i, let f : State := { b with chip := b.chip.modPair p fun q => { q with sync := none, agreed := false } }
        q.sync = some y → q.agreed = true → f.fetched = some (.ok (w, h)) → decode w = .ok i →
        step s = andThen (exec i { f with chip := h }) fun g =>
          after (if g.chip.went t p = .stood then { g with chip := g.chip.modPair p fun q => { q with sync := some y, agreed := true } }
            else g)) ∧
      (q.sync = none → 32 ≤ q.lag → step s = .next (after b)) ∧
      (∀ w h, let f : State := { b with chip := h }
        q.sync = none → q.lag < 32 → b.fetched = some (.ok (w, h)) → roleOf (hasX64 p.c) w = .sync →
        (f.operandsDue p w = false → step s = .next (after f)) ∧
        (f.operandsDue p w = true → ∃ y, y.word = some w ∧ step s = .next (after (f.stage p y))))) ∧
    (∀ i rest, s.agenda = .event i :: rest → eventRow i = true →
      step s = andThen (exec i { s with agenda := rest }) fun g => g.finish s.chip) ∧
    (∀ v c rest, s.agenda = .turn v c :: rest →
      step s = andThen (State.issue { s with agenda := rest, focusV := v, focusC := c }) after)

/-- A thread fetches the four bytes at its PC, little-endian, from a READ-SHARED page of global memory; elsewhere the fetch traps with
the address in TVAL; a word that is no instruction raises EILL with the word in TVAL; the words of all zeros and all ones are none
(R36, R37, R68). -/
def Obligations.FetchReadsTheWordAtThePc : Prop :=
  (∀ (s : State) (t : Thread), s.chip.slot s.place = .live t → s.chip.mayIssue s.place = true → t.frame = none →
    (windowOf t.pc.toNat ≠ .global →
      s.fetched = some (.error ((s.chip.takeTrap s.place (raisedBy t .ewindow t.pc)).endStep s.place))) ∧
    (windowOf t.pc.toNat = .global → ∀ l : Leaf, (s.chip.warm t.who.pid t.pc.toNat).resolve t.who t.pc.toNat t.pc = .ok l →
      (l.attr = .readShared → l.pub = none →
        s.fetched = some (.ok (BitVec.ofNat 32 (bytesToNat (s.chip.hbm.readBytes l.pa 4)), s.chip.warm t.who.pid t.pc.toNat))) ∧
      (l.attr ≠ .readShared ∨ l.pub.isSome →
        s.fetched = some (.error ((s.chip.takeTrap s.place (raisedBy t .eperm t.pc)).endStep s.place))))) ∧
  (∀ (w : Half) s y, Issues s { word := w, points := {} } y →
    LeavesChip (.unassignedWord w) s ((s.holding y).takeTrap s.place (raisedBy y.th .eill (w.zeroExtend 64)))) ∧
  (∃ e, decode 0#32 = .error e) ∧ (∃ e, decode 0xFFFFFFFF#32 = .error e)

/-- Every step keeps every memory of the package in canonical form: addresses rise and no zero byte is listed. That a byte nothing has
written reads 0 is the model's choice (log 6; R178, R312, R361). -/
def Obligations.StepsKeepMemoriesCanonical : Prop := Kept fun s => s.chip.Canonical
end

