-- ==== Sys2Proof/Laws/Store.lean ====
section
/-! SUPPORT. Laws of sparse maps and of byte memories. -/

namespace Sys2Proof.Machine

variable {α : Type}

/-! ## Maps -/

@[simp] theorem Map.get_nil (k : Nat) : Map.get ([] : Map α) k = none := rfl

/-- A key reads what was put under it. -/
@[simp] theorem Map.get_put_same (m : Map α) (k : Nat) (x : α) : (m.put k x).get k = some x := by
  induction m with
  | nil => simp [Map.put, Map.get]
  | cons p m ih =>
    obtain ⟨j, y⟩ := p
    simp only [Map.put]
    by_cases h : j < k
    · simp [h, Map.get, Nat.ne_of_lt h, ih]
    · by_cases e : j = k <;> simp [h, e, Map.get]

/-- A key reads as before a put under another. -/
theorem Map.get_put_ne (m : Map α) {k j : Nat} (x : α) (h : j ≠ k) : (m.put k x).get j = m.get j := by
  induction m with
  | nil => simp only [Map.put, Map.get, if_neg (Ne.symm h)]; split <;> rfl
  | cons p m ih =>
    obtain ⟨i, y⟩ := p
    simp only [Map.put]
    split
    · simp only [Map.get, ih]
    · split
      · subst i; simp only [Map.get, if_neg (Ne.symm h)]
      · simp only [Map.get, if_neg (Ne.symm h)]
        split
        · rfl
        · rw [if_neg (by omega), if_neg (by omega)]

theorem Map.get_put (m : Map α) (k j : Nat) (x : α) : (m.put k x).get j = if j = k then some x else m.get j := by
  split
  · subst j; simp
  · exact Map.get_put_ne m x ‹_›

@[simp] theorem Map.getOr_put_same (m : Map α) (k : Nat) (x d : α) : (m.put k x).getOr k d = x := by simp [Map.getOr]

theorem Map.getOr_put_ne (m : Map α) {k j : Nat} (x d : α) (h : j ≠ k) : (m.put k x).getOr j d = m.getOr j d := by
  simp [Map.getOr, Map.get_put_ne m x h]

theorem Map.getOr_put (m : Map α) (k j : Nat) (x d : α) : (m.put k x).getOr j d = if j = k then x else m.getOr j d := by
  simp only [Map.getOr, Map.get_put]; split <;> rfl

/-- Of two puts under one key the later stands. -/
@[simp] theorem Map.put_put (m : Map α) (k : Nat) (x y : α) : (m.put k x).put k y = m.put k y := by
  induction m with
  | nil => simp [Map.put]
  | cons p m ih =>
    obtain ⟨j, z⟩ := p
    simp only [Map.put]
    split
    · rename_i h; simp [Map.put, h, ih]
    · split <;> simp [Map.put]

/-- What is listed after a put was listed before, or is what was put. -/
theorem Map.mem_put {m : Map α} {k : Nat} {x : α} {p : Nat × α} (h : p ∈ m.put k x) : p = (k, x) ∨ p ∈ m := by
  induction m with
  | nil => simpa [Map.put] using h
  | cons q m ih =>
    obtain ⟨j, y⟩ := q
    simp only [Map.put] at h
    split at h
    · rcases List.mem_cons.1 h with h | h
      · simp [h]
      · rcases ih h with h | h <;> simp [h]
    · split at h
      · rcases List.mem_cons.1 h with h | h <;> simp [h]
      · rcases List.mem_cons.1 h with h | h
        · simp [h]
        · exact .inr h

/-- What a key reads is listed. -/
theorem Map.mem_of_get {m : Map α} {k : Nat} {x : α} (h : m.get k = some x) : (k, x) ∈ m := by
  induction m with
  | nil => simp at h
  | cons q m ih =>
    obtain ⟨j, y⟩ := q
    simp only [Map.get] at h
    split at h
    · simp_all
    · split at h
      · simp [ih h]
      · simp at h

/-- What an erased map lists was listed before. -/
theorem Map.mem_erase {m : Map α} {k : Nat} {p : Nat × α} (h : p ∈ m.erase k) : p ∈ m := by
  induction m with
  | nil => simp [Map.erase] at h
  | cons q m ih =>
    obtain ⟨j, y⟩ := q
    simp only [Map.erase] at h
    split at h
    · exact List.mem_cons_of_mem _ (ih h)
    · rcases List.mem_cons.1 h with h | h
      · simp [h]
      · exact List.mem_cons_of_mem _ (ih h)

/-- An erased key is not listed. -/
@[simp] theorem Map.get_erase_same (m : Map α) (k : Nat) : (m.erase k).get k = none := by
  induction m with
  | nil => rfl
  | cons q m ih =>
    obtain ⟨j, y⟩ := q
    simp only [Map.erase]
    split
    · exact ih
    · simp only [Map.get]
      split
      · contradiction
      · split
        · exact ih
        · rfl

/-! ## Memories in canonical form -/

theorem Mem.wfFrom_mono {m : Mem} {a b : Nat} (h : a ≤ b) (w : Mem.wfFrom b m = true) : Mem.wfFrom a m = true := by
  cases m with
  | nil => rfl
  | cons c m =>
    obtain ⟨j, y⟩ := c
    simp only [Mem.wfFrom, Bool.and_eq_true, decide_eq_true_eq] at w ⊢
    exact ⟨⟨by omega, w.1.2⟩, w.2⟩

/-- Below its first address a canonical memory reads as zero. -/
theorem Mem.read_below {m : Mem} {a k : Nat} (w : Mem.wfFrom a m = true) (h : k < a) : m.read k = 0 := by
  cases m with
  | nil => rfl
  | cons c m =>
    obtain ⟨j, y⟩ := c
    simp only [Mem.wfFrom, Bool.and_eq_true, decide_eq_true_eq] at w
    simp only [Mem.read]
    rw [if_neg (by omega), if_neg (by omega)]

theorem Mem.wfFrom_write {m : Mem} {a k : Nat} (x : Byte) (w : Mem.wfFrom a m = true) (h : a ≤ k) :
    Mem.wfFrom a (m.write k x) = true := by
  induction m generalizing a with
  | nil =>
    simp only [Mem.write]
    split <;> simp_all [Mem.wfFrom]
  | cons c m ih =>
    obtain ⟨j, y⟩ := c
    simp only [Mem.wfFrom, Bool.and_eq_true, decide_eq_true_eq] at w
    simp only [Mem.write]
    split
    · simp only [Mem.wfFrom, Bool.and_eq_true, decide_eq_true_eq]
      exact ⟨w.1, ih w.2 (by omega)⟩
    · split
      · split
        · exact Mem.wfFrom_mono (by omega) w.2
        · simp only [Mem.wfFrom, Bool.and_eq_true, decide_eq_true_eq]
          refine ⟨⟨h, by simpa using ‹¬x = 0›⟩, ?_⟩
          subst j; exact w.2
      · split
        · simp only [Mem.wfFrom, Bool.and_eq_true, decide_eq_true_eq]; exact ⟨⟨w.1.1, w.1.2⟩, w.2⟩
        · simp only [Mem.wfFrom, Bool.and_eq_true, decide_eq_true_eq]
          exact ⟨⟨h, by simpa using ‹¬x = 0›⟩, ⟨by omega, w.1.2⟩, w.2⟩

/-- A write keeps the canonical form. -/
theorem Mem.wf_write {m : Mem} (k : Nat) (x : Byte) (w : Memory.wf m = true) : Memory.wf (m.write k x) = true :=
  Mem.wfFrom_write x w (Nat.zero_le k)

theorem Mem.read_write_from {m : Mem} {a : Nat} (k j : Nat) (x : Byte) (w : Mem.wfFrom a m = true) :
    (m.write k x).read j = if j = k then x else m.read j := by
  induction m generalizing a with
  | nil =>
    simp only [Mem.write]
    split
    · subst x; simp [Mem.read]
    · simp only [Mem.read, eq_comm (a := k)]; split <;> simp
  | cons c m ih =>
    obtain ⟨i, y⟩ := c
    simp only [Mem.wfFrom, Bool.and_eq_true, decide_eq_true_eq] at w
    simp only [Mem.write]
    by_cases h1 : i < k
    · simp only [if_pos h1, Mem.read, ih w.2]
      by_cases e : j = k
      · subst j; simp [Nat.ne_of_lt h1, h1]
      · simp [e]
    · simp only [if_neg h1]
      by_cases h2 : i = k
      · subst i
        simp only [if_true]
        by_cases hx : x = 0
        · subst x
          simp only [if_true]
          by_cases e : j = k
          · subst j; simp [Mem.read_below w.2]
          · simp only [Mem.read, if_neg e, if_neg (Ne.symm e)]
            split
            · rfl
            · rw [Mem.read_below w.2 (by omega)]
        · simp only [if_neg hx, Mem.read, eq_comm (a := k)]
          by_cases e : j = k <;> simp [e]
      · have hk : k < i := by omega
        simp only [if_neg h2]
        by_cases hx : x = 0
        · subst x
          simp only [if_true]
          by_cases e : j = k
          · subst j; simp only [if_true, Mem.read]; rw [if_neg h2, if_neg h1]
          · simp [e]
        · simp only [if_neg hx]
          by_cases e : j = k
          · subst j; simp [Mem.read]
          · simp only [if_neg e]
            conv => lhs; unfold Mem.read
            rw [if_neg (Ne.symm e)]
            split
            · rfl
            · simp only [Mem.read]
              rw [if_neg (by omega), if_neg (by omega)]

/-- In a canonical memory an address reads what was written there, and every other address as before. -/
theorem Mem.read_write {m : Mem} (k j : Nat) (x : Byte) (w : Memory.wf m = true) :
    (m.write k x).read j = if j = k then x else m.read j := Mem.read_write_from k j x w

theorem Mem.wf_writeBytes {m : Mem} (k : Nat) (bs : List Byte) (w : Memory.wf m = true) :
    Memory.wf (m.writeBytes k bs) = true := by
  induction bs generalizing m k with
  | nil => exact w
  | cons b bs ih => exact ih (k + 1) (Mem.wf_write k b w)

/-- Bytes written read back; every other address reads as before. -/
theorem Mem.read_writeBytes {m : Mem} (k j : Nat) (bs : List Byte) (w : Memory.wf m = true) :
    (m.writeBytes k bs).read j = if k ≤ j ∧ j < k + bs.length then bs.getD (j - k) 0 else m.read j := by
  induction bs generalizing m k with
  | nil => simp only [Mem.writeBytes, List.length_nil]; rw [if_neg (by omega)]
  | cons b bs ih =>
    simp only [Mem.writeBytes, ih (k + 1) (Mem.wf_write k b w), Mem.read_write k j b w, List.length_cons]
    by_cases e : j = k
    · subst j
      rw [if_neg (by omega), if_pos rfl, if_pos (by omega)]; simp
    · simp only [if_neg e]
      by_cases h : k + 1 ≤ j ∧ j < k + 1 + bs.length
      · rw [if_pos h, if_pos (by omega)]
        have : j - k = (j - (k + 1)) + 1 := by omega
        rw [this, List.getD_cons_succ]
      · rw [if_neg h, if_neg (by omega)]

theorem Mem.wfFrom_filter {m : Mem} {a : Nat} (f : Host.Cell → Bool) (w : Mem.wfFrom a m = true) :
    Mem.wfFrom a (m.filter f) = true := by
  induction m generalizing a with
  | nil => rfl
  | cons c m ih =>
    obtain ⟨j, y⟩ := c
    simp only [Mem.wfFrom, Bool.and_eq_true, decide_eq_true_eq] at w
    simp only [List.filter_cons]
    split
    · simp only [Mem.wfFrom, Bool.and_eq_true, decide_eq_true_eq]
      exact ⟨w.1, ih w.2⟩
    · exact Mem.wfFrom_mono (by omega) (ih w.2)

/-- Part of a canonical memory is canonical. -/
theorem Mem.wf_filter {m : Mem} (f : Host.Cell → Bool) (w : Memory.wf m = true) : Memory.wf (m.filter f) = true :=
  Mem.wfFrom_filter f w

/-- As many bytes are read as are asked for. -/
@[simp] theorem Mem.length_readBytes (m : Mem) (k n : Nat) : (m.readBytes k n).length = n := by
  induction n generalizing k with
  | zero => rfl
  | succ n ih => simp [Mem.readBytes, ih]

/-- The n low bytes of a number are n bytes, and stand for it modulo 256 ^ n. -/
@[simp] theorem length_natToBytes (n x : Nat) : (natToBytes n x).length = n := by
  induction n generalizing x with
  | zero => rfl
  | succ n ih => simp [natToBytes, ih]

theorem bytesToNat_natToBytes (n x : Nat) : bytesToNat (natToBytes n x) = x % 256 ^ n := by
  induction n generalizing x with
  | zero => simp [natToBytes, bytesToNat, Nat.mod_one]
  | succ n ih =>
    have e : (256 : Nat) ^ (n + 1) = 2 ^ 8 * 256 ^ n := Nat.pow_succ'
    simp only [natToBytes, bytesToNat, ih, BitVec.toNat_ofNat, e]
    exact (Nat.mod_mul (x := x) (a := 2 ^ 8) (b := 256 ^ n)).symm

end Sys2Proof.Machine
end

