-- ==== Sys2Proof/Laws/State.lean ====
section
/-! SUPPORT. What each named update of the state changes, field by field: one lemma for each, so that no proof unfolds an
update. -/

namespace Sys2Proof.Machine

/-! ## Clusters and cores -/

@[simp] theorem Chip.cluster_modCluster (h : Chip) (v u : Nat) (f : Cluster → Cluster) :
    (h.modCluster v f).cluster u = if u = v then f (h.cluster v) else h.cluster u := by
  simp only [Chip.cluster, Chip.modCluster, Map.getOr_put]

@[simp] theorem Chip.core_modCluster (h : Chip) (v u c : Nat) (f : Cluster → Cluster) :
    (h.modCluster v f).core u c = if u = v then (f (h.cluster v)).cores.getOr c {} else h.core u c := by
  simp only [Chip.core, Chip.cluster_modCluster]; split <;> rfl

theorem Chip.core_modCore (h : Chip) (v c u d : Nat) (f : Core → Core) :
    (h.modCore v c f).core u d = if u = v ∧ d = c then f (h.core v c) else h.core u d := by
  simp only [Chip.modCore, Chip.core_modCluster]
  by_cases e : u = v
  · subst e
    simp only [if_true, Map.getOr_put, true_and]
    split
    · subst d; rfl
    · rfl
  · simp [e]

@[simp] theorem Chip.core_modCore_same (h : Chip) (v c : Nat) (f : Core → Core) :
    (h.modCore v c f).core v c = f (h.core v c) := by simp [Chip.core_modCore]

/-! ## Slots, threads and the register file -/

theorem Chip.slot_setSlot (h : Chip) (p q : At) (s : Slot) : (h.setSlot p s).slot q = if q = p then s else h.slot q := by
  obtain ⟨v, c, t⟩ := p
  obtain ⟨u, d, r⟩ := q
  simp only [Chip.slot, Chip.setSlot, Chip.core_modCore, At.mk.injEq]
  by_cases e : u = v ∧ d = c
  · obtain ⟨rfl, rfl⟩ := e
    simp only [and_self, if_true, true_and, Core.slot, Map.get_put]
    split <;> rfl
  · rw [if_neg e, if_neg (by rintro ⟨rfl, rfl, -⟩; exact e ⟨rfl, rfl⟩)]

@[simp] theorem Chip.slot_setSlot_same (h : Chip) (p : At) (s : Slot) : (h.setSlot p s).slot p = s := by
  simp [Chip.slot_setSlot]

@[simp] theorem Chip.file_setSlot (h : Chip) (p : At) (s : Slot) (v c : Nat) :
    ((h.setSlot p s).core v c).file = (h.core v c).file := by
  simp only [Chip.setSlot, Chip.core_modCore]; split
  · rename_i e; obtain ⟨rfl, rfl⟩ := e; rfl
  · rfl

@[simp] theorem Chip.slot_setThread_same (h : Chip) (p : At) (t : Thread) :
    (h.setThread p t).slot p = (h.slot p).withThread t := by simp [Chip.setThread]

theorem Chip.slot_modCore_file (h : Chip) (v c : Nat) (m : Core → Map Word) (p : At) :
    (h.modCore v c fun k => { k with file := m k }).slot p = h.slot p := by
  simp only [Chip.slot, Chip.core_modCore]; split
  · rename_i e; obtain ⟨e1, e2⟩ := e; subst e1 e2; rfl
  · rfl

/-- The slot of the place keeps its kind and takes the thread. -/
@[simp] theorem Chip.slot_putHere_same (h : Chip) (p : At) (x : Here) :
    (h.putHere p x).slot p = (h.slot p).withThread x.th := by
  simp only [Chip.putHere]
  rw [Chip.slot_modCore_file]; simp

/-- Every other slot is unchanged. -/
theorem Chip.slot_putHere_ne (h : Chip) {p q : At} (x : Here) (e : q ≠ p) : (h.putHere p x).slot q = h.slot q := by
  simp only [Chip.putHere]
  rw [Chip.slot_modCore_file, Chip.setThread, Chip.slot_setSlot, if_neg e]

@[simp] theorem Chip.file_putHere_same (h : Chip) (p : At) (x : Here) :
    ((h.putHere p x).core p.v p.c).file = x.file := by simp [Chip.putHere]

@[simp] theorem Slot.thread?_withThread (s : Slot) (t : Thread) : (s.withThread t).thread? = s.thread?.map fun _ => t := by
  cases s <;> rfl

@[simp] theorem Slot.withThread_withThread (s : Slot) (t u : Thread) : (s.withThread t).withThread u = s.withThread u := by
  cases s <;> rfl

/-- What is put at a place that holds a thread stands there. -/
theorem Chip.here?_putHere (h : Chip) (p : At) (x : Here) (e : (h.slot p).thread?.isSome) :
    (h.putHere p x).here? p = some x := by
  simp only [Chip.here?, Chip.thread?, Chip.slot_putHere_same, Slot.thread?_withThread, Chip.file_putHere_same]
  cases k : (h.slot p).thread? with
  | none => simp [k] at e
  | some t => simp

/-- Of two threads put at one place the later stands. -/
@[simp] theorem Chip.putHere_putHere (h : Chip) (p : At) (x y : Here) : (h.putHere p x).putHere p y = h.putHere p y := by
  unfold Chip.putHere
  simp only [Chip.setThread, Chip.slot_modCore_file, Chip.slot_setSlot_same, Slot.withThread_withThread]
  simp only [Chip.setSlot, Chip.modCore, Chip.modCluster, Chip.cluster, Map.put_put, Map.getOr_put_same]

end Sys2Proof.Machine
end

