-- ==== Sys2Proof/Laws/Issue.lean ====
section
/-! SUPPORT. What the issue of an instruction can do: one law for each outcome of its body. -/

namespace Sys2Proof.Machine

variable {f : Form} {s : State} {y : Here}

/-- A thread that issues is LIVE. -/
theorem Issues.slot_live (h : Issues s f y) : ∃ t, s.chip.slot s.place = .live t := by
  obtain ⟨t, -, e, -⟩ := h; exact ⟨t, e⟩

theorem Issues.thread_isSome (h : Issues s f y) : (s.chip.slot s.place).thread?.isSome := by
  obtain ⟨t, e⟩ := h.slot_live; simp [e, Slot.thread?]

/-- An instruction of the thread alone completes with the thread its body gives. -/
theorem issueHere_completes {body : Thread → Here → Except Stop Here} {z : Here} (h : Issues s f y)
    (e : body y.th y.passed = .ok z) :
    issueHere f s body = .next { s with chip := (s.chip.putHere s.place z).endStep s.place } := by
  obtain ⟨t, x, hl, hx, hr⟩ := h
  simp only [Here.passed] at e
  simp [issueHere, hl, hx, hr, e]

/-- It takes the trap its body raises, at the instruction. -/
theorem issueHere_traps {body : Thread → Here → Except Stop Here} {c : Trap} {v : Word} (h : Issues s f y)
    (e : body y.th y.passed = .error (.trap c v)) :
    issueHere f s body =
      .next { s with chip := ((s.chip.putHere s.place y).takeTrap s.place (raisedBy y.th c v)).endStep s.place } := by
  obtain ⟨t, x, hl, hx, hr⟩ := h
  simp only [Here.passed] at e
  simp [issueHere, hl, hx, hr, e, Chip.stopped]

/-- An instruction of the chip completes with the chip its body gives. -/
theorem issueChip_completes {body : Thread → At → Chip → Except Stop Chip} {h' : Chip} (h : Issues s f y)
    (e : body y.th s.place (s.passed y) = .ok h') :
    issueChip f s body = .next { s with chip := h'.endStep s.place } := by
  obtain ⟨t, x, hl, hx, hr⟩ := h
  simp only [State.passed, Here.passed] at e
  simp [issueChip, hl, hx, hr, e]

/-- It takes the trap its body raises, at the instruction. -/
theorem issueChip_traps {body : Thread → At → Chip → Except Stop Chip} {c : Trap} {v : Word} (h : Issues s f y)
    (e : body y.th s.place (s.passed y) = .error (.trap c v)) :
    issueChip f s body =
      .next { s with chip := ((s.chip.putHere s.place y).takeTrap s.place (raisedBy y.th c v)).endStep s.place } := by
  obtain ⟨t, x, hl, hx, hr⟩ := h
  simp only [State.passed, Here.passed] at e
  simp [issueChip, hl, hx, hr, e, Chip.stopped]

/-- An instruction whose body stalls changes nothing: its turn passes. -/
theorem issueChip_stalls {body : Thread → At → Chip → Except Stop Chip} (h : Issues s f y)
    (e : body y.th s.place (s.passed y) = .error .stall) : issueChip f s body = .next s := by
  obtain ⟨t, x, hl, hx, hr⟩ := h
  simp only [State.passed, Here.passed] at e
  simp [issueChip, hl, hx, hr, e]

/-- The same three for an instruction whose effect reaches the package. -/
theorem issueState_completes {body : Thread → At → State → Except Stop State} {t' : State} (h : Issues s f y)
    (e : body y.th s.place { s with chip := s.passed y } = .ok t') :
    issueState f s body = .next { t' with chip := t'.chip.endStep s.place } := by
  obtain ⟨t, x, hl, hx, hr⟩ := h
  simp only [State.passed, Here.passed] at e
  simp [issueState, hl, hx, hr, e]

theorem issueState_traps {body : Thread → At → State → Except Stop State} {c : Trap} {v : Word} (h : Issues s f y)
    (e : body y.th s.place { s with chip := s.passed y } = .error (.trap c v)) :
    issueState f s body =
      .next { s with chip := ((s.chip.putHere s.place y).takeTrap s.place (raisedBy y.th c v)).endStep s.place } := by
  obtain ⟨t, x, hl, hx, hr⟩ := h
  simp only [State.passed, Here.passed] at e
  simp [issueState, hl, hx, hr, e, Chip.stopped]

theorem issueState_stalls {body : Thread → At → State → Except Stop State} (h : Issues s f y)
    (e : body y.th s.place { s with chip := s.passed y } = .error .stall) : issueState f s body = .next s := by
  obtain ⟨t, x, hl, hx, hr⟩ := h
  simp only [State.passed, Here.passed] at e
  simp [issueState, hl, hx, hr, e]

/-- What an issue answers is a next state, with the chip changed and nothing else. -/
theorem issueHere_next (f : Form) (s : State) (body : Thread → Here → Except Stop Here) :
    ∃ h, issueHere f s body = .next { s with chip := h } := by
  simp only [issueHere]
  split
  · split
    · exact ⟨s.chip, rfl⟩
    · exact ⟨_, rfl⟩
    · split
      · exact ⟨_, rfl⟩
      · exact ⟨s.chip, rfl⟩
      · exact ⟨_, rfl⟩
  · exact ⟨s.chip, rfl⟩

theorem issueChip_next (f : Form) (s : State) (body : Thread → At → Chip → Except Stop Chip) :
    ∃ h, issueChip f s body = .next { s with chip := h } := by
  simp only [issueChip]
  split
  · split
    · exact ⟨s.chip, rfl⟩
    · exact ⟨_, rfl⟩
    · split
      · exact ⟨_, rfl⟩
      · exact ⟨s.chip, rfl⟩
      · exact ⟨_, rfl⟩
  · exact ⟨s.chip, rfl⟩

/-! ## From an arm of `exec` to what the instruction does -/

variable {i : Instr}

theorem leavesThread_of_here {body : Thread → Here → Except Stop Here} {z : Here} (e : exec i s = issueHere f s body)
    (h : Issues s f y) (b : body y.th y.passed = .ok z) : LeavesThread i s z := e.trans (issueHere_completes h b)

theorem raises_of_here {body : Thread → Here → Except Stop Here} {c : Trap} {v : Word} (e : exec i s = issueHere f s body)
    (h : Issues s f y) (b : body y.th y.passed = .error (.trap c v)) : Raises i s y c v := e.trans (issueHere_traps h b)

theorem leavesChip_of_chip {body : Thread → At → Chip → Except Stop Chip} {g : Chip} (e : exec i s = issueChip f s body)
    (h : Issues s f y) (b : body y.th s.place (s.holding y.passed) = .ok g) : LeavesChip i s g := e.trans (issueChip_completes h b)

theorem leavesThread_of_chip {body : Thread → At → Chip → Except Stop Chip} {z : Here} (e : exec i s = issueChip f s body)
    (h : Issues s f y) (b : body y.th s.place (s.holding y.passed) = .ok (s.holding z)) : LeavesThread i s z :=
  e.trans (issueChip_completes h b)

theorem raises_of_chip {body : Thread → At → Chip → Except Stop Chip} {c : Trap} {v : Word} (e : exec i s = issueChip f s body)
    (h : Issues s f y) (b : body y.th s.place (s.holding y.passed) = .error (.trap c v)) : Raises i s y c v :=
  e.trans (issueChip_traps h b)

theorem waits_of_chip {body : Thread → At → Chip → Except Stop Chip} (e : exec i s = issueChip f s body)
    (h : Issues s f y) (b : body y.th s.place (s.holding y.passed) = .error .stall) : Waits i s := e.trans (issueChip_stalls h b)

theorem raises_of_state {body : Thread → At → State → Except Stop State} {c : Trap} {v : Word} (e : exec i s = issueState f s body)
    (h : Issues s f y) (b : body y.th s.place { s with chip := s.holding y.passed } = .error (.trap c v)) : Raises i s y c v :=
  e.trans (issueState_traps h b)

/-- A field read through a chip in which the thread stands at its place. -/
theorem Chip.readAt_putHere (h : Chip) (p : At) (x : Here) (r : BitVec 7) (e : (h.slot p).thread?.isSome) :
    (h.putHere p x).readAt p r = (x.read r).map fun q => (q.1, h.putHere p q.2) := by
  simp only [Chip.readAt, Chip.here?_putHere h p x e]
  cases x.read r <;> simp [bind, Except.bind, Except.map]

theorem Chip.readDataAt_putHere (h : Chip) (p : At) (x : Here) (r : BitVec 7) (e : (h.slot p).thread?.isSome) :
    (h.putHere p x).readDataAt p r = (x.readData r).map fun q => (q.1, h.putHere p q.2) := by
  simp only [Chip.readDataAt, Chip.here?_putHere h p x e]
  cases x.readData r <;> simp [bind, Except.bind, Except.map]

/-- A result written through the chip. -/
theorem Chip.writeDst_putHere (h : Chip) (p : At) (x : Here) (d : BitVec 7) (v : Word) (e : (h.slot p).thread?.isSome) :
    (h.putHere p x).writeDst p d v = h.putHere p (x.write d v) := by
  simp [Chip.writeDst, Chip.here?_putHere h p x e]

/-- The thread replaced in a chip in which it stands at its place. -/
theorem Chip.setThread_putHere (h : Chip) (p : At) (x : Here) (t : Thread) :
    (h.putHere p x).setThread p t = h.putHere p { x with th := t } := by
  simp only [Chip.putHere, Chip.setThread, Chip.slot_modCore_file, Chip.slot_setSlot_same, Slot.withThread_withThread]
  simp only [Chip.setSlot, Chip.modCore, Chip.modCluster, Chip.cluster, Map.put_put, Map.getOr_put_same]

theorem Chip.modThread_putHere (h : Chip) (p : At) (x : Here) (f : Thread → Thread) (e : (h.slot p).thread?.isSome) :
    (h.putHere p x).modThread p f = h.putHere p { x with th := f x.th } := by
  have k : (h.putHere p x).thread? p = some x.th := by
    have := Chip.here?_putHere h p x e
    simp only [Chip.here?, Option.map_eq_some_iff] at this
    obtain ⟨t, a, b⟩ := this
    rw [a, ← b]
  simp only [Chip.modThread, k, Chip.setThread_putHere]

/-- The fields of an instruction read one after another, through the chip. -/
theorem Issues.read (h : Issues s f y) {a : BitVec 7} {u : Word} {x z : Here} (e : x.read a = .ok (u, z)) :
    (s.holding x).readAt s.place a = .ok (u, s.holding z) := by
  simp only [State.holding, Chip.readAt_putHere _ _ _ _ h.thread_isSome, e]; rfl

theorem Issues.readData (h : Issues s f y) {a : BitVec 7} {u : Word} {x z : Here} (e : x.readData a = .ok (u, z)) :
    (s.holding x).readDataAt s.place a = .ok (u, s.holding z) := by
  simp only [State.holding, Chip.readDataAt_putHere _ _ _ _ h.thread_isSome, e]; rfl

theorem Issues.writeDst (h : Issues s f y) (x : Here) (d : BitVec 7) (v : Word) :
    (s.holding x).writeDst s.place d v = s.holding (x.write d v) :=
  Chip.writeDst_putHere _ _ _ _ _ h.thread_isSome

theorem Issues.here (h : Issues s f y) (x : Here) : (s.holding x).here? s.place = some x :=
  Chip.here?_putHere _ _ _ h.thread_isSome

theorem Issues.thread (h : Issues s f y) (x : Here) : (s.holding x).thread? s.place = some x.th := by
  have := h.here x
  simp only [Chip.here?, Option.map_eq_some_iff] at this
  obtain ⟨t, a, b⟩ := this
  rw [a, ← b]

theorem Issues.setThread (x : Here) (t : Thread) : (s.holding x).setThread s.place t = s.holding { x with th := t } :=
  Chip.setThread_putHere _ _ _ _

theorem Issues.modThread (h : Issues s f y) (x : Here) (g : Thread → Thread) :
    (s.holding x).modThread s.place g = s.holding { x with th := g x.th } :=
  Chip.modThread_putHere _ _ _ _ h.thread_isSome

end Sys2Proof.Machine
end

