-- ==== Sys2Proof/Laws/Pairs.lean ====
section
/-! SUPPORT. Screened pairs: reading a pair after it has been written, and the turn of a thread that stands alone. -/

namespace Sys2Proof.Machine

@[simp] theorem Chip.pairAt_setPair (h : Chip) (p : At) (u : Thread) (q : Pair) (e : p.t < 8) :
    (h.setPair p u q).pairAt p = some (u, q) := by
  simp [Chip.pairAt, Chip.setPair, Nat.not_le.mpr e]

theorem Chip.slot_setPair_ne (h : Chip) {p r : At} (u : Thread) (q : Pair) (e : r ≠ p.trail) : (h.setPair p u q).slot r = h.slot r := by
  simp [Chip.setPair, Chip.slot_setSlot, e]

/-- A thread with no trailing half issues in its turn as if there were no pairs. -/
theorem State.issue_alone {s : State} {t : Thread} (l : s.chip.slot s.place = .live t) (e : s.chip.pairAt s.place = none) :
    s.issue = s.issueOne := by
  simp [State.issue, l, e]

/-- A leading thread whose pair is 32 instructions apart lets its turn pass (R167). -/
theorem State.leadIssue_far (s : State) (p : At) (t u : Thread) (q : Pair) (n : q.sync = none) (e : 32 ≤ q.lag) :
    s.leadIssue p t u q = .next s := by
  simp [State.leadIssue, n, e]

/-- A leading thread at a synchronising instruction upon which the pair has not agreed lets its turn pass (R171). -/
theorem State.leadIssue_waits (s : State) (p : At) (t u : Thread) (q : Pair) {y : Held} (n : q.sync = some y) (e : q.agreed = false) :
    s.leadIssue p t u q = .next s := by
  simp [State.leadIssue, n, e]

/-- A trailing thread that has caught up and that no synchronising instruction waits for lets its turn pass (R167). -/
theorem State.trailIssue_level (s : State) (p : At) (u : Thread) (q : Pair) (l : q.lag = 0) (n : q.sync = none) :
    s.trailIssue p u q = .next s := by
  simp [State.trailIssue, l, n]

end Sys2Proof.Machine
end

