-- ==== Sys2Proof/Tests/Slice0.lean ====
section
/-! SUPPORT. Tests of the model: what is not well-formed is refused, words written out from the spec's encoding tables
decode to their instructions, single steps on small states give what the rules say, and states that meet the hypotheses
of the statements. Expected values come from the rules of the spec named beside them. -/

open Sys2Proof Sys2Proof.Machine

namespace Sys2Proof.Tests

set_option Elab.async false

/-! ## Helpers -/

/-- A quiet task at 0x3_0000_0000 with 32 registers from entry 32 of its core's file. -/
def quietTask : Thread :=
  { uid := 16384, pc := 0x300000000, regBase := 32, regLim := 32, homeV := 0, homeC := 0, quiet := true, stamp := 0x1000000 }

/-- The same for a task that may be undone. -/
def specTask : Thread := { quietTask with quiet := false }

/-- The same with a trap handler at 0x3_0000_1000. -/
def handled : Thread := { quietTask with traps := { vec := 0x300001000 } }

/-- A thread in supervisor mode, such as a trap handler of a task that it set aside. -/
def inHandler : Thread :=
  { quietTask with sup := true, suspended := some { ldq := [], sdq := [], pend := [], frame := none }
                   traps := { cpc := 0x300000040, vec := 0x300001000 } }

/-- A cluster whose core 0 has turn 1: the thread in slot 1 with these register values from g0 on. -/
def clusterWith (t : Thread) (regs : List Word) : Cluster :=
  { cores := [(0, { slots := [(1, .live t)], file := loadFile [] t.regBase t.regLim regs, turn := 1 })] }

/-- A package of four clusters whose cluster 0 is `k`, as `f` changes it. -/
def package (k : Cluster) (f : Chip → Chip := id) : State := { chip := f { v := 4, clusters := [(0, k)] } }

/-- The thread `t` on core 0 of cluster 0, whose turn it is. -/
def onCore (t : Thread) (regs : List Word) : State := package (clusterWith t regs)

/-- The place of that thread. -/
def slot1 : At := ⟨0, 0, 1⟩

/-- A step's next state meets `f`. -/
def after (o : Host.Outcome State Fault Refusal) (f : State → Bool) : Bool :=
  match o with
  | .next t => f t
  | _ => false

/-- Register r of the thread in slot 1. -/
def reg (t : State) (r : Nat) : Word :=
  match t.chip.here? slot1 with
  | some x => readGpr x.th x.file r
  | none => 0

/-- What `f` says of the thread in slot 1, wherever its slot stands. -/
def thread (t : State) (f : Thread → Bool) : Bool :=
  match t.chip.slot slot1 with
  | .live x => f x
  | .halted x => f x
  | _ => false

/-- What `f` says of the thread that is LIVE in slot 1. -/
def live (t : State) (f : Thread → Bool) : Bool :=
  match t.chip.slot slot1 with
  | .live x => f x
  | _ => false

/-- What `f` says of cluster 0. -/
def cluster (t : State) (f : Cluster → Bool) : Bool := f (t.chip.cluster 0)

/-- The thread at the instruction, once it passes the checks before its effect. -/
def issued (s : State) (f : Form) : Option Here :=
  match s.chip.slot s.place, s.chip.here? s.place with
  | .live _, some x =>
    match x.ready f with
    | .ok y => some y
    | .error _ => none
  | _, _ => none

/-- The same, where it is known to pass. -/
def standing (s : State) (f : Form) : Here := (issued s f).getD ⟨quietTask, []⟩

theorem issues_standing {s : State} {f : Form} (h : (issued s f).isSome = true) : Issues s f (standing s f) := by
  simp only [standing]
  obtain ⟨y, e⟩ := Option.isSome_iff_exists.mp h
  rw [e, Option.getD_some]
  unfold issued at e
  split at e
  · split at e
    · cases e; exact ⟨_, _, ‹_›, ‹_›, ‹_›⟩
    · cases e
  · cases e

/-- A computation that answers. -/
def answers {ε α : Type} (x : Except ε α) : Bool :=
  match x with
  | .ok _ => true
  | .error _ => false

/-- What it answers, where it does. -/
def answer {ε α : Type} (x : Except ε α) (d : α) : α :=
  match x with
  | .ok a => a
  | .error _ => d

theorem ok_answer {ε α : Type} {x : Except ε α} {d : α} (h : answers x = true) : x = .ok (answer x d) := by
  cases x <;> simp_all [answers, answer]

/-- The value and the thread that a field read gives. -/
def valueOf (y : Here) (r : BitVec 7) : Word := (answer (y.read r) (0, y)).1
def restOf (y : Here) (r : BitVec 7) : Here := (answer (y.read r) (0, y)).2

theorem read_value {y : Here} {r : BitVec 7} (h : answers (y.read r) = true) : y.read r = .ok (valueOf y r, restOf y r) :=
  ok_answer h

/-- Two fields read one after the other. -/
theorem reads_values {y : Here} {a b : BitVec 7} (ha : answers (y.passed.read a) = true)
    (hb : answers ((restOf y.passed a).read b) = true) :
    Reads2 y a b (valueOf y.passed a) (valueOf (restOf y.passed a) b) (restOf (restOf y.passed a) b) :=
  ⟨_, read_value ha, read_value hb⟩

/-- Every word of a list decodes to the instruction beside it. -/
noncomputable def decodes (ws : List (Half × Instr)) : Bool :=
  ws.all fun p => match decode p.1 with
    | .ok i => decide (i = p.2)
    | .error _ => false

/-- Every word of a list is refused. -/
noncomputable def refused (ws : List Half) : Bool :=
  ws.all fun w => match decode w with
    | .ok _ => false
    | .error _ => true

/-! ## Ill-formed instructions are refused -/

theorem smoke_mma_set : (Instr.mma 0 0 0 0 3).wf = false ∧ (Instr.mma 0 0 0 0 11).wf = true := by decide +kernel

theorem smoke_vcn : (Instr.laneGrant 2048).wf = false ∧ (Instr.laneGrant 2047).wf = true := by decide +kernel

theorem smoke_core : (Instr.displace 0 8).wf = false ∧ (Instr.displace 0 7).wf = true := by decide +kernel

theorem smoke_slot : (Instr.vacateComplete 0 0 16).wf = false ∧ (Instr.vacateComplete 0 0 15).wf = true := by decide +kernel

theorem smoke_pasid : (Instr.commitPhase (2 ^ 20)).wf = false ∧ (Instr.commitPhase (2 ^ 20 - 1)).wf = true := by decide +kernel

theorem smoke_group : (Instr.groupPlacement 0 256).wf = false ∧ (Instr.groupPlacement 0 255).wf = true := by decide +kernel

theorem smoke_chunk : (Instr.chunkHandout 0 0 (2 ^ 26)).wf = false ∧ (Instr.chunkHandout 0 0 0).wf = true := by decide +kernel

theorem smoke_pcn : (Instr.bringupClusterPass 2048).wf = false ∧ (Instr.bringupClusterPass 2047).wf = true := by decide +kernel

theorem smoke_router : (Instr.tableEntryUpdate 768 0).wf = false ∧ (Instr.tableEntryUpdate 767 0).wf = true := by decide +kernel

theorem smoke_die : (Instr.dieFence 16).wf = false ∧ (Instr.dieFence 15).wf = true := by decide +kernel

theorem smoke_slice : (Instr.sliceUncorrectableError 512).wf = false ∧ (Instr.sliceUncorrectableError 511).wf = true := by
  decide +kernel

theorem smoke_tier : (Instr.lineEviction 2 0).wf = false ∧ (Instr.lineEviction 1 0).wf = true := by decide +kernel

theorem smoke_line : (Instr.lineEviction 0 (2 ^ 42)).wf = false ∧ (Instr.lineEviction 0 (2 ^ 42 - 1)).wf = true := by decide +kernel

theorem smoke_region : (Instr.pageWalkComplete 0 (2 ^ 40)).wf = false ∧ (Instr.pageWalkComplete 0 (2 ^ 40 - 1)).wf = true := by
  decide +kernel

theorem smoke_register : (Instr.registerWrite 0xFF 0).wf = false ∧ (Instr.registerWrite 0x800 0).wf = false ∧
    (Instr.registerWrite 0x100 0).wf = true := by decide +kernel

theorem smoke_host_size : (Instr.windowBRead 0 0).wf = false ∧ (Instr.windowBWrite 0 9 0).wf = false ∧
    (Instr.windowBRead 0 8).wf = true := by decide +kernel

theorem smoke_window_a : (Instr.windowAWrite 4 0).wf = false ∧ (Instr.windowAWrite 65536 0).wf = false ∧
    (Instr.windowAWrite 65528 0).wf = true := by decide +kernel

theorem smoke_package : (Instr.packageLost 256).wf = false ∧ (Instr.packageLost 255).wf = true := by decide +kernel

theorem smoke_watts : (Instr.powerSample 16384).wf = false ∧ (Instr.powerSample 16383).wf = true := by decide +kernel

theorem smoke_code : (Instr.errorStop 0 0x1F 0 0 0 0).wf = false ∧ (Instr.errorStop 0 0x23 0 0 0 0).wf = false ∧
    (Instr.errorStop 0 0x22 0 0 0 0).wf = true := by decide +kernel

theorem smoke_outcome : (Instr.selfTestEnd 0 3).wf = false ∧ (Instr.selfTestEnd 0 2).wf = true := by decide +kernel

/-! ## Words written out from the encoding tables (R34, R38, R39): every constructor that is a word -/

theorem words_alu : decodes
    [(0x055D59C0#32, .add 0x2B 0x55 0x4E), (0x055D59C1#32, .sub 0x2B 0x55 0x4E), (0x055D59C2#32, .and 0x2B 0x55 0x4E),
      (0x055D59C3#32, .or 0x2B 0x55 0x4E), (0x055D59C4#32, .xor 0x2B 0x55 0x4E), (0x055D59C5#32, .andn 0x2B 0x55 0x4E),
      (0x055D59C6#32, .sll 0x2B 0x55 0x4E), (0x055D59C7#32, .srl 0x2B 0x55 0x4E), (0x055D59C8#32, .sra 0x2B 0x55 0x4E),
      (0x055D59C9#32, .rol 0x2B 0x55 0x4E), (0x055D59CA#32, .ror 0x2B 0x55 0x4E), (0x055D59CB#32, .slt 0x2B 0x55 0x4E),
      (0x055D59CC#32, .sltu 0x2B 0x55 0x4E), (0x055D59CD#32, .min 0x2B 0x55 0x4E), (0x055D59CE#32, .max 0x2B 0x55 0x4E),
      (0x055D59CF#32, .minu 0x2B 0x55 0x4E), (0x055D59D0#32, .maxu 0x2B 0x55 0x4E), (0x055D59D1#32, .mul 0x2B 0x55 0x4E),
      (0x055D59D2#32, .mulh 0x2B 0x55 0x4E), (0x055D59D3#32, .mulhu 0x2B 0x55 0x4E)] = true := by decide +kernel

theorem words_bit : decodes
    [(0x095D5000#32, .clz 0x2B 0x55), (0x095D5001#32, .ctz 0x2B 0x55), (0x095D5002#32, .popc 0x2B 0x55),
      (0x095D5003#32, .brev 0x2B 0x55), (0x095D5004#32, .sextB 0x2B 0x55), (0x095D5005#32, .sextH 0x2B 0x55),
      (0x095D5006#32, .sextW 0x2B 0x55), (0x095D5007#32, .zextW 0x2B 0x55)] = true := by decide +kernel

theorem words_imm : decodes
    [(0x0D5D5A5C#32, .addi 0x2B 0x55 0xA5C), (0x115D5A5C#32, .andi 0x2B 0x55 0xA5C), (0x155D5A5C#32, .ori 0x2B 0x55 0xA5C),
      (0x195D5A5C#32, .xori 0x2B 0x55 0xA5C), (0x1D5D5A5C#32, .slti 0x2B 0x55 0xA5C), (0x215D5A5C#32, .sltiu 0x2B 0x55 0xA5C),
      (0x255D500E#32, .slli 0x2B 0x55 0xE), (0x255D504E#32, .srli 0x2B 0x55 0xE), (0x255D508E#32, .srai 0x2B 0x55 0xE),
      (0x255D50CE#32, .rori 0x2B 0x55 0xE), (0x295D2E1D#32, .lui 0x2B 0x52E1D), (0x2D5D2E1D#32, .auipc 0x2B 0x52E1D)] = true := by decide +kernel

theorem words_load : decodes
    [(0x315D5E31#32, .ldB 0x2B 0x55 0xE 0x31), (0x355D5E31#32, .ldBu 0x2B 0x55 0xE 0x31), (0x395D5E31#32, .ldH 0x2B 0x55 0xE 0x31),
      (0x3D5D5E31#32, .ldHu 0x2B 0x55 0xE 0x31), (0x415D5E31#32, .ldW 0x2B 0x55 0xE 0x31), (0x455D5E31#32, .ldWu 0x2B 0x55 0xE 0x31),
      (0x495D5E31#32, .ldD 0x2B 0x55 0xE 0x31)] = true := by decide +kernel

theorem words_store : decodes
    [(0x4D5D504E#32, .stB 0x2B 0x55 0x4E), (0x515D504E#32, .stH 0x2B 0x55 0x4E), (0x555D504E#32, .stW 0x2B 0x55 0x4E),
      (0x595D504E#32, .stD 0x2B 0x55 0x4E)] = true := by decide +kernel

theorem words_amo : decodes
    [(0x5D5D59C0#32, .amoSwap 0x2B 0x55 0x4E), (0x5D5D59C1#32, .amoAdd 0x2B 0x55 0x4E), (0x5D5D59C2#32, .amoAnd 0x2B 0x55 0x4E),
      (0x5D5D59C3#32, .amoOr 0x2B 0x55 0x4E), (0x5D5D59C4#32, .amoXor 0x2B 0x55 0x4E), (0x5D5D59C5#32, .amoMin 0x2B 0x55 0x4E),
      (0x5D5D59C6#32, .amoMax 0x2B 0x55 0x4E), (0x5D5D59C7#32, .amoCas 0x2B 0x55 0x4E), (0x5C02BAB0#32, .redAdd 0x2B 0x55),
      (0x5C02BAB1#32, .redOr 0x2B 0x55), (0x5C02BAB2#32, .redMin 0x2B 0x55), (0x5C02BAB3#32, .redMax 0x2B 0x55),
      (0x5C02BAB4#32, .redFaddS 0x2B 0x55)] = true := by decide +kernel

theorem words_branch : decodes
    [(0x602BAB4B#32, .beq 0x2B 0x55 0x14B), (0x60ABAB4B#32, .bne 0x2B 0x55 0x14B), (0x612BAB4B#32, .blt 0x2B 0x55 0x14B),
      (0x61ABAB4B#32, .bge 0x2B 0x55 0x14B), (0x622BAB4B#32, .bltu 0x2B 0x55 0x14B), (0x62ABAB4B#32, .bgeu 0x2B 0x55 0x14B),
      (0x655ABA5C#32, .bbs 0x2B 0x15 0xA5C), (0x655AAA5C#32, .bbc 0x2B 0x15 0xA5C), (0x6AA5C3B1#32, .j 0x2A5C3B1),
      (0x6EA5C3B1#32, .jal 0x2A5C3B1), (0x715D5A5C#32, .jalr 0x2B 0x55 0xA5C)] = true := by decide +kernel

theorem words_fp : decodes
    [(0x755D59C0#32, .faddS 0x2B 0x55 0x4E), (0x755D59C1#32, .fsubS 0x2B 0x55 0x4E), (0x755D59C2#32, .fmulS 0x2B 0x55 0x4E),
      (0x755D59C3#32, .fdivS 0x2B 0x55 0x4E), (0x755D5004#32, .fsqrtS 0x2B 0x55), (0x755D59C5#32, .fminS 0x2B 0x55 0x4E),
      (0x755D59C6#32, .fmaxS 0x2B 0x55 0x4E), (0x755D59C7#32, .feqS 0x2B 0x55 0x4E), (0x755D59C8#32, .fltS 0x2B 0x55 0x4E),
      (0x755D59C9#32, .fleS 0x2B 0x55 0x4E), (0x755D500A#32, .fclassS 0x2B 0x55), (0x795D59C0#32, .fmaddS 0x2B 0x55 0x4E),
      (0x795D59C1#32, .fmsubS 0x2B 0x55 0x4E), (0x795D59C2#32, .fnmsubS 0x2B 0x55 0x4E), (0x795D59C3#32, .fnmaddS 0x2B 0x55 0x4E)] = true := by decide +kernel

theorem words_cvt : decodes
    [(0x7D5D5000#32, .cvtSL 0x2B 0x55), (0x7D5D5001#32, .cvtSLu 0x2B 0x55), (0x7D5D5002#32, .cvtLS 0x2B 0x55),
      (0x7D5D5003#32, .cvtLuS 0x2B 0x55), (0x7D5D5004#32, .cvtBf16S 0x2B 0x55), (0x7D5D5005#32, .cvtSBf16 0x2B 0x55),
      (0x7D5D5006#32, .cvtHS 0x2B 0x55), (0x7D5D5007#32, .cvtSH 0x2B 0x55), (0x7D5D5008#32, .cvtE4m3S 0x2B 0x55),
      (0x7D5D5009#32, .cvtSE4m3 0x2B 0x55), (0x7D5D500A#32, .cvtE5m2S 0x2B 0x55), (0x7D5D500B#32, .cvtSE5m2 0x2B 0x55),
      (0x7D5D59CC#32, .cvtF4bS 0x2B 0x55 0x4E), (0x7D5D59CD#32, .cvtSF4b 0x2B 0x55 0x4E)] = true := by decide +kernel

theorem words_thr : decodes
    [(0x815D59C0#32, .spawn 0x2B 0x55 0x4E), (0x815D5001#32, .take 0x2B 0x55), (0x815D5002#32, .reap 0x2B 0x55),
      (0x80000003#32, .tend), (0x8002B004#32, .tabort 0x2B), (0x80000005#32, .yield),
      (0x81580AA6#32, .mfc 0x2B 0x55), (0x8002BAA7#32, .mtc 0x2B 0x55), (0x81580008#32, .self 0x2B),
      (0x81580009#32, .grade 0x2B), (0x815D500A#32, .topo 0x2B 0x55)] = true := by decide +kernel

theorem words_rep : decodes
    [(0x86B5E1D0#32, .rep 0x2B 0x5 0xE 0x1 0xD)] = true := by decide +kernel

theorem words_sys : decodes
    [(0x8802B000#32, .trap 0x2B), (0x88000001#32, .eret), (0x895D2E02#32, .mfs 0x2B 0x2970),
      (0x895D2E03#32, .mts 0x2B 0x2970), (0x88000004#32, .bkpt), (0x89580005#32, .treplay 0x2B),
      (0x895D5006#32, .wait 0x2B 0x55), (0x895D59C7#32, .bmode 0x2B 0x55 0x4E), (0x88000008#32, .cflush),
      (0x8802BAA9#32, .cinv 0x2B 0x55), (0x8800000A#32, .home)] = true := by decide +kernel

theorem words_grp : decodes
    [(0x8C000560#32, .bar 0x2B), (0x8D5D5321#32, .barv 0x2B 0x55 0x6 0x1), (0x8C02BAA2#32, .gred 0x2B 0x55),
      (0x8C000563#32, .gleave 0x2B), (0x8D5D5004#32, .launch 0x2B 0x55), (0x8D5D5005#32, .gqry 0x2B 0x55)] = true := by decide +kernel

theorem words_tw : decodes
    [(0x915D59C0#32, .send 0x2B 0x55 0x4E), (0x915959C1#32, .sendv 0x2B 0x15 0x4E), (0x91580002#32, .gvt 0x2B),
      (0x900ABAA3#32, .irvHost 0x2B 0x55), (0x9012BAA3#32, .irvFlash 0x2B 0x55), (0x901ABAA3#32, .irvDb 0x2B 0x55),
      (0x91580004#32, .stamp 0x2B)] = true := by decide +kernel

theorem words_eng : decodes
    [(0x955D59C0#32, .cpy 0x2B 0x55 0x4E), (0x955D59C1#32, .cpy2d 0x2B 0x55 0x4E), (0x955D59C2#32, .cpymc 0x2B 0x55 0x4E),
      (0x955D59C3#32, .gath 0x2B 0x55 0x4E), (0x955D59C4#32, .scat 0x2B 0x55 0x4E), (0x955D59C5#32, .chain 0x2B 0x55 0x4E),
      (0x9402BAA6#32, .ewait 0x2B 0x55), (0x955D59C7#32, .shopen 0x2B 0x55 0x4E), (0x9402B008#32, .publ 0x2B),
      (0x9402BAA9#32, .bcarm 0x2B 0x55), (0x9402B00A#32, .bcwait 0x2B)] = true := by decide +kernel

theorem words_lane : decodes
    [(0x9802B000#32, .claim 0x2B), (0x98000001#32, .vrel), (0x9802B002#32, .reneg 0x2B)] = true := by decide +kernel

theorem words_vf : decodes
    [(0xA005D5D1#32, .vaddS 0xB 0x15 0xE 0x11), (0xA015D5D1#32, .vsubS 0xB 0x15 0xE 0x11), (0xA025D5D1#32, .vmulS 0xB 0x15 0xE 0x11),
      (0xA035D5D1#32, .vfmaS 0xB 0x15 0xE 0x11), (0xA045D5D1#32, .vfmsS 0xB 0x15 0xE 0x11), (0xA055D5D1#32, .vminS 0xB 0x15 0xE 0x11),
      (0xA065D5D1#32, .vmaxS 0xB 0x15 0xE 0x11), (0xA075D40E#32, .vabsS 0xB 0x15 0xE), (0xA085D40E#32, .vnegS 0xB 0x15 0xE),
      (0xA095D40E#32, .vrcpS 0xB 0x15 0xE), (0xA0A5D40E#32, .vrsqS 0xB 0x15 0xE), (0xA0B5D40E#32, .vexp2S 0xB 0x15 0xE),
      (0xA0C5D40E#32, .vlog2S 0xB 0x15 0xE)] = true := by decide +kernel

theorem words_vi : decodes
    [(0xA405D5D1#32, .viadd 0xB 0x15 0xE 0x11), (0xA415D5D1#32, .visub 0xB 0x15 0xE 0x11), (0xA425D5D1#32, .vimul 0xB 0x15 0xE 0x11),
      (0xA435D5D1#32, .vand 0xB 0x15 0xE 0x11), (0xA445D5D1#32, .vor 0xB 0x15 0xE 0x11), (0xA455D5D1#32, .vxor 0xB 0x15 0xE 0x11),
      (0xA465D5D1#32, .vshl 0xB 0x15 0xE 0x11), (0xA475D5D1#32, .vshr 0xB 0x15 0xE 0x11), (0xA485D5D1#32, .vsra 0xB 0x15 0xE 0x11)] = true := by decide +kernel

theorem words_vm : decodes
    [(0xA8058015#32, .vld 0xB 0x15), (0xA8158015#32, .vst 0xB 0x15), (0xA82582AE#32, .vlds 0xB 0x15 0xE),
      (0xA83582AE#32, .vsts 0xB 0x15 0xE), (0xA84582AE#32, .vgath 0xB 0x15 0xE), (0xA85582AE#32, .vscat 0xB 0x15 0xE)] = true := by decide +kernel

theorem words_vp : decodes
    [(0xAC05D5D1#32, .vperm 0xB 0x15 0xE 0x11), (0xAC15D5D1#32, .vslide 0xB 0x15 0xE 0x11), (0xAC25D5D1#32, .vsel 0xB 0x15 0xE 0x11),
      (0xAC358015#32, .vbcast 0xB 0x15), (0xAC45D40E#32, .vcomp 0xB 0x15 0xE), (0xAC55D40E#32, .vsprs 0xB 0x15 0xE),
      (0xAD15D40E#32, .vcvtBf16S 0xB 0x15 0xE), (0xAD25D40E#32, .vcvtHS 0xB 0x15 0xE), (0xAD35D40E#32, .vcvtE4m3S 0xB 0x15 0xE),
      (0xAD45D40E#32, .vcvtE5m2S 0xB 0x15 0xE), (0xAD55D40E#32, .vcvtF4bS 0xB 0x15 0xE), (0xAD95D40E#32, .vcvtSBf16 0xB 0x15 0xE),
      (0xADA5D40E#32, .vcvtSH 0xB 0x15 0xE), (0xADB5D40E#32, .vcvtSE4m3 0xB 0x15 0xE), (0xADC5D40E#32, .vcvtSE5m2 0xB 0x15 0xE),
      (0xADD5D40E#32, .vcvtSF4b 0xB 0x15 0xE)] = true := by decide +kernel

theorem words_vs : decodes
    [(0xB15D5C01#32, .vcmpeqS 0x2B 0x15 0xE 0x1), (0xB15D5C11#32, .vcmpneS 0x2B 0x15 0xE 0x1), (0xB15D5C21#32, .vcmpltS 0x2B 0x15 0xE 0x1),
      (0xB15D5C31#32, .vcmpleS 0x2B 0x15 0xE 0x1), (0xB15D5C41#32, .vcmpeqI 0x2B 0x15 0xE 0x1), (0xB15D5C51#32, .vcmpneI 0x2B 0x15 0xE 0x1),
      (0xB15D5C61#32, .vcmpltI 0x2B 0x15 0xE 0x1), (0xB15D5C71#32, .vcmpleI 0x2B 0x15 0xE 0x1), (0xB15D408E#32, .vrsum 0x2B 0x15 0xE),
      (0xB15D409E#32, .vrmax 0x2B 0x15 0xE), (0xB15D40AE#32, .vrmin 0x2B 0x15 0xE), (0xB15D40BE#32, .vmovs 0x2B 0x15 0xE),
      (0xB15D5CC1#32, .vibres 0x2B 0x15 0xE 0x1)] = true := by decide +kernel

theorem words_vg : decodes
    [(0xB405D5D1#32, .vibadd 0xB 0x15 0xE 0x11), (0xB415D5D1#32, .vibsub 0xB 0x15 0xE 0x11), (0xB425D40E#32, .vembed 0xB 0x15 0xE),
      (0xB435D40E#32, .vschur 0xB 0x15 0xE), (0xB445D5D1#32, .vdamp 0xB 0x15 0xE 0x11), (0xB455D40E#32, .vsolve 0xB 0x15 0xE)] = true := by decide +kernel

theorem words_mbx : decodes
    [(0xB802BAA0#32, .mbset 0x2B 0x55), (0xB85D5001#32, .mbld 0xB 0x55), (0xB95D51C2#32, .mbupd 0x2B 0x55 0xE)] = true := by decide +kernel

theorem words_mma : decodes
    [(0xC035E31B#32, .mma 0x3 0x5 0xE 0x31 0xB), (0xC0B5E31B#32, .mmaOw 0x3 0x5 0xE 0x31 0xB), (0xC135E31B#32, .mmaHalf 0x3 0x5 0xE 0x31 0xB),
      (0xC1B5E31B#32, .mmaHalfOw 0x3 0x5 0xE 0x31 0xB), (0xC235E31B#32, .mmaSp 0x3 0x5 0xE 0x31 0xB), (0xC2B5E31B#32, .mmaSpOw 0x3 0x5 0xE 0x31 0xB),
      (0xC335E31B#32, .mmaHalfSp 0x3 0x5 0xE 0x31 0xB), (0xC3B5E31B#32, .mmaHalfSpOw 0x3 0x5 0xE 0x31 0xB)] = true := by decide +kernel

theorem words_omem : decodes
    [(0xC402BAA0#32, .oclaim 0x2B 0x55), (0xC4000561#32, .orel 0x2B), (0xC55D59C2#32, .old 0x2B 0x55 0x4E),
      (0xC402BAA3#32, .ard 0x2B 0x55), (0xC402BAA4#32, .awr 0x2B 0x55), (0xC4000565#32, .aclr 0x2B),
      (0xC402BAA6#32, .mwait 0x2B 0x55)] = true := by decide +kernel

theorem words_x64 : decodes
    [(0xE15D59C0#32, .div 0x2B 0x55 0x4E), (0xE15D59C1#32, .divu 0x2B 0x55 0x4E), (0xE15D59C2#32, .rem 0x2B 0x55 0x4E),
      (0xE15D59C3#32, .remu 0x2B 0x55 0x4E), (0xE15D59C4#32, .faddD 0x2B 0x55 0x4E), (0xE15D59C5#32, .fsubD 0x2B 0x55 0x4E),
      (0xE15D59C6#32, .fmulD 0x2B 0x55 0x4E), (0xE15D59C7#32, .fdivD 0x2B 0x55 0x4E), (0xE15D5008#32, .fsqrtD 0x2B 0x55),
      (0xE15D59C9#32, .fminD 0x2B 0x55 0x4E), (0xE15D59CA#32, .fmaxD 0x2B 0x55 0x4E), (0xE15D59CB#32, .feqD 0x2B 0x55 0x4E),
      (0xE15D59CC#32, .fltD 0x2B 0x55 0x4E), (0xE15D59CD#32, .fleD 0x2B 0x55 0x4E), (0xE15D500E#32, .fclassD 0x2B 0x55),
      (0xE15D500F#32, .cvtDS 0x2B 0x55), (0xE15D5010#32, .cvtSD 0x2B 0x55), (0xE15D5011#32, .cvtDL 0x2B 0x55),
      (0xE15D5012#32, .cvtLD 0x2B 0x55), (0xE55D59C0#32, .fmaddD 0x2B 0x55 0x4E), (0xE55D59C1#32, .fmsubD 0x2B 0x55 0x4E),
      (0xE55D59C2#32, .fnmsubD 0x2B 0x55 0x4E), (0xE55D59C3#32, .fnmaddD 0x2B 0x55 0x4E)] = true := by decide +kernel

/-- No word of a reserved major, function, cc or conversion value is an instruction, and no field that must be zero may be
anything else (R37 to R39). -/
theorem words_refused : refused
    [0x00000000#32, 0xFFFFFFFF#32, 0xE8000000#32, 0x04000014#32, 0x08001020#32, 0x63000000#32, 0x24000100#32, 0x4C000100#32,
      0x5C080010#32, 0x7408002B#32, 0x80080007#32, 0x80080003#32, 0x8000000B#32, 0x84000001#32, 0x8800000B#32,
      0x8C000006#32, 0x90000005#32, 0x9400000B#32, 0x98000003#32, 0xA0D00000#32, 0xA4900000#32, 0xA8600000#32, 0xAC600000#32,
      0xAD000000#32, 0xAD600000#32, 0xAD800000#32, 0xADE00000#32, 0xB00000D0#32, 0xB4600000#32, 0xB8000003#32, 0xC0000001#32,
      0xC4000007#32, 0xE0000013#32, 0xE4000004#32] = true := by decide +kernel

/-- An instruction's table word is laid out little-endian and decoded (R33). -/
theorem test_table_word : decodeTableWord 32 0x0418B180 = some (.add 3 11 12) := by decide +kernel


/-! ## Single steps: integers, branches, floating point -/

/-- R57: the sum wraps. -/
theorem test_add_wraps : after (exec (.add 3 1 2) (onCore quietTask [0, 0xFFFFFFFFFFFFFFFF, 2])) (fun t => reg t 3 == 1) = true := by
  decide +kernel

/-- R57: the high half of -1 times -1 is 0 signed and 2^64 - 2 unsigned. -/
theorem test_high_products :
    after (exec (.mulh 3 1 1) (onCore quietTask [0, 0xFFFFFFFFFFFFFFFF])) (fun t => reg t 3 == 0) = true ∧
    after (exec (.mulhu 3 1 1) (onCore quietTask [0, 0xFFFFFFFFFFFFFFFF])) (fun t => reg t 3 == 0xFFFFFFFFFFFFFFFE) = true := by
  decide +kernel

/-- R57: a shift takes the low six bits of its amount. -/
theorem test_shift_amount_mod_64 :
    after (exec (.sra 3 1 2) (onCore quietTask [0, 0x8000000000000000, 65])) (fun t => reg t 3 == 0xC000000000000000) = true := by
  decide +kernel

/-- R57, R17: a destination that is also a source is read first; g0 keeps reading zero. -/
theorem test_source_is_destination :
    after (exec (.sub 1 1 2) (onCore quietTask [0, 5, 7])) (fun t => reg t 1 == 0xFFFFFFFFFFFFFFFE) = true ∧
    after (exec (.add 0 1 2) (onCore quietTask [0, 5, 7])) (fun t => reg t 0 == 0 && live t fun x => x.pc == 0x300000004) = true := by
  decide +kernel

/-- R58: counts of zero. -/
theorem test_counts_of_zero :
    after (exec (.clz 3 1) (onCore quietTask [0, 0])) (fun t => reg t 3 == 64) = true ∧
    after (exec (.ctz 3 1) (onCore quietTask [0, 0x10])) (fun t => reg t 3 == 4) = true := by decide +kernel

/-- R59 to R61: immediates are signed, SLTIU compares the sign-extended one unsigned, LUI fills from bit 12. -/
theorem test_immediates :
    after (exec (.addi 3 1 0xFFF) (onCore quietTask [0, 5])) (fun t => reg t 3 == 4) = true ∧
    after (exec (.sltiu 3 1 0xFFF) (onCore quietTask [0, 5])) (fun t => reg t 3 == 1) = true ∧
    after (exec (.lui 3 0x40000) (onCore quietTask [])) (fun t => reg t 3 == 0xFFFFFFFFC0000000) = true ∧
    after (exec (.auipc 3 1) (onCore quietTask [])) (fun t => reg t 3 == 0x300001000) = true := by decide +kernel

/-- R18: a register outside the allocation raises EREG with its number, and halts a thread without a handler. -/
theorem test_register_outside_allocation :
    after (exec (.add 32 1 2) (onCore quietTask [])) (fun t =>
      thread t fun x => x.traps.cause == 0x002 && x.traps.val == 32 && x.pc == 0x300000000) = true := by decide +kernel

/-- R63 to R65: a branch goes four times its offset from itself; JAL links. -/
theorem test_branches :
    after (exec (.beq 1 2 0x1FF) (onCore quietTask [0, 5, 5])) (fun t => live t fun x => x.pc == 0x2FFFFFFFC) = true ∧
    after (exec (.blt 1 2 4) (onCore quietTask [0, 0xFFFFFFFFFFFFFFFF, 5])) (fun t => live t fun x => x.pc == 0x300000010) = true ∧
    after (exec (.bbc 1 3 4) (onCore quietTask [0, 8])) (fun t => live t fun x => x.pc == 0x300000004) = true ∧
    after (exec (.jal 2) (onCore quietTask [])) (fun t => reg t 1 == 0x300000004 && live t fun x => x.pc == 0x300000008) = true := by
  decide +kernel

/-- R66: JALR computes its target before it writes the link; a target that is no word address raises EALIGN. -/
theorem test_jalr :
    after (exec (.jalr 1 1 4) (onCore quietTask [0, 0x300000100])) (fun t =>
      reg t 1 == 0x300000004 && live t fun x => x.pc == 0x300000104) = true ∧
    after (exec (.jalr 2 1 0) (onCore handled [0, 0x300000102])) (fun t => reg t 2 == 0 &&
      live t fun x => x.sup && x.pc == 0x300001000 && x.traps.val == 0x300000102 && x.traps.cause == 0x003) = true := by
  decide +kernel

/-- R106, R108: 1 + 2^-24 rounds to even with NX; a quotient by zero is infinite with DZ. -/
theorem test_fp32 :
    after (exec (.faddS 3 1 2) (onCore quietTask [0, 0x3F800000, 0x33800000])) (fun t =>
      reg t 3 == 0x3F800000 && live t fun x => x.fflags == 1) = true ∧
    after (exec (.fdivS 3 1 2) (onCore quietTask [0, 0x3F800000, 0x80000000])) (fun t =>
      reg t 3 == 0xFF800000 && live t fun x => x.fflags == 8) = true := by decide +kernel

/-- R112: the product is not rounded before the addend: (1 + 2^-12)^2 - (1 + 2^-11) is 2^-24. -/
theorem test_fused :
    after (exec (.fmsubS 3 1 1) (onCore quietTask [0, 0x3F800800, 0, 0x3F801000])) (fun t =>
      reg t 3 == 0x33800000 && live t fun x => x.fflags == 0) = true := by decide +kernel

/-- R113 to R115: conversions saturate and set NV; 1.5 narrows exactly. -/
theorem test_conversions :
    after (exec (.cvtLuS 3 1) (onCore quietTask [0, 0xBF800000])) (fun t => reg t 3 == 0 && live t fun x => x.fflags == 16) = true ∧
    after (exec (.cvtBf16S 3 1) (onCore quietTask [0, 0x3FC00000])) (fun t => reg t 3 == 0x3FC0) = true ∧
    after (exec (.cvtSE4m3 3 1) (onCore quietTask [0, 0x38])) (fun t => reg t 3 == 0x3F800000) = true := by decide +kernel

/-- R85: a quotient is rounded toward zero; a zero divisor traps; R116 is FP64. -/
theorem test_x64 :
    after (exec (.div 3 1 2) (onCore quietTask [0, 0xFFFFFFFFFFFFFFF9, 2])) (fun t => reg t 3 == 0xFFFFFFFFFFFFFFFD) = true ∧
    after (exec (.rem 3 1 2) (onCore quietTask [0, 0xFFFFFFFFFFFFFFF9, 2])) (fun t => reg t 3 == 0xFFFFFFFFFFFFFFFF) = true ∧
    after (exec (.divu 3 1 2) (onCore quietTask [0, 7, 0])) (fun t => thread t fun x => x.traps.cause == 0x012) = true ∧
    after (exec (.fmulD 3 1 1) (onCore quietTask [0, 0x3FF8000000000000])) (fun t => reg t 3 == 0x4002000000000000) = true := by
  decide +kernel

/-! ## Single steps: memory -/

/-- A cluster whose scratch holds some bytes from address 0x40 on. -/
def withBytes (t : Thread) (regs : List Word) (bs : List Byte) : State :=
  package { clusterWith t regs with scratch := Mem.writeBytes [] 0x40 bs }

/-- R70, R71: a load sign-extends its byte at the base plus the scaled offset; its data waits for the window's end. -/
theorem test_load_byte :
    after (exec (.ldB 3 1 2 1) (withBytes quietTask [0, 0x3F] [0x80])) (fun t => live t fun x =>
      x.pend.map (fun q => (q.due, q.dest, q.arrival)) ==
        [(.window 2, .reg 3, .flying (.value 0xFFFFFFFFFFFFFF80 0))]) = true := by decide +kernel

/-- R71: a store writes its low bytes, little-endian, and no others. -/
theorem test_store_half :
    after (exec (.stH 2 1 0xFF) (withBytes quietTask [0, 0x44, 0xABCD] [1, 2, 3, 4, 5])) (fun t =>
      cluster t fun k => k.scratch.readBytes 0x40 5 == [1, 2, 0xCD, 0xAB, 5]) = true := by decide +kernel

/-- R8, R27: no window, then alignment. -/
theorem test_access_checks :
    after (exec (.ldW 3 1 0 0) (onCore quietTask [0, 0x200001])) (fun t =>
      thread t fun x => x.traps.cause == 0x004 && x.traps.val == 0x200001) = true ∧
    after (exec (.ldW 3 1 0 0) (onCore quietTask [0, 0x42])) (fun t =>
      thread t fun x => x.traps.cause == 0x003 && x.traps.val == 0x42) = true := by decide +kernel

/-- R77: AMO.ADD returns the old value; AMO.CAS that fails writes nothing. -/
theorem test_atomics :
    after (exec (.amoAdd 3 1 2) (withBytes quietTask [0, 0x40, 5] [7])) (fun t => (cluster t fun k => k.scratch.read64 0x40 == 12) &&
      live t fun x => x.pend.map (·.arrival) == [.flying (.value 7 0)]) = true ∧
    after (exec (.amoCas 3 1 2) (withBytes quietTask [0, 0x40, 5, 6] [7])) (fun t =>
      cluster t fun k => k.scratch.read64 0x40 == 7) = true := by decide +kernel

/-- R187: a task's first write to a line keeps the old line in an undo record. -/
theorem test_undo_record :
    after (exec (.stB 2 1 0) (withBytes specTask [0, 0x40, 9] [7]
      |> fun s => { s with chip := s.chip.modCluster 0 fun k => { k with banks := [(1, { mode := .log })] } })) (fun t => cluster t fun k =>
      k.scratch.read 0x40 == 9 && (k.log.map fun e => match e.body with
        | .undo l bs _ => l == 1 && bs.take 2 == [7, 0]
        | _ => false) == [true]) = true := by decide +kernel

/-- R73: a quiet task may not touch a SCRATCH-T bank; the fault is reported at the consumption point. -/
theorem test_quiet_at_tracked_bank :
    after (exec (.ldD 3 1 0 0) (package { clusterWith quietTask [0, 0x40] with banks := [(0, { mode := .scratchT })] })) (fun t =>
      live t fun x => x.pend.map (·.arrival) == [.flying (.fault .equiet 0x40)]) = true := by decide +kernel

/-! ## Single steps: tasks, traps, registers -/

/-- R151: a quiet task's end leaves its slot ENDED and its task gone. -/
theorem test_tend :
    after (exec .tend (package (clusterWith quietTask []) fun h => { h with tasks := [(16384, { pid := 0, packet := {
        origin := .spawn, pc := 0, stamp := 0, regn := 4, args := [], fmtA := 0, fmtB := 0, fmtC := 0, grps := 0, quiet := true
        cores := false, tvec := 0, priority := 0, homeV := 0, homeC := 0 } })] })) (fun t =>
      (match t.chip.slot slot1 with | .ended 32 32 false false => true | _ => false) && t.chip.tasks == []) = true := by decide +kernel

/-- R158: an MTC write waits for the boundary; R156: SELF of a quiet task says so beside its home. -/
theorem test_common_and_self :
    after (exec (.mtc 1 3) (onCore quietTask [0, 9])) (fun t => (t.chip.core 0 0).pendingCommon == [(3, 1, 9)] &&
      (t.chip.core 0 0).common == []) = true ∧
    after (exec (.self 3) (onCore quietTask [])) (fun t => reg t 3 == 0x40000) = true := by decide +kernel

/-- R128, R123: TRAP is delivered to the handler, and is resumed behind itself; R129: ERET goes back. -/
theorem test_trap_and_return :
    after (exec (.trap 1) (onCore handled [0, 77])) (fun t => live t fun x => x.sup && x.pc == 0x300001000 &&
      x.traps.val == 77 && x.traps.epc == 0x300000000 && x.traps.cpc == 0x300000004 && x.suspended.isSome) = true ∧
    after (exec .eret (onCore inHandler [])) (fun t => live t fun x => !x.sup && x.pc == 0x300000040 && x.suspended.isNone) = true := by
  decide +kernel

/-- R125, R134: without a handler the slot halts with a notice; R36: a supervisor's instruction raises ESUPER. -/
theorem test_halts_with_notice :
    after (exec .eret (onCore quietTask [])) (fun t => (match t.chip.slot slot1 with
        | .halted x => x.traps.cause == 0x014 && x.traps.val == 0x88000001
        | _ => false) && (t.chip.core 0 0).notices == [notice 1 false false false 0x14]) = true := by decide +kernel

/-- R24: MFS reads FRM and MTS writes it; a value above 4 raises EILL with the word. -/
theorem test_system_registers :
    after (exec (.mts 1 0x001) (onCore quietTask [0, 4])) (fun t => live t fun x => x.frm == 4) = true ∧
    after (exec (.mts 1 0x001) (onCore quietTask [0, 5])) (fun t => thread t fun x => x.traps.cause == 0x001 && x.frm == 0) = true ∧
    after (exec (.mfs 3 0x003) (onCore quietTask [])) (fun t => reg t 3 == 0x1000000) = true := by decide +kernel

/-- R180: BMODE of the supervisor fills the switched bank with zeros. -/
theorem test_bmode :
    after (exec (.bmode 3 1 2) (package { clusterWith inHandler [0, 1, 1] with scratch := Mem.writeBytes [] 0x40 [7] })) (fun t =>
      reg t 3 == 0 && cluster t fun k => k.mode 0 == .scratchT && k.scratch == []) = true := by decide +kernel

/-- R199, R203: the first CLAIM of a cluster is granted; VREL without one raises ELANE. -/
theorem test_claims :
    after (exec (.claim 1) (onCore quietTask [0, 16])) (fun t => cluster t fun k => k.claims.map (·.grant) == [16]) = true ∧
    after (exec .vrel (onCore quietTask [])) (fun t => thread t fun x => x.traps.cause == 0x00E) = true := by decide +kernel

/-- R258: a copy within scratch is accepted with token 1 and its control pair names 16 bytes. -/
theorem test_copy_accepted :
    after (exec (.cpy 4 1 2) (onCore quietTask [0, 0x40, 0x100, 0, 16, 0])) (fun t => reg t 4 == 1 &&
      cluster t fun k => k.cmds.map (fun c => (c.token, c.descs.map fun d => (d.fn, d.x, d.y, d.len))) ==
        [(1, [(0, 0x40, 0x100, 16)])]) = true := by decide +kernel

/-- R379, R191: what LAUNCH refuses and what a quiet task keeps is checked by the statements; here GLEAVE of no group. -/
theorem test_gleave_without_group :
    after (exec (.gleave 0) (onCore quietTask [])) (fun t => thread t fun x => x.traps.cause == 0x001) = true := by decide +kernel

/-! ## Single events -/

/-- R158: of two writes of one common register the higher slot's wins at the boundary. -/
theorem test_rotation_boundary :
    after (exec (.rotationBoundary 0 0) (package { cores := [(0, { turn := 15, pendingCommon := [(3, 9, 90), (3, 2, 20)] })] })) (fun t =>
      (t.chip.core 0 0).common.getOr 3 0 == 90) = true := by decide +kernel

/-- R45: load data arrives at its operation and stays there for the consumption point. -/
theorem test_load_arrives :
    after (exec (.loadComplete 0 16384) (onCore { quietTask with pend := [⟨{ word := 0, pc := 0, frame := false, sup := false }, .window 2,
        .reg 3, .flying (.value 9 0)⟩] } [])) (fun t => reg t 3 == 0 &&
      live t fun x => x.pend.map (·.arrival) == [.landed (.value 9 0)]) = true := by decide +kernel

/-- R416: a module whose images fail in both slots stays in recovery. -/
theorem test_power_on :
    after (exec (.powerOn 0xFF) State.reset) (fun t => t.chip.booted) = true ∧
    after (exec (.powerOn 0x3F) State.reset) (fun t => t.chip.stage == 15) = true := by decide +kernel

/-! ## States that meet the hypotheses of the statements -/

/-- The thread that stands at an instruction of this form. -/
abbrev standsAt (s : State) (i : Instr) (us : List Use := []) (sup : Bool := false) : Here := standing s (form (wordOf i) us sup)

/-- An instruction of two sources and a destination issues, and both fields read. -/
def Stands2 (s : State) (i : Instr) (us : List Use) (a b : BitVec 7) : Prop :=
  ∃ y u v z, Issues s (form (wordOf i) us) y ∧ Reads2 y a b u v z

theorem stands2 {s : State} {i : Instr} {us : List Use} {a b : BitVec 7}
    (h : (issued s (form (wordOf i) us)).isSome = true)
    (ha : answers ((standsAt s i us).passed.read a) = true)
    (hb : answers ((restOf (standsAt s i us).passed a).read b) = true) : Stands2 s i us a b :=
  ⟨_, _, _, _, issues_standing h, reads_values ha hb⟩

/-- An instruction of one source issues, and its field reads. -/
def Stands1 (s : State) (i : Instr) (us : List Use) (a : BitVec 7) : Prop :=
  ∃ y u z, Issues s (form (wordOf i) us) y ∧ y.passed.read a = .ok (u, z)

theorem stands1 {s : State} {i : Instr} {us : List Use} {a : BitVec 7}
    (h : (issued s (form (wordOf i) us)).isSome = true) (ha : answers ((standsAt s i us).passed.read a) = true) :
    Stands1 s i us a := ⟨_, _, _, issues_standing h, read_value ha⟩

theorem witness_encoding : ∃ i w, i.wf = true ∧ encode i = some w ∧ i = .mma 7 15 15 255 15 :=
  ⟨.mma 7 15 15 255 15, 0xC07FFFFF#32, by decide +kernel, by decide +kernel, rfl⟩

theorem witness_decoding : decode 0x58100000#32 = .ok (.stD 2 0 0) := by decide +kernel

/-- An operation of no account, with this order number. -/
def anOp (seq : Nat) : Op := { word := 0x40583101#32, pc := 0x300000000, seq := seq }

theorem witness_queue_fields :
    (∃ h : Here, ∃ op v f es, h.th.ldq = ⟨op, .landed (.value v f)⟩ :: es) ∧ (∃ h : Here, ∃ op es, h.th.ldq = ⟨op, .waiting⟩ :: es) ∧
    (∃ h : Here, ∃ op r es, h.th.ldq = ⟨op, .flying r⟩ :: es) ∧ (∃ h : Here, ∃ v vs, h.th.sdq = v :: vs) :=
  ⟨⟨⟨{ quietTask with ldq := [⟨anOp 0, .landed (.value 7 0)⟩] }, []⟩, _, _, _, _, rfl⟩,
   ⟨⟨{ quietTask with ldq := [⟨anOp 0, .waiting⟩] }, []⟩, _, _, rfl⟩,
   ⟨⟨{ quietTask with ldq := [⟨anOp 0, .flying (.value 7 0)⟩] }, []⟩, _, _, _, rfl⟩,
   ⟨⟨{ quietTask with sdq := [7] }, []⟩, _, _, rfl⟩⟩

/-- The limits of register fields: the last of the allocation, the first beyond it, 119 and 122. -/
theorem witness_register_fields :
    owned quietTask 31 = true ∧ owned quietTask 32 = false ∧ owned { quietTask with regLim := 128 } 119 = true ∧
    owned { quietTask with regLim := 128 } 122 = false ∧ owned quietTask 0 = true := by decide +kernel

theorem witness_checks :
    (∃ (x : Here) (f : Form), x.th.pend = [] ∧ f.superOnly = true ∧ x.th.sup = false) ∧
    (∃ (x : Here) (f : Form) (v : Word), x.th.pend = [] ∧ f.superOnly = false ∧ checkUses x.th f.uses 0 = some v) ∧
    (∃ (x : Here) (n : Nat) (op : Op), x.th.pend = [⟨op, .window (n + 1), .reg 3, .landed (.value 7 0)⟩]) :=
  ⟨⟨⟨quietTask, []⟩, form (wordOf .eret) [] true, rfl, rfl, rfl⟩,
   ⟨⟨quietTask, []⟩, form (wordOf (.add 32 1 2)) [.dst 32, .src 1, .src 2], 32, rfl, rfl, by decide +kernel⟩,
   ⟨⟨{ quietTask with pend := [⟨anOp 0, .window 1, .reg 3, .landed (.value 7 0)⟩] }, []⟩, 0, anOp 0, rfl⟩⟩

theorem witness_integer : Stands2 (onCore quietTask [0, 5, 7]) (.add 3 1 2) [.dst 3, .src 1, .src 2] 1 2 ∧
    Stands1 (onCore quietTask [0, 5]) (.clz 3 1) [.dst 3, .src 1] 1 ∧ Stands1 (onCore quietTask [0, 5]) (.srai 3 1 63) [.dst 3, .src 1] 1 ∧
    (issued (onCore quietTask []) (form (wordOf (.lui 3 0x7FFFF)) [.dst 3])).isSome = true :=
  ⟨stands2 (by decide +kernel) (by decide +kernel) (by decide +kernel), stands1 (by decide +kernel) (by decide +kernel),
   stands1 (by decide +kernel) (by decide +kernel), by decide +kernel⟩

theorem witness_branches : Stands2 (onCore quietTask [0, 5, 5]) (.beq 1 2 0x100) [.src 1, .src 2] 1 2 ∧
    Stands1 (onCore quietTask [0, 5]) (.bbs 1 63 0) [.src 1] 1 ∧ Stands1 (onCore quietTask [0, 0x300000002]) (.jalr 3 1 2) [.dst 3, .src 1] 1 :=
  ⟨stands2 (by decide +kernel) (by decide +kernel) (by decide +kernel), stands1 (by decide +kernel) (by decide +kernel),
   stands1 (by decide +kernel) (by decide +kernel)⟩

theorem witness_fp : Stands2 (onCore quietTask [0, 0x3F800000, 0x40000000]) (.faddS 3 1 2) [.dst 3, .src 1, .src 2] 1 2 ∧
    Stands1 (onCore quietTask [0, 0x7FC00000]) (.fsqrtS 3 1) [.dst 3, .src 1] 1 ∧
    Stands2 (onCore quietTask [0, 0x3F800000, 0x40000000]) (.fmaddS 3 1 2) [.both 3, .src 1, .src 2] 1 2 ∧
    Stands1 (onCore { quietTask with frm := 4 } [0, 0x3F800001]) (.cvtBf16S 3 1) [.dst 3, .src 1] 1 :=
  ⟨stands2 (by decide +kernel) (by decide +kernel) (by decide +kernel), stands1 (by decide +kernel) (by decide +kernel),
   stands2 (by decide +kernel) (by decide +kernel) (by decide +kernel), stands1 (by decide +kernel) (by decide +kernel)⟩

theorem witness_special_operands : fp32.decode 0x3F800000 = .fin false 0x800000 (-23) ∧ fp32.decode 0 = .fin false 0 (-149) ∧
    fp64.decode 0x7FF0000000000000 = .inf false ∧ fp64.decode 0xFFF0000000000000 = .inf true ∧
    fp32.decode 0xBF800000 = .fin true 0x800000 (-23) ∧ fp32.decode 0x7FC00000 = .nan false ∧ e4m3.decode 0x7E = .fin false 14 5 := by
  decide +kernel

theorem witness_x64 : x64Place (onCore quietTask [0, 9, 2]) ∧ Stands2 (onCore quietTask [0, 9, 2]) (.div 3 1 2) [.dst 3, .src 1, .src 2] 1 2 :=
  ⟨.inl rfl, stands2 (by decide +kernel) (by decide +kernel) (by decide +kernel)⟩

/-- A task on core 3, which has no X64. -/
def onCore3 : State :=
  { focusC := 3
    chip := { v := 4, clusters := [(0, { cores := [(3, { slots := [(1, .live { quietTask with homeC := 3 })], turn := 1 })] })] } }

theorem witness_x64_moves : ¬ x64Place onCore3 ∧ (∃ t, onCore3.chip.slot onCore3.place = .live t ∧
    (∀ c ∈ (onCore3.chip.cluster onCore3.place.v).claims, c.uid = t.uid → c.queue = [])) ∧
    (∃ w, encode (.div 3 1 2) = some w ∧ fld w 26 6 = 0x38) :=
  ⟨by unfold x64Place; decide +kernel, ⟨_, rfl, by decide +kernel⟩, ⟨_, rfl, by decide +kernel⟩⟩

theorem witness_memory : Memory.wf ([(3, 7), (9, 1)] : Mem) = true ∧ Memory.wf ([] : Mem) = true := by decide +kernel

/-- The bounds of the windows: the last byte of local scratch, the first beyond it, the peer window's ends, the first and
last byte of global memory. -/
theorem witness_windows :
    accessPlace 4 0 0x1FFFFF 1 = some (.here 0x1FFFFF) ∧ accessPlace 4 0 0x200000 1 = none ∧ accessPlace 4 0 0xFFFFFFFF 1 = none ∧
    accessPlace 4 0 0x100000000 1 = some (.here 0) ∧ accessPlace 4 0 0x1007FFFFF 1 = some (.remote 3 0x1FFFFF) ∧
    accessPlace 4 0 0x100800000 1 = none ∧ accessPlace 4 0 0x200000000 1 = some (.global 0x200000000) ∧
    accessPlace 4 0 (2 ^ 56 - 1) 1 = some (.global (2 ^ 56 - 1)) ∧ accessPlace 4 0 (2 ^ 56) 1 = none := by decide +kernel

/-- The same for the places an access of four bytes leads to: it crosses no window's end. -/
theorem witness_access_checks : accessPlace 4 0 0x1FFFFE 4 = none ∧ accessPlace 4 0 0x42 4 = some (.here 0x42) ∧
    (∃ h : Chip, (h.part 0).holds 3 = false ∧ accessPlace 4 0 0x100600000 4 = some (.remote 3 0)) ∧
    (∃ h : Chip, (h.cluster 0).mode 0 = .fifo) :=
  ⟨by decide +kernel, by decide +kernel, ⟨{}, by decide +kernel⟩,
   ⟨{ clusters := [(0, { banks := [(0, { mode := .fifo })] })] }, by decide +kernel⟩⟩

/-- An access stands at its own cluster's bank, checked clause by clause. -/
theorem at_own_bank {s : State} {y z : Here} {ea : Word} {n o : Nat} {m : BankMode}
    (h : (decide (accessPlace (s.chip.putHere s.place z).v s.place.v ea.toNat n = some (.here o)) && decide (ea.toNat % n = 0) &&
      decide (((s.chip.putHere s.place z).cluster s.place.v).mode (o / 65536) = m) &&
      !(s.chip.putHere s.place z).accessHeld s.place y.th ea.toNat n) = true) : AtOwnBank s y z ea n m o := by
  simp only [Bool.and_eq_true, decide_eq_true_eq, Bool.not_eq_true'] at h
  exact ⟨h.1.1.1, h.1.1.2, h.1.2, h.2⟩

/-- A load at the last word of a bank, and a store of a quiet task there. -/
def atBank : State := onCore quietTask [0, 0xFFF8, 7]

theorem witness_loads : ∃ y u z, Issues atBank (accessForm (wordOf (.ldD 3 1 15 0)) [.loadDst 3, .src 1] 1 0 atBank) y ∧
    y.passed.read 1 = .ok (u, z) ∧ AtOwnBank atBank y z (effective u 0 8) 8 .scratch 0xFFF8 :=
  ⟨standing atBank _, _, _, issues_standing (by decide +kernel), read_value (by decide +kernel), at_own_bank (by decide +kernel)⟩

theorem witness_stores : ∃ y u w x z, Issues atBank (accessForm (wordOf (.stD 2 1 0)) [.data 2, .src 1] 1 0 atBank) y ∧
    y.passed.read 1 = .ok (u, x) ∧ x.readData 2 = .ok (w, z) ∧ AtOwnBank atBank y z (effective u 0 8) 8 .scratch 0xFFF8 ∧
    y.th.quiet = true ∧ Memory.wf (atBank.chip.cluster atBank.place.v).scratch = true :=
  ⟨standing atBank _, _, _, _, _, issues_standing (by decide +kernel), read_value (by decide +kernel),
   ok_answer (d := (0, standing atBank (form 0))) (by decide +kernel), at_own_bank (by decide +kernel), by decide +kernel⟩

theorem witness_atomics : ∃ y u w z, Issues atBank (accessForm (wordOf (.amoAdd 3 1 2)) [.loadDst 3, .src 1, .src 2] 1 0 atBank) y ∧
    Reads2 y 1 2 u w z ∧ AtOwnBank atBank y z u 8 .scratch 0xFFF8 ∧ y.th.quiet = true :=
  ⟨standing atBank _, _, _, _, issues_standing (by decide +kernel), reads_values (by decide +kernel) (by decide +kernel),
   at_own_bank (by decide +kernel), by decide +kernel⟩

/-- A task whose cluster has a SCRATCH-T bank 0 and a LOG bank 1. -/
def atTracked (t : Thread) : State :=
  package { clusterWith t [0, 0x40, 7] with banks := [(0, { mode := .scratchT }), (1, { mode := .log })] }

/-- A load and a store at a line of the tracked bank. -/
theorem witness_tracked : (∃ y u z, Issues (atTracked specTask) (accessForm (wordOf (.ldD 3 1 15 0)) [.loadDst 3, .src 1] 1 0 (atTracked specTask)) y ∧
    y.passed.read 1 = .ok (u, z) ∧ AtOwnBank (atTracked specTask) y z (effective u 0 8) 8 .scratchT 0x40 ∧ y.th.sup = false ∧ y.th.quiet = false ∧
    (let h := (atTracked specTask).holding z
     h.ownReduction 0 y.th.uid false 0x40 8 = false ∧ h.room 0 y.th.uid 0 (!h.hasSig 0 y.th.uid) = .enough ∧ (h.tag 0 1).u = false)) ∧
   (∃ y u w x z, Issues (atTracked specTask) (accessForm (wordOf (.stD 2 1 0)) [.data 2, .src 1] 1 0 (atTracked specTask)) y ∧
    y.passed.read 1 = .ok (u, x) ∧ x.readData 2 = .ok (w, z) ∧ AtOwnBank (atTracked specTask) y z (effective u 0 8) 8 .scratchT 0x40 ∧
    (let h := (atTracked specTask).holding z
     h.room 0 y.th.uid 3 false = .enough ∧ h.hasUndo 0 y.th.uid 1 = false ∧ (h.tag 0 1).rts.toNat ≤ y.th.stamp.toNat ∧
      ∀ x ∈ (h.cluster 0).sigs, x.uid = y.th.uid)) :=
  ⟨⟨standing (atTracked specTask) _, _, _, issues_standing (by decide +kernel), read_value (by decide +kernel),
    at_own_bank (by decide +kernel), by decide +kernel⟩,
   ⟨standing (atTracked specTask) _, _, _, _, _, issues_standing (by decide +kernel), read_value (by decide +kernel),
    ok_answer (d := (0, standing (atTracked specTask) (form 0))) (by decide +kernel), at_own_bank (by decide +kernel), by decide +kernel⟩⟩

/-- An access stands at a global page, checked clause by clause. -/
theorem at_page {s : State} {y z : Here} {ea : Word} {n : Nat} {l : Leaf}
    (h : (decide (accessPlace (s.holding z).v s.place.v ea.toNat n = some (.global ea.toNat)) && decide (ea.toNat % n = 0) &&
      !(s.holding z).accessHeld s.place y.th ea.toNat n) = true)
    (r : ((s.holding z).warm y.th.pid ea.toNat).resolve y.th.who ea.toNat ea = .ok l) : AtPage s y z ea n l := by
  simp only [Bool.and_eq_true, decide_eq_true_eq, Bool.not_eq_true'] at h
  exact ⟨h.1.1, h.1.2, h.2, r⟩

/-- A thread at a PRIVATE page of region 0x3_0000, in a cluster with a LOG bank. -/
def atPage (t : Thread) : State :=
  package { clusterWith t [0, 0x300000040, 7] with banks := [(1, { mode := .log })] } fun h =>
    { h with stations := [{ station := stationOf 0 0x30000, pid := 0, region := 0x30000, leaf := 0xC000000000010000#64, level := 0 }] }

theorem witness_pages : (∀ t ∈ [quietTask, specTask], ∃ y u z l, Issues (atPage t) (accessForm (wordOf (.ldD 3 1 15 0)) [.loadDst 3, .src 1] 1 0 (atPage t)) y ∧
    y.passed.read 1 = .ok (u, z) ∧ AtPage (atPage t) y z (effective u 0 8) 8 l ∧ l = ⟨0x10040, .priv, false, none⟩ ∧
    ((atPage t).chip.cluster 0).throughs = [] ∧ ((atPage t).holding z).recordsOf y.th.uid = []) ∧
   (∀ t ∈ [quietTask, specTask], ∃ y u w x z l, Issues (atPage t) (accessForm (wordOf (.stD 2 1 0)) [.data 2, .src 1] 1 0 (atPage t)) y ∧
    y.passed.read 1 = .ok (u, x) ∧ x.readData 2 = .ok (w, z) ∧ AtPage (atPage t) y z (effective u 0 8) 8 l ∧ l.pub = none ∧ l.attr = .priv ∧
    ((atPage t).holding z).room 0 y.th.uid 3 false = .enough) := by
  constructor
  · intro t ht
    simp only [List.mem_cons, List.not_mem_nil, or_false] at ht
    rcases ht with rfl | rfl
    · exact ⟨standing (atPage quietTask) _, _, _, _, issues_standing (by decide +kernel), read_value (by decide +kernel),
        at_page (by decide +kernel) (ok_answer (d := ⟨0, .priv, false, none⟩) (by decide +kernel)), by decide +kernel⟩
    · exact ⟨standing (atPage specTask) _, _, _, _, issues_standing (by decide +kernel), read_value (by decide +kernel),
        at_page (by decide +kernel) (ok_answer (d := ⟨0, .priv, false, none⟩) (by decide +kernel)), by decide +kernel⟩
  · intro t ht
    simp only [List.mem_cons, List.not_mem_nil, or_false] at ht
    rcases ht with rfl | rfl
    · exact ⟨standing (atPage quietTask) _, _, _, _, _, _, issues_standing (by decide +kernel), read_value (by decide +kernel),
        ok_answer (d := (0, standing (atPage quietTask) (form 0))) (by decide +kernel), at_page (by decide +kernel) (ok_answer (d := ⟨0, .priv, false, none⟩) (by decide +kernel)), by decide +kernel⟩
    · exact ⟨standing (atPage specTask) _, _, _, _, _, _, issues_standing (by decide +kernel), read_value (by decide +kernel),
        ok_answer (d := (0, standing (atPage specTask) (form 0))) (by decide +kernel), at_page (by decide +kernel) (ok_answer (d := ⟨0, .priv, false, none⟩) (by decide +kernel)), by decide +kernel⟩

theorem witness_reductions : ∃ y u w z, Issues (atTracked specTask) (accessForm (wordOf (.redAdd 1 2)) [.src 1, .src 2] 1 0 (atTracked specTask)) y ∧
    Reads2 y 1 2 u w z ∧ AtOwnBank (atTracked specTask) y z u 8 .scratchT 0x40 ∧ y.th.sup = false ∧ y.th.quiet = false ∧
    (atTracked specTask).chip.room 0 y.th.uid 1 false = .enough :=
  ⟨standing (atTracked specTask) _, _, _, _, issues_standing (by decide +kernel), reads_values (by decide +kernel) (by decide +kernel),
   at_own_bank (by decide +kernel), by decide +kernel⟩

theorem witness_domains : ∃ (h : Chip) (w : Who) (g : Chip), (h.cluster 0).mode 0 = .scratchT ∧ w.mode = .spec ∧
    h.room 0 w.uid 3 false = .enough ∧ h.makeUndo w 0 1 0x40 = .ok g :=
  ⟨(atTracked specTask).chip, specTask.who, answer ((atTracked specTask).chip.makeUndo specTask.who 0 1 0x40) {}, by decide +kernel,
   by decide +kernel, by decide +kernel, ok_answer (by decide +kernel)⟩

theorem witness_own_reduction : ∃ (h : Chip) (w : Who), w.mode = .spec ∧ (h.cluster 0).mode 0 = .scratchT ∧
    h.ownReduction 0 w.uid false 0x40 8 = true :=
  ⟨{ (atTracked specTask).chip with clusters := (atTracked specTask).chip.clusters.each fun _ k =>
      { k with log := [⟨16384, 0, .red .add false 0x40 0x40 1⟩] } }, specTask.who, by decide +kernel⟩

theorem witness_thread_frame : ∃ i s f y z, Issues s f y ∧ LeavesThread i s z ∧ i = .add 3 1 2 :=
  ⟨.add 3 1 2, onCore quietTask [0, 5, 7], _, _, _,
   issues_standing (f := form (wordOf (.add 3 1 2)) [.dst 3, .src 1, .src 2]) (by decide +kernel),
   (rfl : exec (.add 3 1 2) (onCore quietTask [0, 5, 7]) = _), rfl⟩

/-! ### Traps, returns and system registers -/

/-- A trap that TRAP raises. -/
def aTrap : Raised := { trap := .etrap, tval := 5, epc := 0x300000000, cpc := 0x300000004 }

theorem witness_traps :
    (let h := (onCore handled []).chip
     h.slot slot1 = .live handled ∧ handled.sup = false ∧ aTrap.trap ≠ .ebreak ∧ handled.traps.vec ≠ 0 ∧ handled.speculative = false) ∧
    (let h := (onCore specTask []).chip
     h.slot slot1 = .live specTask ∧ specTask.speculative = true ∧ h.floorStamp specTask.pid specTask.stamp = false) ∧
    (let h := (onCore quietTask []).chip
     h.slot slot1 = .live quietTask ∧ quietTask.traps.vec = 0 ∧ quietTask.speculative = false ∧ (h.core 0 0).notices = []) ∧
    (∃ t, (({} : Chip).slot ⟨0, 0, 0⟩ = .live t) ∧ t.sup = true) := by
  refine ⟨by decide +kernel, by decide +kernel, by decide +kernel, _, rfl, by decide +kernel⟩

theorem witness_trap_and_wait : Stands1 (onCore quietTask [0, 5]) (.trap 1) [.src 1] 1 ∧
    (∃ y u z, Issues (onCore inHandler [0, 15]) (form (wordOf (.wait 3 1)) [.dst 3, .src 1] true) y ∧ y.passed.read 1 = .ok (u, z) ∧
      u ≠ 0 ∧ u.toNat < 16) :=
  ⟨stands1 (by decide +kernel) (by decide +kernel),
   ⟨standing _ _, _, _, issues_standing (by decide +kernel), read_value (by decide +kernel), by decide +kernel⟩⟩

/-- A cluster whose core has its debug port enabled, for BKPT. -/
def withPort : State := package { cores := [(0, { slots := [(1, .live quietTask)], turn := 1, den := true })] }

theorem witness_breakpoint : ∃ y, Issues withPort (form (wordOf .bkpt)) y ∧ (withPort.chip.core 0 0).den = true ∧
    (withPort.chip.part (withPort.chip.pidAt withPort.place.v y.th)).bounded = false :=
  ⟨_, issues_standing (by decide +kernel), by decide +kernel⟩

/-- A handler whose deferred load may now be replayed: it reads SCRATCH. -/
def replaying : Thread := { inHandler with traps := { inHandler.traps with cause := 0x105 }
                                           saved := some (⟨{ anOp 0 with ea := 0x40 }, .window 0, .reg 3, .landed (.fault .eperm 0x40)⟩, false) }

/-- The same operation upon a bank whose mode admits no load. -/
def replayingAtFifo : State := package { clusterWith replaying [] with banks := [(0, { mode := .fifo })] }

theorem witness_eret : ∃ y u, Issues (onCore inHandler []) (form (wordOf .eret) [] true) y ∧ y.th.suspended = some u ∧
    y.th.traps.cause.getLsbD 8 = false :=
  ⟨_, _, issues_standing (by decide +kernel), rfl, by decide +kernel⟩

theorem witness_replay : ∃ y g, Issues (onCore replaying []) (form (wordOf (.treplay 4)) [.dst 4] true) y ∧
    (y.th.suspended.isSome && y.th.saved.isSome && y.th.traps.cause.getLsbD 8 && !y.th.traps.cause.getLsbD 9) = true ∧
    ((onCore replaying []).passed y).replay slot1 y.th = .done g :=
  ⟨standing _ _, _, issues_standing (by decide +kernel), by decide +kernel, rfl⟩

theorem witness_replay_again : ∃ y e v, Issues replayingAtFifo (form (wordOf (.treplay 4)) [.dst 4] true) y ∧
    (replayingAtFifo.passed y).replay slot1 y.th = .again e v :=
  ⟨standing _ _, _, _, issues_standing (by decide +kernel), rfl⟩

theorem witness_mfs : ∀ n ∈ [0x000, 0x003, 0x014, 0x002, 0x100, 0x7FF, 0x800, 0x015, 0x022, 0x020, 0x103],
    (issued (onCore quietTask []) (form (wordOf (.mfs 3 (BitVec.ofNat 14 n))) [.dst 3])).isSome = true ∧
    (onCore quietTask []).chip.flagsDue 0 quietTask.uid = false := by decide +kernel

theorem witness_mfs_device : ∃ x t, quietTask.sup = false ∧ readOnly 0x100 = true ∧ (onCore quietTask []).chip.ownDispatcher slot1 = false ∧
    (onCore quietTask []).readReg 0 0 0x100 = some (x, t) := ⟨_, _, rfl, by decide +kernel, by decide +kernel, rfl⟩

theorem witness_mts : Stands1 (onCore inHandler [0, 4]) (.mts 1 0x001) [.src 1] 1 ∧ Stands1 (onCore quietTask [0, 5]) (.mts 1 0x001) [.src 1] 1 ∧
    Stands1 (onCore quietTask [0, 0x2000]) (.mts 1 0x008) [.src 1] 1 ∧ (0x2000#64 : Word) = BitVec.ofNat 64 (256 * 32 + 0) :=
  ⟨stands1 (by decide +kernel) (by decide +kernel), stands1 (by decide +kernel) (by decide +kernel),
   stands1 (by decide +kernel) (by decide +kernel), rfl⟩

theorem witness_mts_device : ∃ w, inHandler.sup = true ∧ readOnly 0x141 = false ∧ (onCore inHandler []).chip.ownDispatcher slot1 = false ∧
    ((onCore inHandler []).readReg 0 0 0x141).isSome = true ∧ (onCore inHandler []).writeReg 0 0 0x141 15 = some w :=
  ⟨_, rfl, by decide +kernel, by decide +kernel, by decide +kernel, rfl⟩

theorem witness_mts_completes : (∀ t ∈ [quietTask, inHandler], (onCore t [0, 4]).chip.slot slot1 = .live t ∧ t.pend = [] ∧ owned t 1 = true ∧
    readGpr t.past ((onCore t [0, 4]).chip.core 0 0).file 1 = 4 ∧ (onCore t [0, 4]).chip.ownDispatcher slot1 = false) ∧
    plainMask 0x462 = some 0x7FFFFF#64 ∧ (2000#64 : Word) &&& 0x7FFFFF#64 = 2000#64 ∧ plainRange 0x462 2000 = true := by decide +kernel

theorem witness_registers : ∃ i m, plainMask i = some m ∧ plainRange i 0 = true := ⟨0x4A3, _, rfl, by decide +kernel⟩

theorem witness_bmode : ∃ y u w z, Issues (onCore inHandler [0, 0xFFFFFFFF, 4]) (form (wordOf (.bmode 3 1 2)) [.dst 3, .src 1, .src 2] true) y ∧
    Reads2 y 1 2 u w z ∧ u.toNat < 2 ^ 32 ∧ w.toNat ≤ 5 ∧ w ≠ 5 ∧
    (∀ n < 32, ((onCore inHandler [0, 0xFFFFFFFF, 4]).holding z).bankLive 0 n = false ∧
      ((onCore inHandler [0, 0xFFFFFFFF, 4]).holding z).bankInUse 0 n = false) :=
  ⟨standing _ _, _, _, _, issues_standing (by decide +kernel), reads_values (by decide +kernel) (by decide +kernel), by decide +kernel⟩

theorem witness_cache_and_home : (issued (onCore quietTask []) (form (wordOf .cflush))).isSome = true ∧
    Stands2 (onCore quietTask [0, 0x200000000, 0x100000000]) (.cinv 1 2) [.src 1, .src 2] 1 2 ∧
    (∃ y, Issues (onCore { quietTask with away := true } []) (form (wordOf .home)) y ∧ y.th.away = true ∧
      ((onCore { quietTask with away := true } []).passed y).mayLeave slot1 y.th = true) :=
  ⟨by decide +kernel, stands2 (by decide +kernel) (by decide +kernel) (by decide +kernel),
   ⟨_, issues_standing (by decide +kernel), by decide +kernel⟩⟩

theorem witness_rep : (issued (onCore quietTask []) (form (wordOf (.rep 2 1 1 1 0)))).isSome = true ∧
    captureRefused 0x84211100#32 0x0418B180#32 = false ∧ captureRefused 0x84211100#32 0x6C000010#32 = true ∧
    1 < repCount 0x84211100#32 ∧ (∃ t : Thread, t.frame = some ⟨0x84211100#32, 0x300000000, 0, 0, []⟩) :=
  ⟨by decide +kernel, by decide +kernel, by decide +kernel, by decide +kernel,
   ⟨{ quietTask with frame := some ⟨0x84211100#32, 0x300000000, 0, 0, []⟩ }, rfl⟩⟩

/-! ### Tasks -/

theorem witness_spawn : ∃ y u v c z, Issues (onCore specTask [0, 0x300000100, 0x2000000, 0x12080])
    (form (wordOf (.spawn 3 1 2)) [.both 3, .src 1, .src 2]) y ∧ y.th.sup = false ∧ Reads3 y 1 2 3 u v c z ∧
    bits c 16 4 ≠ 0 ∧ bits c 11 5 ≤ 16 ∧ y.th.stamp.toNat < v.toNat ∧ u.toNat % 4 = 0 :=
  ⟨standing _ _, _, _, _, _, issues_standing (by decide +kernel), by decide +kernel,
   ⟨_, reads_values (by decide +kernel) (by decide +kernel), read_value (by decide +kernel)⟩,
   by decide +kernel⟩

/-- A task's packet for core 0 of cluster 0. -/
def aPacket : Packet :=
  { origin := .spawn, pc := 0x300000000, stamp := 0x1000000, regn := 4, args := [11, 12], fmtA := 0, fmtB := 0, fmtC := 0, grps := 0
    quiet := true, cores := false, tvec := 0, priority := 0, homeV := 0, homeC := 0 }

/-- The dispatcher of core 0 with one packet in its queue, register 1 of slot 0 holding `x`. -/
def dispatching (x : Word) : State :=
  { chip := { v := 4, tasks := [(16384, { pid := 0, packet := aPacket })]
              clusters := [(0, { cores := [(0, { file := [(1, x)], queue := [⟨16384, false, 0⟩] })] })] } }

theorem witness_take : ∃ y u z g kind slot, y.passed.read 1 = .ok (u, z) ∧
    Issues (dispatching 1) (form (wordOf (.take 2 1)) [.dst 2, .src 1] true) y ∧ (dispatching 1).place.t = 0 ∧ u.toNat ≤ 1 ∧
    ((dispatching 1).holding z).floorBuffer 0 0 = none ∧ ((dispatching 1).holding z).takeHead 0 0 = some (g, kind, slot) :=
  ⟨standing (dispatching 1) (form (wordOf (.take 2 1)) [.dst 2, .src 1] true), _, _, _, _, _, read_value (by decide +kernel),
   issues_standing (by decide +kernel), by decide +kernel, by decide +kernel, by decide +kernel, rfl⟩

theorem witness_start : ∃ k slot base t, (dispatching 1).chip.startable 0 0 = some (k, slot, (base, none)) ∧ k.entry.arrival = false ∧
    (dispatching 1).chip.task? k.entry.uid = some t ∧ t.packet.message = none :=
  ⟨_, _, _, _, rfl, by decide +kernel, rfl, by decide +kernel⟩

/-- The dispatcher of a core whose slot 2 is ENDED. -/
def reaping : State :=
  { chip := { v := 4, clusters := [(0, { cores := [(0, { file := [(1, 1)], slots := [(2, .ended 32 32 false true)] })] })] } }

theorem witness_reap : ∃ y u z, y.passed.read 1 = .ok (u, z) ∧ Issues reaping (form (wordOf (.reap 2 1)) [.dst 2, .src 1] true) y ∧
    (reaping.holding z).slot ⟨0, 0, 2⟩ = .ended 32 32 false true ∧ (∀ q < 2, ∀ b l r ab, (reaping.holding z).slot ⟨0, 0, q⟩ ≠ .ended b l r ab) :=
  ⟨standing reaping (form (wordOf (.reap 2 1)) [.dst 2, .src 1] true), _, _, read_value (by decide +kernel),
   issues_standing (by decide +kernel), by decide +kernel, fun q hq b l r ab => by
     match q, hq with
     | 0, _ => intro e; cases e
     | 1, _ => intro e; cases e⟩

theorem witness_ends : (∃ y, Issues (onCore quietTask []) (form (wordOf .tend)) y ∧ y.th.sup = false ∧
      ((onCore quietTask []).passed y).endHeld slot1 y.th = false ∧ ((onCore quietTask []).passed y).linkedShadows y.th = []) ∧
    (∃ y u z, Issues (discardFaults 1 (onCore quietTask [0, 3])) (form (wordOf (.tabort 1)) [.src 1]) y ∧ y.passed.read 1 = .ok (u, z) ∧
      ((discardFaults 1 (onCore quietTask [0, 3])).holding z).endHeld slot1 y.th = false) ∧
    (issued (onCore quietTask []) (form (wordOf .yield))).isSome = true :=
  ⟨⟨_, issues_standing (by decide +kernel), by decide +kernel⟩,
   ⟨standing _ _, _, _, issues_standing (by decide +kernel), read_value (by decide +kernel), by decide +kernel⟩, by decide +kernel⟩

/-- YIELD leaves its slot where a queued packet waits for one: the other fourteen are ENDED. -/
def yielding : State :=
  package { cores := [(0, { slots := (1, Slot.live quietTask) :: (List.range 14).map fun n => (n + 2, .ended 0 0 false false)
                            turn := 1, queue := [⟨16385, false, 0⟩] })] } fun h => { h with tasks := [(16385, { pid := 0, packet := aPacket })] }

theorem witness_yields : ∃ y, Issues yielding (form (wordOf .yield)) y ∧ yielding.place.t ≠ 0 ∧
    (yielding.passed y).headWantsSlot 0 0 = true ∧ (y.th.quiet && (yielding.passed y).bound y.th) = false :=
  ⟨_, issues_standing (by decide +kernel), by decide +kernel⟩

theorem witness_queries : (issued (onCore quietTask []) (form (wordOf (.mfc 3 15)) [.dst 3])).isSome = true ∧
    (issued (onCore quietTask []) (form (wordOf (.mfc 3 16)) [.dst 3])).isSome = true ∧
    Stands1 (onCore quietTask [0, 5]) (.mtc 1 15) [.src 1] 1 ∧ (issued (onCore inHandler []) (form (wordOf (.grade 3)) [.dst 3])).isSome = true ∧
    Stands1 (onCore inHandler [0, 3]) (.topo 3 1) [.dst 3, .src 1] 1 ∧ Stands1 (onCore inHandler [0, 4]) (.topo 3 1) [.dst 3, .src 1] 1 :=
  ⟨by decide +kernel, by decide +kernel, stands1 (by decide +kernel) (by decide +kernel), by decide +kernel,
   stands1 (by decide +kernel) (by decide +kernel), stands1 (by decide +kernel) (by decide +kernel)⟩

/-! ### The vector pool -/

/-- The claim of the task, with these commands waiting. -/
def aClaim (q : List VCmd) : Claim := { uid := 16384, request := 8, grant := 8, queue := q }

/-- A task that holds a claim of 8 lanes. -/
def claiming (regs : List Word) (q : List VCmd) : State := package { clusterWith quietTask regs with claims := [aClaim q] }

/-- A command of no account. -/
def aCommand : VCmd := { op := anOp 3, mask := 0xFF, scalar := 0 }

theorem witness_claims : Stands1 (onCore quietTask [0, 64]) (.claim 1) [.src 1] 1 ∧ Stands1 (onCore quietTask [0, 72]) (.claim 1) [.src 1] 1 ∧
    Stands1 (claiming [0, 8] []) (.reneg 1) [.src 1] 1 ∧ (issued (claiming [] [aCommand]) (form (wordOf .vrel))).isSome = true ∧
    ((claiming [] [aCommand]).chip.cluster 0).claimOf 16384 = some (aClaim [aCommand]) :=
  ⟨stands1 (by decide +kernel) (by decide +kernel), stands1 (by decide +kernel) (by decide +kernel),
   stands1 (by decide +kernel) (by decide +kernel), by decide +kernel⟩

theorem witness_vector_command : ∃ y c, Issues (claiming [0, 0, 0, 0xFF, 64] []) (form (wordOf (.vslide 1 2 3 0)) [.pair 0]) y ∧
    Holds (claiming [0, 0, 0, 0xFF, 64] []) y c ∧ c.queue.length < 8 :=
  ⟨standing _ _, aClaim [], issues_standing (by decide +kernel), ⟨by decide +kernel, by decide +kernel⟩, by decide +kernel⟩

theorem witness_vector_full : ∃ y c, Issues (claiming [] (List.replicate 8 aCommand)) (form (wordOf (.vaddS 1 2 3 0)) [.pair 0]) y ∧
    Holds (claiming [] (List.replicate 8 aCommand)) y c ∧ 8 ≤ c.queue.length :=
  ⟨standing _ _, aClaim (List.replicate 8 aCommand), issues_standing (by decide +kernel), ⟨by decide +kernel, by decide +kernel⟩, by decide +kernel⟩

theorem witness_vector_memory : ∃ y c, Issues (claiming [0, 0, 0xFF, 0x40] [])
      (vmPoints (wordOf (.vld 1 1)) 1 (claiming [0, 0, 0xFF, 0x40] [])) y ∧
    Holds (claiming [0, 0, 0xFF, 0x40] []) y c ∧ accessPlace 4 0 (y.passed.pair 1).2.toNat 1 = some (.here 0x40) ∧
    ((claiming [0, 0, 0xFF, 0x40] []).passed y).vmHeld slot1 y.th (wordOf (.vld 1 1)) (y.passed.pair 1).2 = false :=
  ⟨standing _ _, aClaim [], issues_standing (by decide +kernel), ⟨by decide +kernel, by decide +kernel⟩, by decide +kernel⟩

theorem witness_vector_scalar : ∃ y c, Issues (claiming [] []) (form (wordOf (.vrsum 121 2 15)) [.vsDst 121]) y ∧ Holds (claiming [] []) y c :=
  ⟨standing _ _, aClaim [], issues_standing (by decide +kernel), ⟨by decide +kernel, by decide +kernel⟩⟩

theorem witness_mailbox_command : ∃ y u z c, Issues (claiming [0, 0xFEF0] [])
      (accessForm (wordOf (.mbld 1 1)) [.src 1] 1 0 (claiming [0, 0xFEF0] [])) y ∧ Holds (claiming [0, 0xFEF0] []) y c ∧
    y.passed.read 1 = .ok (u, z) ∧ accessPlace 4 0 u.toNat 1 = some (.here 0xFEF0) ∧ u.toNat % 65536 ≤ 0xFEF0 ∧ y.th.accessWaiting = false :=
  ⟨standing _ _, _, _, aClaim [], issues_standing (by decide +kernel), ⟨by decide +kernel, by decide +kernel⟩, read_value (by decide +kernel),
   by decide +kernel⟩

/-- An addition that waits in a claim's queue. -/
def anAddition : VCmd := { aCommand with op := { anOp 3 with word := wordOf (.vaddS 1 2 3 0) } }

/-- A claim whose first command may run, on a cluster that runs. -/
def computing : State := package { clusterWith quietTask [] with claims := [aClaim [anAddition]] }

/-- v0 and v1 hold blocks of one variable; v0 begins with 1.0. -/
def twoBlocks : Map Half := [(0, 0x3F800000), (63, 1), (127, 1)]

theorem witness_vector_values : finitePat 0x3F800000 ∧ nanPattern 0x7FA00000 ∧ ¬ nanPattern 0x7F800000 ∧
    (∀ e < 64, vget twoBlocks 0 e = 0x3F800000#32 ∨ finitePat (vget twoBlocks 0 e)) ∧
    ibOk (vreg twoBlocks 0) = true ∧ ibOk (vreg twoBlocks 1) = true ∧ ibDim (vreg twoBlocks 0) = ibDim (vreg twoBlocks 1) ∧
    0 ∈ ibLayout (ibDim (vreg twoBlocks 0)) ∧ vget twoBlocks 0 0 ≠ vget twoBlocks 1 0 ∧
    ranksBefore 0x40000000 0x3F800000 1 0 ∧ isExtreme true (vget twoBlocks 0) 0x3F800000 ∧ isExtreme false (vget twoBlocks 1) 0 := by
  refine ⟨?_, ?_, ?_, ?_, by decide +kernel, by decide +kernel, by decide +kernel, by decide +kernel, by decide +kernel, ?_, ?_, ?_⟩
  all_goals first | (unfold finitePat; decide +kernel) | (unfold nanPattern; decide +kernel) |
    (unfold ranksBefore nanPattern; decide +kernel) | (unfold isExtreme nanPattern; decide +kernel)

theorem witness_vector_sums : ((List.range 64).map fun e => ratOf (vget twoBlocks 0 e)).sum ≠ 0 := by decide +kernel

theorem witness_vector_complete : ∃ d, computing.chip.running 0 = true ∧ computing.chip.limited 0 = false ∧
    computing.chip.placeOf 16384 = some slot1 ∧ computing.chip.listed slot1 (.live quietTask) ∧
    computing.chip.vectorRun quietTask 0 [] anAddition = .ok (d, computing.chip) :=
  ⟨_, by decide +kernel, by decide +kernel, by decide +kernel, ⟨_, _, rfl, rfl, rfl⟩, rfl⟩

theorem witness_mailbox_set : ∃ y u w z, Issues (package { clusterWith inHandler [0, 0x30, 0x800000000] with banks := [(0, { mode := .scratchT })] })
      (accessForm (wordOf (.mbset 1 2)) [.src 1, .src 2] 1 0 (package { clusterWith inHandler [0, 0x30, 0x800000000] with banks := [(0, { mode := .scratchT })] })) y ∧
    Reads2 y 1 2 u w z ∧ u.toNat % 16 = 0 ∧ 1 ≤ bits w 32 4 ∧ bits w 32 4 ≤ 8 ∧ bits w 36 28 = 0 ∧ bits w 10 2 = 0 :=
  ⟨standing _ _, _, _, _, issues_standing (by decide +kernel), reads_values (by decide +kernel) (by decide +kernel), by decide +kernel⟩

/-! ### The matrix engine -/

/-- A member of gang 5 in group slot 0. -/
def member : Thread := { quietTask with grps := 0x100000005 }

/-- Slot 0 filled with INT8, accumulator 0 bound. -/
def aGang : Gang := { pid := 0, gid := 5, slots := [(0, { code := 1, index := 0 }), (1, { code := 1, index := 0 })], accs := [(0, { phys := 0 })] }

/-- Cluster 0 with this gang, and this thread on its core 0. -/
def ganged (t : Thread) (g : Gang) (regs : List Word) : State :=
  package { clusterWith t regs with gangs := [g], pid := some 0 } fun h =>
    { h with parts := [(0, { active := true, vcnmap := [(0, 1)], groups := [(5, { flags := 2, members := [16384] })] })] }

theorem in_gang {s : State} {y : Here} {gid : Nat} {g : Gang}
    (h : (!y.th.sup && y.th.quiet && !y.th.away && decide (s.chip.gangOf y.th = some gid) &&
      decide ((s.chip.cluster s.place.v).gang y.th.pid gid = some g)) = true) : InGang s y gid g := by
  simp only [Bool.and_eq_true, Bool.not_eq_true', decide_eq_true_eq] at h
  exact ⟨h.1.1.1.1, h.1.1.1.2, h.1.1.2, h.1.2, h.2⟩

/-- A member arrives at, stands at and goes on from a gang instruction, and takes its gang's trap. -/
theorem witness_gang_instruction : ∀ w ∈ [Wait.none, .gang 1, .gangDone none, .gangDone (some (.egang, 7))],
    (issued (ganged { member with wait := w } aGang []) (form (wordOf (.orel 0)))).isSome = true ∧
    InGang (ganged { member with wait := w } aGang []) (standing (ganged { member with wait := w } aGang []) (form (wordOf (.orel 0)))) 5 aGang ∧
    ((ganged { member with wait := w } aGang []).chip.group 0 5).shortOf 1 = false := by
  simp only [List.forall_mem_cons, List.not_mem_nil, false_implies, implies_true, and_true]
  exact ⟨⟨by decide +kernel, in_gang (by decide +kernel), by decide +kernel⟩, ⟨by decide +kernel, in_gang (by decide +kernel), by decide +kernel⟩,
    ⟨by decide +kernel, in_gang (by decide +kernel), by decide +kernel⟩, by decide +kernel, in_gang (by decide +kernel), by decide +kernel⟩

theorem witness_old : ∃ y x c z q, let s := ganged member aGang [0, 0x1000, 0]
    InGang s y 5 aGang ∧ Reads2 y 1 2 x c z ∧ Issues s (form (wordOf (.old 3 1 2)) [.dst 3, .src 1, .src 2]) y ∧
    bits c 17 15 = 0 ∧ oldFirst c + oldCount c ≤ 64 ∧ aGang.slots.get (bits c 0 4) = some q ∧ windowOf x.toNat = .scratch ∧
    x.toNat % 16 = 0 ∧ bits c 32 4 = 0 ∧ (s.holding z).memberHeld y.th s.place = false :=
  ⟨standing (ganged member aGang [0, 0x1000, 0]) (form (wordOf (.old 3 1 2)) [.dst 3, .src 1, .src 2]), _, _, _, { code := 1, index := 0 },
   in_gang (by decide +kernel), reads_values (by decide +kernel) (by decide +kernel), issues_standing (by decide +kernel),
   by decide +kernel⟩

theorem witness_ard : ∃ y x c z, let s := ganged member aGang [0, 0x1000, 0x1080000]
    InGang s y 5 aGang ∧ Reads2 y 1 2 x c z ∧ Issues s (form (wordOf (.ard 1 2)) [.src 1, .src 2]) y ∧
    accRefused 3 c = false ∧ accFmt c = 0 ∧ accAddress x c = .ok () ∧ (aGang.accs.get (bits c 0 3)).isSome = true ∧
    (s.holding z).memberHeld y.th s.place = false :=
  ⟨standing (ganged member aGang [0, 0x1000, 0x1080000]) (form (wordOf (.ard 1 2)) [.src 1, .src 2]), _, _, _, in_gang (by decide +kernel),
   reads_values (by decide +kernel) (by decide +kernel), issues_standing (by decide +kernel), by decide +kernel⟩

theorem witness_awr : accRefused 4 0x80000 = false ∧ accAddress 0x1FFF00 0 = .ok () ∧ accAddress 0x1FFF04 0 ≠ .ok () := by decide +kernel

theorem witness_mwait : ∃ y x c z, let s := ganged member aGang [0, 0, 0xFF]
    InGang s y 5 aGang ∧ Reads2 y 1 2 x c z ∧ Issues s (form (wordOf (.mwait 1 2)) [.src 1, .src 2]) y ∧
    x.toNat ≤ y.th.counters.old ∧ bits c 8 56 = 0 ∧ aGang.queue = [] :=
  ⟨standing (ganged member aGang [0, 0, 0xFF]) (form (wordOf (.mwait 1 2)) [.src 1, .src 2]), _, _, _, in_gang (by decide +kernel),
   reads_values (by decide +kernel) (by decide +kernel), issues_standing (by decide +kernel), by decide +kernel, by decide +kernel, rfl⟩

theorem witness_aclr : ∃ y c z m, let s := ganged member aGang [0, 0x2000000]
    InGang s y 5 aGang ∧ y.passed.read 1 = .ok (c, z) ∧ Issues s (form (wordOf (.aclr 1)) [.src 1]) y ∧ accRefused 5 c = false ∧
    accRel c = true ∧ aGang.accs.get (bits c 0 3) = some m ∧ m.released = [] ∧ (s.holding z).memberHeld y.th s.place = false :=
  ⟨standing (ganged member aGang [0, 0x2000000]) (form (wordOf (.aclr 1)) [.src 1]), _, _, { phys := 0 }, in_gang (by decide +kernel),
   read_value (by decide +kernel), issues_standing (by decide +kernel), by decide +kernel, by decide +kernel, by decide +kernel, rfl,
   by decide +kernel⟩

/-- Eight members stand at the instruction `i`, the first one LIVE on core 0. -/
def eightAt (i : Instr) (y : Word) : Gang :=
  { aGang with arrived := (List.range 8).map fun k => (k, 16384 + k, 1, { anOp 0 with word := wordOf i, y := y }) }

theorem witness_gang_effect : ∀ p ∈ [(Instr.mma 0 0 1 0 8, (0 : Word)), (.oclaim 0 2, 0x1000000000000), (.orel 1, 0)],
    let g := eightAt p.1 p.2
    let s := ganged { member with wait := .gang 1 } g []
    s.chip.listed slot1 (.live { member with wait := .gang 1 }) ∧ s.chip.running 0 = true ∧ (s.chip.cluster 0).gang 0 5 = some g ∧
    8 ≤ g.arrived.length ∧ (∀ x ∈ g.arrived.tail, x.2.2.2.word = wordOf p.1 ∧ x.2.2.2.y = p.2) ∧ s.chip.placeOf 16384 = some slot1 := by
  simp only [List.forall_mem_cons, List.not_mem_nil, false_implies, implies_true, and_true]
  refine ⟨⟨⟨_, _, rfl, rfl, rfl⟩, ?_⟩, ⟨⟨_, _, rfl, rfl, rfl⟩, ?_⟩, ⟨_, _, rfl, rfl, rfl⟩, ?_⟩ <;> decide +kernel

theorem witness_gang_effect_values : (eightAt (.mma 0 0 1 0 8) 0).mmaTrap (wordOf (.mma 0 0 1 0 8)) = none ∧
    major (wordOf (.oclaim 0 2)) = 0x31 ∧ omemFn (wordOf (.oclaim 0 2)) = 0 ∧ bits (wordOf (.oclaim 0 2)) 5 7 = 2 ∧ descCode 0x1000000000000 = 1 ∧
    aGang.slots.get 2 = none ∧ ((ganged member aGang []).chip.cluster 0).slotsFree = 14 ∧ omemFn (wordOf (.orel 1)) = 1 ∧
    bits (wordOf (.orel 1)) 5 7 = 1 := by decide +kernel

/-- An MMA at the head of the gang's queue. -/
def anMma (started : Bool) : GangOp :=
  { op := { anOp 0 with word := wordOf (.mma 0 0 1 0 0) }, uid := 16384, member := 0, seq := 0, started := started }

theorem witness_mma : ∀ b : Bool, let g := { aGang with queue := [anMma b] }
    let s := ganged member g []
    s.chip.running 0 = true ∧ s.chip.limited 0 = false ∧ (s.chip.cluster 0).gang 0 5 = some g ∧ isMma (anMma b).op.word = true ∧
    (b = false → g.ready 0 (anMma b) = true) ∧ (g.accs.get (mmaAcc (anMma b).op.word)).isSome = true ∧
    (g.slots.get (mmaA (anMma b).op.word)).isSome = true ∧ (g.slots.get (mmaB (anMma b).op.word)).isSome = true := by decide +kernel

/-- An ACLR at the head of the gang's queue. -/
def anAclr : GangOp := { op := { anOp 0 with word := wordOf (.aclr 1) }, uid := 16384, member := 0, seq := 0 }

theorem witness_member_op : ∃ f n, let g := { aGang with queue := [anAclr] }
    let s := ganged member g []
    isMma anAclr.op.word = false ∧ g.ready 0 anAclr = true ∧ s.chip.findThread 16384 = some member ∧
    s.chip.memberRun member 0 g anAclr = .ok (f, n, s.chip) :=
  ⟨_, _, by decide +kernel, by decide +kernel, by decide +kernel, rfl⟩

/-- Two orphaned gangs on a cluster, and a member of a third that waits for room. -/
def thirdWaits : State :=
  package { clusterWith { member with wait := .gang 0 } [] with
      gangs := [{ aGang with orphan := true }, { aGang with gid := 6, orphan := true }], pid := some 0 }

/-- The eight members of an orphaned gang stand LIVE, one on each core. -/
def allBack : State :=
  package { cores := (List.range 8).map fun c => (c, { slots := [(1, .live { member with uid := 16384 + c, homeC := c })] })
            gangs := [{ aGang with orphan := true }], pid := some 0 } fun h =>
    { h with parts := [(0, { groups := [(5, { flags := 2, members := (List.range 8).map (16384 + ·) })] })] }

theorem witness_orphans :
    (thirdWaits.chip.running 0 = true ∧ thirdWaits.chip.thirdGang 0 = true ∧
      (thirdWaits.chip.cluster 0).gang 0 5 = some { aGang with orphan := true }) ∧
    (allBack.chip.running 0 = true ∧ allBack.chip.allLive 0 5 = true ∧
      (allBack.chip.cluster 0).gang 0 5 = some { aGang with orphan := true }) := by decide +kernel

/-! ### The copy engines, groups and messages -/

/-- The thread `t` on core 0 of cluster 0, which partition 0 holds, as `f` changes the chip. -/
def inPart (t : Thread) (regs : List Word) (f : Chip → Chip := id) : State :=
  package { clusterWith t regs with pid := some 0, banks := [(1, { mode := .log })] } fun h =>
    f { h with parts := [(0, { active := true, vcnmap := [(0, 1)], irvSize := 1, gvt := some 0x1000000 })]
               tasks := [(16384, { pid := 0, packet := aPacket, stage := .running })] }

/-- A page of global memory at 0x2_0000_0000 with this attribute and these flags, at PA 0x10000. -/
def withPage (e : Word) (h : Chip) : Chip :=
  { h with stations := [{ station := stationOf 0 0x20000, pid := 0, region := 0x20000, leaf := e, level := 0 }] }

theorem witness_data_command : ∃ y u v c0 c1 h1 h2 z, let s := inPart quietTask [0, 0x2000, 0x2100, 64, 0]
    Issues s (form (wordOf (.cpy 3 1 2)) [.ctrl 3, .src 1, .src 2]) y ∧ Reads2 y 1 2 u v h1 ∧ h1.read 3 = .ok (c0, h2) ∧
    h2.read (3 + 1) = .ok (c1, z) ∧ bits c0 60 4 = 0 ∧
    s.chip.descTrap s.place.v y.th.who (tvalWord (wordOf (.cpy 3 1 2))) { fn := 0, x := u, y := v, c0 := c0, c1 := c1 } = none ∧
    s.chip.engHeld y.th s.place = false ∧ EngineRoom s y :=
  ⟨standing (inPart quietTask [0, 0x2000, 0x2100, 64, 0]) (form (wordOf (.cpy 3 1 2)) [.ctrl 3, .src 1, .src 2]), _, _, _, _, _, _, _,
   issues_standing (by decide +kernel), reads_values (by decide +kernel) (by decide +kernel), read_value (by decide +kernel),
   read_value (by decide +kernel), by decide +kernel, by decide +kernel, by decide +kernel, by constructor <;> decide +kernel⟩

/-- Descriptors that stop a command: a field that must be 0, a misaligned length, the fourth operation code. -/
theorem witness_data_command_traps : (inPart quietTask []).chip.descTrap 0 quietTask.who 7 ⟨0, 0x2000, 0x2100, 0x8000000000040#64, 0⟩ = some (.eill, 7) ∧
    (inPart quietTask []).chip.descTrap 0 quietTask.who 7 ⟨0, 0x2000, 0x2100, 66, 0⟩ = some (.ealign, 66) ∧
    (inPart quietTask []).chip.descTrap 0 quietTask.who 7 ⟨4, 0x2000, 0x2100, 1, 0x1000⟩ = none ∧ bits 0x1000000000000040#64 60 4 ≠ 0 := by
  decide +kernel

theorem witness_chain : ∃ y u n z, let s := inPart quietTask [0, 0x1FFFC0, 2]
    Issues s (form (wordOf (.chain 3 1 2)) [.dst 3, .src 1, .src 2]) y ∧ Reads2 y 1 2 u n z ∧ EngineRoom s y ∧ 0 < n.toNat ∧ n.toNat ≤ 4096 ∧
    u.toNat + 32 * n.toNat ≤ 0x200000 ∧ u.toNat % 32 = 0 ∧
    (∀ j < n.toNat, (s.chip.cluster s.place.v).mode ((u.toNat + 32 * j) / 65536) = .scratch) ∧
    (s.holding z).engHeld y.th s.place = false ∧
    (s.holding z).spanBusy y.th.uid (spanOf s.place.v u.toNat (32 * n.toNat)) = false :=
  ⟨standing (inPart quietTask [0, 0x1FFFC0, 2]) (form (wordOf (.chain 3 1 2)) [.dst 3, .src 1, .src 2]), _, _, _,
   issues_standing (by decide +kernel), reads_values (by decide +kernel) (by decide +kernel), by constructor <;> decide +kernel,
   by decide +kernel⟩

/-- A task whose command with token 1 ended with a fault, or without. -/
def reported (r : Result) : Thread :=
  { quietTask with counters := { engine := 1 }, pend := [⟨anOp 0, .engine 1, .none, .landed r⟩] }

theorem witness_ewait : ∀ r ∈ [Result.value 0 0, .fault .eperm 0x40], ∃ y u n z, let s := inPart (reported r) [0, 1, 0]
    Issues s (form (wordOf (.ewait 1 2)) [.src 1, .src 2]) y ∧ Reads2 y 1 2 u n z ∧ u.toNat ≤ y.th.counters.engine ∧ u ≠ 0 ∧
    n.toNat ≤ 1 ∧ (s.holding z).engineBusy y.th.uid u.toNat n.toNat = false ∧
    (∀ q ∈ engineReports y.th u.toNat, q.arrived = true) ∧ (engineReports y.th u.toNat).length = 1 := by
  intro r hr
  simp only [List.mem_cons, List.not_mem_nil, or_false] at hr
  rcases hr with rfl | rfl
  · exact ⟨standing (inPart (reported (.value 0 0)) [0, 1, 0]) (form (wordOf (.ewait 1 2)) [.src 1, .src 2]), _, _, _,
      issues_standing (by decide +kernel), reads_values (by decide +kernel) (by decide +kernel), by decide +kernel⟩
  · exact ⟨standing (inPart (reported (.fault .eperm 0x40)) [0, 1, 0]) (form (wordOf (.ewait 1 2)) [.src 1, .src 2]), _, _, _,
      issues_standing (by decide +kernel), reads_values (by decide +kernel) (by decide +kernel), by decide +kernel⟩

/-- A published buffer of two backings at 0x2_0000_0000: its publication record at PA 0x20000. -/
def withBuffer (h : Chip) : Chip :=
  { withPage 0xA400000000020000#64 h with
    hbm := Mem.writeBytes [] 0x20000 (natToBytes 8 0x200000000 ++ natToBytes 8 64 ++ [0, 2] ++ natToBytes 6 0 ++ natToBytes 8 0x30000 ++
      natToBytes 8 0x30040) }

theorem witness_shopen : ∃ y u n z l r b bs, let s := inPart { specTask with stamp := 0x2000000 } [0, 0x200000000, 0] withBuffer
    let h := (s.holding z).warm y.th.pid u.toNat
    Issues s (form (wordOf (.shopen 3 1 2)) [.dst 3, .src 1, .src 2]) y ∧ Reads2 y 1 2 u n z ∧ EngineRoom s y ∧ y.th.sup = false ∧
    bits n 1 63 = 0 ∧
    y.th.quiet = false ∧ windowOf u.toNat = .global ∧ h.resolve y.th.who u.toNat u = .ok l ∧ l.pub = some r ∧ h.pubBase r = u.toNat ∧
    h.shadows = [] ∧ h.engHeld y.th s.place = false ∧ h.floorStamp y.th.pid y.th.stamp = false ∧
    h.freeBackings r = b :: bs :=
  ⟨standing (inPart { specTask with stamp := 0x2000000 } [0, 0x200000000, 0] withBuffer)
     (form (wordOf (.shopen 3 1 2)) [.dst 3, .src 1, .src 2]), _, _, _, { pa := 0x30000, attr := .coherent, nc := false, pub := some 0x20000 },
   0x20000, 1, [], issues_standing (by decide +kernel), reads_values (by decide +kernel) (by decide +kernel), by constructor <;> decide +kernel,
   by decide +kernel⟩

theorem witness_publ : ∃ y u z, let s := inPart specTask [0, 0x200000000] fun h =>
      { h with shadows := [{ uid := 16384, v := 0, record := 0x20000, base := 0x200000000, backing := 1 }] }
    Issues s (form (wordOf (.publ 1)) [.src 1]) y ∧ y.passed.read 1 = .ok (u, z) ∧
    (∃ x ∈ s.chip.shadows, x.uid = y.th.uid ∧ x.base = u.toNat) :=
  ⟨standing (inPart specTask [0, 0x200000000] fun h =>
     { h with shadows := [{ uid := 16384, v := 0, record := 0x20000, base := 0x200000000, backing := 1 }] }) (form (wordOf (.publ 1)) [.src 1]),
   _, _, issues_standing (by decide +kernel), read_value (by decide +kernel), by decide +kernel⟩

theorem witness_counters : (∃ y u z, let s := inPart quietTask [0, 0x1FFFF0, 64]
      Issues s (form (wordOf (.bcwait 1)) [.src 1]) y ∧ y.passed.read 1 = .ok (u, z) ∧ u.toNat < 0x200000 ∧ u.toNat % 16 = 0 ∧
      (s.chip.cluster s.place.v).mode (u.toNat / 65536) = .scratch ∧ y.th.quiet = true ∧
      (s.holding z).accessHeld s.place y.th u.toNat 16 = false) ∧
    (∃ y u n z, let s := inPart quietTask [0, 0x1FFFF0, 64]
      Issues s (form (wordOf (.bcarm 1 2)) [.src 1, .src 2]) y ∧ Reads2 y 1 2 u n z ∧ n ≠ 0 ∧ u.toNat % 16 = 0 ∧
      (s.chip.cluster s.place.v).mode (u.toNat / 65536) = .scratch ∧ (s.holding z).accessHeld s.place y.th u.toNat 16 = false) :=
  ⟨⟨standing (inPart quietTask [0, 0x1FFFF0, 64]) (form (wordOf (.bcwait 1)) [.src 1]), _, _, issues_standing (by decide +kernel),
     read_value (by decide +kernel), by decide +kernel⟩,
   ⟨standing (inPart quietTask [0, 0x1FFFF0, 64]) (form (wordOf (.bcarm 1 2)) [.src 1, .src 2]), _, _, _, issues_standing (by decide +kernel),
     reads_values (by decide +kernel) (by decide +kernel), by decide +kernel⟩⟩

/-- A descriptor that copies 64 bytes upward by 16, so that source and destination overlap. -/
def overlapping : Desc := ⟨0, 0x1FFFB0, 0x1FFFC0, 64, 0⟩

/-- The command of this descriptor, alone or as a chain of two. -/
def aCopy (chain : Bool) : EngCmd :=
  { uid := 16384, token := 1, seq := 0, op := { anOp 0 with word := wordOf (.cpy 3 1 2) }, who := quietTask.who
    descs := if chain then [overlapping, overlapping] else [overlapping], chain := chain, checked := chain }

/-- A cluster of SCRATCH banks with this command in its queue. -/
def copying (c : EngCmd) : State :=
  package { clusterWith quietTask [] with pid := some 0, cmds := [c] } fun h => { h with parts := [(0, { active := true, vcnmap := [(0, 1)] })] }

theorem witness_engine_completions : ∀ b : Bool,
    (copying (aCopy b)).chip.running 0 = true ∧ (copying (aCopy b)).chip.engReady (aCopy b) = true ∧
    ((copying (aCopy b)).chip.cluster 0).throughs = [] ∧ (aCopy b).descs[(aCopy b).completed]? = some overlapping ∧
    (copying (aCopy b)).chip.descTrap 0 (aCopy b).who 0 overlapping = none ∧ overlapping.y.toNat + overlapping.len = 0x200000 ∧
    (∀ n < 32, ((copying (aCopy b)).chip.cluster 0).mode n = .scratch) := by decide +kernel

/-- The command of this descriptor. -/
def aMove (d : Desc) : EngCmd := { aCopy false with descs := [d] }

/-- Its cluster, with a PRIVATE page of region 0x3_0000 at hand. -/
def moving (d : Desc) : State :=
  package { clusterWith quietTask [] with pid := some 0, cmds := [aMove d], scratch := Mem.writeBytes [] 0x1004 (wordBytes 4 4) } fun h =>
    { h with parts := [(0, { active := true, vcnmap := [(0, 3)] })]
             stations := [{ station := stationOf 0 0x30000, pid := 0, region := 0x30000, leaf := 0xC000000000010000#64, level := 0 }] }

/-- CPY2D of two rows that fall on one another, GATH and SCAT of two elements, CPYMC to clusters 0 and 1, copies to and from a page. -/
def moves : List Desc :=
  [⟨1, 0x1FFFC0, 0x1FFFE0, 0x100000020, 0x0000000400000000⟩, ⟨3, 0x100, 0x1FFFF8, 2, 0x1000⟩, ⟨4, 0x1FFFF8, 0x100, 2, 0x1000⟩,
   ⟨2, 0x1FFFC0, 0x1FFFC0, 0x300000040, 0⟩, ⟨0, 0x1FFFC0, 0x300000000, 64, 0⟩, ⟨0, 0x300000000, 0x1FFFC0, 64, 0⟩]

theorem engine_due {d : Desc} (h : (let s := moving d
    let K := s.chip.cluster 0
    let c := aMove d
    s.chip.running 0 && !K.paused && decide (K.cmds[0]? = some c) && !c.counting && s.chip.engReady c && decide (K.throughs = []) &&
      decide (c.who.mode ≠ .spec) && decide (c.groups = []) && decide (c.descs[c.completed]? = some d) && !d.bc &&
      (s.chip.clusters.flatMap (fun k => k.2.cmds)).all (fun e => decide (e.seq = c.seq → e = c)) &&
      decide (s.chip.descTrap 0 c.who (tvalWord c.op.word) d = none)) = true) : EngineDue (moving d) 0 0 (aMove d) d := by
  simp only [Bool.and_eq_true, decide_eq_true_eq, Bool.not_eq_true', List.all_eq_true] at h
  obtain ⟨⟨⟨⟨⟨⟨⟨⟨⟨⟨⟨a, b⟩, c⟩, e⟩, f⟩, g⟩, i⟩, j⟩, k⟩, l⟩, m⟩, n⟩ := h
  exact ⟨a, b, c, e, f, g, i, j, k, l, m, n⟩

theorem witness_moves : (∀ d ∈ moves, EngineDue (moving d) 0 0 (aMove d) d) ∧
    (∀ d ∈ moves, Memory.wf ((moving d).chip.cluster 0).scratch = true ∧ ∀ u < 2, ∀ b < 32, ((moving d).chip.cluster u).mode b = .scratch) ∧
    (∀ d ∈ moves.take 3, ∀ p ∈ d.moves ((moving d).chip.cluster 0).scratch, p.1 + p.2.2 ≤ 0x200000 ∧ p.2.1 + p.2.2 ≤ 0x200000 ∧
      p.1 % 4 = 0 ∧ p.2.1 % 4 = 0) ∧
    (∀ d ∈ moves.drop 4, ∃ l a, (aMove d).finds (moving d).chip a l ∧ a ∈ [d.x, d.y] ∧ l = ⟨0x10000, .priv, false, none⟩) := by
  refine ⟨?_, by decide +kernel, by decide +kernel, ?_⟩
  · intro d hd
    simp only [moves, List.mem_cons, List.not_mem_nil, or_false] at hd
    rcases hd with rfl | rfl | rfl | rfl | rfl | rfl <;> exact engine_due (by decide +kernel)
  · intro d hd
    simp only [moves, List.drop_succ_cons, List.drop_zero, List.mem_cons, List.not_mem_nil, or_false] at hd
    rcases hd with rfl | rfl
    · exact ⟨_, 0x300000000, ok_answer (d := ⟨0, .priv, false, none⟩) (by decide +kernel), by decide +kernel⟩
    · exact ⟨_, 0x300000000, ok_answer (d := ⟨0, .priv, false, none⟩) (by decide +kernel), by decide +kernel⟩

/-- A package of two clusters in partition 0 with this packet in flight for cluster 1, at its own router. -/
def flying (b : Packetry) (k : Cluster := {}) (f : Chip → Chip := id) : State :=
  { chip := f { v := 4, clusters := [(1, { k with pid := some 0 })], vmap := [(1, { valid := true, pcn := 1 })]
                parts := [(0, { active := true, vcnmap := [(0, 3)] })], flights := [(0, { body := b, pcn := 1 })], nextSeq := 1 } }

theorem witness_byte_count : (flying (.count 1 0x1FFFF0 64 0)).chip.arrives 0 1 { body := .count 1 0x1FFFF0 64 0, pcn := 1 } = true ∧
    (flying (.count 1 0x1FFFF0 64 0)).chip.flights.get 0 = some { body := .count 1 0x1FFFF0 64 0, pcn := 1 } := by decide +kernel

/-- A task whose group slot 3 names group 255. -/
def grouped (t : Thread) : Thread := { t with grps := 0x8FF000000 }

/-- The same in a cluster that holds it, where group 255 has this entry. -/
def inGroup (t : Thread) (g : Group) (regs : List Word) : State :=
  inPart (grouped t) regs fun h => { h with parts := [(0, { active := true, vcnmap := [(0, 1)], groups := [(255, g)] })] }

theorem witness_barriers : ∀ w ∈ [Wait.none, .barrier 255 (some 0) 5, .released 7 0 false, .released 7 0 true],
    ∃ y x z, let s := inGroup { quietTask with wait := w } {} [0, 5]
    Issues s (form (wordOf (.barv 2 1 5 3)) [.dst 2, .src 1]) y ∧ y.passed.read 1 = .ok (x, z) ∧ y.th.sup = false ∧ y.th.quiet = true ∧
    slotGroup y.th 3 = some 255 := by
  simp only [List.forall_mem_cons, List.not_mem_nil, false_implies, implies_true, and_true]
  refine ⟨?_, ?_, ?_, ?_⟩
  · exact ⟨standing (inGroup { quietTask with wait := .none } {} [0, 5]) (form (wordOf (.barv 2 1 5 3)) [.dst 2, .src 1]), _, _,
      issues_standing (by decide +kernel), read_value (by decide +kernel), by decide +kernel⟩
  · exact ⟨standing (inGroup { quietTask with wait := .barrier 255 (some 0) 5 } {} [0, 5]) (form (wordOf (.barv 2 1 5 3)) [.dst 2, .src 1]), _, _,
      issues_standing (by decide +kernel), read_value (by decide +kernel), by decide +kernel⟩
  · exact ⟨standing (inGroup { quietTask with wait := .released 7 0 false } {} [0, 5]) (form (wordOf (.barv 2 1 5 3)) [.dst 2, .src 1]), _, _,
      issues_standing (by decide +kernel), read_value (by decide +kernel), by decide +kernel⟩
  · exact ⟨standing (inGroup { quietTask with wait := .released 7 0 true } {} [0, 5]) (form (wordOf (.barv 2 1 5 3)) [.dst 2, .src 1]), _, _,
      issues_standing (by decide +kernel), read_value (by decide +kernel), by decide +kernel⟩

theorem witness_bar : (issued (inGroup quietTask {} []) (form (wordOf (.bar 3)))).isSome = true ∧
    (issued (inGroup specTask {} []) (form (wordOf (.gleave 3)))).isSome = true ∧
    (issued (inGroup quietTask { flags := 2 } []) (form (wordOf (.gleave 3)))).isSome = true ∧
    slotGroup (grouped quietTask) 3 = some 255 ∧ slotGroup (grouped quietTask) 2 = none ∧
    ((inGroup quietTask { flags := 2 } []).chip.group 0 255).gang = true := by decide +kernel

theorem witness_gred : Stands1 (inGroup quietTask { flags := 0x50 } [0, 5]) (.gred 1 3) [.src 1] 1 ∧
    Stands1 (inGroup specTask {} [0, 5]) (.gred 1 3) [.src 1] 1 ∧ (inGroup specTask {} [0, 5]).chip.room 0 16384 1 false = .enough ∧
    Stands1 (inGroup quietTask {} [0, 0x33]) (.gqry 2 1) [.dst 2, .src 1] 1 :=
  ⟨stands1 (by decide +kernel) (by decide +kernel), stands1 (by decide +kernel) (by decide +kernel), by decide +kernel,
   stands1 (by decide +kernel) (by decide +kernel)⟩

/-- A launch record in SCRATCH at 0, whose argument block of zeros stands at 128: one task at VT 2 in group 255. -/
def launchScratch : Mem :=
  Mem.writeBytes [] 0 (natToBytes 8 0x300000100 ++ natToBytes 4 1 ++ natToBytes 4 0x400 ++ natToBytes 8 2 ++ natToBytes 4 255 ++ natToBytes 1 1 ++ natToBytes 3 0 ++ natToBytes 16 0 ++ natToBytes 8 128 ++ natToBytes 8 0)

/-- The task at LAUNCH of that record. -/
def launching (t : Thread) : State :=
  { inPart { t with grps := 0x1000000FF } [0, 0] id with chip :=
    (inPart { t with grps := 0x1000000FF } [0, 0] id).chip.modCluster 0 fun k => { k with scratch := launchScratch } }

theorem witness_launch : ∀ t ∈ [quietTask, specTask], ∃ y x z r b, let s := launching t
    let h := s.holding z
    Issues s (form (wordOf (.launch 2 1)) [.dst 2, .src 1]) y ∧ y.passed.read 1 = .ok (x, z) ∧
    h.readBytes y.th.who s.place.v x.toNat 64 = .ok (r, h) ∧ h.readBytes y.th.who s.place.v 128 128 = .ok (b, h) ∧ y.th.sup = false ∧
    launchWindow x 64 = true ∧ x.toNat % 64 = 0 ∧ h.accessHeld s.place y.th x.toNat 64 = false ∧ launchRefused r = false ∧ recArgs r = 128 ∧
    h.accessHeld s.place y.th 128 128 = false ∧ blkMalformed b false = false ∧
    blkImages b = 0 ∧ (∀ g ∈ recordGroups r, g ∈ groupIds y.th.grps ∧ (h.group y.th.pid g).gang = false) ∧
    bits y.th.stamp 24 40 < recVt r ∧ beyondTime r = false ∧ (h.part y.th.pid).bounded = false ∧
    h.room s.place.v y.th.uid 6 false = .enough ∧ (h.task? y.th.uid).isSome = true := by
  simp only [List.forall_mem_cons, List.not_mem_nil, false_implies, implies_true, and_true]
  refine ⟨⟨standing (launching quietTask) (form (wordOf (.launch 2 1)) [.dst 2, .src 1]), _, _, launchScratch.readBytes 0 64,
    launchScratch.readBytes 128 128, issues_standing (by decide +kernel), read_value (by decide +kernel), rfl, rfl, ?_⟩,
    ⟨standing (launching specTask) (form (wordOf (.launch 2 1)) [.dst 2, .src 1]), _, _, launchScratch.readBytes 0 64,
    launchScratch.readBytes 128 128, issues_standing (by decide +kernel), read_value (by decide +kernel), rfl, rfl, ?_⟩⟩
  all_goals decide +kernel

/-- A task of a cluster with a valid handler 0 sends to cluster 0 itself. -/
def sending (t : Thread) (regs : List Word) (claims : List Claim := []) : State :=
  { inPart t regs with chip := (inPart t regs).chip.modCluster 0 fun k =>
      { k with handlers := [(0, { pc := 0x300000000, cfg := 0x80000001 })], claims := claims } }

theorem witness_send : ∃ y x stamp h1 c z bs, let s := sending specTask [0, 0x1FFFF8, 0x2000000, 0x800000000]
    let h := s.holding z
    Issues s (form (wordOf (.send 3 1 2)) [.bothOwned 3, .src 1, .src 2]) y ∧ Reads2 y 1 2 x stamp h1 ∧ h1.read 3 = .ok (c, z) ∧
    sendLen c ≠ 0 ∧ h.payload y.th s.place x (sendLen c) 8 = .ok (bs, h) ∧ sendRefused c 8 0 = false ∧ y.th.sup = false ∧
    y.th.quiet = false ∧ bits c 16 11 < s.chip.v ∧ (s.chip.part y.th.pid).holds (bits c 16 11) = true ∧
    ((s.chip.cluster s.place.v).handler (bits c 0 10)).valid = true ∧ bits y.th.stamp 24 40 < bits stamp 24 40 ∧
    y.th.counters.send ≠ 65536 ∧ s.chip.room s.place.v y.th.uid 1 false = .enough ∧
    (s.chip.part y.th.pid).routeOf (bits c 0 10) = none :=
  ⟨standing (sending specTask [0, 0x1FFFF8, 0x2000000, 0x800000000]) (form (wordOf (.send 3 1 2)) [.bothOwned 3, .src 1, .src 2]),
   _, _, _, _, _, List.replicate 8 0, issues_standing (by decide +kernel), reads_values (by decide +kernel) (by decide +kernel),
   read_value (by decide +kernel), by decide +kernel, rfl, by decide +kernel⟩

theorem witness_sendv : ∃ y stamp h1 c z k, let s := sending specTask [0, 0, 0x2000000, 0x400000000] [aClaim []]
    Issues s (form (wordOf (.sendv 3 0 2)) [.bothOwned 3, .src 2]) y ∧ y.passed.read 2 = .ok (stamp, h1) ∧ h1.read 3 = .ok (c, z) ∧
    Holds s y k ∧ k.queue = [] ∧ sendRefused c 4 4 = false :=
  ⟨standing (sending specTask [0, 0, 0x2000000, 0x400000000] [aClaim []]) (form (wordOf (.sendv 3 0 2)) [.bothOwned 3, .src 2]), _, _, _, _,
   aClaim [], issues_standing (by decide +kernel), read_value (by decide +kernel), read_value (by decide +kernel),
   ⟨by decide +kernel, by decide +kernel⟩, rfl, by decide +kernel⟩

theorem witness_stamps : (issued (inPart specTask []) (form (wordOf (.gvt 3)) [.dst 3])).isSome = true ∧
    ((inPart specTask []).chip.part 0).gvt = some specTask.stamp ∧
    (issued (inPart inHandler []) (form (wordOf (.stamp 3)) [.dst 3])).isSome = true ∧
    Stands2 (inPart specTask [0, 7, 9]) (.irvDb 1 2) [.src 1, .src 2] 1 2 ∧
    Stands2 (inPart specTask [0, 0, 64]) (.irvFlash 1 2) [.src 1, .src 2] 1 2 ∧
    Stands2 (inPart specTask [0, 0x200000000, 64] (withPage 0xF000000000010000#64)) (.irvHost 1 2) [.src 1, .src 2] 1 2 ∧
    (inPart specTask []).chip.room 0 16384 3 false = .enough :=
  ⟨by decide +kernel, by decide +kernel, by decide +kernel, stands2 (by decide +kernel) (by decide +kernel) (by decide +kernel),
   stands2 (by decide +kernel) (by decide +kernel) (by decide +kernel), stands2 (by decide +kernel) (by decide +kernel) (by decide +kernel),
   by decide +kernel⟩

theorem witness_irv : let s := inPart specTask [0, 0x200000000, 64] (withPage 0xF000000000010000#64)
    s.chip.warm 0 0x200000000 = s.chip ∧
    s.chip.resolve specTask.who 0x200000000 0x200000000 = .ok { pa := 0x10000, attr := .host, nc := false, pub := none } ∧
    answers (s.chip.payload specTask slot1 64 64 64) = true ∧ 64 * (s.chip.part 0).irvSize.toNat = 64 := by decide +kernel

/-! ### Events of a core -/

/-- A core whose debug port holds command `n` for slot 1, which stands as `x`. -/
def ported (n : Nat) (x : Slot) : State :=
  package { cores := [(0, { slots := [(1, x)], dsel := 1, debugPending := true, dcmd := BitVec.ofNat 3 n })] }

theorem witness_port : (∀ p ∈ [(1, Slot.live quietTask), (1, .halted quietTask), (2, .halted quietTask), (3, .halted quietTask), (4, .halted quietTask)],
      ((ported p.1 p.2).chip.core 0 0).debugPending = true ∧ ((ported p.1 p.2).chip.core 0 0).dcmd.toNat = p.1 ∧
      (ported p.1 p.2).chip.selected 0 0 = slot1 ∧ (ported p.1 p.2).chip.portSlot slot1 = true ∧ (ported p.1 p.2).chip.slot slot1 = p.2) ∧
    (∀ n ∈ [1, 2, 3, 4], ((ported n .free).chip.slot slot1) = .free) ∧
    (ported 1 .free).chip.portSlot ⟨0, 0, 0⟩ = false ∧ ((package {}).chip.core 0 0).debugPending = false := by decide +kernel

/-- A halted thread with an entry in each queue, DIDX at `i`, and a notice. -/
def inspecting (i : BitVec 16) (notices : List Word) : State :=
  package { cores := [(0, { slots := [(1, .halted { quietTask with ldq := [⟨anOp 0, .landed (.value 7 0)⟩], sdq := [9] })], dsel := 1, didx := i
                            notices := notices })] }

theorem witness_ddata : ∀ n ∈ [0, 31, 32, 0x2000, 0x90, 0x80, 0x1000], ((inspecting (BitVec.ofNat 16 n) []).chip.portThread slot1).isSome = true ∧
    ((inspecting (BitVec.ofNat 16 n) [5]).chip.core 0 0).notices = [5] ∧ ((inspecting (BitVec.ofNat 16 n) []).chip.core 0 0).didx.toNat = n := by
  decide +kernel

theorem witness_ddata_items : ∃ y, (inspecting 0 []).chip.portThread slot1 = some y ∧ y.th.sdq[0]? = some 9 ∧
    y.th.ldq[0]? = some ⟨anOp 0, .landed (.value 7 0)⟩ ∧ (y.th.reg 0).isSome = true ∧ y.th.awaits 31 = false :=
  ⟨_, rfl, rfl, rfl, by decide +kernel⟩

theorem witness_busy_item : ∃ y : Here, y.th.awaits 3 = true :=
  ⟨⟨{ quietTask with pend := [⟨anOp 0, .window 1, .reg 3, .landed (.value 7 0)⟩] }, []⟩, by decide +kernel⟩

theorem witness_cdisp : ((package { cores := [(0, { stopped := true })] }).chip.core 0 0).stopped = true ∧
    ((package {}).chip.core 0 0).stopped = false := by decide +kernel

/-- A register written through the package window, one that is refused, and one that is none. -/
theorem witness_register_write : (∃ t, (package {}).writeReg 0 0 0x4A3 0 = some t) ∧ readOnly 0x4A3 = false ∧
    (package {}).writeReg 0 0 0x7FE 0 = none ∧ readOnly 0x7FE = false ∧ readOnly 0x42A = true := by
  refine ⟨⟨_, rfl⟩, by decide +kernel⟩

theorem witness_rotation_boundary :
    let k : Core := { pendingCommon := [(3, 2, 7), (3, 5, 8)] }
    (3, 5, 8) ∈ k.pendingCommon ∧ (∀ w ∈ k.pendingCommon, w.1 = 3 → w ≠ (3, 5, 8) → w.2.1 < 5) ∧ (∀ w ∈ k.pendingCommon, w.1 ≠ 4) := by
  decide +kernel

/-- A core whose fifteen slots hold the threads `t n`, and a packet in its queue for a task with this stamp. -/
def crowded (t : Nat → Thread) (stamp : Word) (f : Cluster → Cluster := id) : State :=
  package (f { cores := [(0, { slots := ((List.range 16).drop 1).map fun n => (n, Slot.live (t n)), turn := 1, queue := [⟨17000, false, 0⟩] })]
               pid := some 0 }) fun h =>
    { h with parts := [(0, { active := true, vcnmap := [(0, 1)], gvt := some 0x1000000, w := 100, groups := [(5, { arrivals := [(16385, none, 0)] })] })]
             tasks := [(17000, { pid := 0, packet := { aPacket with stamp := stamp } })] }

/-- A non-quiet task whose stamp rises with its slot. -/
def byStamp (n : Nat) : Thread :=
  { specTask with uid := 16384 + n, stamp := BitVec.ofNat 64 ((16 + n) * 2 ^ 24), regBase := 128 * n, regLim := 32 }

theorem witness_displace : ∃ k x, (crowded byStamp 0x1000000).chip.head 0 0 = some k ∧ k.floor = true ∧
    (crowded byStamp 0x1000000).chip.freeSlot 0 0 = none ∧ ((crowded byStamp 0x1000000).chip.core 0 0).vacating = [] ∧
    (crowded byStamp 0x1000000).chip.here? ⟨0, 0, 15⟩ = some x ∧ (crowded byStamp 0x1000000).chip.slot ⟨0, 0, 15⟩ = .live x.th ∧
    x.th.quiet = false ∧ (∀ p ∈ (crowded byStamp 0x1000000).chip.threadsOf 0 0, (crowded byStamp 0x1000000).chip.bound p.2 = false) ∧
    (∀ p ∈ (crowded byStamp 0x1000000).chip.threadsOf 0 0, p.1 ≠ 15 → p.2.stamp.toNat < x.th.stamp.toNat) :=
  ⟨_, _, rfl, by decide +kernel, by decide +kernel, by decide +kernel, rfl, by decide +kernel⟩

/-- The same, with a quiet task that stands at a barrier in slot 1. -/
def oneWaits (n : Nat) : Thread := if n = 1 then { byStamp 1 with quiet := true, wait := .barrier 5 none 0 } else byStamp n

theorem witness_barrier_yield : ∃ x, (crowded oneWaits 0x2000000).chip.headWantsSlot 0 0 = true ∧
    (crowded oneWaits 0x2000000).chip.here? ⟨0, 0, 1⟩ = some x ∧ x.th.quiet = true ∧ (crowded oneWaits 0x2000000).chip.barrierWaiter x.th = true ∧
    (crowded oneWaits 0x2000000).chip.bound x.th = false ∧
    (∀ p ∈ (crowded oneWaits 0x2000000).chip.threadsOf 0 0, p.1 ≠ 1 → p.2.quiet = false) :=
  ⟨_, by decide +kernel, rfl, by decide +kernel⟩

/-- Slots 1 and 15 hold threads, and slot 15 is being vacated. -/
def vacated : State :=
  package { cores := [(0, { slots := [(1, .halted quietTask), (15, .live (byStamp 15))], vacating := [15] })] }

theorem witness_vacate : (∃ x, vacated.chip.here? ⟨0, 0, 15⟩ = some x ∧ vacated.chip.slot ⟨0, 0, 15⟩ = .live x.th) ∧
    15 ∈ (vacated.chip.core 0 0).vacating ∧ 14 ∉ (vacated.chip.core 0 0).vacating ∧ (0x8002#64 : Word).getLsbD 0 = false ∧
    (vacated.chip.cluster 0).screen = false ∧ (0x8002#64 : Word).toNat < 2 ^ 16 ∧
    (∀ t < 16, (0x8002#64 : Word).getLsbD t = true → t = 1 ∨ t = 15) ∧ vacated.chip.head 0 0 = none ∧ vacated.chip.headWantsSlot 0 0 = false :=
  ⟨⟨_, rfl, by decide +kernel⟩, by decide +kernel⟩

/-- A saved context. -/
def aContext (n : Nat) (cached : Bool) : Parked := { thread := byStamp n, regs := [], core := 0, cached := cached, seq := n }

/-- 57 cached contexts after one that is not. -/
def cachedContexts : List Parked := aContext 0 false :: (List.range 57).map fun n => aContext (n + 1) true

theorem witness_writeback : (cachedContexts.countP (·.cached)) = 57 ∧
    cachedContexts = [aContext 0 false] ++ aContext 1 true :: (List.range 56).map (fun n => aContext (n + 2) true) ∧
    (∀ x ∈ [aContext 0 false] ++ (List.range 56).map (fun n => aContext (n + 2) true), x.thread.uid ≠ (aContext 1 true).thread.uid) := by
  decide +kernel

/-! ### Events of the memory system -/

/-- A thread whose load is under way. -/
def loading : Thread := { quietTask with pend := [⟨anOp 3, .window 2, .reg 3, .flying (.value 7 0)⟩], ldq := [⟨anOp 4, .flying (.value 8 0)⟩] }

theorem witness_load_complete : ∃ u t, (onCore loading []).chip.threads.find? (fun x => decide (x.2.uid = 16384)) = some (u, t) ∧
    t.inFlight.isSome = true ∧ (onCore loading []).chip.running 0 = true := ⟨_, _, rfl, by decide +kernel⟩

/-- A package whose walk of region 3 is outstanding, or faulted and reported; tables of four levels that map it are or are not there. -/
def walking (reported : Bool) (threads : List Nat) (mem : Mem) : State :=
  package (clusterWith quietTask []) fun h =>
    { h with walks := [{ pid := 0, region := 3, kind := 0, threads := threads, reported := reported }]
             regs := [(0x420, 0x10000), (0x421, 1)], hbm := mem }

/-- A root entry, tables of three levels, and a leaf that map region 3 of PASID 0. -/
def fourLevels : Mem :=
  [(0x10000, 0x8000000000100000#64), (0x100000, 0x8000000000201000#64), (0x201000, 0x8000000000202000#64), (0x202000, 0x8000000000203000#64),
   (0x203018, 0xD000000000050000#64)].foldl
    (fun m e => m.writeBytes e.1 (wordBytes 8 e.2)) []

theorem witness_walks : (∃ leaf level, (walking false [] fourLevels).chip.walk 0 (3 * 2 ^ 16) = .ok (leaf, level)) ∧
    (∃ reason level, (walking false [] []).chip.walk 0 (3 * 2 ^ 16) = .error (reason, level)) ∧
    ((walking true [] []).chip.walkOf 0 3).isSome = true ∧ (walking true [] []).chip.walkOf 0 4 = none :=
  ⟨⟨_, _, rfl⟩, ⟨_, _, rfl⟩, by decide +kernel⟩

theorem witness_responses : (3#64 &&& 0x4FFFFFFFFFFFFFFF#64 = 3#64) ∧ bits (3#64) 40 20 = 0 ∧ bits (3#64) 0 40 = 3 ∧ (3#64).getLsbD 62 = false ∧
    (0x4000000000000003#64 &&& 0x4FFFFFFFFFFFFFFF#64 = 0x4000000000000003#64) ∧ (0x4000000000000003#64).getLsbD 62 = true ∧
    (walking true [16384] []).chip.slot slot1 = .live quietTask ∧ (walking true [16384] []).chip.walkOf 0 3 =
      some { pid := 0, region := 3, kind := 0, threads := [16384], reported := true } := by decide +kernel

/-- A cluster with a write-through on its way. -/
def storing : State := package { throughs := [{ uid := 16384, pa := 0x40, coherent := false, bytes := [1, 2] }] }

theorem witness_stores_perform : (∃ k ∈ storing.chip.clusters, k.2.throughs ≠ []) ∧ Memory.wf storing.chip.hbm = true ∧
    (∃ t ts, (storing.chip.cluster 0).throughs = t :: ts) ∧ ((package {}).chip.cluster 0).throughs = [] :=
  ⟨⟨_, List.mem_cons_self .., by decide +kernel⟩, by decide +kernel, ⟨_, _, rfl⟩, by decide +kernel⟩

theorem witness_slices : ((package {}).chip.anyPartition = false) ∧ (package {}).chip.liveSlices = 512 - (0#64 : Word).toNat ∧
    ((package {} fun h => { h with regs := [(0x410, 0x4000000000000000)], tiers := { slices := [(3, [⟨5, true⟩])] } }).chip.reg 0x410).getLsbD 62 =
      true := by decide +kernel

/-! ### Events of the network -/

theorem witness_packet : (flying (.task 1 0 16384) {} fun h => { h with tasks := [(16384, { pid := 0, packet := aPacket })] }).chip.arrives 0 1
      { body := .task 1 0 16384, pcn := 1 } = true ∧ (flying (.task 1 0 16384)).chip.floorStamp 0 0x1000000 = false ∧
    (flying (.task 1 0 16384) { stopped := true }).chip.arrives 0 1 { body := .task 1 0 16384, pcn := 1 } = false := by decide +kernel

/-- A core with a full queue and one entry behind it. -/
def overflowing (n : Nat) : State :=
  package { cores := [(0, { queue := (List.range n).map fun k => ⟨17000 + k, false, k⟩, overflow := [⟨16384, false, 40⟩] })] } fun h =>
    { h with tasks := [(16384, { pid := 0, packet := aPacket })] }

theorem witness_overflow : ((overflowing 32).chip.ticket 0 ⟨16384, false, 40⟩).isSome = true ∧ ((overflowing 32).chip.core 0 0).queue.length = 32 ∧
    ((overflowing 31).chip.core 0 0).queue.length = 31 ∧ ((overflowing 31).chip.core 0 0).overflow = [⟨16384, false, 40⟩] := by decide +kernel

theorem witness_migration : (flying (.migration 1 (aContext 1 true))).chip.arrives 0 1 { body := .migration 1 (aContext 1 true), pcn := 1 } = true ∧
    (aContext 1 true).access = none ∧ (aContext 1 true).claim = none ∧ (flying (.migration 1 (aContext 1 true))).chip.coreFits 1 0 32 false = true ∧
    (flying (.migration 1 (aContext 1 true)) { banks := [(0, { gone := true })] }).chip.bounces 1 none
      ⟨{ anOp 0 with ea := 0x100200040 }, .next, .none, .waiting⟩ = some 0x100200040 := by decide +kernel

/-- A saved context that holds a trap, of the floor task. -/
def holdsTrap : State :=
  package { parked := [{ aContext 0 true with thread := { specTask with held := some (0x102, 0, 0, 0) } }], pid := some 0 } fun h =>
    { h with parts := [(0, { active := true, vcnmap := [(0, 1)], gvt := some 0x1000000 })] }

theorem witness_held : ∃ q, (holdsTrap.chip.cluster 0).context 16384 = some q ∧ q.thread.held.isSome = true ∧
    holdsTrap.chip.floorStamp q.thread.pid q.thread.stamp = true ∧ (holdsTrap.chip.core 0 q.core).queue = [] :=
  ⟨_, rfl, by decide +kernel⟩

/-- A message from cluster 0 to handler 0 of cluster 1. -/
def aMessage : Message :=
  { sender := 16384, sendIdx := 0, incarnation := 0, senderStamp := 0x1000000, srcV := 0, pid := 0, destV := 1, handler := 0, stamp := 0x2000000
    payload := [1, 2], fmtA := 0, fmtB := 0, fmtC := 0, priority := 0 }

theorem witness_message : ∀ k ∈ [({} : Cluster), { pending := [{ message := aMessage }] }, { orphans := [antiOf aMessage] }],
    (flying (.message aMessage) k).chip.arrives 0 1 { body := .message aMessage, pcn := 1 } = true ∧
    ((flying (.message aMessage) k).chip.part 0).pkg = aMessage.srcPkg ∧ (antiOf aMessage).names aMessage = true := by decide +kernel

theorem witness_anti : ∀ k ∈ [({} : Cluster), { pending := [{ message := aMessage }] }, { annihilated := [antiOf aMessage] }],
    (flying (.anti (antiOf aMessage)) k).chip.arrives 0 1 { body := .anti (antiOf aMessage), pcn := 1 } = true ∧
    k.pending.find? (fun x => (antiOf aMessage).names x.message) = (if k.pending = [] then none else some { message := aMessage }) := by
  decide +kernel

/-- Partition 0 in a round in which cluster 1 has not cut. -/
def inRound (h : Chip) : Chip := { h with parts := [(0, { active := true, vcnmap := [(0, 3)], round := some [0] })] }

theorem witness_ack : (flying (.ack (antiOf aMessage) 1 1 0) {} inRound).chip.arrives 0 1 { body := .ack (antiOf aMessage) 1 1 0, pcn := 1 } = true ∧
    ((flying (.ack (antiOf aMessage) 1 1 0) {} inRound).chip.cluster 1).cutNo < 1 ∧
    ¬ ((flying (.ack (antiOf aMessage) 1 0 0) {} inRound).chip.cluster 1).cutNo < 0 := by decide +kernel

/-- Cluster 1 with that message in its set and a valid handler. -/
def handing : State := flying (.count 1 0 0 0) { pending := [{ message := aMessage }], handlers := [(0, { pc := 0x300000000, cfg := 0x80000001 })] }

theorem witness_handover : handing.chip.handable 1 { message := aMessage } = true ∧ handing.chip.present 0 1 = true ∧
    (handing.chip.cluster 1).pending[0]? = some { message := aMessage } ∧ (handing.chip.core 1 0).queue.length < 32 ∧
    (∀ y ∈ (handing.chip.cluster 1).pending, aMessage.stamp.toNat ≤ y.message.stamp.toNat) := by decide +kernel

/-- A notice for cluster 1 in flight with an old GEN. -/
theorem witness_router : (flying (.notice 1 0x40 (some 5) false)).chip.ahead { body := .notice 1 0x40 (some 5) false, pcn := 1 } = false ∧
    (flying (.notice 1 0x40 (some 5) false)).chip.ahead { body := .notice 1 0x40 none false, pcn := 1, src := 768, order := 9 } = true ∧
    (flying (.notice 1 0x40 (some 5) false)).chip.routerEntry 0 1 = { valid := true, pcn := 1 } ∧
    (flying (.notice 1 0x40 (some 5) false)).chip.routerEntry 0 3 = {} ∧
    (flying (.notice 1 0x40 none false) { leases := [(0x40, 9)] }).chip.arrives 0 1 { body := .notice 1 0x40 none false, pcn := 1 } = true ∧
    (flying (.notice 1 0x40 (some 5) false) { leases := [(0x40, 9)] }).chip.arrives 0 1
      { body := .notice 1 0x40 (some 5) false, pcn := 1 } = true ∧
    (1#8 - 130#8 : BitVec 8).toNat = 127 := by decide +kernel

/-! ### Virtual time, launches and partitions -/

/-- Partition 0 with cluster 0, as `f` changes it; its chip as `g` does. -/
def part0 (f : Partition → Partition) (k : Cluster := {}) (g : Chip → Chip := id) : State :=
  package { k with pid := some 0 } fun h => g { h with parts := [(0, f { active := true, vcnmap := [(0, 1)] })], regs := [(0x421, 1)] }

/-- A task that has ended. -/
def endedTask : Task := { pid := 0, packet := { aPacket with grps := 0, quiet := false }, stage := .ended }

theorem witness_gvt_round : ((part0 id).chip.part 0).round = none ∧ ((part0 id).chip.part 0).nextRound ≤ (part0 id).chip.now ∧
    ((part0 fun q => { q with round := some [] }).chip.part 0).holds 0 = true ∧
    ((part0 fun q => { q with round := some [] }).chip.part 0).allCut = false ∧
    ((part0 fun q => { q with round := some [0] }).chip.part 0).allCut = true ∧
    (part0 fun q => { q with round := some [0] }).chip.localCandidate 0 = noStamp := by decide +kernel

/-- The cut of a cluster with an unfinished task, a message of its set, a late acknowledgement and a message under way. -/
def cutting : State :=
  part0 (fun q => { q with round := some [] })
    { pending := [{ message := { aMessage with destV := 0 } }], late := [0x3000000] } fun h =>
      { h with tasks := [(16384, { pid := 0, packet := aPacket })], flights := [(0, { body := .message aMessage })] }

theorem witness_cut_remapped : ∃ w, (({ cutting.chip.cluster 0 with lastMin := some w } : Cluster)).lastMin = some w := ⟨5, rfl⟩

theorem witness_cut : (cutting.chip.cluster 0).lastMin = none ∧ (∃ x ∈ (cutting.chip.cluster 0).pending, x.task = none) ∧ (cutting.chip.cluster 0).late ≠ [] ∧
    (∃ u t, (u, t) ∈ cutting.chip.tasks ∧ t.pid = 0 ∧ t.packet.homeV = 0 ∧ t.stage = .queued) ∧
    (∃ n f, (n, f) ∈ cutting.chip.flights ∧ f.body = .message aMessage ∧ aMessage.srcV = 0) :=
  ⟨by decide +kernel, by decide +kernel, by decide +kernel, ⟨_, _, List.mem_cons_self .., rfl, rfl, rfl⟩, ⟨_, _, List.mem_cons_self .., rfl, rfl⟩⟩

/-- A round whose candidate lies above the stamp of a task that has ended. -/
def committing : State :=
  part0 (fun q => { q with round := some [0], reports := [0x2000000] }) {} fun h => { h with tasks := [(16384, endedTask)] }

theorem witness_commit : committing.chip.committingSet 0 (committing.chip.localCandidate 0) = [(16384, endedTask)] ∧
    committing.chip.recordsOf 16384 = [] ∧ endedTask.launch = none ∧ endedTask.exitCode = none ∧ groupIds endedTask.packet.grps = [] ∧
    (committing.chip.part 0).roped = false ∧ (committing.chip.part 0).pkgCount = 0 := by decide +kernel

theorem witness_irv_queue : ∀ k ∈ [IrvKind.host, .flash, .db],
    let s := part0 (fun q => { q with irvs := [{ stamp := 0x1000000, kind := k, addr := 0x1000, y := 5, payload := [] }] }) {} fun h => { h with regs := [(0x4A1, 0x1000), (0x4A2, 0x1000)] }
    (s.chip.part 0).irvs.all (s.chip.part 0).released = true ∧ (s.chip.part 0).irvDone = none ∧ s.chip.hostCovers 0x1000 64 = true ∧
    s.chip.hostCovers 0x2000 64 = false := by decide +kernel

/-- A record that a host launch accepts in an active partition: its block of zeros is in global memory. -/
def hostRecord : List Byte :=
  natToBytes 8 0x300000100 ++ natToBytes 4 65 ++ natToBytes 4 0x400 ++ natToBytes 8 2 ++ List.replicate 24 0 ++ natToBytes 8 0x200000000 ++
    List.replicate 8 0

/-- That launch handed to the command processor. -/
def launched (active : Bool) : State :=
  part0 (fun q => { q with active := active, reqs := [{ slot := some 3, record := hostRecord, block := [], tvec := 0 }] }) {} fun h =>
    withPage 0xD000000000010000#64 h

theorem witness_launches : (part0 id).chip.stage ≠ 15 ∧ 0xDFE0 % 32 = 0 ∧ 0xDFE8 % 32 = 8 ∧
    ((part0 id).chip.winA.lstat.getOr 0 0).getLsbD 61 = false ∧ recMalformed hostRecord = false ∧ hostRecord.length = 64 ∧
    recCount hostRecord = 65 ∧ recordGroups hostRecord = [] ∧
    answers ((launched true).chip.launchChecks 0 { slot := some 3, record := hostRecord, block := [], tvec := 0 }) = true ∧
    (launched false).chip.launchChecks 0 { slot := some 3, record := hostRecord, block := [], tvec := 0 } = .error (.refuse 2) ∧
    recMalformed (List.replicate 64 0) = true ∧
    ((launched true).chip.part 0).tooEarly { slot := some 3, record := hostRecord, block := [], tvec := 0 } = false ∧
    ({ active := true, fabcfg := 0x200, remoteCandidates := [(0, 5)] } : Partition).tooEarly
      { slot := some 3, record := hostRecord, block := [], tvec := 0 } = true := by decide +kernel

/-- A launch whose chunk 1, of one index, is still to place. -/
def placing : State :=
  part0 fun q => { q with jobs := [{ newJob q { slot := some 3, record := hostRecord, block := [], tvec := 0 } (List.replicate 128 0) 0 with
    unplaced := [1] }] }

theorem witness_chunk : ∃ j, (placing.chip.part 0).jobs.find? (fun j => decide (j.lnum = 1) && j.unplaced.contains 1) = some j ∧
    64 * 1 + 0 < j.count ∧ ¬ 64 * 1 + 1 < j.count := ⟨_, rfl, by decide +kernel⟩

/-- A member of group 5 at its barrier, which `arrivals` have reached. -/
def atBarrier (arrivals : List (Nat × Option Nat × Word)) : State :=
  part0 (fun q => { q with groups := [(5, { members := [16384], arrive := 1, arrivals := arrivals })] })
    { cores := [(0, { slots := [(1, .live { member with wait := .barrier 5 (some 0) 7 })] })] }

theorem witness_barrier_events : ((atBarrier []).chip.findThread 16384) = some { member with wait := .barrier 5 (some 0) 7 } ∧
    (atBarrier []).chip.settled 16384 = true ∧ ((atBarrier [(16384, some 0, 7)]).chip.group 0 5).arrivals.length = 1 ∧
    ((atBarrier [(16384, some 0, 7)]).chip.part 0).pkgCount = 0 ∧
    (atBarrier [(16384, some 0, 7)]).chip.slot slot1 = .live { member with wait := .barrier 5 (some 0) 7 } ∧
    (atBarrier []).chip.whereIs 16384 = [0] ∧ ((atBarrier []).chip.cluster 0).stopped = false ∧
    ((atBarrier []).chip.group 0 5).arrive = 1 := by decide +kernel

/-- A co-resident group whose one member waits at the head of its queue since 0. -/
def waitingGroup (now : Nat) : State :=
  part0 (fun q => { q with groups := [(5, { flags := 4, members := [16384], waiting := some 0 })], w := 100, gvt := some 0x1000000 })
    { cores := [(0, { queue := [⟨16384, false, 0⟩] })] } fun h =>
      { h with tasks := [(16384, { pid := 0, packet := { aPacket with grps := 0x100000005, cores := true } })], now := now }

theorem witness_placement : (waitingGroup 0).chip.placeable 0 5 = true ∧ (atBarrier []).chip.placeable 0 5 = false ∧
    ((waitingGroup 22000).chip.group 0 5).waiting = some 0 ∧ (waitingGroup 22000).chip.outranked 0 5 0 = false ∧
    ((waitingGroup 22000).chip.cluster 0).reserved = none ∧ (waitingGroup 22000).chip.now = 22000 ∧
    ((waitingGroup 22000).chip.waitingMembers 0 5).length = 1 := by decide +kernel

theorem witness_partition_registers : (0x101#64 &&& 0x101#64 = 0x101#64) ∧ (part0 id).chip.scrBusy 0 = false ∧
    (0x80000001#64 &&& 0x9FFF770F#64 = 0x80000001#64) ∧ bits (0x80000001#64) 0 4 = 1 ∧ (part0 id).chip.anyTask 0 = false ∧
    (∀ b < 32, (part0 id).chip.bankLive 0 b = false) ∧ (part0 id).chip.present 0 0 = true ∧
    (part0 id).chip.reg 0x4C4 = 0 ∧ bits (0x100000000000000#64) 56 8 ≠ 0 ∧ (part0 id).chip.present 0 0 = true ∧
    (0x8000000000000000#64 &&& 0x80000000000000FF#64 = 0x8000000000000000#64) := by decide +kernel

theorem witness_partition_commands : (part0 fun q => { q with active := false }).chip.mayCreate 0 = true ∧
    (part0 fun q => { q with active := false }).chip.sharers 0 = [] ∧ (part0 id).chip.mayCreate 0 = false ∧
    (part0 id).chip.mayDestroy 0 = true ∧ (part0 fun q => { q with gvt := some 5 }).chip.mayDestroy 0 = false ∧
    (part0 fun q => { q with off := true }).chip.mayResume 0 = true ∧ (part0 id).chip.mayResume 0 = false := by decide +kernel

/-! ### The fabric -/

/-- A frame of this kind and body from package 1, the next in order. -/
def aFrame (kind : Nat) (body : List Word) : WireFrame := { kind := kind, pid := 0, src := 1, dest := 0, seq := 1, body := body }

/-- That frame in flight to partition 0, which spans packages 0 and 1. -/
def framed (f : WireFrame) (g : Partition → Partition := id) : State :=
  part0 (fun q => g { q with fabcfg := 0x100 }) {} fun h => { h with flights := [(0, { body := .frame f })], gateAt := some 0 }

theorem next_frame {s : State} {k kind : Nat} {f : WireFrame}
    (h : (decide (s.chip.frameIn k = some f) && decide (f.kind = kind) && decide (f.received = false) &&
      decide (f.seq = s.chip.frameGot.getOr f.src 0 + 1) && decide (f.src ∉ s.chip.lostPkgs) && (s.chip.part f.pid).active &&
      decide (s.chip.frameBehind f = false)) = true) : NextFrame s.chip k kind f := by
  simp only [Bool.and_eq_true, decide_eq_true_eq] at h
  exact ⟨h.1.1.1.1.1.1, h.1.1.1.1.1.2, h.1.1.1.1.2, h.1.1.1.2, h.1.1.2, h.1.2, h.2⟩

theorem witness_frames : NextFrame (framed (aFrame 5 [0, 7])).chip 0 5 (aFrame 5 [0, 7]) ∧
    NextFrame (framed (aFrame 5 [1, 7])).chip 0 5 (aFrame 5 [1, 7]) ∧ ((framed (aFrame 5 [0, 7])).chip.part 0).allCut = false ∧
    NextFrame (framed (aFrame 6 [0, 5, 9])).chip 0 6 (aFrame 6 [0, 5, 9]) ∧
    NextFrame (framed (aFrame 7 [0, 1, 2, 3, 4])).chip 0 7 (aFrame 7 [0, 1, 2, 3, 4]) ∧
    NextFrame (framed (aFrame 9 [0])).chip 0 9 (aFrame 9 [0]) ∧ (framed (aFrame 9 [0])).chip.gateNum = 0 ∧
    TakesFrame 0 5 (.fabricGvtFrame 0) ∧ (framed { aFrame 5 [] with seq := 2 }).chip.frameIn 0 = some { aFrame 5 [] with seq := 2 } :=
  ⟨next_frame (by decide +kernel), next_frame (by decide +kernel), by decide +kernel, next_frame (by decide +kernel),
   next_frame (by decide +kernel), next_frame (by decide +kernel), by decide +kernel, by unfold TakesFrame; decide, by decide +kernel⟩

/-- A frame sent to package 1 and not acknowledged since 0. -/
def unheard (now : Nat) : State :=
  part0 (fun q => { q with fabcfg := 0x100 }) {} fun h => { h with unacked := [(0, { aFrame 1 [] with src := 0, dest := 1 })], now := now }

theorem witness_lost : ((unheard 20000).chip.unacked.get 0).isSome = true ∧ (unheard 20000).chip.silent 1 = false ∧
    (unheard 10000000).chip.silent 1 = true ∧ ((unheard 0).chip.part 0).reaches 1 = true ∧ ((unheard 0).chip.part 0).reaches 0 = false := by
  decide +kernel

/-- A publication of the buffer of `withBuffer` that waits for a backing. -/
def aPublication : Message := { aMessage with destV := 0, fmtA := 0x200000000, payload := List.replicate 64 1 }

theorem witness_publication : (part0 id {} withBuffer).chip.mappedBuffer 0 0x200000000 = some 0x20000 ∧
    (part0 id {} withBuffer).chip.pubSize 0x20000 = aPublication.payload.length ∧
    (part0 id {} withBuffer).chip.floorStamp 0 aPublication.stamp = false ∧ (part0 id {} withBuffer).chip.freeBackings 0x20000 = [1] ∧
    (part0 id).chip.mappedBuffer 0 0x200000000 = none := by decide +kernel

/-- A roped partition whose two digests of interval 0 are these. -/
def roped (a b : BitVec 256) (tie : Option (Nat × BitVec 256 × BitVec 256)) : State :=
  part0 fun q => { q with ropeMine := [(0, a)], ropeTheirs := [(0, b)], tie := tie }

theorem witness_rope : ((roped 1 1 none).chip.part 0).ropeMine.get ((roped 1 1 none).chip.part 0).ropeAgreed = some 1 ∧
    ((roped 1 2 none).chip.part 0).ropeTheirs.get 0 = some 2 ∧ (roped 1 2 none).chip.images = [] ∧
    ((roped 1 1 (some (0, 1, 2))).chip.part 0).tie = some (0, 1, 2) ∧ ((roped 1 1 none).chip.part 0).diverged = false := by decide +kernel

/-- Partitions 0 and 1 share cluster 0 in slices of 1 us, partition 0 running. -/
def slicing (gate : Option Nat) (now : Nat) : State :=
  package { pid := some 0 } fun h =>
    { h with parts := [(0, { active := true, fabcfg := 0x100, vcnmap := [(0, 1)] }), (1, { active := true, fabcfg := 0x100, vcnmap := [(0, 1)], off := true })]
             regs := [(0x4C8, 0x8001000000000001), (0x4E1, 1)], now := now, gateAt := gate, gateNext := 1, gateOut := some 0 }

theorem witness_slice_gate : (slicing none 1000).chip.fgate.getLsbD 63 = true ∧
    (slicing none 1000).chip.gateNum < (slicing none 1000).chip.now / (slicing none 1000).chip.gatePeriod ∧
    (slicing none 1000).chip.occupant = some 0 ∧ (slicing none 1000).chip.incoming = 1 ∧ ((slicing none 1000).chip.part 1).off = true ∧
    (∀ x ∈ (slicing none 1000).chip.sharers 1, x = 0) ∧ (slicing (some 0) 2000).chip.gateAt = some 0 ∧
    (slicing (some 0) 2000).chip.gateOut = some 0 := by decide +kernel

/-- Partition 0 has been vacated at the gate, and package 1 reports. -/
def gated : State :=
  { slicing (some 0) 2000 with chip := { (slicing (some 0) 2000).chip.modPart 0 fun q => { q with off := true } with
      flights := [(0, { body := .frame (aFrame 9 [0]) })] } }

theorem witness_slice_begins : NextFrame gated.chip 0 9 (aFrame 9 [0]) ∧ gated.chip.mayResume gated.chip.incoming = true ∧
    (∀ d ∈ List.range 2, d = (gated.chip.part gated.chip.incoming).pkg ∨ d = (aFrame 9 [0]).src) ∧
    (gated.chip.part gated.chip.incoming).count = 1 ∧ gated.chip.gateAt = some 0 ∧ gated.chip.now = 2000 ∧
    gated.chip.gateNum = 0 := ⟨next_frame (by decide +kernel), by decide +kernel⟩

/-- A cairn of cluster 0 at a point of its partition. -/
def aCairn : Cairn := { v := 0, vt := 3, partner := 1, seq := 1 }

/-- An image of partition 0 that is being written, and one to be sent. -/
def imaging : State :=
  part0 (fun q => { q with imageVt := some 3 }) { cairnNext := some aCairn } fun h =>
    { h with images := [(1, { vt := 3, part := {}, clusters := [], tasks := [], flights := [], shadows := [], hbm := [] })] }

theorem witness_images : (imaging.chip.images.get 1).isSome = true ∧ (imaging.chip.part 0).imageVt = some 3 ∧
    (imaging.chip.cluster 0).cairnNext = some aCairn ∧ (part0 id).chip.images.get 1 = none := by decide +kernel

/-! ### The pool, errors, bring-up and the host -/

/-- A pool of physical cluster 0 with VCN 0 and these others, one of which has just become SPARE. -/
def pooled (xs : Map Phys) (f : State → State := id) : State :=
  f { chip := { v := 4, clusters := [(0, {})], vmap := [(0, { valid := true, pcn := 0 })] }, pool := { phys := (0, { state := .live 0 }) :: xs, due := true } }

/-- Eight SPARE clusters on die 1. -/
def spares : Map Phys := (List.range 8).map fun n => (128 + n, { state := .spare, since := n })

/-- A rotation of VCN 0 at this step. -/
def rotating (step : RotStep) : State := pooled [(128, { state := .fallow })] fun s => { s with pool := { s.pool with
  rotations := [{ v := 0, src := 0, dst := 128, step := step }] } }

theorem witness_rotation : (pooled spares).rotationOf 0 128 = some 0 ∧ (pooled spares).rotationOf 0 129 = none ∧
    (∀ st ∈ [RotStep.drain, .copied, .remapped], (rotating st).pool.rotation 0 = some { v := 0, src := 0, dst := 128, step := st } ∧
      (rotating st).chip.drained 0 = true) := by decide +kernel

/-- No cluster is LIVE, so that no rotation may start, and one waits as SPARE. -/
def resting (age : BitVec 16) : State :=
  { chip := {}, pool := { phys := [(5, { state := .spare }), (6, { state := .fallow, age := age })] } }

theorem witness_self_test : (resting 0).fallowCount < (resting 0).fallowTarget ∧ (resting 0).canRotate = false ∧
    ((resting 0).pool.longest fun x => decide (x.2.state = .spare) && !(resting 0).pool.fills x.1) = some 5 ∧
    ((resting 13).pool.pcn 6).state = .fallow ∧ raiseAge 13 2 = 15 ∧ raiseAge 14 2 = 16 := by decide +kernel

theorem witness_rotctl : (0x80000040#64 &&& 0x8000007F#64 = 0x80000040#64) ∧ bits (0x80000040#64) 0 7 = 64 ∧ (0x803#64).getLsbD 11 = true ∧
    bits (0x803#64) 0 11 < (pooled []).chip.v := by decide +kernel

/-- The restore of VCN 0, from cluster 0, with this target. -/
def restoring (target : Option Nat) : State :=
  pooled spares fun s => { s with pool := { s.pool with restores := [{ v := 0, failed := 0, target := target }] } }

theorem witness_errors : ((pooled []).chip.vmap.getOr 0 {}).valid = true ∧ ((pooled []).chip.cluster 0).stopped = false ∧
    (pooled []).pool.restores = [] ∧ ((pooled []).chip.cluster 0).pid = none ∧ (restoring none).restoreTarget 0 = some 128 ∧
    (restoring none).pool.restores.find? (fun r => decide (r.v = 0)) = some { v := 0, failed := 0 } ∧
    (restoring (some 128)).pool.restores.find? (fun r => decide (r.v = 0)) = some { v := 0, failed := 0, target := some 128 } ∧
    ((restoring (some 128)).pool.digestsDiffer 0).restores.find? (fun r => decide (r.v = 0)) =
      some { v := 0, failed := 0, target := some 128, differs := true } ∧
    ((restoring none).pool.digestsDiffer 0).restores = (restoring none).pool.restores ∧ 0 ∉ (pooled []).chip.fences := by decide +kernel

/-- Bring-up after `n` clusters have passed, at this stage. -/
def bringingUp (n stage : Nat) : State := { chip := { booted := true, stage := stage, now := 90000000000 }, pool := { passed := n } }

theorem witness_bring_up : (∀ k < 4, (0x55#8).getLsbD (2 * k) = true) ∧ (¬ ∀ k < 4, (0x54#8).getLsbD (2 * k) = true ∨ (0x54#8).getLsbD (2 * k + 1) = true) ∧
    ((bringingUp 511 0).pool.pcn 2047).state = .untested ∧ (bringingUp 511 0).pool.passed + 1 = 512 ∧ (bringingUp 510 0).pool.passed + 1 < 512 ∧
    (bringingUp 2047 2).pool.passed + 1 + ((bringingUp 2047 2).pool.enter 5 .spare).gone = 2048 ∧ (bringingUp 512 2).chip.stage = 2 ∧
    (bringingUp 0 0).chip.barSize = 2 ^ 30 := by decide +kernel

/-- What is asked of a report, and partitions that an error halts. -/
theorem witness_host : (∃ h : Chip, h.attesting = some [1, 2, 3, 4]) ∧ (part0 id).chip.images = [] ∧
    (∃ pid q, (pid, q) ∈ (part0 id).chip.parts ∧ q.active = true) ∧ Memory.wf (part0 id).chip.hbm = true :=
  ⟨⟨{ attesting := some [1, 2, 3, 4] }, rfl⟩, by decide +kernel, ⟨_, _, List.mem_cons_self .., rfl⟩, by decide +kernel⟩

/-! ### The step -/

/-- The quiet task at an ADD in a page of code. -/
def running : State :=
  package (clusterWith quietTask [0, 5, 7]) fun h =>
    { h with stations := [{ station := stationOf 0 0x30000, pid := 0, region := 0x30000, leaf := 0xD000000000010000#64, level := 0 }]
             hbm := Mem.writeBytes [] 0x10000 (natToBytes 4 0x0418B180) }

/-- The word that the thread whose turn it is has fetched. -/
def fetchedWord (s : State) : Option (Option Half) := s.fetched.map fun r => match r with
  | .ok p => some p.1
  | .error _ => none

theorem fetched_word {s : State} {w : Half} (e : fetchedWord s = some (some w)) : ∃ h, s.fetched = some (.ok (w, h)) := by
  revert e; unfold fetchedWord
  rcases s.fetched with _ | _ | ⟨v, h⟩ <;> simp

theorem fetch_trapped {s : State} (e : fetchedWord s = some none) : ∃ h, s.fetched = some (.error h) := by
  revert e; unfold fetchedWord
  rcases s.fetched with _ | _ | ⟨v, h⟩ <;> simp

theorem witness_step : running.chip.lost = false ∧ running.agenda = [] ∧
    (∃ h, running.before.fetched = some (.ok (0x0418B180#32, h))) ∧ decode 0x0418B180#32 = .ok (.add 3 11 12) ∧
    (∃ h, (onCore { quietTask with pc := 0x40 } []).before.fetched = some (.error h)) ∧
    (onCore { quietTask with wait := .none } []).chip.mayIssue ⟨5, 0, 0⟩ = false ∧ eventRow (.laneGrant 0) = true :=
  ⟨by decide +kernel, by decide +kernel, fetched_word (by decide +kernel), by decide +kernel, fetch_trapped (by decide +kernel),
   by decide +kernel⟩

theorem witness_fetch : running.chip.slot running.place = .live quietTask ∧ running.chip.mayIssue running.place = true ∧
    quietTask.frame = none ∧ windowOf quietTask.pc.toNat = .global ∧
    (running.chip.warm 0 0x300000000).resolve quietTask.who 0x300000000 0x300000000 =
      .ok { pa := 0x10000, attr := .readShared, nc := false, pub := none } ∧
    (issued running { word := 0, points := {} }).isSome = true := by decide +kernel

/-! ### Screened pairs -/

/-- A screened pair in slots 1 and 9 of core 0 at the instruction `i` in a page of code, with `q` between the two and these registers of
the leading thread; slot `turn` has its turn. The trailing thread's allocation stands at 512. -/
def paired (i : Instr) (turn : Nat) (q : Pair) (lead trail : List Word) : State :=
  let u : Thread := { quietTask with regBase := 512 }
  package { cores := [(0, { slots := [(1, .live quietTask), (9, .trailing u q)], screened := true, turn := turn
                            file := loadFile (loadFile [] 32 32 lead) 512 32 trail })]
            screen := true } fun h =>
    { h with stations := [{ station := stationOf 0 0x30000, pid := 0, region := 0x30000, leaf := 0xD000000000010000#64, level := 0 }]
             hbm := Mem.writeBytes [] 0x10000 (natToBytes 4 (wordOf i).toNat), vmap := [(0, { valid := true, pcn := 0 })] }

/-- What the pair in slots 1 and 9 holds. -/
def pairOf (s : State) : Pair := ((s.chip.pairAt slot1).map (·.2)).getD {}

/-- The entries of the load-value queue of that pair. -/
def valuesOf (s : State) : List LdqEntry := ((s.chip.pairAt slot1).map (·.1.values)).getD []

/-- A store as the comparator holds it. -/
def heldStore : Held := ⟨some (wordOf (.stD 2 1 0)), [9, 0x40, 0]⟩

/-- R167, R168: the leading thread runs ahead with registers of its own, and the trailing thread computes for itself. -/
theorem test_pair_apart :
    after (step (paired (.add 3 1 2) 1 {} [0, 5, 7] [0, 5, 7])) (fun t => reg t 3 == 12 && (pairOf t).lag == 1 &&
      (t.chip.core 0 0).file.getOr 515 0 == 0) = true ∧
    after (step (paired (.add 3 1 2) 9 { lag := 1 } [0, 5, 7] [0, 5, 7])) (fun t => (t.chip.core 0 0).file.getOr 515 0 == 12 && (pairOf t).lag == 0) =
      true := by decide +kernel

/-- R169, R170: a load leaves an entry in the queue; a store reaches SCRATCH when the trailing thread has issued the same one. -/
theorem test_pair_load_and_store :
    after (step (paired (.ldD 3 1 0 0) 1 {} [0, 0x40] [0, 0x40])) (fun t => (valuesOf t).length == 1 && (pairOf t).lag == 1) = true ∧
    after (step (paired (.stD 2 1 0) 1 {} [0, 0x40, 9] [0, 0x40, 9])) (fun t => (pairOf t).held.length == 1 &&
      (t.chip.cluster 0).scratch == []) = true ∧
    after (step (paired (.stD 2 1 0) 9 { lag := 1, held := [heldStore] } [0, 0x40, 9] [0, 0x40, 9])) (fun t =>
      (pairOf t).held == [] && (t.chip.cluster 0).scratch == [(0x40, 9)]) = true := by decide +kernel

/-- R171, R175: the leading thread waits at a synchronising instruction, which both agree upon; another store of the trailing thread
stops the cluster. -/
theorem test_pair_meets :
    after (step (paired (.claim 1) 1 {} [0, 8] [0, 8])) (fun t => (pairOf t).sync.isSome && !(pairOf t).agreed) = true ∧
    after (step (paired (.claim 1) 9 { sync := some ⟨some (wordOf (.claim 1)), [0, 8, 0]⟩ } [0, 8] [0, 8])) (fun t => (pairOf t).agreed) = true ∧
    after (step (paired (.stD 2 1 0) 9 { lag := 1, held := [heldStore] } [0, 0x40, 9] [0, 0x40, 8])) (fun t => (t.chip.cluster 0).stopped &&
      (t.chip.cluster 0).scratch == []) = true := by decide +kernel

/-- The pair's place, what it holds and the word before it, for each branch of its turn. -/
theorem witness_pair_turns : (∀ q ∈ [({} : Pair), { lag := 32 }, { sync := some heldStore }, { sync := some heldStore, agreed := true }],
      ((paired (.claim 1) 1 q [] []).before.chip.pairAt slot1).map (·.2) = some q) ∧
    fetchedWord (paired (.claim 1) 1 {} [] []).before = some (some (wordOf (.claim 1))) ∧ roleOf false (wordOf (.claim 1)) = .sync ∧
    (paired (.claim 1) 1 {} [] []).before.operandsDue slot1 (wordOf (.claim 1)) = true ∧
    decode (wordOf (.claim 1)) = .ok (.claim 1) ∧ running.before.chip.pairAt slot1 = none ∧
    running.before.chip.slot slot1 = .live quietTask := by decide +kernel

/-! ### Boundary values of other hypotheses -/

/-- A result of window 0, or an access, with what has come of it. -/
def dueNow (a : Arrival) : Pend := ⟨anOp 0, .window 0, .reg 3, a⟩

/-- An access due at the next instruction that has faulted, issued after this many others. -/
def badAccess (seq : Nat) : Pend := ⟨anOp seq, .next, .none, .landed (.fault .eperm 0x40)⟩

theorem witness_due_results : (∀ a ∈ [Arrival.waiting, .flying (.value 7 0), .landed (.fault .eperm 0x40)], ∃ x : Here, x.th.pend = [dueNow a]) ∧
    (∃ x : Here, x.th.pend = [dueNow (.landed (.value 7 0)), badAccess 1] ∧ (anOp 0).seq < (badAccess 1).op.seq) ∧
    (∃ (x : Here) (op : Op), x.th.pend = [badAccess 1, ⟨op, .window 0, .reg 3, .landed (.value 7 0)⟩] ∧ (badAccess 1).op.seq < op.seq ∧
      (badAccess 1).dest = .none) :=
  ⟨fun a _ => ⟨⟨{ quietTask with pend := [dueNow a] }, []⟩, rfl⟩,
   ⟨⟨{ quietTask with pend := [dueNow (.landed (.value 7 0)), badAccess 1] }, []⟩, rfl, by decide +kernel⟩,
   ⟨⟨{ quietTask with pend := [badAccess 1, ⟨anOp 2, .window 0, .reg 3, .landed (.value 7 0)⟩] }, []⟩, anOp 2, rfl, by decide +kernel⟩⟩

/-- The dispatcher of core 3, which has no X64. -/
def atDispatcher3 : State := { focusC := 3, chip := { v := 4, clusters := [(0, { cores := [(3, {})] })] } }

theorem witness_x64_dispatcher : ¬ x64Place atDispatcher3 ∧ atDispatcher3.place.t = 0 ∧
    (issued atDispatcher3 (form (wordOf (.div 3 1 2)))).isSome = true :=
  ⟨by unfold x64Place; decide +kernel, by decide +kernel⟩

theorem witness_breakpoint_off : (issued (onCore quietTask []) (form (wordOf .bkpt))).isSome = true ∧
    ((onCore quietTask []).chip.core 0 0).den = false ∧ (withPort.chip.part (withPort.chip.pidAt 0 quietTask)).bounded = false := by decide +kernel

/-- TREPLAY writes a load's value that stands in SCRATCH. -/
theorem witness_replay_load : ∃ u q n sg, replaying.suspended = some u ∧ replaying.saved = some (q, false) ∧
    accessOf q.op.word = some (.load n sg) ∧ accessPlace 4 0 q.op.ea.toNat n = some (.here 0x40) ∧
    ((onCore replaying []).chip.cluster 0).mode 0 = .scratch ∧ replayFull u q false = false :=
  ⟨_, _, 4, true, rfl, rfl, by decide +kernel⟩

/-- Indices of the two bounds of the thread's registers and of the device's, and of none. -/
theorem witness_register_indices : (∀ n ∈ [0x000, 0x009, 0x010, 0x014, 0x020, 0x021], threadRegister n = true) ∧
    (∀ n ∈ [0x00A, 0x00F, 0x015, 0x01F, 0x022, 0x0FF, 0x104, 0x3FFF], threadRegister n = false ∧ deviceRegister n = false) ∧
    (∀ n ∈ [0x100, 0x103, 0x140, 0x147, 0x250, 0x400, 0x478, 0x51F], deviceRegister n = true) ∧ readOnly 0x100 = true ∧ readOnly 0x400 = false := by
  decide +kernel

/-- The thread, in either mode, at MFS of FFLAGS with a vector command that has not given its flags. -/
def flagsWait (t : Thread) : State := package { clusterWith t [] with claims := [aClaim [aCommand]] }

theorem witness_flags_wait : ∀ t ∈ [quietTask, inHandler], (flagsWait t).chip.flagsDue 0 16384 = true ∧
    (issued (flagsWait t) (form (wordOf (.mfs 3 2)) [.dst 3])).isSome = true := by decide +kernel

/-- The dispatcher of core 0 with 7 in g1; its cluster's partition supplies it or does not. -/
def atDispatcher (disp : Word) : State :=
  package { cores := [(0, { file := [(1, 7)] })], pid := some 0 } fun h => { h with parts := [(0, { active := true, disp := disp, vcnmap := [(0, 1)] })] }

theorem witness_dispatcher_registers : (issued (atDispatcher 0) (form (wordOf (.mts 1 0x400)) [.src 1])).isSome = true ∧
    (atDispatcher 0).chip.ownDispatcher (atDispatcher 0).place = false ∧
    (issued (atDispatcher 0x300000000) (form (wordOf (.mfs 1 0x450)) [.dst 1])).isSome = true ∧
    (atDispatcher 0x300000000).chip.ownDispatcher (atDispatcher 0x300000000).place = true ∧ plainMask 0x400 = some 0x7FF#64 ∧
    plainRange 0x400 7 = true := by decide +kernel

theorem witness_refused_write : (atDispatcher 0).writeReg 0 0 0x250 0x400 = none := by decide +kernel

theorem witness_allocation : allocOk ((onCore inHandler []).chip.othersFor slot1 0x021 2048) 32 2048 = false ∧
    allocOk ((onCore inHandler []).chip.othersFor slot1 0x021 40) 32 40 = true ∧ allocOk ((onCore inHandler []).chip.othersFor slot1 0x020 24) 24 32 = false ∧
    (onCore inHandler []).chip.pairLimit slot1 { inHandler with regLim := 40 } 0x021 40 = true := by decide +kernel

/-- The quiet task at a REP whose one captured word, an ADD, stands in a page of code behind it. -/
def atRep : State :=
  package (clusterWith quietTask []) fun h =>
    { h with stations := [{ station := stationOf 0 0x30000, pid := 0, region := 0x30000, leaf := 0xD000000000010000#64, level := 0 }]
             hbm := Mem.writeBytes [] 0x10004 (natToBytes 4 0x0418B180) }

theorem witness_captured : (issued atRep (form (wordOf (.rep 2 1 1 1 0)))).isSome = true ∧ windowOf 0x300000004 = .global ∧
    regionOf 0x300000004 ∉ quietTask.rejected ∧
    atRep.chip.translate 0 0x300000004 = some { pa := 0x10004, attr := .readShared, nc := false, pub := none } ∧
    BitVec.ofNat 32 (bytesToNat (atRep.chip.hbm.readBytes 0x10004 4)) = 0x0418B180#32 := by decide +kernel

theorem witness_replays : ∃ (t : Thread) (f : Frame) (w : Half), t.frame = some f ∧ f.words[f.j]? = some w :=
  ⟨{ quietTask with frame := some ⟨0x84211100#32, 0x300000000, 1, 0, [0x0418B180#32]⟩ }, _, _, rfl, rfl⟩

/-- A handler at TEND whose task has a fault that nothing has reported, or nothing pending. -/
def endingHandler (ps : List Pend) : Thread := { inHandler with suspended := some { ldq := [], sdq := [], pend := ps, frame := none } }

theorem witness_end_faults : (endingHandler [badAccess 1]).endFault = some (badAccess 1) ∧ (endingHandler []).endFault = none ∧
    (∀ ps ∈ [[], [badAccess 1]], (issued (onCore (endingHandler ps) []) (form (wordOf .tend))).isSome = true ∧
      (onCore (endingHandler ps) []).chip.endHeld slot1 (endingHandler ps) = false ∧
      (onCore (endingHandler ps) []).chip.hasThroughs 0 16384 = false) := by decide +kernel

/-- An integer addition that waits in a claim's queue. -/
def anIntegerAdd : VCmd := { aCommand with op := { anOp 3 with word := wordOf (.viadd 1 2 3 0) } }

theorem witness_copies : computing.chip.copyAgrees quietTask 0 (aClaim [anAddition]) anAddition
      (computing.chip.runCommand quietTask 0 [] anAddition) = true ∧ (computing.chip.cluster 0).parked = [] ∧
    anIntegerAdd.op.word = wordOf (.viadd 1 2 3 0) ∧ (aClaim [anIntegerAdd]).second = none ∧
    (aClaim [anIntegerAdd]).resident = true ∧ (aClaim [anIntegerAdd]).grant ≠ 0 := by decide +kernel

/-- The context of a trailing thread's copy that holds a signaling NaN where the other copy has 0. -/
def otherCopy : Map Half := [(128, 0x7F800001)]

theorem witness_mismatch : ∃ d g e f, (aClaim [anAddition]).resident = true ∧ computing.chip.runCommand quietTask 0 [] anAddition = .ok (d, g) ∧
    computing.chip.runCommand quietTask 0 otherCopy anAddition = .ok (e, f) ∧ d.flags ≠ e.flags :=
  ⟨_, _, _, _, by decide +kernel, rfl, rfl, by decide +kernel⟩

/-- An ACLR behind an MMA upon the same accumulator. -/
def behindMma : Gang := { aGang with queue := [anMma true, { anAclr with seq := 1 }] }

theorem witness_held_op : behindMma.ready 1 { anAclr with seq := 1 } = false ∧ anAclr.checked = false ∧
    answers ((ganged member behindMma []).chip.memberRun member 0 behindMma { anAclr with seq := 1 }) = true ∧
    major anAclr.op.word = 0x31 ∧ omemFn anAclr.op.word = 5 ∧ (aGang.accs.get (bits anAclr.op.y 0 3)).isSome = true := by decide +kernel

/-- An OLD of the last line of SCRATCH at the head of the gang's queue. -/
def anOld : GangOp := { op := { anOp 0 with word := wordOf (.old 3 1 2), ea := 0x1FFF80 }, uid := 16384, member := 0, seq := 0 }

theorem witness_fill : ∃ o, let g := { aGang with queue := [anOld] }
    g.ready 0 anOld = true ∧ major anOld.op.word = 0x31 ∧ omemFn anOld.op.word = 2 ∧ g.slots.get (bits anOld.op.y 0 4) = some o ∧
    (ganged member g []).chip.findThread 16384 = some member ∧ o.code ≠ 5 ∧ oldMeta anOld.op.y = false ∧ oldCount anOld.op.y = 1 ∧
    anOld.op.ea.toNat + 128 = 0x200000 :=
  ⟨{ code := 1, index := 0 }, by decide +kernel⟩

/-- Groups: in a handler, from a slot that names none, of a task that is not quiet, and of a combined sum with flags. -/
theorem witness_group_forms : (issued (inGroup inHandler {} []) (form (wordOf (.bar 3)))).isSome = true ∧
    (issued (inGroup quietTask {} []) (form (wordOf (.bar 2)))).isSome = true ∧ slotGroup (grouped quietTask) 2 = none ∧
    (issued (inGroup specTask {} []) (form (wordOf (.bar 3)))).isSome = true ∧ bits (0x33#64) 4 3 = 3 ∧ bits (0x33#64) 0 2 = 3 ∧
    (({ total := some (7, 16) } : Group).total.getD (0, 0)).2 = 16 := by decide +kernel

theorem in_scratch {s : State} {y z : Here} {x n : Nat}
    (h : (decide (x + n ≤ 0x200000) && (List.range n).all (fun j => decide ((s.chip.cluster s.place.v).mode ((x + j) / 65536) = .scratch)) &&
      !(s.holding z).accessHeld s.place y.th x n) = true) : InScratch s y z x n := by
  simp only [Bool.and_eq_true, decide_eq_true_eq, List.all_eq_true, List.mem_range, Bool.not_eq_true'] at h
  exact ⟨h.1.1, h.1.2, h.2⟩

theorem witness_launch_scratch : ∀ t ∈ [quietTask, specTask], ∃ y x z, let s := launching t
    Issues s (form (wordOf (.launch 2 1)) [.dst 2, .src 1]) y ∧ y.passed.read 1 = .ok (x, z) ∧ x.toNat % 64 = 0 ∧
    InScratch s y z x.toNat 64 ∧ InScratch s y z (recArgs (s.scratchAt x.toNat 64)) 128 ∧ launchRefused (s.scratchAt x.toNat 64) = false ∧
    (s.holding z).hasThroughs s.place.v y.th.uid = false := by
  simp only [List.forall_mem_cons, List.not_mem_nil, false_implies, implies_true, and_true]
  refine ⟨⟨standing (launching quietTask) (form (wordOf (.launch 2 1)) [.dst 2, .src 1]), _, _, issues_standing (by decide +kernel),
      read_value (by decide +kernel), ?_⟩,
    ⟨standing (launching specTask) (form (wordOf (.launch 2 1)) [.dst 2, .src 1]), _, _, issues_standing (by decide +kernel),
      read_value (by decide +kernel), ?_⟩⟩
  all_goals exact ⟨by decide +kernel, in_scratch (by decide +kernel), in_scratch (by decide +kernel), by decide +kernel⟩

/-- The last bytes of SCRATCH as a send's payload and as an interaction record's. -/
theorem witness_payload_scratch : (∃ y z, InScratch (sending specTask [0, 0x1FFFF8, 0x2000000, 0x800000000]) y z 0x1FFFF8 8) ∧
    (∃ y z, InScratch (inPart specTask [0, 0, 64]) y z 64 64) ∧
    (inPart specTask [0, 0x200000000, 64] (withPage 0xF000000000010000#64)).chip.translate 0 0x200000000 =
      some { pa := 0x10000, attr := .host, nc := false, pub := none } :=
  ⟨⟨⟨specTask, []⟩, ⟨specTask, []⟩, in_scratch (by decide +kernel)⟩, ⟨⟨specTask, []⟩, ⟨specTask, []⟩, in_scratch (by decide +kernel)⟩,
   by decide +kernel⟩

/-- Command 1 while the thread waits within an instruction; command 4 with a window open. -/
theorem witness_port_waits : (ported 1 (.live { quietTask with wait := .gang 0 })).chip.slot slot1 = .live { quietTask with wait := .gang 0 } ∧
    (ported 1 (.live { quietTask with wait := .gang 0 })).chip.portSlot slot1 = true ∧ ({ quietTask with wait := .gang 0 } : Thread).wait ≠ .none ∧
    ({ quietTask with pend := [dueNow .waiting] } : Thread).windowsOpen = true ∧ quietTask.windowsOpen = false ∧
    (ported 4 (.halted quietTask)).chip.endHeld slot1 quietTask = false ∧ quietTask.suspended = none := by decide +kernel

theorem witness_boundary_turns : ((package {}).chip.core 0 0).turn < 15 ∧ 15 ≤ ((package { cores := [(0, { turn := 15 })] }).chip.core 0 0).turn := by
  decide +kernel

/-- A group that waits for its placement on a core whose one other slot holder is none of it. -/
theorem witness_reserved : let s : State := { waitingGroup 22000 with chip := (waitingGroup 22000).chip.modCluster 0 fun k =>
      { k with reserved := some (0, 5), cores := k.cores.each fun _ c => { c with slots := [(1, .live (byStamp 1))] } } }
    (s.chip.cluster 0).reserved = some (0, 5) ∧ (s.chip.cluster 0).reservedAt + 2000 ≤ s.chip.now ∧ (homesOf (s.chip.waitingMembers 0 5)).contains (0, 0) = true ∧
    s.chip.slot slot1 = .live (byStamp 1) ∧ (byStamp 1).uid ∉ (s.chip.group 0 5).members := by decide +kernel

/-- A package that has removed a page which a write-through has not left, or which a record names. -/
theorem witness_unmapped : ({ storing.chip with removed := [(0, 0x1000)] } : Chip).unmapped 0x40 = true ∧
    ({ storing.chip with removed := [(0, 0x40)] } : Chip).unmapped 0x40 = false ∧ storing.chip.unmapped 0x40 = false := by decide +kernel

theorem witness_tiers : ∃ h : Chip, h.tiers.slices = [(3, [⟨5, true⟩])] ∧ (∃ p ∈ h.tiers.slices, ⟨5, true⟩ ∈ p.2) :=
  ⟨{ tiers := { slices := [(3, [⟨5, true⟩])] } }, rfl, _, List.mem_cons_self .., List.mem_cons_self ..⟩

/-- A queue that only an arrival or the floor task may still join, and a full one. -/
theorem witness_reserve : ((overflowing 32).chip.ticket 0 ⟨16384, false, 40⟩).map (·.floor) = some false ∧
    ((overflowing 40).chip.core 0 0).queue.length = 40 ∧ ((overflowing 39).chip.core 0 0).queue.length = 39 := by decide +kernel

/-- A partition whose cluster has cut, is stopped, or is not there. -/
theorem witness_cuts : ((part0 fun q => { q with round := some [] }).chip.part 0).holds 0 = true ∧
    ((part0 fun q => { q with round := some [] }).chip.part 0).off = false ∧ (part0 id).chip.present 0 0 = true ∧
    ((part0 id { stopped := true }).chip.cluster 0).stopped = true ∧ (part0 id).chip.present 1 0 = false := by decide +kernel

/-- The same commit while a command of the task is open. -/
theorem witness_commit_held : committing.chip.commitHeld 0 (committing.chip.localCandidate 0) = false ∧ committing.chip.openCmds 16384 = 0 ∧
    ({ committing.chip with clusters := [(0, { cmds := [aCopy false], pid := some 0 })] } : Chip).commitHeld 0 0x2000000 = true := by decide +kernel

/-- A task of a launch that no queue and no packet holds, while the master die is fenced. -/
def orphaned : State :=
  part0 (fun q => { q with jobs := [{ newJob q { slot := some 3, record := hostRecord, block := [], tvec := 0 } (List.replicate 128 0) 0 with
      masks := [(0, 1)] }] }) {} fun h =>
    { h with vmap := [(0, { valid := true, pcn := 128 })], fences := [0]
             tasks := [(16384, { pid := 0, packet := { aPacket with origin := .launch, stamp := 0x2000000 }, launch := some 1 })] }

theorem witness_takeover : orphaned.chip.master ∈ orphaned.chip.fences ∧ 1 ∉ orphaned.chip.fences ∧ (∀ x < 1, x ∈ orphaned.chip.fences) ∧
    (orphaned.chip.vmap.getOr 0 {}).valid = true ∧ (orphaned.chip.cluster 0).stopped = false ∧ orphaned.chip.flights = [] ∧
    (orphaned.chip.core 0 0).queued 16384 = false ∧
    (∃ j ∈ (orphaned.chip.part 0).jobs, ∃ t ∈ orphaned.chip.tasks, j.holds t.2 = true ∧ t.2.stage = .queued ∧ t.2.packet.origin = .launch) := by
  decide +kernel

/-- Tables of four levels that map one private page of partition 0, at line 0x1400, which slice 3 holds. -/
def hitBySlice : State :=
  part0 id {} fun h =>
    { h with regs := [(0x420, 0x10000), (0x421, 1)], tiers := { slices := [(3, [⟨0x1400, true⟩])] }
             hbm := Mem.writeBytes fourLevels 0x203018 (natToBytes 8 0xC000000000050000) }

theorem witness_slice_hit : hitBySlice.chip.linesOf 3 = [0x1400] ∧ hitBySlice.chip.images = [] ∧
    (∃ r ∈ hitBySlice.chip.pagesOf 0, r.1 < 64 * 0x1400 + 64 ∧ 64 * 0x1400 < r.1 + r.2) ∧ hitBySlice.chip.pagesOf 1 = [] := by decide +kernel

/-- Where each machine check may arise: a started half MMA, and a screened core. -/
theorem witness_machine_checks : (((ganged member { aGang with queue :=
      [{ anMma true with op := { anOp 0 with word := wordOf (.mmaHalf 2 0 1 1 0xB) } }] } []).chip.cluster 0).mirrored).isSome = true ∧
    (∃ p ∈ ((paired (.claim 1) 1 {} [] []).chip.cluster 0).cores, p.2.screened = true) ∧
    ((paired (.claim 1) 1 {} [] []).chip.vmap.getOr 0 {}).valid = true := by decide +kernel

/-- Reset is canonical, so that the invariant of the memories has a state. -/
theorem witness_canonical : State.reset.chip.Canonical := by
  constructor
  · decide +kernel
  · decide +kernel
  · decide +kernel
  all_goals (intro p h; cases h)

end Sys2Proof.Tests
end

section
/-! PROOFS. The family 01: what a byte memory reads back (R6), the windows of the generic address space (R27), and the
order of an access's checks (R8, R28, R29). -/

namespace Sys2Proof.Machine

/-! ## Bytes read in a row -/

@[simp] theorem Mem.getElem_readBytes (m : Mem) (k n i : Nat) (h : i < (m.readBytes k n).length) :
    (m.readBytes k n)[i] = m.read (k + i) := by
  induction n generalizing k i with
  | zero => simp [Mem.readBytes] at h
  | succ n ih =>
    cases i with
    | zero => rfl
    | succ i => simp only [Mem.readBytes, List.getElem_cons_succ, ih, Nat.add_assoc, Nat.add_comm 1 i]

theorem Mem.readBytes_writeBytes {m : Mem} (k : Nat) (bs : List Byte) (w : Memory.wf m = true) :
    (m.writeBytes k bs).readBytes k bs.length = bs := by
  refine List.ext_getElem (Mem.length_readBytes ..) fun i _ hi => ?_
  rw [Mem.getElem_readBytes, Mem.read_writeBytes _ _ _ w, if_pos (by omega), Nat.add_sub_cancel_left,
    List.getD_eq_getElem _ _ hi]

theorem Mem.bytesToNat_readBytes_writeBytes {m : Mem} (k n x : Nat) (w : Memory.wf m = true) :
    bytesToNat ((m.writeBytes k (natToBytes n x)).readBytes k n) = x % 256 ^ n := by
  have back := Mem.readBytes_writeBytes k (natToBytes n x) w
  rw [length_natToBytes] at back
  rw [back, bytesToNat_natToBytes]

/-! ## Windows (R27) -/

theorem windowOf_eq_scratch {a : Nat} (h : a < 0x200000) : windowOf a = .scratch := if_pos h

theorem windowOf_eq_peer {a : Nat} (lo : 0x100000000 ≤ a) (hi : a < 0x200000000) : windowOf a = .peer := by
  rw [windowOf, if_neg (by omega), if_neg (by omega), if_pos hi]

theorem windowOf_eq_global {a : Nat} (lo : 0x200000000 ≤ a) (hi : a < 2 ^ 56) : windowOf a = .global := by
  rw [windowOf, if_neg (by omega), if_neg (by omega), if_neg (by omega), if_pos hi]

/-- The gap between local scratch and the peer window lies in no window. -/
theorem windowOf_eq_none_of_gap {a : Nat} (lo : 0x200000 ≤ a) (hi : a < 0x100000000) : windowOf a = .none := by
  rw [windowOf, if_neg (by omega), if_pos hi]

/-- Addresses past global memory lie in no window. -/
theorem windowOf_eq_none_of_top {a : Nat} (lo : 2 ^ 56 ≤ a) : windowOf a = .none := by
  rw [windowOf, if_neg (by omega), if_neg (by omega), if_neg (by omega), if_neg (by omega)]

/-- In local scratch the address is the offset. -/
theorem scratchOff_of_lt {a : Nat} (h : a < 0x200000) : scratchOff a = a := Nat.mod_eq_of_lt h

/-- In the peer window the VCN counts the cluster-sized pieces from the window's start. -/
theorem peerVcn_eq {a : Nat} (lo : 0x100000000 ≤ a) (hi : a < 0x200000000) : peerVcn a = (a - 0x100000000) / 2 ^ 21 := by
  unfold peerVcn; omega

/-! ## Where one byte's access acts (R27, R28) -/

section
variable {V v a : Nat}

theorem accessPlace_of_scratch (h : windowOf a = .scratch) : accessPlace V v a 1 = some (.here (scratchOff a)) := by
  simp [accessPlace, h]

theorem accessPlace_of_global (h : windowOf a = .global) : accessPlace V v a 1 = some (.global a) := by
  simp [accessPlace, h]

theorem accessPlace_of_noWindow (h : windowOf a = .none) : accessPlace V v a 1 = none := by
  simp [accessPlace, h]

/-- A peer address acts at no cluster from V up, at this cluster for its own VCN, and else at the cluster it names. -/
theorem accessPlace_of_peer (h : windowOf a = .peer) :
    accessPlace V v a 1 = if V ≤ peerVcn a then none else if peerVcn a = v then some (.here (scratchOff a))
      else some (.remote (peerVcn a) (scratchOff a)) := by
  simp [accessPlace, h]

end

/-! ## The checks of an access, in their order (R8, R28, R29, R193) -/

/-- Only SCRATCH and SCRATCH-T banks are addressable (R178). -/
theorem BankMode.addressable_eq_false {m : BankMode} (h : m ≠ .scratch) (hT : m ≠ .scratchT) : m.addressable = false := by
  cases m with
  | scratch => exact absurd rfl h
  | scratchT => exact absurd rfl hT
  | cache | fifo | log | cairn => rfl

section
variable {h : Chip} {t : Thread} {p : At} {a : Access} {op : Op} {due : Due} {dest : Dest}

/-- The window check comes first. -/
theorem Chip.access_ewindow (window : accessPlace h.v p.v op.ea.toNat a.size = none) :
    h.access t p a op due dest = .error (.trap .ewindow op.ea) := by
  simp [Chip.access, window]

/-- The alignment check comes next, wherever the access acts. -/
theorem Chip.access_ealign {x : Place} (window : accessPlace h.v p.v op.ea.toNat a.size = some x)
    (misaligned : op.ea.toNat % a.size ≠ 0) : h.access t p a op due dest = .error (.trap .ealign op.ea) := by
  simp [Chip.access, window, misaligned]

/-- An aligned access to a peer cluster that the thread's partition does not hold has no permission. -/
theorem Chip.access_eperm {u o : Nat} (window : accessPlace h.v p.v op.ea.toNat a.size = some (.remote u o))
    (aligned : op.ea.toNat % a.size = 0) (notHeld : (h.part (h.pidAt p.v t)).holds u = false) :
    h.access t p a op due dest = .error (.trap .eperm op.ea) := by
  simp [Chip.access, window, aligned, notHeld]

/-- An aligned access to a bank of this cluster's scratch that is not addressable meets the wrong mode. -/
theorem Chip.access_ebankmode {o : Nat} (window : accessPlace h.v p.v op.ea.toNat a.size = some (.here o))
    (aligned : op.ea.toNat % a.size = 0) (mode : ((h.cluster p.v).mode (o / 65536)).addressable = false) :
    h.access t p a op due dest = .error (.trap .ebankmode op.ea) := by
  simp [Chip.access, window, aligned, mode]

end

end Sys2Proof.Machine

open Sys2Proof Sys2Proof.Machine

/-- Settles O13: the laws of `Mem.writeBytes` on canonical memories, and of little-endian numbers. -/
theorem memoryReadsBack : Obligations.MemoryReadsBack := by
  intro m k n x bs w
  exact ⟨Mem.wf_writeBytes k bs w, fun j => Mem.read_writeBytes k j bs w, Mem.bytesToNat_readBytes_writeBytes k n x w⟩

/-- Settles O14: one lemma per check of `Chip.access` (the EPERM of a peer cluster is R193's), and the window of the address in
each range. -/
theorem accessChecksAndWindows : Obligations.AccessChecksAndWindows := by
  refine ⟨fun h t p a op due dest => ?checks, fun V v a => ?windows⟩
  case checks =>
    exact ⟨Chip.access_ewindow, fun _ => Chip.access_ealign, fun _ _ => Chip.access_eperm,
      fun _ window aligned notScratch notScratchT =>
        Chip.access_ebankmode window aligned (BankMode.addressable_eq_false notScratch notScratchT)⟩
  case windows =>
    refine ⟨fun hi => ?scratch, fun lo hi => accessPlace_of_noWindow (windowOf_eq_none_of_gap lo hi),
      fun lo hi inPackage other => ?peer, fun lo hi inPackage own => ?ownPeer, fun lo hi outside => ?outside,
      fun lo hi => accessPlace_of_global (windowOf_eq_global lo hi), fun lo => accessPlace_of_noWindow (windowOf_eq_none_of_top lo)⟩
    case scratch =>
      rw [accessPlace_of_scratch (windowOf_eq_scratch hi), scratchOff_of_lt hi]
    case peer =>
      rw [accessPlace_of_peer (windowOf_eq_peer lo hi), peerVcn_eq lo hi, if_neg (by omega), if_neg other, scratchOff]
    case ownPeer =>
      rw [accessPlace_of_peer (windowOf_eq_peer lo hi), peerVcn_eq lo hi, if_neg (by omega), if_pos own, scratchOff]
    case outside =>
      rw [accessPlace_of_peer (windowOf_eq_peer lo hi), peerVcn_eq lo hi, if_pos outside]

end

section
/-! PROOFS. The family 02, register and queue fields: what the register file reads back, and what the check of each use of a
field comes to (R17 to R20, R36). -/

namespace Sys2Proof.Machine

/-! ## The register file (R17) -/

@[simp] theorem readGpr_zero (t : Thread) (m : Map Word) : readGpr t m 0 = 0 := rfl

@[simp] theorem writeGpr_zero (t : Thread) (m : Map Word) (x : Word) : writeGpr t m 0 x = m := rfl

theorem readGpr_writeGpr_same (t : Thread) (m : Map Word) {r : Nat} (x : Word) (h : r ≠ 0) :
    readGpr t (writeGpr t m r x) r = x := by
  simp [readGpr, writeGpr, h]

theorem readGpr_writeGpr_ne (t : Thread) (m : Map Word) {r q : Nat} (x : Word) (h : q ≠ r) :
    readGpr t (writeGpr t m r x) q = readGpr t m q := by
  by_cases zero : r = 0
  · simp [zero]
  · have other : t.regBase + q ≠ t.regBase + r := by omega
    simp [readGpr, writeGpr, zero, Map.getOr_put_ne _ _ _ other]

/-! ## The check of one field (R18 to R20) -/

theorem owned_iff (t : Thread) (r : BitVec 7) : owned t r = true ↔ r = 0 ∨ (r.toNat < t.regLim ∧ r.toNat < 120) := by
  simp [owned, BitVec.toNat_eq]

/-- lq and sq are no registers of an allocation. -/
theorem toNat_lt_of_owned {t : Thread} {r : BitVec 7} (h : owned t r = true) : r.toNat < 120 := by
  simp only [owned, decide_eq_true_eq] at h
  omega

@[simp] theorem checkUses_nil (t : Thread) (n : Nat) : checkUses t [] n = none := rfl

section
variable {t : Thread} {r : BitVec 7} {us : List Use} {n : Nat}

theorem checkUses_src_owned (h : owned t r = true) : checkUses t (.src r :: us) n = checkUses t us n := by
  have := toNat_lt_of_owned h
  rw [checkUses, if_neg (by omega), if_pos h]

theorem checkUses_dst_owned (h : owned t r = true) : checkUses t (.dst r :: us) n = checkUses t us n := by
  have := toNat_lt_of_owned h
  rw [checkUses, if_neg (by omega), if_pos h]

theorem checkUses_src_foreign (h : ¬ owned t r = true) (lq : r ≠ 120) :
    checkUses t (.src r :: us) n = some (r.zeroExtend 64) := by
  rw [checkUses, if_neg (fun c => lq (BitVec.eq_of_toNat_eq c.1)), if_neg h]

theorem checkUses_dst_foreign (h : ¬ owned t r = true) (sq : r ≠ 121) :
    checkUses t (.dst r :: us) n = some (r.zeroExtend 64) := by
  rw [checkUses, if_neg (fun c => sq (BitVec.eq_of_toNat_eq c.1)), if_neg h]

/-- lq as a source takes one more entry of the load-data queue, where one is left. -/
theorem checkUses_src_lq (task : t.suspended = none) :
    checkUses t (.src 120 :: us) n = if n < t.ldq.length then checkUses t us (n + 1) else some 120 := by
  simp [checkUses, task, owned]

/-- lq as a load's destination needs room in the queue. -/
theorem checkUses_loadDst_lq (task : t.suspended = none) :
    checkUses t (.loadDst 120 :: us) n = if t.ldq.length < 16 then checkUses t us n else some 120 := by
  simp [checkUses, task, owned]

/-- sq as a destination needs room in the store-data queue. -/
theorem checkUses_dst_sq (task : t.suspended = none) :
    checkUses t (.dst 121 :: us) n = if t.sdq.length < 16 then checkUses t us n else some 121 := by
  simp [checkUses, task, owned]

/-- sq as a store's data needs an entry. -/
theorem checkUses_data_sq (task : t.suspended = none) :
    checkUses t (.data 121 :: us) n = if t.sdq ≠ [] then checkUses t us n else some 121 := by
  simp [checkUses, task, owned]

end

end Sys2Proof.Machine

open Sys2Proof Sys2Proof.Machine

/-- Settles O4: the laws of the register file and of the queues' fields, and the check of each use, field by field. -/
theorem registerAndQueueFields : Obligations.RegisterAndQueueFields := by
  refine ⟨⟨fun t m r q x => ?file, fun h x => ?queues⟩, fun t d a b => ?fields, fun t task _ => ?queueFields⟩
  case file =>
    exact ⟨readGpr_zero t m, writeGpr_zero t m x, readGpr_writeGpr_same t m x, readGpr_writeGpr_ne t m x⟩
  case queues =>
    refine ⟨fun _ _ _ _ front => ?_, fun _ _ front => ?_, fun _ _ _ front => ?_, rfl, fun _ _ front => ?_⟩
    · simp [Here.read, front]
    · simp [Here.read, front]
    · simp [Here.read, front]
    · simp [Here.readData, front]
  case fields =>
    refine ⟨fun hd _ sq => checkUses_dst_foreign hd sq, fun hd ha lq => ?_, fun hd ha hb lq => ?_, fun hd ha hb => ?_, owned_iff t⟩
    · rw [checkUses_dst_owned hd, checkUses_src_foreign ha lq]
    · rw [checkUses_dst_owned hd, checkUses_src_owned ha, checkUses_src_foreign hb lq]
    · rw [checkUses_dst_owned hd, checkUses_src_owned ha, checkUses_src_owned hb, checkUses_nil]
  case queueFields =>
    rw [checkUses_src_lq task, checkUses_src_lq task, checkUses_src_lq task, checkUses_loadDst_lq task, checkUses_dst_sq task,
      checkUses_data_sq task]
    simp only [checkUses_nil]
    refine ⟨by simp [List.length_pos_iff], fun empty => if_neg (by simp [empty]), ?pops, by simp, by simp,
      fun full => if_neg (by omega), by simp⟩
    case pops => split <;> simp <;> omega

end

section
/-! PROOFS. The family 02, the registers of the device: which indices name one (R24), and the registers that hold what was
written to them (R25, R460). -/

namespace Sys2Proof.Machine

/-! ## The indices that name a register -/

/-- The plain registers of the package band. -/
theorem plainMask_isSome_iff (i : Nat) : (plainMask i).isSome = true ↔
    i ∈ [0x400, 0x420, 0x421, 0x428, 0x429, 0x42B, 0x431, 0x462, 0x470, 0x481, 0x483, 0x490, 0x491, 0x493, 0x498, 0x499, 0x49B,
      0x4A1, 0x4A2, 0x4A3, 0x4A5, 0x4A6, 0x4A7, 0x4A8, 0x4AA, 0x4C4, 0x4C8] ∨ (0x4E0 ≤ i ∧ i < 0x4F0) := by
  unfold plainMask
  split
  case h_28 =>
    split <;> simp_all
  all_goals exact iff_of_true rfl (by decide)

/-- A plain register lies in the package band, and tasks do not write it. -/
theorem plainMask_package {i : Nat} {m : Word} (p : plainMask i = some m) :
    0x400 ≤ i ∧ deviceRegister i = true ∧ readOnly i = false := by
  unfold plainMask at p
  split at p
  case h_28 =>
    split at p
    · simp [deviceRegister, readOnly]; omega
    · cases p
  all_goals decide

/-- The ranges of `deviceRegister`, as bounds. -/
theorem deviceRegister_iff (i : Nat) : deviceRegister i = true ↔
    (0x100 ≤ i ∧ i ≤ 0x103) ∨ (0x140 ≤ i ∧ i ≤ 0x147) ∨ (0x200 ≤ i ∧ i ≤ 0x203) ∨ (0x210 ≤ i ∧ i ≤ 0x210) ∨
    (0x220 ≤ i ∧ i ≤ 0x220) ∨ (0x230 ≤ i ∧ i ≤ 0x238) ∨ (0x240 ≤ i ∧ i ≤ 0x240) ∨ (0x250 ≤ i ∧ i ≤ 0x253) ∨
    (0x400 ≤ i ∧ i ≤ 0x401) ∨ (0x410 ≤ i ∧ i ≤ 0x418) ∨ (0x420 ≤ i ∧ i ≤ 0x421) ∨ (0x428 ≤ i ∧ i ≤ 0x42C) ∨
    (0x430 ≤ i ∧ i ≤ 0x431) ∨ (0x448 ≤ i ∧ i ≤ 0x449) ∨ (0x450 ≤ i ∧ i ≤ 0x457) ∨ (0x460 ≤ i ∧ i ≤ 0x463) ∨
    (0x470 ≤ i ∧ i ≤ 0x478) ∨ (0x47A ≤ i ∧ i ≤ 0x47A) ∨ (0x480 ≤ i ∧ i ≤ 0x484) ∨ (0x490 ≤ i ∧ i ≤ 0x493) ∨
    (0x498 ≤ i ∧ i ≤ 0x49B) ∨ (0x4A0 ≤ i ∧ i ≤ 0x4AB) ∨ (0x4C0 ≤ i ∧ i ≤ 0x4C4) ∨ (0x4C8 ≤ i ∧ i ≤ 0x4C8) ∨
    (0x4D0 ≤ i ∧ i ≤ 0x4EF) ∨ (0x500 ≤ i ∧ i ≤ 0x51F) := by
  simp only [deviceRegister, List.any_cons, List.any_nil, Bool.or_false, Bool.or_eq_true, decide_eq_true_eq]

theorem readCore_isSome (h : Chip) (v c i : Nat) (core : i < 0x400) : (h.readCore v c i).isSome = deviceRegister i := by
  unfold Chip.readCore
  split
  case h_25 =>
    rw [Bool.eq_iff_iff, deviceRegister_iff]
    split <;> simp only [Option.isSome_some, Option.isSome_none] <;> grind
  all_goals rfl

/-- The registers of the partition that PSEL names. -/
theorem readPart_isSome_iff (h : Chip) (i : Nat) : (h.readPart i).isSome = true ↔
    i ∈ [0x448, 0x449, 0x471, 0x472, 0x473, 0x474, 0x475, 0x476, 0x477, 0x478, 0x47A, 0x4C0, 0x4C1, 0x4C2, 0x4C3] ∨
      (0x4D0 ≤ i ∧ i < 0x4E0) ∨ (0x500 ≤ i ∧ i < 0x520) := by
  unfold Chip.readPart
  split
  case h_16 =>
    split
    · simp_all
    · split <;> simp_all
  all_goals exact iff_of_true rfl (by decide)

theorem standing_iff (i : Nat) : standing i = true ↔ (plainMask i).isSome = true ∨
    i ∈ [0x410, 0x42A, 0x42C, 0x430, 0x460, 0x492, 0x49A, 0x4A0, 0x4A9, 0x4AB] ∨ (0x411 ≤ i ∧ i ≤ 0x418) ∨
      (0x450 ≤ i ∧ i ≤ 0x457) := by
  simp [standing, or_assoc]

theorem deviceRegister_of_standing {i : Nat} (h : standing i = true) : deviceRegister i = true := by
  rcases (standing_iff i).1 h with plain | listed | range
  · obtain ⟨m, p⟩ := Option.isSome_iff_exists.1 plain
    exact (plainMask_package p).2.1
  · exact (by decide : ∀ j ∈ [0x410, 0x42A, 0x42C, 0x430, 0x460, 0x492, 0x49A, 0x4A0, 0x4A9, 0x4AB],
      deviceRegister j = true) i listed
  · rw [deviceRegister_iff]
    grind

theorem deviceRegister_of_readPart {h : Chip} {i : Nat} (part : (h.readPart i).isSome = true) : deviceRegister i = true := by
  rcases (readPart_isSome_iff h i).1 part with listed | range
  · exact (by decide : ∀ j ∈ [0x448, 0x449, 0x471, 0x472, 0x473, 0x474, 0x475, 0x476, 0x477, 0x478, 0x47A, 0x4C0, 0x4C1, 0x4C2,
      0x4C3], deviceRegister j = true) i listed
  · rw [deviceRegister_iff]
    grind

theorem readPackage_isSome (s : State) (v i : Nat) (package : 0x400 ≤ i) :
    (s.readPackage v i).isSome = deviceRegister i := by
  unfold State.readPackage
  split
  case h_8 =>
    have some_iff : (if standing i then some (s.chip.regs.getOr i (plainReset i)) else s.chip.readPart i).isSome = true ↔
        standing i = true ∨ (s.chip.readPart i).isSome = true := by split <;> simp_all
    rw [Bool.eq_iff_iff, some_iff]
    constructor
    · rintro (stands | part)
      · exact deviceRegister_of_standing stands
      · exact deviceRegister_of_readPart part
    · intro named
      rw [deviceRegister_iff] at named
      rw [standing_iff, plainMask_isSome_iff, readPart_isSome_iff]
      simp only [List.mem_cons, List.not_mem_nil, or_false, imp_false] at *
      grind
  all_goals rfl

/-- An index reads as a register exactly where it names one. -/
theorem readReg_isSome (s : State) (v c i : Nat) : (s.readReg v c i).isSome = deviceRegister i := by
  unfold State.readReg
  split
  · rw [Option.isSome_map, readCore_isSome _ _ _ _ ‹_›]
  · rw [Option.isSome_map, readPackage_isSome _ _ _ (by omega)]

/-! ## Fields from bit 0 up -/

/-- A word within a mask of n ones is a number below 2^n. -/
theorem and_ones_eq_self_iff (x : Word) {n : Nat} (h : n ≤ 64) : x &&& BitVec.ofNat 64 (2 ^ n - 1) = x ↔ x.toNat < 2 ^ n := by
  have fits : 2 ^ n - 1 < 2 ^ 64 := by
    have := Nat.pow_le_pow_right (n := 2) (by decide) h
    have := Nat.two_pow_pos n
    omega
  rw [← BitVec.toNat_inj, BitVec.toNat_and, BitVec.toNat_ofNat, Nat.mod_eq_of_lt fits, Nat.and_two_pow_sub_one_eq_mod,
    Nat.mod_eq_iff_lt (Nat.two_pow_pos n).ne']

/-- A low field that holds the whole word. -/
theorem zeroExtend_fld {x : Word} {n : Nat} (h : x.toNat < 2 ^ n) : (fld x 0 n).zeroExtend 64 = x := by
  apply BitVec.eq_of_toNat_eq
  have := x.isLt
  simp only [fld, BitVec.truncate_eq_setWidth, BitVec.toNat_setWidth, BitVec.extractLsb'_toNat, Nat.shiftRight_zero, Nat.mod_eq_of_lt h]
  exact Nat.mod_eq_of_lt this

/-! ## The registers of the core and cluster bands that hold what was written -/

section
variable {x : Word} (h : Chip) (v c : Nat)

theorem writeCore_dsel (fits : x.toNat < 2 ^ 4) :
    h.writeCore v c 0x141 x = some (h.modCore v c fun k => { k with dsel := fld x 0 4 }) :=
  if_pos ((and_ones_eq_self_iff x (by decide)).2 fits)

theorem writeCore_didx (fits : x.toNat < 2 ^ 16) :
    h.writeCore v c 0x142 x = some (h.modCore v c fun k => { k with didx := fld x 0 16 }) :=
  if_pos ((and_ones_eq_self_iff x (by decide)).2 fits)

theorem writeCore_den (fits : x.toNat < 2 ^ 1) :
    h.writeCore v c 0x146 x = some (h.modCore v c fun k => { k with den := x.getLsbD 0 }) :=
  if_pos ((and_ones_eq_self_iff x (by decide)).2 fits)

theorem writeCore_hndIdx (fits : x.toNat < 2 ^ 10) :
    h.writeCore v c 0x250 x = some (h.modCluster v fun k => { k with hndIdx := fld x 0 10 }) :=
  if_pos ((and_ones_eq_self_iff x (by decide)).2 fits)

/-- A value above the field is refused. -/
theorem writeCore_dsel_refused (wide : 2 ^ 4 ≤ x.toNat) : h.writeCore v c 0x141 x = none :=
  if_neg fun within => Nat.not_lt.2 wide ((and_ones_eq_self_iff x (by decide)).1 within)

theorem writeCore_didx_refused (wide : 2 ^ 16 ≤ x.toNat) : h.writeCore v c 0x142 x = none :=
  if_neg fun within => Nat.not_lt.2 wide ((and_ones_eq_self_iff x (by decide)).1 within)

end

/-- A one-bit register reads the word of one bit that was written. -/
theorem bit_word {x : Word} (fits : x.toNat < 2 ^ 1) : (if x.getLsbD 0 then 1 else 0 : Word) = x := by
  have : x = 0 ∨ x = 1 := by bv_omega
  rcases this with rfl | rfl <;> rfl

/-! ## The plain registers of the package band -/

section
variable {s : State} {v c i : Nat} {x m : Word}

theorem readReg_plain (p : plainMask i = some m) : s.readReg v c i = some (s.chip.regs.getOr i (plainReset i), s) := by
  have package := (plainMask_package p).1
  have stands : standing i = true := by simp [standing, p]
  rw [State.readReg, if_neg (by omega)]
  unfold State.readPackage
  split
  case h_8 => rw [if_pos stands]; rfl
  all_goals cases p

theorem writeReg_plain (p : plainMask i = some m) (fits : x &&& m = x) (range : plainRange i x = true) :
    ∃ k : Nat, (i ≠ 0x4C8 → k = s.chip.gateNum) ∧
      s.writeReg v c i x = some { s with chip := { s.chip with regs := s.chip.regs.put i x, gateNum := k } } := by
  have package := (plainMask_package p).1
  rw [State.writeReg, if_neg (by omega)]
  simp only [State.writePackage, p]
  exact ⟨_, fun other => if_neg (by simp [other]), if_pos ⟨fits, range⟩⟩

theorem writeReg_plain_refused (p : plainMask i = some m) (bad : ¬ (x &&& m = x ∧ plainRange i x = true)) :
    s.writeReg v c i x = none := by
  have package := (plainMask_package p).1
  rw [State.writeReg, if_neg (by omega)]
  simp only [State.writePackage, p]
  exact if_neg bad

end

end Sys2Proof.Machine

open Sys2Proof Sys2Proof.Machine

/-- Settles O24: what the debug port's selection and enable, the handler store's index and the plain registers of the package band
hold after a write, and the writes they refuse (that a DSEL of 0 while STOPPED is 0 and a DIDX
that names no item are taken is log 63's). -/
theorem registerWritesReadBack : Obligations.RegisterWritesReadBack := by
  intro s v c x
  refine ⟨fun fits => ?dsel, fun fits => ?didx, fun fits => ?den, fun fits => ?handler, fun wide => ?dselWide,
    fun wide => ?didxWide, fun i m p fits range => ?plain, fun i m p wide => writeReg_plain_refused p fun h => wide h.1,
    fun out => writeReg_plain_refused rfl ?vnap, fun out => writeReg_plain_refused rfl ?power⟩
  case dsel =>
    refine ⟨_, by rw [State.writeReg, if_pos (by decide), writeCore_dsel _ _ _ fits]; rfl, ?_⟩
    simp only [State.readReg, Chip.readCore, Chip.core_modCore_same, zeroExtend_fld (n := 4) fits]
    rfl
  case didx =>
    refine ⟨_, by rw [State.writeReg, if_pos (by decide), writeCore_didx _ _ _ fits]; rfl, ?_⟩
    simp only [State.readReg, Chip.readCore, Chip.core_modCore_same, zeroExtend_fld (n := 16) fits]
    rfl
  case den =>
    refine ⟨_, by rw [State.writeReg, if_pos (by decide), writeCore_den _ _ _ fits]; rfl, ?_⟩
    simp only [State.readReg, Chip.readCore, Chip.core_modCore_same, bit_word fits]
    rfl
  case handler =>
    refine ⟨_, by rw [State.writeReg, if_pos (by decide), writeCore_hndIdx _ _ _ fits]; rfl, ?_⟩
    simp only [State.readReg, Chip.readCore, Chip.cluster_modCluster, if_true, zeroExtend_fld (n := 10) fits]
    rfl
  case dselWide => rw [State.writeReg, if_pos (by decide), writeCore_dsel_refused _ _ _ wide]; rfl
  case didxWide => rw [State.writeReg, if_pos (by decide), writeCore_didx_refused _ _ _ wide]; rfl
  case plain =>
    obtain ⟨k, -, written⟩ := writeReg_plain (s := s) (v := v) (c := c) p fits range
    refine ⟨_, written, ?_, fun j other => Map.get_put_ne _ _ other⟩
    rw [readReg_plain p, Map.getOr_put_same]
  case vnap => simp [plainRange]; omega
  case power => simp [plainRange]; omega

end

section
/-! PROOFS. The family 02, MFS: what a thread put back leaves unchanged, the check of an index, and the body of the instruction
(R24, R130, R421). -/

namespace Sys2Proof.Machine

/-! ## What a thread put back leaves unchanged -/

/-- A put whose value a test finds as it found the value before it, the default of an unlisted key included. -/
theorem Map.any_put_of_eq {α : Type} (m : Map α) (k : Nat) (x d : α) (f : α → Bool) (same : f x = f (m.getOr k d))
    (default : f d = false) : (m.put k x).any (fun p => f p.2) = m.any fun p => f p.2 := by
  induction m with
  | nil => simpa [Map.put, Map.getOr, default] using same
  | cons p m ih =>
    obtain ⟨j, y⟩ := p
    simp only [Map.getOr, Map.get] at same ih
    simp only [Map.put]
    split
    · rename_i less
      rw [if_neg (by omega), if_pos less] at same
      simp only [List.any_cons, ih same]
    · split
      · rename_i eq
        simp only [if_pos eq, Option.getD_some] at same
        simp [same]
      · rename_i less ne
        simp only [if_neg ne, if_neg less, Option.getD_none] at same
        simp [same, default]

/-- A thread put back changes its cluster in the cores alone. -/
theorem Chip.putHere_eq_modCluster (h : Chip) (p : At) (x : Here) :
    ∃ cores, h.putHere p x = h.modCluster p.v fun k => { k with cores := cores } := by
  refine ⟨((h.putHere p x).cluster p.v).cores, ?_⟩
  simp only [Chip.putHere, Chip.setThread, Chip.setSlot, Chip.modCore, Chip.modCluster, Chip.cluster, Map.put_put, Map.getOr_put_same]

@[simp] theorem Chip.pid_putHere (h : Chip) (p : At) (x : Here) (v : Nat) : ((h.putHere p x).cluster v).pid = (h.cluster v).pid := by
  obtain ⟨cores, e⟩ := h.putHere_eq_modCluster p x
  rw [e, Chip.cluster_modCluster]
  split
  · subst v; rfl
  · rfl

@[simp] theorem Chip.claimOf_putHere (h : Chip) (p : At) (x : Here) (v uid : Nat) :
    ((h.putHere p x).cluster v).claimOf uid = (h.cluster v).claimOf uid := by
  obtain ⟨cores, e⟩ := h.putHere_eq_modCluster p x
  rw [e, Chip.cluster_modCluster]
  split
  · subst v; rfl
  · rfl

@[simp] theorem Chip.ownDispatcher_putHere (h : Chip) (p q : At) (x : Here) : (h.putHere p x).ownDispatcher q = h.ownDispatcher q := by
  simp only [Chip.ownDispatcher, Chip.pid_putHere]
  rfl

/-- A test of every cluster that does not look at the cores finds what it found before. -/
theorem Chip.any_clusters_putHere (h : Chip) (p : At) (x : Here) (f : Cluster → Bool)
    (coreless : ∀ k cores, f { k with cores := cores } = f k) (default : f {} = false) :
    (h.putHere p x).clusters.any (fun k => f k.2) = h.clusters.any fun k => f k.2 := by
  obtain ⟨cores, e⟩ := h.putHere_eq_modCluster p x
  rw [e]
  exact Map.any_put_of_eq _ _ _ {} f (coreless _ _) default

/-- An ARD of the task is queued at the cluster. -/
def Cluster.ardQueued (uid : Nat) (k : Cluster) : Bool :=
  k.gangs.any fun g => g.queue.any fun q => decide (q.uid = uid) && !isMma q.op.word && omemFn q.op.word == 3

/-- A vector command is queued at the claim. -/
def Claim.commandQueued : Option Claim → Bool
  | some c => !c.queue.isEmpty
  | none => false

theorem Chip.flagsDue_eq (h : Chip) (v uid : Nat) : h.flagsDue v uid =
    (Claim.commandQueued ((h.cluster v).claimOf uid) || h.clusters.any fun k => k.2.ardQueued uid) := by
  unfold Chip.flagsDue Claim.commandQueued
  rfl

@[simp] theorem Chip.flagsDue_putHere (h : Chip) (p : At) (x : Here) (v uid : Nat) : (h.putHere p x).flagsDue v uid = h.flagsDue v uid := by
  rw [Chip.flagsDue_eq, Chip.flagsDue_eq, Chip.claimOf_putHere, h.any_clusters_putHere p x (Cluster.ardQueued uid) (fun _ _ => rfl) rfl]

/-! ## From an arm of `exec` on the whole state to what the instruction does -/

section
variable {f : Form} {s : State} {y : Here} {i : Instr} {body : Thread → At → State → Except Stop State}

theorem leavesThread_of_state {z : Here} (e : exec i s = issueState f s body) (h : Issues s f y)
    (b : body y.th s.place { s with chip := s.holding y.passed } = .ok { s with chip := s.holding z }) : LeavesThread i s z :=
  e.trans (issueState_completes h b)

theorem waits_of_state (e : exec i s = issueState f s body) (h : Issues s f y)
    (b : body y.th s.place { s with chip := s.holding y.passed } = .error .stall) : Waits i s := e.trans (issueState_stalls h b)

end

/-! ## The words of MFS and MTS -/

/-- A word of the R format in which one field of 14 bits stands in place of the last two registers. -/
theorem wordR_fld (op : BitVec 6) (d : BitVec 7) (n : BitVec 14) (fn : BitVec 5) :
    wordR op d (fld n 7 7) (fld n 0 7) fn = op ++ d ++ n ++ fn := by
  have halves : op ++ d ++ fld n 7 7 ++ fld n 0 7 = op ++ d ++ n := by
    apply BitVec.eq_of_getLsbD_eq
    intro i _
    simp only [fld, BitVec.getLsbD_append, BitVec.getLsbD_extractLsb']
    by_cases low : i < 7
    · simp [low, show i < 14 by omega]
    · by_cases high : i < 14
      · simp [low, high, show i - 7 < 7 by omega, show 7 + (i - 7) = i by omega]
      · simp [low, high, show ¬ i - 7 < 7 by omega, show i - 7 - 7 = i - 14 by omega]
  rw [wordR, halves]

theorem wordOf_mfs (d : BitVec 7) (n : BitVec 14) : wordOf (.mfs d n) = 0x22#6 ++ d ++ n ++ 2#5 := wordR_fld _ _ _ _

theorem wordOf_mts (d : BitVec 7) (n : BitVec 14) : wordOf (.mts d n) = 0x22#6 ++ d ++ n ++ 3#5 := wordR_fld _ _ _ _


/-! ## The thread's own registers (R23, R24) -/

theorem Thread.reg_isSome (t : Thread) (i : Nat) : (t.reg i).isSome = threadRegister i := by
  unfold Thread.reg
  split
  case h_18 => simp_all [threadRegister]; omega
  all_goals rfl

theorem Thread.reg_eq_none {t : Thread} {i : Nat} (none_ : threadRegister i = false) : t.reg i = none := by
  rw [← Option.not_isSome_iff_eq_none, Thread.reg_isSome, none_]
  decide

theorem lt_of_threadRegister {i : Nat} (h : threadRegister i = true) : i < 0x100 := by
  simp only [threadRegister, decide_eq_true_eq] at h
  omega

theorem range_of_deviceRegister {i : Nat} (h : deviceRegister i = true) : 0x100 ≤ i ∧ i ≤ 0x7FF := by
  rw [deviceRegister_iff] at h
  omega

/-! ## The check of an index beyond the thread's registers -/

section
variable {s : State} {self : Thread} {p : At} {w : Half} {i : Nat}

theorem State.bandCheck_unnamed (none_ : deviceRegister i = false) :
    s.bandCheck self p w i = .error (.trap .eill (tvalWord w)) := by
  have := readReg_isSome s p.v p.c i
  simp_all [State.bandCheck]

theorem State.bandCheck_ok (named : deviceRegister i = true) (mode : self.sup = true ∨ readOnly i = true)
    (device : i < 0x400 ∨ s.chip.ownDispatcher p = false) : s.bandCheck self p w i = .ok () := by
  obtain ⟨r, found⟩ := Option.isSome_iff_exists.1 ((readReg_isSome s p.v p.c i).trans named)
  rw [State.bandCheck, found, if_neg (by simp), if_neg (by rcases mode with m | m <;> simp [m]),
    if_neg (by rcases device with e | e <;> simp [e])]

/-- What task mode does not write, and what a partition's own dispatcher does not touch. -/
theorem State.bandCheck_esuper (named : deviceRegister i = true)
    (closed : (self.sup = false ∧ readOnly i = false) ∨ (0x400 ≤ i ∧ s.chip.ownDispatcher p = true)) :
    s.bandCheck self p w i = .error (.trap .esuper (tvalWord w)) := by
  obtain ⟨r, found⟩ := Option.isSome_iff_exists.1 ((readReg_isSome s p.v p.c i).trans named)
  rw [State.bandCheck, found, if_neg (by simp)]
  rcases closed with ⟨task, writable⟩ | ⟨package, own⟩
  · simp [task, writable]
  · simp [package, own]

end

/-! ## MFS -/

/-- What MFS does once it has issued. -/
def mfsBody (d : BitVec 7) (i : Nat) (w : Half) (self : Thread) (p : At) (s : State) : Except Stop State :=
  if 0x7FF < i then .error (.trap .eill (tvalWord w))
  else if i < 0x100 then s.mfsThread self p w d i
  else do
    s.bandCheck self p w i
    match s.readReg p.v p.c i with
    | some (x, s) => .ok { s with chip := s.chip.writeDst p d x }
    | none => .error (.trap .eill (tvalWord w))

theorem exec_mfs (d : BitVec 7) (n : BitVec 14) (s : State) :
    exec (.mfs d n) s = issueState (form (wordOf (.mfs d n)) [.dst d]) s (mfsBody d n.toNat (wordOf (.mfs d n))) := by
  rw [wordOf_mfs]
  rfl

section
variable {d : BitVec 7} {s : State} {self : Thread} {p : At} {w : Half} {i : Nat} {x : Word}

theorem mfsBody_thread (own : i < 0x100) : mfsBody d i w self p s = s.mfsThread self p w d i := by
  rw [mfsBody, if_neg (by omega), if_pos own]

/-- A register of the thread is read, FFLAGS once the flags are in. -/
theorem mfsBody_reg (reg : self.reg i = some x) (mode : threadAccess i = .s → self.sup = true)
    (flags : i = 0x002 → s.chip.flagsDue p.v self.uid = false) :
    mfsBody d i w self p s = .ok { s with chip := s.chip.writeDst p d x } := by
  have own : i < 0x100 := lt_of_threadRegister (by rw [← self.reg_isSome, reg]; rfl)
  rw [mfsBody_thread own]
  simp only [State.mfsThread, reg]
  rw [if_neg (by simpa using mode), if_neg (by simpa using flags)]

theorem mfsBody_flagsDue (due : s.chip.flagsDue p.v self.uid = true) : mfsBody d 0x002 w self p s = .error .stall := by
  rw [mfsBody_thread (by decide)]
  simp [State.mfsThread, Thread.reg, threadAccess, due]

/-- The registers of the allocation are the supervisor's. -/
theorem mfsBody_allocation (alloc : i = 0x020 ∨ i = 0x021) (task : self.sup = false) :
    mfsBody d i w self p s = .error (.trap .esuper (tvalWord w)) := by
  rcases alloc with rfl | rfl
  all_goals
    rw [mfsBody_thread (by decide)]
    simp [State.mfsThread, Thread.reg, threadAccess, task]

theorem mfsBody_unnamed (device : deviceRegister i = false) (own : threadRegister i = false) :
    mfsBody d i w self p s = .error (.trap .eill (tvalWord w)) := by
  unfold mfsBody
  split
  · rfl
  · split
    · simp only [State.mfsThread, Thread.reg_eq_none own]
    · rw [State.bandCheck_unnamed device]
      rfl

/-- A register of the device is read where the check of its index passes. -/
theorem mfsBody_device (named : deviceRegister i = true) : mfsBody d i w self p s = (s.bandCheck self p w i).bind fun _ =>
    match s.readReg p.v p.c i with
    | some (x, s) => .ok { s with chip := s.chip.writeDst p d x }
    | none => .error (.trap .eill (tvalWord w)) := by
  have := range_of_deviceRegister named
  rw [mfsBody, if_neg (by omega), if_neg (by omega)]
  rfl

theorem mfsBody_device_reads {t : State} (named : deviceRegister i = true) (mode : self.sup = true ∨ readOnly i = true)
    (device : i < 0x400 ∨ s.chip.ownDispatcher p = false) (read : s.readReg p.v p.c i = some (x, t)) :
    mfsBody d i w self p s = .ok { t with chip := t.chip.writeDst p d x } := by
  rw [mfsBody_device named, State.bandCheck_ok named mode device, read]
  rfl

theorem mfsBody_device_closed (named : deviceRegister i = true)
    (closed : (self.sup = false ∧ readOnly i = false) ∨ (0x400 ≤ i ∧ s.chip.ownDispatcher p = true)) :
    mfsBody d i w self p s = .error (.trap .esuper (tvalWord w)) := by
  rw [mfsBody_device named, State.bandCheck_esuper named closed]
  rfl

end

/-- What a thread's registers read in task mode and supervisor mode alike (R24), but for FFLAGS. -/
theorem Thread.reg_table (t : Thread) : ∀ e ∈ [
      (0x000, BitVec.ofNat 64 ((if t.sup then 1 else 0) + (if t.quiet then 2 else 0) + (if t.cores then 4 else 0) +
        (if t.away then 8 else 0) + 16 * t.ldq.length + 512 * t.sdq.length)), (0x001, t.frm.zeroExtend 64),
      (0x003, if t.sup then 0 else t.stamp), (0x004, t.fmtA), (0x005, t.fmtB), (0x006, t.fmtC),
      (0x007, t.grps.zeroExtend 64), (0x008, BitVec.ofNat 64 (256 * t.carryCount + t.carryBase)),
      (0x009, BitVec.ofNat 64 (65536 * t.homeC + t.homeV)), (0x010, t.traps.cause.zeroExtend 64),
      (0x011, t.traps.epc), (0x012, t.traps.cpc), (0x013, t.traps.val), (0x014, t.traps.vec)],
    t.reg e.1 = some e.2 ∧ threadAccess e.1 ≠ .s ∧ e.1 ≠ 0x002 := by
  simp [Thread.reg, Thread.tstat, Thread.tstamp, threadAccess, Nat.mul_comm]

/-! ## The issue of an instruction whose effect reaches the package -/

theorem State.flagsDue_holding (s : State) (x : Here) (v uid : Nat) : (s.holding x).flagsDue v uid = s.chip.flagsDue v uid :=
  Chip.flagsDue_putHere ..

theorem State.ownDispatcher_holding (s : State) (x : Here) (p : At) : (s.holding x).ownDispatcher p = s.chip.ownDispatcher p :=
  Chip.ownDispatcher_putHere ..

end Sys2Proof.Machine

open Sys2Proof Sys2Proof.Machine

/-- Settles O22: the body of MFS for the thread's own registers, for a register of the device, and for an index that names none. -/
theorem mfsReadsRegisters : Obligations.MfsReadsRegisters := by
  intro d n s y issues i gives g r word
  have arm := exec_mfs d n s
  have reads : ∀ x, y.th.reg r = some x → (threadAccess r = .s → y.th.sup = true) →
      (r = 0x002 → s.chip.flagsDue s.place.v y.th.uid = false) → gives x := fun x reg mode flags =>
    leavesThread_of_state arm issues
      ((mfsBody_reg reg mode fun e => (s.flagsDue_holding ..).trans (flags e)).trans (by rw [issues.writeDst]))
  have closed : deviceRegister r = true → (y.th.sup = false ∧ readOnly r = false) ∨
      (0x400 ≤ r ∧ s.chip.ownDispatcher s.place = true) → Raises i s y .esuper word := fun named why =>
    raises_of_state arm issues (mfsBody_device_closed named (by rwa [s.ownDispatcher_holding]))
  refine ⟨fun e listed idx => ?table, fun idx flags => ?fflags, fun idx due => ?waits, fun idx sup => ?regBase, fun idx sup => ?regLim,
    fun idx task => ?task, fun named => ⟨fun mode device => ?device, fun task writable => closed named (.inl ⟨task, writable⟩),
      fun package own => closed named (.inr ⟨package, own⟩)⟩, fun device own => ?unnamed⟩
  case table =>
    obtain ⟨reg, access, notFlags⟩ := y.th.reg_table e listed
    exact reads e.2 (idx ▸ reg) (fun h => absurd (idx ▸ h) access) fun h => absurd (idx ▸ h) notFlags
  case fflags => exact reads _ (by rw [idx]; rfl) (by rw [idx]; nofun) fun _ => flags
  case waits =>
    refine waits_of_state arm issues ?_
    have idx : n.toNat = 0x002 := idx
    rw [idx]
    exact mfsBody_flagsDue ((s.flagsDue_holding ..).trans due)
  case regBase => exact reads _ (by rw [idx]; rfl) (fun _ => sup) (by rw [idx]; nofun)
  case regLim => exact reads _ (by rw [idx]; rfl) (fun _ => sup) (by rw [idx]; nofun)
  case task => exact raises_of_state arm issues (mfsBody_allocation idx task)
  case device =>
    obtain ⟨⟨x, t⟩, read⟩ := Option.isSome_iff_exists.1 ((readReg_isSome g s.place.v s.place.c r).trans named)
    exact ⟨x, t, read, arm.trans (issueState_completes issues
      (mfsBody_device_reads named mode (by rwa [State.passed, Chip.ownDispatcher_putHere]) read))⟩
  case unnamed => exact raises_of_state arm issues (mfsBody_unnamed device own)

end

section
/-! PROOFS. The family 02, MTS: the write of a register of the thread, and of a register of the device (R24, R25, R130, R421). -/

namespace Sys2Proof.Machine

/-! ## The body of MTS -/

/-- What MTS does once it has read its operand. -/
def mtsWrite (i : Nat) (w : Half) (self : Thread) (p : At) (s : State) (x : Word) : Except Stop State :=
  if 0x7FF < i then .error (.trap .eill (tvalWord w))
  else if i < 0x100 then s.mtsThread self p w i x
  else do
    s.bandCheck self p w i
    if readOnly i then .error (.trap .eill (tvalWord w))
    else
      match s.writeReg p.v p.c i x with
      | some s => .ok s
      | none => .error (.trap .eill (tvalWord w))

/-- What MTS does once it has issued. -/
def mtsBody (d : BitVec 7) (i : Nat) (w : Half) (self : Thread) (p : At) (s : State) : Except Stop State :=
  (s.chip.readAt p d).bind fun r => mtsWrite i w self p { s with chip := r.2 } r.1

theorem exec_mts (d : BitVec 7) (n : BitVec 14) (s : State) :
    exec (.mts d n) s = issueState (form (wordOf (.mts d n)) [.src d]) s (mtsBody d n.toNat (wordOf (.mts d n))) := by
  rw [wordOf_mts]
  rfl

/-! ## The thread's own registers -/

/-- What the answer of a register of the thread comes to: the thread as written, or the trap. -/
def State.mtsAnswer (s : State) (p : At) (w : Half) (i : Nat) (x : Word) : Except RegFault Thread → Except Stop State
  | .ok t => if s.chip.pairLimit p t i x.toNat then .ok { s with chip := s.chip.setThread p t } else .error (.trap .eill (tvalWord w))
  | .error .eill => .error (.trap .eill (tvalWord w))
  | .error (.ereg r) => .error (.trap .ereg (BitVec.ofNat 64 r))

/-- The thread's mode lets MTS write its register i (R24). -/
def Thread.mayWrite (self : Thread) (i : Nat) : Prop :=
  threadRegister i = true ∧ (threadAccess i = .rw ∨ (threadAccess i ≠ .r ∧ self.sup = true))

theorem Thread.mayWrite_of_rw (self : Thread) {i : Nat} (h : i ∈ [0x001, 0x002, 0x008]) : self.mayWrite i := by
  have : ∀ i ∈ [0x001, 0x002, 0x008], threadRegister i = true ∧ threadAccess i = .rw := by decide
  exact ⟨(this i h).1, .inl (this i h).2⟩

theorem Thread.mayWrite_of_sup {self : Thread} {i : Nat} (sup : self.sup = true)
    (h : i ∈ [0x004, 0x005, 0x006, 0x010, 0x011, 0x012, 0x013, 0x014, 0x020, 0x021]) : self.mayWrite i := by
  have : ∀ i ∈ [0x004, 0x005, 0x006, 0x010, 0x011, 0x012, 0x013, 0x014, 0x020, 0x021], threadRegister i = true ∧ threadAccess i ≠ .r := by
    decide
  exact ⟨(this i h).1, .inr ⟨(this i h).2, sup⟩⟩

/-- Only a new REGLIM concerns the trailing half of a pair. -/
theorem Chip.pairLimit_of_ne (h : Chip) (p : At) (t : Thread) {i : Nat} (lim : Nat) (other : i ≠ 0x021) :
    h.pairLimit p t i lim = true := by
  unfold Chip.pairLimit
  split
  · simp [other]
  · rfl

section
variable {s : State} {self t u : Thread} {p : At} {w : Half} {i : Nat} {x : Word}

theorem mtsWrite_thread (own : i < 0x100) : mtsWrite i w self p s x = s.mtsThread self p w i x := by
  rw [mtsWrite, if_neg (by omega), if_pos own]

theorem mtsWrite_unwritable (h : i < 0x100 ∧ (threadRegister i = false ∨ threadAccess i = .r)) :
    mtsWrite i w self p s x = .error (.trap .eill (tvalWord w)) := by
  rw [mtsWrite_thread h.1, State.mtsThread, if_pos]
  rcases h.2 with none_ | access
  · simp [Thread.reg_eq_none none_]
  · exact .inr access

/-- The supervisor's registers are closed to task mode. -/
theorem mtsWrite_task (task : self.sup = false) (h : i ∈ [0x004, 0x005, 0x006, 0x010, 0x011, 0x012, 0x013, 0x014, 0x020, 0x021]) :
    mtsWrite i w self p s x = .error (.trap .esuper (tvalWord w)) := by
  have : ∀ i ∈ [0x004, 0x005, 0x006, 0x010, 0x011, 0x012, 0x013, 0x014, 0x020, 0x021],
      i < 0x100 ∧ threadRegister i = true ∧ threadAccess i ≠ .r ∧ threadAccess i ≠ .rw := by decide
  obtain ⟨own, named, notR, notRw⟩ := this i h
  rw [mtsWrite_thread own, State.mtsThread, if_neg, if_pos ⟨notRw, by simp [task]⟩]
  simp [← Option.not_isSome, Thread.reg_isSome, named, notR]

theorem mtsWrite_flagsDue (due : s.chip.flagsDue p.v self.uid = true) : mtsWrite 0x002 w self p s x = .error .stall := by
  rw [mtsWrite_thread (by decide)]
  simp [State.mtsThread, Thread.reg, threadAccess, due]

/-- Beyond the thread's registers the check of the index comes first. -/
theorem mtsWrite_device (named : deviceRegister i = true) : mtsWrite i w self p s x = (s.bandCheck self p w i).bind fun _ =>
    if readOnly i then .error (.trap .eill (tvalWord w))
    else match s.writeReg p.v p.c i x with
      | some s => .ok s
      | none => .error (.trap .eill (tvalWord w)) := by
  have := range_of_deviceRegister named
  rw [mtsWrite, if_neg (by omega), if_neg (by omega)]
  rfl

theorem mtsWrite_unnamed (band : 0x100 ≤ i) (none_ : deviceRegister i = false) :
    mtsWrite i w self p s x = .error (.trap .eill (tvalWord w)) := by
  unfold mtsWrite
  split
  · rfl
  · rw [if_neg (by omega), State.bandCheck_unnamed none_]
    rfl

theorem mtsWrite_closed (named : deviceRegister i = true)
    (closed : (self.sup = false ∧ readOnly i = false) ∨ (0x400 ≤ i ∧ s.chip.ownDispatcher p = true)) :
    mtsWrite i w self p s x = .error (.trap .esuper (tvalWord w)) := by
  rw [mtsWrite_device named, State.bandCheck_esuper named closed]
  rfl

theorem mtsWrite_readOnly (named : deviceRegister i = true) (device : i < 0x400 ∨ s.chip.ownDispatcher p = false)
    (fixed : readOnly i = true) : mtsWrite i w self p s x = .error (.trap .eill (tvalWord w)) := by
  rw [mtsWrite_device named, State.bandCheck_ok named (.inr fixed) device]
  exact if_pos fixed

/-- In supervisor mode a register that can be written follows its own rule. -/
theorem mtsWrite_own (named : deviceRegister i = true) (device : i < 0x400 ∨ s.chip.ownDispatcher p = false)
    (writable : readOnly i = false) (sup : self.sup = true) :
    mtsWrite i w self p s x = match s.writeReg p.v p.c i x with
      | some s => .ok s
      | none => .error (.trap .eill (tvalWord w)) := by
  rw [mtsWrite_device named, State.bandCheck_ok named (.inl sup) device]
  exact if_neg (by simp [writable])

section
variable (may : self.mayWrite i) (flags : i = 0x002 → s.chip.flagsDue p.v self.uid = false) (stands : s.chip.thread? p = some t)
include may flags stands

/-- A write that the mode allows and that need not wait is the register's own. -/
theorem mtsWrite_of_mayWrite :
    mtsWrite i w self p s x = s.mtsAnswer p w i x (t.setReg (decide (p.t = 0)) (s.chip.othersFor p i x.toNat) i x) := by
  obtain ⟨named, access⟩ := may
  rw [mtsWrite_thread (lt_of_threadRegister named), State.mtsThread, if_neg, if_neg, if_neg, stands]
  · rfl
  · simpa using flags
  · rcases access with rw | ⟨-, sup⟩
    · simp [rw]
    · simp [sup]
  · rcases access with rw | ⟨notR, -⟩
    · simp [← Option.not_isSome, Thread.reg_isSome, named, rw]
    · simp [← Option.not_isSome, Thread.reg_isSome, named, notR]

end

end

/-! ## The carry window (R24) -/

/-- A count and a base within their ranges, as the carry window's word. -/
theorem setReg_carryWindow (t : Thread) (slot0 : Bool) (others : List (Nat × Nat)) {a k : Nat} (base : a < 128) (pos : 0 < k) (count : k ≤ 32) :
    t.setReg slot0 others 0x008 (BitVec.ofNat 64 (256 * k + a)) =
      if t.regLim < a + k then .error (.ereg (a + k - 1)) else .ok { t with carryCount := k, carryBase := a } := by
  have value : (BitVec.ofNat 64 (256 * k + a)).toNat = 256 * k + a := by simp only [BitVec.toNat_ofNat]; omega
  have high : bits (BitVec.ofNat 64 (256 * k + a)) 8 6 = k := by rw [bits, value]; omega
  have low : bits (BitVec.ofNat 64 (256 * k + a)) 0 7 = a := by rw [bits, value]; omega
  have gap : bits (BitVec.ofNat 64 (256 * k + a)) 7 1 = 0 := by rw [bits, value]; omega
  simp only [Thread.setReg, value, high, low, gap]
  rw [if_pos ⟨by omega, trivial, by omega, count⟩]

/-- Any other word is no carry window. -/
theorem setReg_carryWindow_illegal (t : Thread) (slot0 : Bool) (others : List (Nat × Nat)) {x : Word}
    (none_ : ∀ a k, a < 128 → 0 < k → k ≤ 32 → x ≠ BitVec.ofNat 64 (256 * k + a)) : t.setReg slot0 others 0x008 x = .error .eill := by
  refine if_neg fun ⟨small, gap, pos, count⟩ => none_ (bits x 0 7) (bits x 8 6) ?_ (by omega) count ?_
  · exact Nat.mod_lt _ (by decide)
  · apply BitVec.eq_of_toNat_eq
    simp only [bits, BitVec.toNat_ofNat] at gap ⊢
    omega

/-! ## MTS of a register of the thread that issues it -/

section
variable {d : BitVec 7} {n : BitVec 14} {s : State} {y z : Here} {u : Word} {t : Thread}
variable (issues : Issues s (form (wordOf (.mts d n)) [.src d]) y) (read : y.passed.read d = .ok (u, z))
include issues read

/-- The operand read, the write follows with the thread as the read leaves it. -/
theorem mtsBody_of_read : mtsBody d n.toNat (wordOf (.mts d n)) y.th s.place { s with chip := s.holding y.passed } =
    mtsWrite n.toNat (wordOf (.mts d n)) y.th s.place { s with chip := s.holding z } u := by
  rw [mtsBody, issues.read read]
  rfl

theorem mts_raises {e : Trap} {v : Word}
    (refused : mtsWrite n.toNat (wordOf (.mts d n)) y.th s.place { s with chip := s.holding z } u = .error (.trap e v)) :
    Raises (.mts d n) s y e v :=
  raises_of_state (exec_mts d n s) issues ((mtsBody_of_read issues read).trans refused)

/-- In supervisor mode a register of the device that can be written follows its own rule. -/
theorem mts_device {r : Option State} (named : deviceRegister n.toNat = true)
    (device : n.toNat < 0x400 ∨ s.chip.ownDispatcher s.place = false) (writable : readOnly n.toNat = false) (sup : y.th.sup = true)
    (write : State.writeReg { s with chip := s.holding z } s.place.v s.place.c n.toNat u = r) :
    (∀ g, r = some g → exec (.mts d n) s = .next { g with chip := g.chip.endStep s.place }) ∧ (r = none → Illegal (.mts d n) s y) := by
  have own := mtsWrite_own (s := { s with chip := s.holding z }) (p := s.place) (w := wordOf (.mts d n)) (x := u) named
    (by rwa [s.ownDispatcher_holding]) writable sup
  rw [write] at own
  constructor
  · rintro g rfl
    exact (exec_mts d n s).trans (issueState_completes issues ((mtsBody_of_read issues read).trans own))
  · rintro rfl
    exact mts_raises issues read own

section
variable (may : y.th.mayWrite n.toNat) (flags : n.toNat = 0x002 → s.chip.flagsDue s.place.v y.th.uid = false)
include may flags

/-- The body is the register's own write, in the chip that holds the thread. -/
theorem mtsBody_of_mayWrite : mtsBody d n.toNat (wordOf (.mts d n)) y.th s.place { s with chip := s.holding y.passed } =
    State.mtsAnswer { s with chip := s.holding z } s.place (wordOf (.mts d n)) n.toNat u
      (z.th.setReg (decide (s.place.t = 0)) ((s.holding z).othersFor s.place n.toNat u.toNat) n.toNat u) :=
  (mtsBody_of_read issues read).trans <| mtsWrite_of_mayWrite (s := { s with chip := s.holding z }) may
    (fun e => by rw [s.flagsDue_holding, flags e]) (issues.thread z)

theorem mts_leaves (set : z.th.setReg (decide (s.place.t = 0)) ((s.holding z).othersFor s.place n.toNat u.toNat) n.toNat u = .ok t)
    (limit : (s.holding z).pairLimit s.place t n.toNat u.toNat = true) : LeavesThread (.mts d n) s { z with th := t } := by
  refine leavesThread_of_state (exec_mts d n s) issues ?_
  rw [mtsBody_of_mayWrite issues read may flags, set]
  exact (if_pos limit).trans (by rw [Issues.setThread])

theorem mts_illegal {r : Except RegFault Thread}
    (set : z.th.setReg (decide (s.place.t = 0)) ((s.holding z).othersFor s.place n.toNat u.toNat) n.toNat u = r)
    (bad : r = .error .eill ∨ ∃ t, r = .ok t ∧ (s.holding z).pairLimit s.place t n.toNat u.toNat = false) :
    Illegal (.mts d n) s y := by
  refine raises_of_state (exec_mts d n s) issues ?_
  rw [mtsBody_of_mayWrite issues read may flags, set]
  rcases bad with rfl | ⟨t, rfl, limit⟩
  · rfl
  · exact if_neg (by simp [limit])

theorem mts_ereg {r : Nat}
    (set : z.th.setReg (decide (s.place.t = 0)) ((s.holding z).othersFor s.place n.toNat u.toNat) n.toNat u = .error (.ereg r)) :
    Raises (.mts d n) s y .ereg (BitVec.ofNat 64 r) := by
  refine raises_of_state (exec_mts d n s) issues ?_
  rw [mtsBody_of_mayWrite issues read may flags, set]
  rfl

/-- A register with one test of the value takes it where it fits, and raises EILL elsewhere. -/
theorem mts_field {b : Bool} {fits : Prop}
    (set : z.th.setReg (decide (s.place.t = 0)) ((s.holding z).othersFor s.place n.toNat u.toNat) n.toNat u =
      if b then .ok t else .error .eill)
    (test : b = true ∧ (s.holding z).pairLimit s.place t n.toNat u.toNat = true ↔ fits) :
    (fits → LeavesThread (.mts d n) s { z with th := t }) ∧ (¬ fits → Illegal (.mts d n) s y) := by
  rw [← test]
  cases b
  · exact ⟨fun h => absurd h.1 (by decide), fun _ => mts_illegal issues read may flags set (.inl rfl)⟩
  · refine ⟨fun h => mts_leaves issues read may flags set h.2, fun h => mts_illegal issues read may flags set (.inr ⟨t, rfl, ?_⟩)⟩
    simpa using h

end

end

/-! ## A thread with nothing pending -/

/-- A thread with nothing pending issues as it stands, where the mode and the fields allow it. -/
theorem issues_of_pend_nil {f : Form} {s : State} {t : Thread} (live : s.chip.slot s.place = .live t) (nothing : t.pend = [])
    (mode : f.superOnly = false) (uses : checkUses t f.uses 0 = none) : Issues s f ⟨t, (s.chip.core s.place.v s.place.c).file⟩ := by
  refine ⟨t, ⟨t, (s.chip.core s.place.v s.place.c).file⟩, live, by simp [Chip.here?, Chip.thread?, live, Slot.thread?], ?_⟩
  have consumed : Here.consume ⟨t, (s.chip.core s.place.v s.place.c).file⟩ f.points = .ok ⟨t, (s.chip.core s.place.v s.place.c).file⟩ := by
    obtain ⟨⟩ := t
    simp only at nothing
    subst nothing
    rfl
  simp [Here.ready, consumed, mode, uses]

theorem read_of_owned {x : Here} {r : BitVec 7} (own : owned x.th r = true) : x.read r = .ok (readGpr x.th x.file r.toNat, x) := by
  have := toNat_lt_of_owned own
  rw [Here.read, if_neg (by omega)]

@[simp] theorem Thread.regLim_past (t : Thread) : t.past.regLim = t.regLim := by
  unfold Thread.past
  dsimp only
  split
  · rfl
  · split
    · rfl
    · split <;> rfl

theorem owned_past (t : Thread) (r : BitVec 7) : owned t.past r = owned t r := by
  rw [owned, owned, Thread.regLim_past]

end Sys2Proof.Machine

open Sys2Proof Sys2Proof.Machine

/-- Settles O23: the body of MTS for the thread's registers, for the device's, and on a thread with nothing pending. Which writes are
refused where no rule says so is log 23, the wait of a handler for FFLAGS log 51, and a DSEL of 0 while STOPPED is 0 log 63. -/
theorem mtsWritesRegisters : Obligations.MtsWritesRegisters := by
  refine ⟨?thread, ?device, ?alone⟩
  case thread =>
    intro d n s y u z issues read i r leaves others field
    have plain : ∀ {k : Nat} {t : Thread} {b : Bool} {fits : Prop}, r = k → k ≠ 0x021 → y.th.mayWrite k →
        (k = 0x002 → s.chip.flagsDue s.place.v y.th.uid = false) →
        z.th.setReg (decide (s.place.t = 0)) others k u = (if b then .ok t else .error .eill) → (b = true ↔ fits) → field fits t := by
      rintro k t b fits rfl notLimit may flags set test
      have limit : (s.holding z).pairLimit s.place t n.toNat u.toNat = true := Chip.pairLimit_of_ne _ _ _ _ notLimit
      exact mts_field issues read may flags set (by rw [limit]; simpa using test)
    have frozen : r < 0x100 ∧ (threadRegister r = false ∨ threadAccess r = .r) → Illegal i s y := fun h =>
      mts_raises issues read (mtsWrite_unwritable h)
    refine ⟨fun idx => ?frm, fun idx flags => ?fflags, fun idx due => ?waits, fun idx => ?fixed,
      fun sup => ⟨fun idx => ?fmtA, fun idx => ?fmtB, fun idx => ?fmtC, fun idx => ?cause, fun idx => ?epc, fun idx => ?cpc,
        fun idx => ?val, fun idx => ?vec, fun idx => ?base, fun idx => ?limit⟩,
      fun a k idx word base pos count => ?carry, fun idx noWindow => ?noCarry, fun task idx => ?task,
      fun own none_ => frozen ⟨own, .inl none_⟩⟩
    case frm => exact plain idx (by decide) (y.th.mayWrite_of_rw (by decide)) nofun rfl decide_eq_true_iff
    case fflags => exact plain idx (by decide) (y.th.mayWrite_of_rw (by decide)) (fun _ => flags) rfl decide_eq_true_iff
    case waits =>
      refine waits_of_state (exec_mts d n s) issues ((mtsBody_of_read issues read).trans ?_)
      have idx : n.toNat = 0x002 := idx
      rw [idx]
      exact mtsWrite_flagsDue ((s.flagsDue_holding ..).trans due)
    case fixed => rcases idx with idx | idx | idx | idx <;> exact frozen (by rw [idx]; decide)
    case fmtA | fmtB | fmtC | cause | epc | cpc | vec =>
      exact plain idx (by decide) (Thread.mayWrite_of_sup sup (by decide)) nofun rfl decide_eq_true_iff
    case val =>
      exact (plain idx (by decide) (Thread.mayWrite_of_sup sup (by decide)) nofun (b := true) rfl (iff_of_true rfl trivial)).1 trivial
    case base =>
      refine plain idx (by decide) (Thread.mayWrite_of_sup sup (by decide)) nofun rfl ?_
      simp only [Bool.and_eq_true, Bool.not_eq_true', Bool.and_eq_false_imp, decide_eq_true_eq, decide_eq_false_iff_not, not_not]
    case limit =>
      have may : y.th.mayWrite r := idx ▸ Thread.mayWrite_of_sup sup (by decide)
      have set : z.th.setReg (decide (s.place.t = 0)) others r u =
          if allocOk others z.th.regBase u.toNat then .ok { z.th with regLim := u.toNat } else .error .eill := by
        rw [idx]
        rfl
      exact mts_field issues read may (fun e => absurd (idx.symm.trans e) (by decide)) set Iff.rfl
    case carry =>
      have idx : n.toNat = 0x008 := idx
      have may : y.th.mayWrite n.toNat := idx ▸ y.th.mayWrite_of_rw (by decide)
      have set := setReg_carryWindow z.th (decide (s.place.t = 0)) others base pos count
      rw [← word, ← idx] at set
      refine ⟨fun fits => ?_, fun beyond => ?_⟩
      · exact mts_leaves issues read may (by rw [idx]; nofun) (set.trans (if_neg (by omega)))
          (Chip.pairLimit_of_ne _ _ _ _ (by rw [idx]; decide))
      · exact mts_ereg issues read may (by rw [idx]; nofun) (set.trans (if_pos beyond))
    case noCarry =>
      have idx : n.toNat = 0x008 := idx
      have set := setReg_carryWindow_illegal z.th (decide (s.place.t = 0)) others noWindow
      rw [← idx] at set
      exact mts_illegal issues read (idx ▸ y.th.mayWrite_of_rw (by decide)) (by rw [idx]; nofun) set (.inl rfl)
    case task =>
      refine mts_raises issues read (mtsWrite_task task ?_)
      have idx : (0x004 ≤ n.toNat ∧ n.toNat ≤ 0x006) ∨ (0x010 ≤ n.toNat ∧ n.toNat ≤ 0x014) ∨ n.toNat = 0x020 ∨ n.toNat = 0x021 := idx
      simp only [List.mem_cons, List.not_mem_nil, or_false]
      omega
  case device =>
    intro d n s y u z issues read band i r t
    refine ⟨fun none_ => mts_raises issues read (mtsWrite_unnamed band none_),
      fun named package own => mts_raises issues read (mtsWrite_closed named (.inr ⟨package, by rwa [s.ownDispatcher_holding]⟩)),
      fun named device fixed => mts_raises issues read (mtsWrite_readOnly named (by rwa [s.ownDispatcher_holding]) fixed),
      fun named device writable => ⟨fun task => mts_raises issues read (mtsWrite_closed named (.inl ⟨task, writable⟩)),
        fun sup => ⟨fun w written => ?writes, fun m p fits range => ?plain, fun refused => ?refused⟩⟩⟩
    case writes => exact (mts_device issues read named device writable sup written).1 w rfl
    case refused => exact (mts_device issues read named device writable sup refused).2 rfl
    case plain =>
      obtain ⟨k, gates, written⟩ := writeReg_plain (s := t) (v := s.place.v) (c := s.place.c) p fits range
      exact ⟨k, gates, (mts_device issues read named device writable sup written).1 _ rfl⟩
  case alone =>
    intro d n s t live nothing own m u next
    have issues : Issues s (form (wordOf (.mts d n)) [.src d]) ⟨t, m⟩ :=
      issues_of_pend_nil live nothing rfl (checkUses_src_owned own)
    have read : (Here.passed ⟨t, m⟩).read d = .ok (u, ⟨t.past, m⟩) := read_of_owned ((owned_past t d).trans own)
    have sets : ∀ {k : Nat} {x : Thread}, n.toNat = k → k ≠ 0x021 → t.mayWrite k →
        (k = 0x002 → s.chip.flagsDue s.place.v t.uid = false) →
        (∀ others, t.past.setReg (decide (s.place.t = 0)) others k u = .ok x) → next x := by
      rintro k x rfl notLimit may flags set
      have set := set ((s.holding ⟨t.past, m⟩).othersFor s.place n.toNat u.toNat)
      have limit : (s.holding ⟨t.past, m⟩).pairLimit s.place x n.toNat u.toNat = true := Chip.pairLimit_of_ne _ _ _ _ notLimit
      have leaves := mts_leaves issues read may flags set limit
      exact leaves
    have index : ∀ {k : BitVec 14}, n = k → n.toNat = k.toNat := fun e => congrArg BitVec.toNat e
    refine ⟨fun idx small => ?frm, fun idx small flags => ?fflags, fun a k idx word base pos count fits => ?carry,
      fun sup => ⟨fun idx small => ?fmtA, fun idx => ?val, fun idx aligned => ?vec, fun idx small => ?dsel,
        fun q p gates fits range device => ?plain⟩⟩
    case frm =>
      exact sets (index idx) (by decide) (t.mayWrite_of_rw (by decide)) nofun fun _ => if_pos (decide_eq_true small)
    case fflags =>
      exact sets (index idx) (by decide) (t.mayWrite_of_rw (by decide)) (fun _ => flags) fun _ => if_pos (decide_eq_true small)
    case carry =>
      refine sets (index idx) (by decide) (t.mayWrite_of_rw (by decide)) nofun fun others => ?_
      rw [word]
      exact (setReg_carryWindow _ _ _ base pos count).trans (if_neg (by rw [Thread.regLim_past]; omega))
    case fmtA =>
      exact sets (index idx) (by decide) (Thread.mayWrite_of_sup sup (by decide)) nofun fun _ => if_pos (decide_eq_true small)
    case val => exact sets (index idx) (by decide) (Thread.mayWrite_of_sup sup (by decide)) nofun fun _ => rfl
    case vec =>
      exact sets (index idx) (by decide) (Thread.mayWrite_of_sup sup (by decide)) nofun fun _ => if_pos (decide_eq_true aligned)
    case dsel =>
      subst idx
      have written : State.writeReg { s with chip := s.holding ⟨t.past, m⟩ } s.place.v s.place.c 0x141 u = _ :=
        congrArg (Option.map _) (writeCore_dsel (s.holding ⟨t.past, m⟩) s.place.v s.place.c small)
      exact (mts_device issues read (by decide) (.inl (by decide)) (by decide) sup written).1 _ rfl
    case plain =>
      obtain ⟨-, named, writable⟩ := plainMask_package p
      obtain ⟨k, same, written⟩ := writeReg_plain (s := { s with chip := s.holding ⟨t.past, m⟩ }) (v := s.place.v) (c := s.place.c)
        p fits range
      obtain rfl := same fun e => gates (BitVec.eq_of_toNat_eq e)
      exact (mts_device issues read named (.inr device) writable sup written).1 _ rfl

end

section
/-! PROOFS. The family 02, TAKE and REAP: what starting a packet changes (R26, R148), and the two instructions' outcomes (R148,
R150). -/

namespace Sys2Proof.Machine

/-! ## The registers a thread starts with (R17, R26) -/

/-- An allocation loaded reads the values given, but for g0. -/
theorem getOr_loadFile (file : Map Word) (base lim : Nat) (xs : List Word) {r : Nat} (inside : r < lim) (notZero : r ≠ 0) :
    (loadFile file base lim xs).getOr (base + r) 0 = xs.getD r 0 := by
  induction lim with
  | zero => omega
  | succ lim ih =>
    simp only [loadFile, List.range_succ, List.foldl_append, List.foldl_cons, List.foldl_nil] at ih ⊢
    by_cases last : r = lim
    · subst r
      rw [if_neg notZero, Map.getOr_put_same]
    · have before := ih (by omega)
      split
      · exact before
      · rw [Map.getOr_put_ne _ _ _ (by omega), before]

theorem readGpr_loadFile (t : Thread) (file : Map Word) (lim : Nat) (xs : List Word) {r : Nat} (inside : r < lim) :
    readGpr t (loadFile file t.regBase lim xs) r = if r = 0 then 0 else xs.getD r 0 := by
  by_cases zero : r = 0
  · simp [zero]
  · rw [readGpr, if_neg zero, if_neg zero, getOr_loadFile _ _ _ _ inside zero]

/-- Three zeros, then the arguments. -/
theorem getD_three_zeros (args : List Word) (r : Nat) :
    ([0, 0, 0] ++ args).getD r 0 = if 3 ≤ r then args.getD (r - 3) 0 else 0 := by
  match r with
  | 0 | 1 | 2 => rfl
  | r + 3 => rw [if_pos (by omega)]; rfl

/-! ## What starting a packet leaves unchanged -/

/-- A change of a cluster that keeps its cores keeps every core. -/
theorem Chip.core_modCluster_of_cores (h : Chip) (v u c : Nat) {f : Cluster → Cluster} (keeps : ∀ k, (f k).cores = k.cores) :
    (h.modCluster v f).core u c = h.core u c := by
  rw [Chip.core_modCluster]
  split
  · subst u; rw [keeps]; rfl
  · rfl

/-- A change of a core that keeps its slots keeps every slot. -/
theorem Chip.slot_modCore_of_slots (h : Chip) (v c : Nat) (q : At) {f : Core → Core} (keeps : ∀ k, (f k).slots = k.slots) :
    (h.modCore v c f).slot q = h.slot q := by
  simp only [Chip.slot, Chip.core_modCore]
  split
  · rename_i e
    obtain ⟨rfl, rfl⟩ := e
    rw [Core.slot, keeps, Core.slot]
  · rfl

@[simp] theorem Chip.slot_dequeue (h : Chip) (v c uid : Nat) (q : At) : (h.dequeue v c uid).slot q = h.slot q :=
  h.slot_modCore_of_slots v c q fun _ => rfl

@[simp] theorem Chip.core_dropPrivate (h : Chip) (v u c : Nat) : (h.dropPrivate v).core u c = h.core u c :=
  h.core_modCluster_of_cores v u c fun _ => rfl

/-- The placement of a thread that is no pair. -/
theorem Chip.place_alone (h : Chip) (p : At) (t : Thread) (base : Nat) (regs : List Word) :
    h.place p t (base, none) regs = (h.setSlot p (.live { t with regBase := base })).modCore p.v p.c fun k =>
      { k with file := loadFile k.file base t.regLim regs, vacating := k.vacating.filter (· ≠ p.t) } := rfl

/-- Such a thread stands LIVE in its slot, and no other slot changes. -/
theorem Chip.slot_place_alone (h : Chip) (p q : At) (t : Thread) (base : Nat) (regs : List Word) :
    (h.place p t (base, none) regs).slot q = if q = p then .live { t with regBase := base } else h.slot q := by
  rw [Chip.place_alone, Chip.slot_modCore_of_slots _ _ _ _ (by intro; rfl), Chip.slot_setSlot]

theorem Chip.file_place_alone (h : Chip) (p : At) (t : Thread) (base : Nat) (regs : List Word) :
    ((h.place p t (base, none) regs).core p.v p.c).file = loadFile (h.core p.v p.c).file base t.regLim regs := by
  rw [Chip.place_alone, Chip.core_modCore_same]
  simp only [Chip.file_setSlot]

/-- The cores of a started packet are those that the placement leaves, where the packet is no message. -/
theorem Chip.core_start (h : Chip) (p : At) (uid : Nat) (t : Task) (bases : Nat × Option Nat) (u c : Nat)
    (noMessage : t.packet.message = none) : (h.start p uid t bases).core u c =
      (h.place p (newThread uid t bases.1) bases (startRegs h t.packet)).core u c := by
  simp only [Chip.start, noMessage]
  split
  · exact Chip.core_dropPrivate ..
  · rfl

section
variable (h : Chip) (p : At) (uid : Nat) (t : Task) (base : Nat) (noMessage : t.packet.message = none)
include noMessage

/-- A packet's thread starts LIVE in its slot, and no other slot changes. -/
theorem Chip.slot_start (q : At) :
    (h.start p uid t (base, none)).slot q = if q = p then .live (newThread uid t base) else h.slot q := by
  have cores := h.core_start p uid t (base, none) q.v q.c noMessage
  rw [Chip.slot, cores, ← Chip.slot, Chip.slot_place_alone]
  rfl

/-- Its arguments stand from g3 up, and its other registers are zero. -/
theorem Chip.readGpr_start {r : Nat} (inside : r < 8 * t.packet.regn) :
    readGpr (newThread uid t base) ((h.start p uid t (base, none)).core p.v p.c).file r =
      if 3 ≤ r then t.packet.args.getD (r - 3) 0 else 0 := by
  have loaded : ((h.start p uid t (base, none)).core p.v p.c).file =
      loadFile (h.core p.v p.c).file (newThread uid t base).regBase (8 * t.packet.regn) ([0, 0, 0] ++ t.packet.args) := by
    rw [Chip.core_start _ _ _ _ _ _ _ noMessage, Chip.file_place_alone, startRegs, noMessage]
    rfl
  rw [loaded, readGpr_loadFile _ _ _ _ inside, getD_three_zeros]
  split
  · rw [if_neg (by omega)]
  · rfl

end

/-- The head of a queue that is a packet is started and its kind and slot reported. -/
theorem Chip.takeHead_packet {h : Chip} {v c : Nat} {k : Ticket} {slot : Nat} {bases : Nat × Option Nat} {t : Task}
    (startable : h.startable v c = some (k, slot, bases)) (packet : k.entry.arrival = false) (task : h.task? k.entry.uid = some t) :
    h.takeHead v c = some ((h.dequeue v c k.entry.uid).start ⟨v, c, slot⟩ k.entry.uid t bases, t.packet.origin.kind, slot) := by
  simp [Chip.takeHead, startable, packet, task]

/-! ## The lowest ENDED slot (R150) -/

/-- What `Chip.endedSlot` reports of one slot. -/
def Chip.endedAt (h : Chip) (v c t : Nat) : Option (Nat × Bool × Bool) :=
  match h.slot ⟨v, c, t⟩ with
  | .ended _ _ r ab => some (t, r, ab)
  | _ => none

theorem Chip.endedAt_eq_none {h : Chip} {v c t : Nat} (other : ∀ b l r ab, h.slot ⟨v, c, t⟩ ≠ .ended b l r ab) :
    h.endedAt v c t = none := by
  unfold Chip.endedAt
  split
  · rename_i e
    exact (other _ _ _ _ e).elim
  · rfl

/-- The first number below n with an answer. -/
theorem findSome?_range_of_first {α : Type} {f : Nat → Option α} {n t : Nat} {b : α} (inside : t < n) (found : f t = some b)
    (first : ∀ q < t, f q = none) : (List.range n).findSome? f = some b := by
  refine List.findSome?_eq_some_iff.2 ⟨List.range t, t, List.range' (t + 1) (n - t - 1), ?_, found, by simpa using first⟩
  have halves := List.range'_append_1 (s := 0) (m := t) (n := n - t - 1 + 1)
  rw [Nat.zero_add, show t + (n - t - 1 + 1) = n by omega] at halves
  rw [← List.range'_succ, List.range_eq_range', List.range_eq_range', halves]

theorem Chip.endedSlot_of_first {h : Chip} {v c t b l : Nat} {r ab : Bool} (inside : t < 16)
    (ended : h.slot ⟨v, c, t⟩ = .ended b l r ab) (first : ∀ q < t, ∀ b l r ab, h.slot ⟨v, c, q⟩ ≠ .ended b l r ab) :
    h.endedSlot v c = some (t, r, ab) :=
  findSome?_range_of_first (f := h.endedAt v c) inside (by rw [Chip.endedAt, ended]) fun q less => Chip.endedAt_eq_none (first q less)

theorem Chip.endedSlot_eq_none {h : Chip} {v c : Nat} (none_ : ∀ q < 16, ∀ b l r ab, h.slot ⟨v, c, q⟩ ≠ .ended b l r ab) :
    h.endedSlot v c = none :=
  List.findSome?_eq_none_iff.2 fun q mem => Chip.endedAt_eq_none (none_ q (List.mem_range.1 mem))

/-! ## The bodies of TAKE and REAP -/

/-- The form of both: the operand read, its check, and an answer. -/
def slotZeroBody (a : BitVec 7) (w : Half) (answer : At → Word → Chip → Except Stop Chip) (_ : Thread) (p : At) (h : Chip) :
    Except Stop Chip :=
  (h.readAt p a).bind fun r => (slotZero w p r.1).bind fun _ => answer p r.1 r.2

/-- The chip once the holder of the receive buffer that the floor task waits for is aborted (R349). -/
def Chip.unblockFloor (h : Chip) (v c : Nat) : Chip :=
  match h.floorBuffer v c with
  | some u => h.abort u
  | none => h

/-- What TAKE does with its operand. -/
def takeAnswer (d : BitVec 7) (p : At) (x : Word) (h : Chip) : Except Stop Chip :=
  match (h.unblockFloor p.v p.c).takeHead p.v p.c with
  | some (h, kind, slot) => .ok (h.writeDst p d (BitVec.ofNat 64 (2 ^ 63 + kind * 16 + slot)))
  | none => if x = 1 then .ok ((h.unblockFloor p.v p.c).writeDst p d 0) else .error .stall

/-- What REAP does with its operand. -/
def reapAnswer (d : BitVec 7) (p : At) (x : Word) (h : Chip) : Except Stop Chip :=
  match h.endedSlot p.v p.c with
  | some (t, r, ab) =>
    .ok ((h.setSlot ⟨p.v, p.c, t⟩ .free).writeDst p d (BitVec.ofNat 64 (2 ^ 63 + (if r then 32 else 0) + (if ab then 16 else 0) + t)))
  | none => if x = 1 then .ok (h.writeDst p d 0) else .error .stall

theorem exec_take (d a : BitVec 7) (s : State) : exec (.take d a) s =
    issueChip (form (wordOf (.take d a)) [.dst d, .src a] true) s (slotZeroBody a (wordOf (.take d a)) (takeAnswer d)) := rfl

theorem exec_reap (d a : BitVec 7) (s : State) : exec (.reap d a) s =
    issueChip (form (wordOf (.reap d a)) [.dst d, .src a] true) s (slotZeroBody a (wordOf (.reap d a)) (reapAnswer d)) := rfl

section
variable {f : Form} {s : State} {y z : Here} {a : BitVec 7} {u : Word} {w : Half} {answer : At → Word → Chip → Except Stop Chip}
variable (issues : Issues s f y) (read : y.passed.read a = .ok (u, z))
include issues read

theorem slotZeroBody_of_ok (slot0 : s.place.t = 0) (small : u.toNat ≤ 1) :
    slotZeroBody a w answer y.th s.place (s.holding y.passed) = answer s.place u (s.holding z) := by
  have fits : bits u 1 63 = 0 := by simp only [bits]; omega
  rw [slotZeroBody, issues.read read]
  simp [Except.bind, slotZero, slot0, fits]

theorem slotZeroBody_refused (bad : s.place.t ≠ 0 ∨ 1 < u.toNat) :
    slotZeroBody a w answer y.th s.place (s.holding y.passed) = .error (.trap .eill (tvalWord w)) := by
  have refused : s.place.t ≠ 0 ∨ bits u 1 63 ≠ 0 := bad.imp_right fun wide => by
    have := u.isLt
    simp only [bits]
    omega
  rw [slotZeroBody, issues.read read]
  simp only [Except.bind, slotZero, if_pos refused]

end

end Sys2Proof.Machine

open Sys2Proof Sys2Proof.Machine

/-- Settles O30: the answers of TAKE and REAP behind their common check, and what a started packet's thread and registers are. -/
theorem takeAndReap : Obligations.TakeAndReap := by
  refine ⟨fun d a s y u z read => ⟨fun issues => ⟨fun bad => ?takeBad, fun slot0 small => ?take⟩,
    fun issues => ⟨fun bad => ?reapBad, fun slot0 small => ?reap⟩⟩, fun h v c k slot base t startable packet task noMessage => ?start⟩
  case takeBad => exact raises_of_chip (exec_take d a s) issues (slotZeroBody_refused issues read bad)
  case reapBad => exact raises_of_chip (exec_reap d a s) issues (slotZeroBody_refused issues read bad)
  case take =>
    have body := slotZeroBody_of_ok (w := wordOf (.take d a)) (answer := takeAnswer d) issues read slot0 small
    refine ⟨fun g kind slot taken => leavesChip_of_chip (exec_take d a s) issues (body.trans ?_),
      fun empty one => leavesChip_of_chip (exec_take d a s) issues (body.trans ?_),
      fun empty zero => waits_of_chip (exec_take d a s) issues (body.trans ?_)⟩
    · have taken : ((s.holding z).unblockFloor s.place.v s.place.c).takeHead s.place.v s.place.c = some (g, kind, slot) := taken
      rw [takeAnswer, taken]
    · have empty : ((s.holding z).unblockFloor s.place.v s.place.c).takeHead s.place.v s.place.c = none := empty
      rw [takeAnswer, empty]
      exact if_pos one
    · have empty : ((s.holding z).unblockFloor s.place.v s.place.c).takeHead s.place.v s.place.c = none := empty
      rw [takeAnswer, empty]
      exact if_neg (by rw [zero]; decide)
  case reap =>
    have body := slotZeroBody_of_ok (w := wordOf (.reap d a)) (answer := reapAnswer d) issues read slot0 small
    refine ⟨fun t b l r ab inside ended first => leavesChip_of_chip (exec_reap d a s) issues (body.trans ?_),
      fun none_ => ⟨fun one => leavesThread_of_chip (exec_reap d a s) issues (body.trans ?_),
        fun zero => waits_of_chip (exec_reap d a s) issues (body.trans ?_)⟩⟩
    · rw [reapAnswer, Chip.endedSlot_of_first inside ended first]
    · rw [reapAnswer, Chip.endedSlot_eq_none none_]
      exact (if_pos one).trans (by rw [issues.writeDst])
    · rw [reapAnswer, Chip.endedSlot_eq_none none_]
      exact if_neg (by rw [zero]; decide)
  case start =>
    refine ⟨_, newThread k.entry.uid t base, Chip.takeHead_packet startable packet task, ?_, rfl, rfl, rfl, rfl, rfl, rfl, rfl, rfl, rfl,
      rfl, rfl, fun r inside => Chip.readGpr_start _ ⟨v, c, slot⟩ _ _ _ noMessage inside, fun q other => ?_⟩
    · rw [Chip.slot_start _ _ _ _ _ noMessage, if_pos rfl]
    · rw [Chip.slot_start _ _ _ _ _ noMessage, if_neg (by simpa using other), Chip.slot_dequeue]

end

section
/-! PROOFS. The family 03, the encoding: the fields that a word of each format holds and the word that its fields make (R34), and
the encoder and the decoder, each of which takes back what the other makes (R37 to R39). -/

namespace Sys2Proof

/-! ## Fields of a word -/

theorem getLsbD_fld {n : Nat} (w : BitVec n) (lo len i : Nat) : (fld w lo len).getLsbD i = (decide (i < len) && w.getLsbD (lo + i)) :=
  BitVec.getLsbD_extractLsb' ..

@[simp] theorem fld_self {n : Nat} (x : BitVec n) : fld x 0 n = x := BitVec.extractLsb'_eq_self

/-- A field of a field. -/
theorem fld_fld {n : Nat} (w : BitVec n) {lo len k m : Nat} (h : k + m ≤ len) : fld (fld w lo len) k m = fld w (lo + k) m := by
  apply BitVec.eq_of_getLsbD_eq
  intro i hi
  simp only [getLsbD_fld, show k + i < len by omega, decide_true, Bool.true_and, Nat.add_assoc]

/-- A field is two parts side by side where its upper part is the one and its lower part the other. -/
theorem fld_eq_append_iff {N n m : Nat} (w : BitVec N) (lo : Nat) (x : BitVec n) (y : BitVec m) :
    fld w lo (n + m) = x ++ y ↔ fld w (lo + m) n = x ∧ fld w lo m = y := by
  constructor
  · intro h
    constructor
    · have upper := fld_fld w (lo := lo) (show m + n ≤ n + m by omega)
      rw [← upper, h]
      exact BitVec.extractLsb'_append_eq_left
    · have lower := fld_fld w (lo := lo) (show 0 + m ≤ n + m by omega)
      rw [Nat.add_zero] at lower
      rw [← lower, h]
      exact BitVec.extractLsb'_append_eq_right
  · rintro ⟨rfl, rfl⟩
    apply BitVec.eq_of_getLsbD_eq
    intro i hi
    rw [BitVec.getLsbD_append]
    by_cases low : i < m
    · simp only [getLsbD_fld, low, hi, decide_true, Bool.true_and, if_true]
    · simp only [getLsbD_fld, low, hi, show i - m < n by omega, show lo + m + (i - m) = lo + i by omega, decide_true, Bool.true_and,
        if_false]

theorem append_eq_iff {n m : Nat} (w : BitVec (n + m)) (x : BitVec n) (y : BitVec m) :
    x ++ y = w ↔ fld w m n = x ∧ fld w 0 m = y := by
  have parts := fld_eq_append_iff w 0 x y
  rwa [fld_self, Nat.zero_add, eq_comm] at parts

/-! ## The formats (R34) -/

section
variable {w : Half} {op : BitVec 6}

theorem wordR_eq_iff {d a b : BitVec 7} {fn : BitVec 5} : wordR op d a b fn = w ↔
    fld w 26 6 = op ∧ fld w 19 7 = d ∧ fld w 12 7 = a ∧ fld w 5 7 = b ∧ fld w 0 5 = fn := by
  have parts := append_eq_iff (n := 6 + 7 + 7 + 7) w (op ++ d ++ a ++ b) fn
  simp only [fld_eq_append_iff, and_assoc] at parts
  exact parts

theorem wordI_eq_iff {d a : BitVec 7} {imm : BitVec 12} : wordI op d a imm = w ↔
    fld w 26 6 = op ∧ fld w 19 7 = d ∧ fld w 12 7 = a ∧ fld w 0 12 = imm := by
  have parts := append_eq_iff (n := 6 + 7 + 7) w (op ++ d ++ a) imm
  simp only [fld_eq_append_iff, and_assoc] at parts
  exact parts

theorem wordL_eq_iff {d a : BitVec 7} {ahead : BitVec 4} {off : BitVec 8} : wordL op d a ahead off = w ↔
    fld w 26 6 = op ∧ fld w 19 7 = d ∧ fld w 12 7 = a ∧ fld w 8 4 = ahead ∧ fld w 0 8 = off := by
  have parts := append_eq_iff (n := 6 + 7 + 7 + 4) w (op ++ d ++ a ++ ahead) off
  simp only [fld_eq_append_iff, and_assoc] at parts
  exact parts

theorem wordB_eq_iff {cc : BitVec 3} {a b : BitVec 7} {off : BitVec 9} : wordB op cc a b off = w ↔
    fld w 26 6 = op ∧ fld w 23 3 = cc ∧ fld w 16 7 = a ∧ fld w 9 7 = b ∧ fld w 0 9 = off := by
  have parts := append_eq_iff (n := 6 + 3 + 7 + 7) w (op ++ cc ++ a ++ b) off
  simp only [fld_eq_append_iff, and_assoc] at parts
  exact parts

theorem wordT_eq_iff {a : BitVec 7} {bit : BitVec 6} {sense : BitVec 1} {off : BitVec 12} : wordT op a bit sense off = w ↔
    fld w 26 6 = op ∧ fld w 19 7 = a ∧ fld w 13 6 = bit ∧ fld w 12 1 = sense ∧ fld w 0 12 = off := by
  have parts := append_eq_iff (n := 6 + 7 + 6 + 1) w (op ++ a ++ bit ++ sense) off
  simp only [fld_eq_append_iff, and_assoc] at parts
  exact parts

theorem wordJ_eq_iff {off : BitVec 26} : wordJ op off = w ↔ fld w 26 6 = op ∧ fld w 0 26 = off := by
  have parts := append_eq_iff (n := 6) w op off
  exact parts

theorem wordU_eq_iff {d : BitVec 7} {imm : BitVec 19} : wordU op d imm = w ↔
    fld w 26 6 = op ∧ fld w 19 7 = d ∧ fld w 0 19 = imm := by
  have parts := append_eq_iff (n := 6 + 7) w (op ++ d) imm
  simp only [fld_eq_append_iff, and_assoc] at parts
  exact parts

theorem wordV_eq_iff {vfn : BitVec 6} {vd va vb gp : BitVec 5} : wordV op vfn vd va vb gp = w ↔
    fld w 26 6 = op ∧ fld w 20 6 = vfn ∧ fld w 15 5 = vd ∧ fld w 10 5 = va ∧ fld w 5 5 = vb ∧ fld w 0 5 = gp := by
  have parts := append_eq_iff (n := 6 + 6 + 5 + 5 + 5) w (op ++ vfn ++ vd ++ va ++ vb) gp
  simp only [fld_eq_append_iff, and_assoc] at parts
  exact parts

theorem wordVS_eq_iff {d : BitVec 7} {va vb vfn : BitVec 5} {ahead : BitVec 4} : wordVS op d va vb vfn ahead = w ↔
    fld w 26 6 = op ∧ fld w 19 7 = d ∧ fld w 14 5 = va ∧ fld w 9 5 = vb ∧ fld w 4 5 = vfn ∧ fld w 0 4 = ahead := by
  have parts := append_eq_iff (n := 6 + 7 + 5 + 5 + 5) w (op ++ d ++ va ++ vb ++ vfn) ahead
  simp only [fld_eq_append_iff, and_assoc] at parts
  exact parts

theorem wordX_eq_iff {sub acc : BitVec 3} {aslot bslot : BitVec 4} {wait : BitVec 8} {set : BitVec 4} :
    wordX op sub acc aslot bslot wait set = w ↔ fld w 26 6 = op ∧ fld w 23 3 = sub ∧ fld w 20 3 = acc ∧ fld w 16 4 = aslot ∧
      fld w 12 4 = bslot ∧ fld w 4 8 = wait ∧ fld w 0 4 = set := by
  have parts := append_eq_iff (n := 6 + 3 + 3 + 4 + 4 + 8) w (op ++ sub ++ acc ++ aslot ++ bslot ++ wait) set
  simp only [fld_eq_append_iff, and_assoc] at parts
  exact parts

theorem wordP_eq_iff {n : BitVec 6} {sd sa sb len rsv : BitVec 4} :
    wordP op n sd sa sb len rsv = w ↔ fld w 26 6 = op ∧ fld w 20 6 = n ∧ fld w 16 4 = sd ∧ fld w 12 4 = sa ∧ fld w 8 4 = sb ∧
      fld w 4 4 = len ∧ fld w 0 4 = rsv := by
  have parts := append_eq_iff (n := 6 + 6 + 4 + 4 + 4 + 4) w (op ++ n ++ sd ++ sa ++ sb ++ len) rsv
  simp only [fld_eq_append_iff, and_assoc] at parts
  exact parts

end

/-! ## The decoder takes back what the encoder makes -/

/-- The check of `set` reads bits of the word (R37). -/
theorem setOk_fld (w : Half) : setOk (fld w 0 4) = (fld w 3 1 == 1 || fld w 0 3 == 0) := by
  have upper := fld_fld w (lo := 0) (len := 4) (k := 3) (m := 1) (by decide)
  have lower := fld_fld w (lo := 0) (len := 4) (k := 0) (m := 3) (by decide)
  rw [← upper, ← lower]
  generalize fld w 0 4 = set
  revert set
  decide

/-- Fields that are made of parts (R34): the shift of an immediate form, the index of a register, a vector register in the place of a
general one, a barrier with its operation. -/
theorem fld_imm_iff {w : Half} {x y : BitVec 6} : fld w 0 12 = x ++ y ↔ fld w 6 6 = x ∧ fld w 0 6 = y :=
  fld_eq_append_iff w 0 x y

theorem fld_d_iff {w : Half} {x : BitVec 2} {y : BitVec 5} : fld w 19 7 = x ++ y ↔ fld w 24 2 = x ∧ fld w 19 5 = y :=
  fld_eq_append_iff w 19 x y

theorem fld_a_iff {w : Half} {x : BitVec 2} {y : BitVec 5} : fld w 12 7 = x ++ y ↔ fld w 17 2 = x ∧ fld w 12 5 = y :=
  fld_eq_append_iff w 12 x y

theorem fld_b_iff {w : Half} {x : BitVec 2} {y : BitVec 5} : fld w 5 7 = x ++ y ↔ fld w 10 2 = x ∧ fld w 5 5 = y :=
  fld_eq_append_iff w 5 x y

theorem fld_barrier_iff {w : Half} {x : BitVec 2} {k : BitVec 3} {n : BitVec 2} :
    fld w 5 7 = x ++ k ++ n ↔ (fld w 10 2 = x ∧ fld w 7 3 = k) ∧ fld w 5 2 = n :=
  (fld_eq_append_iff w 5 (x ++ k) n).trans (and_congr_left' (fld_eq_append_iff w 7 x k))

theorem fld_index_iff {w : Half} {idx : BitVec 14} : fld w 12 7 = fld idx 7 7 ∧ fld w 5 7 = fld idx 0 7 ↔ fld w 5 14 = idx := by
  have whole : fld idx 7 7 ++ fld idx 0 7 = idx := (append_eq_iff (n := 7) (m := 7) idx _ _).2 ⟨rfl, rfl⟩
  have parts := fld_eq_append_iff w 5 (fld idx 7 7) (fld idx 0 7)
  rw [whole] at parts
  exact parts.symm

theorem decode_of_encode {i : Instr} {w : Half} (wf : i.wf = true) (h : encode i = some w) : decode w = .ok i := by
  cases i
  case add | sub | and | or | xor | andn | sll | srl | sra | rol | ror | slt | sltu | min | max | minu | maxu | mul | mulh | mulhu =>
    obtain ⟨op, d, a, b, fn⟩ := wordR_eq_iff.1 (Option.some.inj h)
    rw [decode, op, decMajor01, fn, d, a, b]; rfl
  case clz | ctz | popc | brev | sextB | sextH | sextW | zextW =>
    obtain ⟨op, d, a, b, fn⟩ := wordR_eq_iff.1 (Option.some.inj h)
    rw [decode, op, decMajor02, fn, d, a, b]; rfl
  case slli | srli | srai | rori =>
    obtain ⟨op, d, a, imm⟩ := wordI_eq_iff.1 (Option.some.inj h)
    obtain ⟨fn, sh⟩ := fld_imm_iff.1 imm
    rw [decode, op, decMajor09, fn, d, a, sh]; rfl
  case amoSwap | amoAdd | amoAnd | amoOr | amoXor | amoMin | amoMax | amoCas | redAdd | redOr | redMin | redMax | redFaddS =>
    obtain ⟨op, d, a, b, fn⟩ := wordR_eq_iff.1 (Option.some.inj h)
    rw [decode, op, decMajor17, fn, d, a, b]; rfl
  case beq | bne | blt | bge | bltu | bgeu =>
    obtain ⟨op, cc, a, b, off⟩ := wordB_eq_iff.1 (Option.some.inj h)
    rw [decode, op, decMajor18, cc, a, b, off]; rfl
  case bbs | bbc =>
    obtain ⟨op, a, bit, sense, off⟩ := wordT_eq_iff.1 (Option.some.inj h)
    rw [decode, op, decMajor19, sense, a, bit, off]; rfl
  case faddS | fsubS | fmulS | fdivS | fsqrtS | fminS | fmaxS | feqS | fltS | fleS | fclassS =>
    obtain ⟨op, d, a, b, fn⟩ := wordR_eq_iff.1 (Option.some.inj h)
    rw [decode, op, decMajor1d, fn, d, a, b]; rfl
  case fmaddS | fmsubS | fnmsubS | fnmaddS =>
    obtain ⟨op, d, a, b, fn⟩ := wordR_eq_iff.1 (Option.some.inj h)
    rw [decode, op, decMajor1e, fn, d, a, b]; rfl
  case cvtSL | cvtSLu | cvtLS | cvtLuS | cvtBf16S | cvtSBf16 | cvtHS | cvtSH | cvtE4m3S | cvtSE4m3 | cvtE5m2S | cvtSE5m2 | cvtF4bS |
      cvtSF4b =>
    obtain ⟨op, d, a, b, fn⟩ := wordR_eq_iff.1 (Option.some.inj h)
    rw [decode, op, decMajor1f, fn, d, a, b]; rfl
  case spawn | take | reap | tend | tabort | yield | mfc | mtc | self | grade | topo =>
    obtain ⟨op, d, a, b, fn⟩ := wordR_eq_iff.1 (Option.some.inj h)
    rw [decode, op, decMajor20, fn, d, a, b]; rfl
  case trap | eret | bkpt | treplay | wait | bmode | cflush | cinv | home =>
    obtain ⟨op, d, a, b, fn⟩ := wordR_eq_iff.1 (Option.some.inj h)
    rw [decode, op, decMajor22, fn, d, a, b]; rfl
  case mfs | mts =>
    obtain ⟨op, d, a, b, fn⟩ := wordR_eq_iff.1 (Option.some.inj h)
    rw [decode, op, decMajor22, fn, d, fld_index_iff.1 ⟨a, b⟩]; rfl
  case bar | gred | gleave | launch | gqry =>
    obtain ⟨op, d, a, b, fn⟩ := wordR_eq_iff.1 (Option.some.inj h)
    rw [decode, op, decMajor23, fn, d, a, b]; rfl
  case barv =>
    obtain ⟨op, d, a, b, fn⟩ := wordR_eq_iff.1 (Option.some.inj h)
    obtain ⟨⟨zero, k⟩, n⟩ := fld_barrier_iff.1 b
    rw [decode, op, decMajor23, fn, d, a, zero, k, n]; rfl
  case send | gvt | irvHost | irvFlash | irvDb | stamp =>
    obtain ⟨op, d, a, b, fn⟩ := wordR_eq_iff.1 (Option.some.inj h)
    rw [decode, op, decMajor24, fn, d, a, b]; rfl
  case sendv =>
    obtain ⟨op, d, a, b, fn⟩ := wordR_eq_iff.1 (Option.some.inj h)
    obtain ⟨zero, va⟩ := fld_a_iff.1 a
    rw [decode, op, decMajor24, fn, d, zero, va, b]; rfl
  case cpy | cpy2d | cpymc | gath | scat | chain | ewait | shopen | publ | bcarm | bcwait =>
    obtain ⟨op, d, a, b, fn⟩ := wordR_eq_iff.1 (Option.some.inj h)
    rw [decode, op, decMajor25, fn, d, a, b]; rfl
  case claim | vrel | reneg =>
    obtain ⟨op, d, a, b, fn⟩ := wordR_eq_iff.1 (Option.some.inj h)
    rw [decode, op, decMajor26, fn, d, a, b]; rfl
  case vaddS | vsubS | vmulS | vfmaS | vfmsS | vminS | vmaxS | vabsS | vnegS | vrcpS | vrsqS | vexp2S | vlog2S =>
    obtain ⟨op, vfn, vd, va, vb, gp⟩ := wordV_eq_iff.1 (Option.some.inj h)
    rw [decode, op, decMajor28, vfn, vd, va, vb, gp]; rfl
  case viadd | visub | vimul | vand | vor | vxor | vshl | vshr | vsra =>
    obtain ⟨op, vfn, vd, va, vb, gp⟩ := wordV_eq_iff.1 (Option.some.inj h)
    rw [decode, op, decMajor29, vfn, vd, va, vb, gp]; rfl
  case vld | vst | vlds | vsts | vgath | vscat =>
    obtain ⟨op, vfn, vd, va, vb, gp⟩ := wordV_eq_iff.1 (Option.some.inj h)
    rw [decode, op, decMajor2a, vfn, vd, va, vb, gp]; rfl
  case vperm | vslide | vsel | vbcast | vcomp | vsprs | vcvtBf16S | vcvtHS | vcvtE4m3S | vcvtE5m2S | vcvtF4bS | vcvtSBf16 | vcvtSH |
      vcvtSE4m3 | vcvtSE5m2 | vcvtSF4b =>
    obtain ⟨op, vfn, vd, va, vb, gp⟩ := wordV_eq_iff.1 (Option.some.inj h)
    rw [decode, op, decMajor2b, vfn, vd, va, vb, gp]; rfl
  case vcmpeqS | vcmpneS | vcmpltS | vcmpleS | vcmpeqI | vcmpneI | vcmpltI | vcmpleI | vrsum | vrmax | vrmin | vmovs | vibres =>
    obtain ⟨op, d, va, vb, vfn, ahead⟩ := wordVS_eq_iff.1 (Option.some.inj h)
    rw [decode, op, decMajor2c, vfn, d, va, vb, ahead]; rfl
  case vibadd | vibsub | vembed | vschur | vdamp | vsolve =>
    obtain ⟨op, vfn, vd, va, vb, gp⟩ := wordV_eq_iff.1 (Option.some.inj h)
    rw [decode, op, decMajor2d, vfn, vd, va, vb, gp]; rfl
  case mbset =>
    obtain ⟨op, d, a, b, fn⟩ := wordR_eq_iff.1 (Option.some.inj h)
    rw [decode, op, decMajor2e, fn, d, a, b]; rfl
  case mbld =>
    obtain ⟨op, d, a, b, fn⟩ := wordR_eq_iff.1 (Option.some.inj h)
    obtain ⟨zero, vd⟩ := fld_d_iff.1 d
    rw [decode, op, decMajor2e, fn, zero, vd, a, b]; rfl
  case mbupd =>
    obtain ⟨op, d, a, b, fn⟩ := wordR_eq_iff.1 (Option.some.inj h)
    obtain ⟨zero, vb⟩ := fld_b_iff.1 b
    rw [decode, op, decMajor2e, fn, d, a, zero, vb]; rfl
  case mma | mmaOw | mmaHalf | mmaHalfOw | mmaSp | mmaSpOw | mmaHalfSp | mmaHalfSpOw =>
    obtain ⟨op, sub, acc, aslot, bslot, wait, set⟩ := wordX_eq_iff.1 (Option.some.inj h)
    have ok : setOk _ = true := wf
    rw [← set, setOk_fld] at ok
    rw [decode, op, decMajor30, sub, ok, acc, aslot, bslot, wait, set]; rfl
  case oclaim | orel | old | ard | awr | aclr | mwait =>
    obtain ⟨op, d, a, b, fn⟩ := wordR_eq_iff.1 (Option.some.inj h)
    rw [decode, op, decMajor31, fn, d, a, b]; rfl
  case div | divu | rem | remu | faddD | fsubD | fmulD | fdivD | fsqrtD | fminD | fmaxD | feqD | fltD | fleD | fclassD | cvtDS |
      cvtSD | cvtDL | cvtLD =>
    obtain ⟨op, d, a, b, fn⟩ := wordR_eq_iff.1 (Option.some.inj h)
    rw [decode, op, decMajor38, fn, d, a, b]; rfl
  case fmaddD | fmsubD | fnmsubD | fnmaddD =>
    obtain ⟨op, d, a, b, fn⟩ := wordR_eq_iff.1 (Option.some.inj h)
    rw [decode, op, decMajor39, fn, d, a, b]; rfl
  case addi | andi | ori | xori | slti | sltiu | jalr =>
    obtain ⟨op, d, a, imm⟩ := wordI_eq_iff.1 (Option.some.inj h)
    rw [decode, op, d, a, imm]; rfl
  case lui | auipc =>
    obtain ⟨op, d, imm⟩ := wordU_eq_iff.1 (Option.some.inj h)
    rw [decode, op, d, imm]; rfl
  case ldB | ldBu | ldH | ldHu | ldW | ldWu | ldD | stB | stH | stW | stD =>
    obtain ⟨op, d, a, ahead, off⟩ := wordL_eq_iff.1 (Option.some.inj h)
    rw [decode, op, d, a, ahead, off]; rfl
  case j | jal =>
    obtain ⟨op, off⟩ := wordJ_eq_iff.1 (Option.some.inj h)
    rw [decode, op, off]; rfl
  case rep =>
    obtain ⟨op, n, sd, sa, sb, len, rsv⟩ := wordP_eq_iff.1 (Option.some.inj h)
    rw [decode, op, n, sd, sa, sb, len, rsv]; rfl
  all_goals cases h

/-! ## The encoder takes back what the decoder makes -/

theorem encode_of_decode {w : Half} {i : Instr} (h : decode w = .ok i) : i.wf = true ∧ encode i = some w := by
  -- one goal for each line of the decoder's tables, which knows the opcode and function of `w` and which fields of it are zero
  simp only [decode, decMajor01, decMajor02, decMajor09, decMajor17, decMajor18, decMajor19, decMajor1d, decMajor1e, decMajor1f,
    decMajor20, decMajor22, decMajor23, decMajor24, decMajor25, decMajor26, decMajor28, decMajor29, decMajor2a, decMajor2b,
    decMajor2c, decMajor2d, decMajor2e, decMajor30, decMajor31, decMajor38, decMajor39, needZero] at h
  repeat' split at h
  all_goals cases h
  -- the word that the instruction is encoded as has, field for field, what `w` has
  all_goals refine ⟨?_, congrArg some ?_⟩
  all_goals simp_all [Instr.wf, setOk_fld, wordR_eq_iff, wordI_eq_iff, wordL_eq_iff, wordB_eq_iff, wordT_eq_iff, wordJ_eq_iff,
    wordU_eq_iff, wordV_eq_iff, wordVS_eq_iff, wordX_eq_iff, wordP_eq_iff, fld_imm_iff, fld_d_iff, fld_a_iff, fld_b_iff,
    fld_barrier_iff, fld_index_iff]

end Sys2Proof

open Sys2Proof

/-- Settles O1: each constructor's word has its operands for fields, and the table of its major opcode reads them. -/
theorem encodedWordDecodesToItsInstruction : Obligations.EncodedWordDecodesToItsInstruction := fun _ _ => decode_of_encode

/-- Settles O2: each outcome of the decoder names every field of the word, or has found the field zero. -/
theorem decodedWordIsItsEncoding : Obligations.DecodedWordIsItsEncoding := fun _ _ => encode_of_decode

/-- Settles O3: each word is the encoding of its instruction. -/
theorem workedWordsDecode : Obligations.WorkedWordsDecode :=
  ⟨decode_of_encode rfl rfl, decode_of_encode rfl rfl, decode_of_encode rfl rfl, decode_of_encode rfl rfl, decode_of_encode rfl rfl,
    decode_of_encode rfl rfl, decode_of_encode rfl rfl, decode_of_encode rfl rfl, decode_of_encode rfl rfl, decode_of_encode rfl rfl,
    decode_of_encode rfl rfl, decode_of_encode rfl rfl, decode_of_encode rfl rfl⟩

end

section
/-! PROOFS. The family 03, fetch: what the lookup of a page leaves unchanged, and the outcomes of a fetch (R36, R68, R320). -/

namespace Sys2Proof.Machine

/-! ## The entries of a station (R320) -/

/-- Entries put into walk caches change nothing else. -/
theorem Chip.foldl_enterUpper {α : Type} (entry : α → Chip → WalkEntry) (xs : List α) (h : Chip) :
    ∃ us, xs.foldl (fun h x => h.enterUpper (entry x h)) h = { h with upper := us } := by
  induction xs generalizing h with
  | nil => exact ⟨h.upper, rfl⟩
  | cons x xs ih => exact ih (h.enterUpper (entry x h))

/-- The entry that a page of this level makes in the station of a region. -/
def pageEntry (pid region : Nat) (leaf : Word) (level : Nat) : StationEntry :=
  { station := stationOf pid region, pid := pid, region := region / regionsOf level * regionsOf level, leaf := leaf, level := level }

theorem Chip.enterPage_eq (h : Chip) (pid region : Nat) (leaf : Word) (level : Nat) :
    ∃ us, h.enterPage pid region leaf level = { h with
      upper := us
      stations := enterCapped (fun x => decide (x.station = stationOf pid region)) (fun _ => true) 8192 h.stations
        (pageEntry pid region leaf level) } := by
  obtain ⟨us, upper⟩ := Chip.foldl_enterUpper (fun (x : Nat × Word) g => ⟨stationOf pid region, pid, x.1, region / regionsOf x.1, x.2,
    (g.part pid).bounded⟩) (h.walkPath pid (region * 2 ^ 16)) h
  refine ⟨us, ?_⟩
  simp only [Chip.enterPage, upper, pageEntry]

/-- The lookup of a page changes entries of the stations and nothing else. -/
theorem Chip.warm_eq (h : Chip) (pid va : Nat) : ∃ us es, h.warm pid va = { h with upper := us, stations := es } := by
  simp only [Chip.warm]
  split
  · exact ⟨h.upper, h.stations, rfl⟩
  · split
    · obtain ⟨us, entered⟩ := h.enterPage_eq pid (regionOf va) _ _
      exact ⟨us, _, entered⟩
    · exact ⟨h.upper, h.stations, rfl⟩

@[simp] theorem Chip.hbm_warm (h : Chip) (pid va : Nat) : (h.warm pid va).hbm = h.hbm := by
  obtain ⟨us, es, warm⟩ := h.warm_eq pid va
  rw [warm]

/-! ## The word at an address (R68) -/

section
variable {h : Chip} {w : Who} {a : Word} {l : Leaf}

theorem Chip.fetchAt_ewindow (outside : windowOf a.toNat ≠ .global) : h.fetchAt w a = .error (.fault .ewindow a) := if_pos outside

theorem Chip.fetchAt_of_resolve (inside : windowOf a.toNat = .global) (found : (h.warm w.pid a.toNat).resolve w a.toNat a = .ok l) :
    h.fetchAt w a =
      if l.attr ≠ .readShared ∨ l.pub.isSome then .error (.fault .eperm a)
      else .ok (BitVec.ofNat 32 (bytesToNat (h.hbm.readBytes l.pa 4)), h.warm w.pid a.toNat) := by
  rw [Chip.fetchAt, if_neg (not_not.2 inside), ← Chip.hbm_warm h w.pid a.toNat]
  simp only [bind, Except.bind, found]

end

/-! ## The word that a slot issues next -/

section
variable {s : State} {t : Thread} (live : s.chip.slot s.place = .live t) (may : s.chip.mayIssue s.place = true)
include live may

theorem State.fetched_of_word {r : Half × Chip} (fetch : s.chip.fetchNext t = .ok r) : s.fetched = some (.ok r) := by
  simp only [State.fetched, live, may, if_true, fetch]

/-- A fetch that fails is a trap of the instruction at the pc. -/
theorem State.fetched_of_fault {e : Trap} {v : Word} (fetch : s.chip.fetchNext t = .error (.fault e v)) :
    s.fetched = some (.error ((s.chip.takeTrap s.place (raisedBy t e v)).endStep s.place)) := by
  simp only [State.fetched, live, may, if_true, fetch, Chip.fetchFailed]

end

end Sys2Proof.Machine

open Sys2Proof Sys2Proof.Machine

/-- Settles O59: one lemma for each outcome of a fetch; that the fetch trap comes before deferred faults that are due is log 53. -/
theorem fetchReadsTheWordAtThePc : Obligations.FetchReadsTheWordAtThePc := by
  refine ⟨fun s t live may alone => ?fetch, fun w s y issues => ?unassigned, ⟨.major, rfl⟩, ⟨.major, rfl⟩⟩
  case fetch =>
    have next : s.chip.fetchNext t = s.chip.fetchAt t.who t.pc := by rw [Chip.fetchNext, alone]
    refine ⟨fun outside => State.fetched_of_fault live may (next.trans (Chip.fetchAt_ewindow outside)),
      fun inside l found => ⟨?_, ?_⟩⟩
    · intro shared notPublished
      refine State.fetched_of_word live may (next.trans ?_)
      rw [Chip.fetchAt_of_resolve inside found, if_neg (by simp [shared, notPublished])]
    · intro barred
      refine State.fetched_of_fault live may (next.trans ?_)
      rw [Chip.fetchAt_of_resolve inside found, if_pos barred]
  case unassigned => exact raises_of_here (body := fun _ _ => .error (.trap .eill (tvalWord w))) rfl issues rfl

end

section
/-! PROOFS. The family 03, the step: whose turn it is and what issues there (R136, R167, R171). -/

namespace Sys2Proof.Machine

/-! ## Outcomes one after another -/

@[simp] theorem andThen_next (s : State) (f : State → State) : andThen (.next s) f = .next (f s) := rfl

theorem andThen_andThen (o : Host.Outcome State Fault Refusal) (f g : State → State) :
    andThen (andThen o f) g = andThen o fun s => g (f s) := by cases o <;> rfl

/-! ## The turn of a slot -/

section
variable {s : State} {w : Half} {h : Chip} {i : Instr}

theorem State.run_of_decode (word : decode w = .ok i) : s.run w = exec i s := by simp only [State.run, word]

theorem State.run_of_unassigned {e : Reject} (word : decode w = .error e) : s.run w = exec (.unassignedWord w) s := by
  simp only [State.run, word]; rfl

theorem State.issueOne_of_word (word : s.fetched = some (.ok (w, h))) : s.issueOne = State.run { s with chip := h } w := by
  simp only [State.issueOne, word]

theorem State.issueOne_of_fault (failed : s.fetched = some (.error h)) : s.issueOne = .next { s with chip := h } := by
  simp only [State.issueOne, failed]

theorem State.issueOne_of_none (nothing : s.fetched = none) : s.issueOne = .next s := by simp only [State.issueOne, nothing]

/-- A slot with no trailing half issues as if there were no pairs; one that holds no LIVE thread issues nothing. -/
theorem State.issue_of_no_pair (alone : s.chip.pairAt s.place = none) (leading : ∀ u q, s.chip.slot s.place ≠ .trailing u q) :
    s.issue = s.issueOne := by
  cases slot : s.chip.slot s.place with
  | live t => exact State.issue_alone slot alone
  | trailing u q => exact absurd slot (leading u q)
  | _ =>
    rw [State.issueOne_of_none (by simp only [State.fetched, slot])]
    simp only [State.issue, slot]

theorem State.issue_leading {t u : Thread} {q : Pair} (live : s.chip.slot s.place = .live t) (pair : s.chip.pairAt s.place = some (u, q)) :
    s.issue = s.leadIssue s.place t u q := by
  simp only [State.issue, live, pair]

/-! ## The turn of a leading half -/

/-- The pair does not hold the instruction it had agreed on while that instruction issues. -/
def State.releaseSync (s : State) (p : At) : State :=
  { s with chip := s.chip.modPair p fun q => { q with sync := none, agreed := false } }

/-- The leading half still waits at the instruction `e` on which the pair has agreed. -/
def State.keepAgreed (e : Option Held) (p : At) (t : Thread) (g : State) : State :=
  if g.chip.went t p = .stood then { g with chip := g.chip.modPair p fun q => { q with sync := e, agreed := true } } else g

variable {p : At} {t u : Thread} {q : Pair}

theorem State.leadIssue_agreed {y : Held} (sync : q.sync = some y) (agreed : q.agreed = true) :
    s.leadIssue p t u q = andThen (s.releaseSync p).issueOne (State.keepAgreed (some y) p t) := by
  simp only [State.leadIssue, sync, agreed, Option.isSome_some, if_true]
  rfl

/-- At a synchronising instruction the leading half hands its word and operands to the comparator, once they are known. -/
theorem State.leadIssue_sync (none_ : q.sync = none) (near : q.lag < 32) (word : s.fetched = some (.ok (w, h)))
    (role : roleOf (hasX64 p.c) w = .sync) :
    let f : State := { s with chip := h }
    s.leadIssue p t u q = .next (if f.operandsDue p w then f.stage p (f.heldFor p t.uid w) else f) := by
  have close : ¬ 32 ≤ q.lag := by omega
  simp only [State.leadIssue, none_, close, word, role, Option.isSome_none, Bool.false_eq_true, if_false, if_true]

end

/-! ## The step -/

section
variable {s : State} (on : s.chip.lost = false)
include on

theorem step_of_idle (idle : s.agenda = []) : step s = andThen s.before.issue fun g => g.after s.chip := by
  simp only [step, on, idle, Bool.false_eq_true, if_false, State.turn]

theorem step_of_agenda {a : Agenda} {rest : List Agenda} (next : s.agenda = a :: rest) :
    step s = State.take { s with agenda := rest } a := by
  simp only [step, on, next, Bool.false_eq_true, if_false]

end

end Sys2Proof.Machine

open Sys2Proof Sys2Proof.Machine

/-- Settles O58: the turn of a thread alone, the turn of the leading half of a pair, an event of the agenda, and a turn of the
agenda. -/
theorem stepRunsTheDecodedInstruction : Obligations.StepRunsTheDecodedInstruction := by
  intro s on b p after
  refine ⟨fun idle alone leading => ?alone, fun t u q idle live pair => ?leads, fun i rest next row => ?event, fun v c rest next => ?turn⟩
  case alone =>
    have turn : step s = andThen b.issueOne after := by
      rw [step_of_idle on idle, State.issue_of_no_pair alone leading]
    refine ⟨fun w h i word decoded => ?_, fun w h e word refused => ?_, fun h failed => ?_, fun nothing => ?_⟩
    · rw [turn, State.issueOne_of_word word, State.run_of_decode decoded]
    · rw [turn, State.issueOne_of_word word, State.run_of_unassigned refused]
    · rw [turn, State.issueOne_of_fault failed, andThen_next]
    · rw [turn, State.issueOne_of_none nothing, andThen_next]
  case leads =>
    have turn : step s = andThen (b.leadIssue p t u q) after := by
      rw [step_of_idle on idle, State.issue_leading live pair]
    refine ⟨fun y sync waits => ?_, fun y w h i sync agreed word decoded => ?_, fun none_ far => ?_,
      fun w h none_ near word role => ⟨?_, ?_⟩⟩
    · rw [turn, State.leadIssue_waits b p t u q sync waits, andThen_next]
    · rw [turn, State.leadIssue_agreed sync agreed, andThen_andThen, State.issueOne_of_word (s := b.releaseSync p) word,
        State.run_of_decode decoded]
      rfl
    · rw [turn, State.leadIssue_far b p t u q none_ far, andThen_next]
    · intro missing
      rw [turn, State.leadIssue_sync none_ near word role, missing, if_neg Bool.false_ne_true, andThen_next]
    · intro known
      refine ⟨State.heldFor { b with chip := h } p t.uid w, rfl, ?_⟩
      rw [turn, State.leadIssue_sync none_ near word role, known, if_pos rfl, andThen_next]
  case event => rw [step_of_agenda on next, State.take, if_pos row]
  case turn => rw [step_of_agenda on next, State.take]

end

section
/-! PROOFS. The family 03, divisions and the X64 instructions (R52, R53, R85). -/

namespace Sys2Proof.Machine

/-! ## The issue of an X64 instruction (R52) -/

section
variable {f : Form} {s : State} {body : Thread → Here → Except Stop Here}

theorem hasX64_iff (s : State) : hasX64 s.place.c = true ↔ x64Place s := by simp only [hasX64, x64Place, decide_eq_true_eq]

theorem issueX64_of_x64Place (core : x64Place s) : issueX64 f s body = issueHere f s body := by
  simp only [issueX64, (hasX64_iff s).2 core, if_true]

/-- Slot 0 takes EILL in place of the move (log 14). -/
theorem issueX64_of_slot0 (core : ¬ x64Place s) (slot0 : s.place.t = 0) :
    issueX64 f s body = issueHere { word := f.word, points := f.points } s fun _ _ => .error (.trap .eill (tvalWord f.word)) := by
  have absent : hasX64 s.place.c = false := by rw [Bool.eq_false_iff, Ne, hasX64_iff]; exact core
  simp only [issueX64, absent, slot0, Bool.false_eq_true, if_false, if_true]

/-- A task whose vector commands have completed moves to an X64 core. -/
theorem issueX64_of_task {t : Thread} (core : ¬ x64Place s) (task : s.place.t ≠ 0) (live : s.chip.slot s.place = .live t)
    (drained : ∀ c ∈ (s.chip.cluster s.place.v).claims, c.uid = t.uid → c.queue = []) :
    issueX64 f s body =
      .next { s with chip := (s.chip.parkTo s.place (x64Core s.place.c) true).renegotiate s.place.v t.uid } := by
  have absent : hasX64 s.place.c = false := by rw [Bool.eq_false_iff, Ne, hasX64_iff]; exact core
  have empty : (s.chip.cluster s.place.v).claims.any (fun c => decide (c.uid = t.uid ∧ c.queue ≠ [])) = false := by
    simpa using drained
  simp only [issueX64, absent, task, live, empty, Bool.false_eq_true, if_false]

end

/-! ## The X64 instructions -/

/-- Every instruction of the X64 majors issues as one. -/
theorem exec_x64 {i : Instr} {w : Half} (word : encode i = some w) (x64 : fld w 26 6 = 0x38 ∨ fld w 26 6 = 0x39) (s : State) :
    ∃ f body, exec i s = issueX64 f s body ∧ f.word = wordOf i ∧ f.points = pointsOf (wordOf i) := by
  cases i
  case div | divu | rem | remu | faddD | fsubD | fmulD | fdivD | fsqrtD | fminD | fmaxD | feqD | fltD | fleD | fclassD | cvtDS |
      cvtSD | cvtDL | cvtLD | fmaddD | fmsubD | fnmsubD | fnmaddD =>
    exact ⟨_, _, rfl, rfl, rfl⟩
  -- an event has no word, and any other word another major
  all_goals cases word
  all_goals simp only [(wordR_eq_iff.1 rfl).1, (wordI_eq_iff.1 rfl).1, (wordL_eq_iff.1 rfl).1, (wordB_eq_iff.1 rfl).1,
    (wordT_eq_iff.1 rfl).1, (wordJ_eq_iff.1 rfl).1, (wordU_eq_iff.1 rfl).1, (wordV_eq_iff.1 rfl).1, (wordVS_eq_iff.1 rfl).1,
    (wordX_eq_iff.1 rfl).1, (wordP_eq_iff.1 rfl).1, BitVec.reduceEq, or_self] at x64

/-! ## Divisions (R85) -/

theorem divForm_outcomes {i : Instr} {s : State} {y : Here} {d a b : BitVec 7} {u v : Word} {z : Here} (f : Word → Word → Word)
    (arm : exec i s = divForm (wordOf i) d a b f s) (core : x64Place s)
    (issues : Issues s (form (wordOf i) [.dst d, .src a, .src b]) y) (operands : Reads2 y a b u v z) :
    (v ≠ 0 → LeavesThread i s (z.write d (f u v))) ∧ (v = 0 → Raises i s y .edivz 0) := by
  obtain ⟨h, first, second⟩ := operands
  rw [divForm, issueX64_of_x64Place core] at arm
  constructor
  · intro divisor
    refine leavesThread_of_here arm issues ?_
    simp only [bind, Except.bind, first, second, if_neg divisor]
  · intro zero
    refine raises_of_here arm issues ?_
    simp only [bind, Except.bind, first, second, if_pos zero]

end Sys2Proof.Machine

open Sys2Proof Sys2Proof.Machine

/-- Settles O12: the outcomes of a division, and those of the issue of an X64 instruction on a core without X64. -/
theorem divisionAndX64Cores : Obligations.DivisionAndX64Cores := by
  refine ⟨fun d a b s y u v z => ?divisions, fun i s t word core live => ?moves⟩
  case divisions =>
    refine ⟨divForm_outcomes (fun x y => BitVec.ofInt 64 (tdiv x.toInt y.toInt)) rfl, ?rem,
      divForm_outcomes (fun x y => BitVec.ofNat 64 (x.toNat / y.toNat)) rfl, ?remu⟩
    case rem =>
      rw [Int.tmod_def]
      exact divForm_outcomes (fun x y => BitVec.ofInt 64 (x.toInt - y.toInt * tdiv x.toInt y.toInt)) rfl
    case remu =>
      rw [Nat.mod_eq_sub_mul_div]
      exact divForm_outcomes (fun x y => BitVec.ofNat 64 (x.toNat - y.toNat * (x.toNat / y.toNat))) rfl
  case moves =>
    obtain ⟨w, word, x64⟩ := word
    obtain ⟨f, body, arm, same, points⟩ := exec_x64 word x64 s
    refine ⟨fun task drained => arm.trans (issueX64_of_task core task live drained), fun slot0 y issues => ?_⟩
    have form_eq : form (wordOf i) = { word := f.word, points := f.points } := by rw [form, same, points]
    rw [form_eq] at issues
    rw [Illegal, ← same]
    exact raises_of_here (arm.trans (issueX64_of_slot0 core slot0)) issues rfl

end

section
/-! PROOFS. The family 03, consumption points: what a thread whose pending operations are known is at one (R45, R46, R120). -/

namespace Sys2Proof.Machine

section
variable {x : Here} {c : Points} {q bad : Pend} {v : Word}

/-- Where nothing is due the thread stays as it is. -/
theorem Here.consume_of_none_due (early : ∀ q ∈ x.th.pend, q.due? c = false) : x.consume c = .ok x := by
  have due : x.th.pend.filter (·.due? c) = [] := List.filter_eq_nil_iff.2 fun q mem => by simp [early q mem]
  have kept : x.th.pend.filter (fun q => !q.due? c) = x.th.pend := List.filter_eq_self.2 fun q mem => by simp [early q mem]
  simp [Here.consume, due, kept, sortBy]

theorem Here.consume_of_pend_nil (nothing : x.th.pend = []) : x.consume c = .ok x :=
  Here.consume_of_none_due (by simp [nothing])

/-- A due operation whose result is under way holds the instruction back. -/
theorem Here.consume_stalls (one : x.th.pend = [q]) (due : q.due? c = true) (absent : q.arrived = false) :
    x.consume c = .error (x, .stall) := by
  simp [Here.consume, one, due, absent, sortBy, insertBy]

theorem Pend.arrived_of_faulted (fault : q.faulted = true) : q.arrived = true := by
  unfold Pend.faulted at fault
  unfold Pend.arrived
  split at fault <;> simp_all

/-- A fault is reported, and its operation stays pending. -/
theorem Here.consume_faults (one : x.th.pend = [q]) (due : q.due? c = true) (fault : q.faulted = true) :
    x.consume c = .error (x, .deferred q false) := by
  obtain ⟨⟨⟩, file⟩ := x
  simp only at one
  subst one
  simp [Here.consume, due, fault, Pend.arrived_of_faulted fault, sortBy, insertBy, Landing.next, Landing.keep]

/-- The thread with nothing pending. -/
def Here.emptied (x : Here) : Here := { x with th := { x.th with pend := [] } }

/-- A value is written, and nothing stays pending. -/
theorem Here.consume_lands (one : x.th.pend = [q]) (due : q.due? c = true) (value : q.valued = true)
    (room : sdqFull x.emptied q = false) : x.consume c = .ok (x.emptied.land q) := by
  obtain ⟨arrived, sound⟩ : q.arrived = true ∧ q.faulted = false := by simpa [Pend.valued] using value
  simp only [Here.emptied] at room ⊢
  simp [Here.consume, one, due, arrived, sound, room, sortBy, insertBy, Landing.next]

/-- The thread `y` with the fault `bad` reported, which stays pending. -/
def Here.reports (y : Here) (bad : Pend) : Except (Here × Stop) Here :=
  .error ({ y with th := { y.th with pend := bad :: y.th.pend } }, .deferred bad false)

section
variable (due : q.due? c = true) (dueBad : bad.due? c = true) (value : q.valued = true) (fault : bad.faulted = true)
  (room : sdqFull x.emptied q = false)
include due dueBad value fault room

/-- A value is written before a younger fault is reported (R46, R120). -/
theorem Here.consume_lands_then_faults (two : x.th.pend = [q, bad]) (older : q.op.seq < bad.op.seq) :
    x.consume c = (x.emptied.land q).reports bad := by
  obtain ⟨arrived, sound⟩ : q.arrived = true ∧ q.faulted = false := by simpa [Pend.valued] using value
  simp only [Here.emptied] at room
  simp [Here.consume, two, due, dueBad, arrived, sound, room, fault, Pend.arrived_of_faulted fault, sortBy, insertBy, Nat.le_of_lt older,
    Landing.next, Landing.keep, Here.reports, Here.emptied]

/-- So is a younger value, unless the fault's operation has the same destination. -/
theorem Here.consume_faults_then_lands (two : x.th.pend = [bad, q]) (older : bad.op.seq < q.op.seq) (apart : bad.dest ≠ q.dest) :
    x.consume c = (x.emptied.land q).reports bad := by
  obtain ⟨arrived, sound⟩ : q.arrived = true ∧ q.faulted = false := by simpa [Pend.valued] using value
  simp only [Here.emptied] at room
  simp [Here.consume, two, due, dueBad, arrived, sound, room, fault, Pend.arrived_of_faulted fault, sortBy, insertBy, Nat.le_of_lt older,
    Landing.next, Landing.keep, Here.reports, Here.emptied, apart]

end

end

@[simp] theorem Thread.pend_past (t : Thread) : t.past.pend = t.pend.map Pend.tick := by
  simp only [Thread.past]
  split
  · rfl
  · split
    · rfl
    · split <;> rfl

end Sys2Proof.Machine

open Sys2Proof Sys2Proof.Machine

/-- Settles O5: a thread with nothing pending, and one lemma for each thing that a consumption point can find. -/
theorem checksAndConsumptionPoints : Obligations.ChecksAndConsumptionPoints := by
  refine ⟨fun x f nothing => ?checks, fun x op n d c v f e => ?points⟩
  case checks =>
    have consumed : x.consume f.points = .ok x := Here.consume_of_pend_nil nothing
    refine ⟨fun super task => ?_, fun mode v bad => ?_, fun mode good => ?_⟩
    · simp [Here.ready, consumed, super, task]
    · have passes : (f.superOnly && !x.th.sup) = false := by simpa using mode
      simp [Here.ready, consumed, passes, bad]
    · have passes : (f.superOnly && !x.th.sup) = false := by simpa using mode
      simp [Here.ready, consumed, passes, good]
  case points =>
    intro q
    have register : d ≠ 121 → d.toNat ≠ 121 := fun notSq h => notSq (BitVec.eq_of_toNat_eq h)
    have room : d ≠ 121 → sdqFull x.emptied (q 0 (.landed (.value v f))) = false := by
      intro notSq
      simp [sdqFull, q, register notSq]
    refine ⟨fun one notSq => Here.consume_lands one rfl rfl (room notSq), fun one closes windows => ?_,
      fun one => Here.consume_stalls one rfl rfl, fun r one => Here.consume_stalls one rfl rfl,
      fun one => Here.consume_faults one rfl rfl, fun bad next fault notSq => ?_, fun one => ?_⟩
    · refine Here.consume_of_none_due fun p mem => ?_
      obtain rfl : p = q (n + 1) (.landed (.value v f)) := by simpa [one] using mem
      simp [Pend.due?, q, closes, windows]
    · intro y r
      have due : bad.due? c = true := by simp [Pend.due?, next]
      have faulted : bad.faulted = true := by simp [Pend.faulted, fault]
      have reports : (x.emptied.land (q 0 (.landed (.value v f)))).reports bad = r := by
        have none_ : y.th.pend = [] := by simp [y, Here.write, Here.flag, register notSq]
        show y.reports bad = r
        rw [Here.reports, none_]
      refine ⟨fun two older => ?_, fun two older nowhere => ?_⟩
      · rw [Here.consume_lands_then_faults rfl due rfl faulted (room notSq) two older, reports]
      · rw [Here.consume_faults_then_lands rfl due rfl faulted (room notSq) two older (by simp [nowhere, q]), reports]
    · rw [Thread.pend_past, one]; rfl

end

section
/-! PROOFS. The family 03, repeat frames: the capture of REP (R48, R49), the positions of a frame (R51), and what a replay adds to
the fields of a captured word (R48). -/

namespace Sys2Proof.Machine

/-! ## A word that is fetched without a walk -/

/-- The word at `a` stands in a READ-SHARED page that the station of its region holds. -/
def Chip.HoldsWord (h : Chip) (t : Thread) (a : Word) (w : Half) : Prop :=
  windowOf a.toNat = .global ∧ regionOf a.toNat ∉ t.rejected ∧
    ∃ l, h.translate t.pid a.toNat = some l ∧ l.attr = .readShared ∧ l.pub = none ∧
      w = BitVec.ofNat 32 (bytesToNat (h.hbm.readBytes l.pa 4))

theorem Chip.warm_of_translate {h : Chip} {pid va : Nat} {l : Leaf} (held : h.translate pid va = some l) : h.warm pid va = h := by
  have entry : (h.station pid (regionOf va)).isSome := by
    rw [← Option.isSome_map, ← Chip.translate, held]; rfl
  simp only [Chip.warm, entry, true_or, if_true]

/-- Its fetch changes nothing. -/
theorem Chip.fetchAt_of_holds {h : Chip} {t : Thread} {a : Word} {w : Half} (held : h.HoldsWord t a w) : h.fetchAt t.who a = .ok (w, h) := by
  obtain ⟨inside, open_, l, found, shared, notPublished, rfl⟩ := held
  have warm : h.warm t.who.pid a.toNat = h := Chip.warm_of_translate found
  have leaf : h.resolve t.who a.toNat a = .ok l := by
    have accepted : t.who.rejected.contains (regionOf a.toNat) = false := by simpa [Thread.who] using open_
    rw [Chip.resolve, accepted, if_neg Bool.false_ne_true]
    show (match h.translate t.pid a.toNat with | some l => _ | none => _) = _
    rw [found]
  rw [Chip.fetchAt_of_resolve inside (warm.symm ▸ leaf), if_neg (by simp [shared, notPublished]), warm]

/-! ## The capture (R48, R49) -/

section
variable {h g : Chip} {t : Thread} {rep : Half} {a : Word} {w : Half}

theorem Chip.capture_refused {n : Nat} (fetch : h.fetchAt t.who a = .ok (w, g)) (refused : captureRefused rep w = true) :
    h.capture t rep (n + 1) a = .error (.fault .erep (w.zeroExtend 64)) := by
  simp only [Chip.capture, bind, Except.bind, fetch, refused, if_true]

theorem Chip.capture_taken {n : Nat} (fetch : h.fetchAt t.who a = .ok (w, g)) (taken : captureRefused rep w = false) :
    h.capture t rep (n + 1) a = (g.capture t rep n (a + 4)).map fun r => (w :: r.1, r.2) := by
  simp only [Chip.capture, bind, Except.bind, fetch, taken, Bool.false_eq_true, if_false]
  cases g.capture t rep n (a + 4) <;> rfl

/-- Words that stand in pages which the stations hold are captured, and nothing else changes. -/
theorem Chip.capture_of_holds {ws : List Half}
    (held : ∀ j w, ws[j]? = some w → h.HoldsWord t (a + BitVec.ofNat 64 (4 * j)) w ∧ captureRefused rep w = false) :
    h.capture t rep ws.length a = .ok (ws, h) := by
  induction ws generalizing a with
  | nil => rfl
  | cons w ws ih =>
    obtain ⟨first, taken⟩ := held 0 w rfl
    rw [Nat.mul_zero, BitVec.add_zero] at first
    have rest : h.capture t rep ws.length (a + 4) = .ok (ws, h) := by
      refine ih fun j w mem => ?_
      have next : a + 4 + BitVec.ofNat 64 (4 * j) = a + BitVec.ofNat 64 (4 * (j + 1)) := by
        rw [BitVec.add_assoc]; congr 1; rw [Nat.mul_succ, Nat.add_comm, BitVec.ofNat_add]; rfl
      rw [next]
      exact held (j + 1) w mem
    rw [List.length_cons, Chip.capture_taken (Chip.fetchAt_of_holds first) taken, rest]
    rfl

end

/-- A thread put back leaves what is fetched from memory. -/
theorem Chip.HoldsWord.putHere {h : Chip} {t : Thread} {a : Word} {w : Half} (held : h.HoldsWord t a w) (p : At) (x : Here) :
    (h.putHere p x).HoldsWord t a w := by
  obtain ⟨cores, put⟩ := h.putHere_eq_modCluster p x
  rw [put]
  exact held

/-! ## REP -/

/-- The body of REP. -/
def repBody (rep : Half) (self : Thread) (p : At) (h : Chip) : Except Stop Chip :=
  match h.capture self rep (repLen rep) (self.pc + 4) with
  | .error (.fault t v) => .error (.trap t v)
  | .error (.walk pid r) => .ok (h.waitWalk self p pid r 2)
  | .error (.stop e) => .error e
  | .ok (ws, h) => .ok (h.modThread p fun t => { t with frame := some ⟨rep, self.pc, 0, 0, ws⟩ })

section
variable {n : BitVec 6} {sd sa sb len : BitVec 4} {s : State} {y : Here}

theorem exec_rep : exec (.rep n sd sa sb len) s =
    issueChip (form (wordOf (.rep n sd sa sb len))) s (repBody (wordOf (.rep n sd sa sb len))) := rfl

theorem repLen_wordOf_rep : repLen (wordOf (.rep n sd sa sb len)) = len.toNat + 1 := by
  obtain ⟨-, -, -, -, -, field, -⟩ := wordP_eq_iff.1 (rfl : wordP 33#6 n sd sa sb len 0#4 = wordOf (.rep n sd sa sb len))
  exact congrArg (fun x => x.toNat + 1) field

variable (issues : Issues s (form (wordOf (.rep n sd sa sb len))) y)
include issues

theorem rep_starts {ws : List Half} {g : Chip}
    (capture : (s.passed y).capture y.th (wordOf (.rep n sd sa sb len)) (len.toNat + 1) (y.th.pc + 4) = .ok (ws, g)) :
    LeavesChip (.rep n sd sa sb len) s
      (g.modThread s.place fun t => { t with frame := some ⟨wordOf (.rep n sd sa sb len), y.th.pc, 0, 0, ws⟩ }) := by
  refine leavesChip_of_chip exec_rep issues ?_
  show repBody _ y.th s.place (s.passed y) = _
  rw [repBody, repLen_wordOf_rep, capture]

theorem rep_raises {e : Trap} {v : Word}
    (capture : (s.passed y).capture y.th (wordOf (.rep n sd sa sb len)) (len.toNat + 1) (y.th.pc + 4) = .error (.fault e v)) :
    Raises (.rep n sd sa sb len) s y e v := by
  refine raises_of_chip exec_rep issues ?_
  show repBody _ y.th s.place (s.passed y) = _
  rw [repBody, repLen_wordOf_rep, capture]

end

/-! ## The positions of a frame (R51) -/

section
variable {t : Thread} {f : Frame} (inside : t.frame = some f)
include inside

theorem Chip.fetchNext_of_frame {w : Half} (h : Chip) (word : f.words[f.j]? = some w) :
    h.fetchNext t = .ok (stagger f.word w f.i, h) := by
  simp only [Chip.fetchNext, inside, List.getD_eq_getElem?_getD, word, Option.getD_some]

theorem Thread.past_in_replay (more : f.j + 1 < repLen f.word) :
    t.past.frame = some { f with j := f.j + 1 } ∧ t.past.pc = f.at (f.j + 1) := by
  simp only [Thread.past, inside, more, if_true, and_self]

theorem Thread.past_replay (last : f.j + 1 = repLen f.word) (more : f.i + 1 < repCount f.word) :
    t.past.frame = some { f with i := f.i + 1, j := 0 } ∧ t.past.pc = f.at 0 := by
  simp only [Thread.past, inside, last, Nat.lt_irrefl, if_false, more, if_true, and_self]

theorem Thread.past_frame (last : f.j + 1 = repLen f.word) (lastReplay : f.i + 1 = repCount f.word) :
    t.past.frame = none ∧ t.past.pc = f.at (repLen f.word) := by
  simp only [Thread.past, inside, last, lastReplay, Nat.lt_irrefl, if_false, and_self]

end

/-! ## The fields of a captured word (R48, R49) -/

theorem toNat_fld {n : Nat} (w : BitVec n) (lo len : Nat) : (fld w lo len).toNat = bits w lo len := by
  simp only [fld, bits, BitVec.extractLsb'_toNat, Nat.shiftRight_eq_div_pow]

theorem toNat_append_eq {n m : Nat} (x : BitVec n) (y : BitVec m) : (x ++ y).toNat = x.toNat * 2 ^ m + y.toNat := by
  rw [BitVec.toNat_append, ← Nat.shiftLeft_add_eq_or_of_lt y.isLt, Nat.shiftLeft_eq]

theorem toNat_wordR (op : BitVec 6) (d a b : BitVec 7) (fn : BitVec 5) :
    (wordR op d a b fn).toNat = op.toNat * 2 ^ 26 + d.toNat * 2 ^ 19 + a.toNat * 2 ^ 12 + b.toNat * 2 ^ 5 + fn.toNat := by
  have whole := toNat_append_eq (op ++ d ++ a ++ b) fn
  rw [toNat_append_eq (op ++ d ++ a) b, toNat_append_eq (op ++ d) a, toNat_append_eq op d] at whole
  rw [wordR]
  omega

/-- A field that REP has not refused to stagger keeps its range in every replay (R49). -/
theorem field_lt_of_stride {w : Half} {n lo len stride i : Nat} {unused : Bool}
    (kept : strideRefused w n (some (lo, len)) unused stride = false) (inside : i < n) : bits w lo len + i * stride < 2 ^ len := by
  by_cases zero : stride = 0
  · rw [zero, Nat.mul_zero]
    exact Nat.mod_lt _ (Nat.two_pow_pos len)
  · have last : bits w lo len + (n - 1) * stride < 2 ^ len := by
      simp only [strideRefused, zero, ne_eq, not_false_eq_true, decide_true, Bool.true_and, Bool.or_eq_false_iff,
        decide_eq_false_iff_not, Nat.not_le] at kept
      exact kept.2
    have below : i * stride ≤ (n - 1) * stride := Nat.mul_le_mul_right stride (by omega)
    omega

/-- Three numbers added to the register fields of a word, none of which leaves its range. -/
theorem wordR_add {w : Half} {x y z : Nat} (d : bits w 19 7 + x < 2 ^ 7) (a : bits w 12 7 + y < 2 ^ 7) (b : bits w 5 7 + z < 2 ^ 7) :
    wordR (fld w 26 6) (BitVec.ofNat 7 (bits w 19 7 + x)) (BitVec.ofNat 7 (bits w 12 7 + y)) (BitVec.ofNat 7 (bits w 5 7 + z)) (fld w 0 5) =
      w + BitVec.ofNat 32 (x * 2 ^ 19 + (y * 2 ^ 12 + (z * 2 ^ 5 + 0))) := by
  have whole : wordR (fld w 26 6) (fld w 19 7) (fld w 12 7) (fld w 5 7) (fld w 0 5) = w := wordR_eq_iff.2 ⟨rfl, rfl, rfl, rfl, rfl⟩
  have total := toNat_wordR (fld w 26 6) (fld w 19 7) (fld w 12 7) (fld w 5 7) (fld w 0 5)
  rw [whole, toNat_fld, toNat_fld, toNat_fld, toNat_fld, toNat_fld] at total
  have op : bits w 26 6 < 2 ^ 6 := Nat.mod_lt _ (by decide)
  have fn : bits w 0 5 < 2 ^ 5 := Nat.mod_lt _ (by decide)
  apply BitVec.eq_of_toNat_eq
  rw [toNat_wordR, BitVec.toNat_add, toNat_fld, toNat_fld, BitVec.toNat_ofNat, BitVec.toNat_ofNat, BitVec.toNat_ofNat, BitVec.toNat_ofNat,
    Nat.mod_eq_of_lt d, Nat.mod_eq_of_lt a, Nat.mod_eq_of_lt b]
  omega

/-- What replay `i` makes of a captured word of three registers. -/
theorem stagger_fields {rep w : Half} {i : Nat} (three : major w ∈ [0x01, 0x1D, 0x1E]) (kept : captureRefused rep w = false)
    (inside : i < repCount rep) :
    bits (stagger rep w i) 19 7 = bits w 19 7 + i * bits rep 16 4 ∧
    bits (stagger rep w i) 12 7 = bits w 12 7 + i * bits rep 12 4 ∧
    bits (stagger rep w i) 5 7 = bits w 5 7 + i * bits rep 8 4 ∧
    fld (stagger rep w i) 26 6 = fld w 26 6 ∧ fld (stagger rep w i) 0 5 = fld w 0 5 := by
  have fields : stagFields (major w) = some [some (19, 7), some (12, 7), some (5, 7)] := by
    simp only [List.mem_cons, List.not_mem_nil, or_false] at three
    rcases three with major | major | major <;> rw [major] <;> rfl
  simp only [captureRefused, fields, Bool.or_eq_false_iff] at kept
  obtain ⟨⟨d, a⟩, b⟩ := kept
  have d : bits w 19 7 + i * bits rep 16 4 < 2 ^ 7 := field_lt_of_stride d inside
  have a : bits w 12 7 + i * bits rep 12 4 < 2 ^ 7 := field_lt_of_stride a inside
  have b : bits w 5 7 + i * bits rep 8 4 < 2 ^ 7 := field_lt_of_stride b inside
  have staggered := wordR_add d a b
  have word : stagger rep w i = w + BitVec.ofNat 32 (i * bits rep 16 4 * 2 ^ 19 + (i * bits rep 12 4 * 2 ^ 12 +
      (i * bits rep 8 4 * 2 ^ 5 + 0))) := by
    simp only [stagger, fields]; rfl
  rw [word]
  obtain ⟨op, d', a', b', fn⟩ := wordR_eq_iff.1 staggered
  refine ⟨?_, ?_, ?_, op, fn⟩
  · rw [← toNat_fld, d']; exact Nat.mod_eq_of_lt d
  · rw [← toNat_fld, a']; exact Nat.mod_eq_of_lt a
  · rw [← toNat_fld, b']; exact Nat.mod_eq_of_lt b

end Sys2Proof.Machine

open Sys2Proof Sys2Proof.Machine

/-- Settles O27: the capture of REP, the positions of a frame, and the fields of a replayed word. That a word which cannot be fetched
is a trap of REP is log 17. -/
theorem repeatFramesReplay : Obligations.RepeatFramesReplay := by
  refine ⟨fun n sd sa sb len s y issues => ?rep, fun h t rep a w g fetch refused => Chip.capture_refused fetch refused,
    fun h t rep a w g fetch taken => Chip.capture_taken fetch taken, fun h t f w inside word => Chip.fetchNext_of_frame inside h word,
    fun t f inside => ⟨Thread.past_in_replay inside, Thread.past_replay inside, Thread.past_frame inside⟩,
    fun rep w i three kept inside => ?fields⟩
  case rep =>
    refine ⟨fun ws g => rep_starts issues, fun ws length words => rep_starts issues ?_, fun e v => rep_raises issues⟩
    rw [← length]
    refine Chip.capture_of_holds fun j w word => ?_
    obtain ⟨window, accepted, taken, leaf⟩ := words j w word
    exact ⟨Chip.HoldsWord.putHere ⟨window, accepted, leaf⟩ s.place y.passed, taken⟩
  case fields =>
    simp only [toNat_fld] at *
    exact stagger_fields three kept inside

end


section
/-! PROOFS. The family 03, events of the memory system (R322): BUSY of XLINV stays set for a committed IRV.HOST. -/

namespace Sys2Proof.Machine

/-- XLINV_DONE has no effect while an access translated with a removed entry has not been performed. -/
theorem xlinvDone_ignored_of_stillTranslated {s : State} (still : s.chip.stillTranslated = true) : Ignored .xlinvDone s := by
  change execXlinvDone s = _
  simp only [execXlinvDone, still, if_true]

/-- An instruction with one effect has no other: the state it leaves unchanged is the one it becomes. -/
theorem Ignored.chip_eq_of_becomes {i : Instr} {s : State} {g : Chip} (ignored : Ignored i s) (becomes : Becomes i s g) : g = s.chip := by
  have same : Host.Outcome.next { s with chip := g } = (Host.Outcome.next s : Host.Outcome State Fault Refusal) := becomes.symm.trans ignored
  injection same with same
  exact congrArg State.chip same

/-- A task of partition 0 has committed an IRV.HOST to host address 0x1000 that the partition has still to perform, and an XLINV has
removed the entry of the HOST page with that address; no cluster holds an access. -/
def xlinvWithIrv : State :=
  { chip :=
      { parts := [(0, { active := true, irvs := [{ stamp := 0x1000000, kind := .host, addr := 0x1000, y := 5, payload := [] }] })]
        regs := [(0x430, 0x8000000000000000#64)]
        removed := [(2 ^ 47, 65536)] } }

theorem xlinvWithIrv_stillTranslated : xlinvWithIrv.chip.stillTranslated = true := by decide

end Sys2Proof.Machine

open Sys2Proof Sys2Proof.Machine

/-- Refutes O45, by its clause about XLINV_DONE: the accesses it counts are those of the clusters, while BUSY stays set also for an
IRV.HOST that is committed and not yet performed (R322), as in `xlinvWithIrv`. There no cluster keeps an access of the removed page,
so the clause lets BUSY clear and `removed` empty, and the event is ignored. -/
theorem not_memorySystemEvents : ¬ Obligations.MemorySystemEvents := by
  intro ⟨_, _, _, _, _, _, _, xlinvDone, _⟩
  have noneKept : ¬ ∃ k ∈ xlinvWithIrv.chip.clusters, (∃ t ∈ k.2.throughs, xlinvWithIrv.chip.unmapped t.pa = true) ∨
      ∃ e ∈ k.2.log, (∃ pa co va m, e.body = .redo pa co va m ∧ xlinvWithIrv.chip.unmapped pa = true) ∨
        ∃ kd pa ea y, e.body = .red kd true pa ea y ∧ xlinvWithIrv.chip.unmapped pa = true :=
    fun ⟨_, listed, _⟩ => nomatch listed
  obtain ⟨g, becomes, _, emptied⟩ := (xlinvDone xlinvWithIrv).2 noneKept
  have waits : Ignored .xlinvDone xlinvWithIrv := xlinvDone_ignored_of_stillTranslated xlinvWithIrv_stillTranslated
  rw [waits.chip_eq_of_becomes becomes] at emptied
  exact absurd emptied (by decide)

end

section
/-! PROOFS. The family 04, the integer instructions: what the model's value functions compute (R57, R58), and the shapes of one and two
operands (R55, R59 to R61). -/

namespace Sys2Proof.Machine

/-! ## Values (R57) -/

/-- A shift amount is the low six bits of its operand. -/
theorem bits_low_six (y : Word) : bits y 0 6 = y.toNat % 64 := by simp [bits]

theorem sraWord_eq (x : Word) (n : Nat) : sraWord x n = x.sshiftRight n := by
  rw [sraWord, BitVec.sshiftRight, Int.shiftRight_eq_div_pow]; simp

theorem rolWord_eq (x : Word) {n : Nat} (h : n < 64) : rolWord x n = x.rotateLeft n := by
  rw [rolWord, BitVec.rotateLeft_def, Nat.mod_eq_of_lt h]

theorem rorWord_eq (x : Word) {n : Nat} (h : n < 64) : rorWord x n = x.rotateRight n := by
  rw [rorWord, BitVec.rotateRight_def, Nat.mod_eq_of_lt h]

theorem mulhWord_eq (x y : Word) : mulhWord x y = BitVec.ofInt 64 ((x.toInt * y.toInt).fdiv (2 ^ 64)) := by
  rw [mulhWord, Int.fdiv_eq_ediv_of_nonneg _ (by decide)]

theorem flagWord_slt (x y : Word) : flagWord (x.slt y) = if x.toInt < y.toInt then 1 else 0 := by
  simp [flagWord, BitVec.slt_eq_decide]

theorem flagWord_ult (x y : Word) : flagWord (x.ult y) = if x.toNat < y.toNat then 1 else 0 := by
  simp [flagWord, BitVec.ult_eq_decide]

theorem if_sle {α : Type} (x y : Word) (p q : α) : (if x.sle y then p else q) = if x.toInt ≤ y.toInt then p else q := by
  simp [BitVec.sle_eq_decide]

theorem if_ule {α : Type} (x y : Word) (p q : α) : (if x.ule y then p else q) = if x.toNat ≤ y.toNat then p else q := by
  simp [BitVec.ule_eq_decide]

/-- A signed compare with a sign-extended immediate compares with its value. -/
theorem flagWord_slt_signExtend (x : Word) (k : BitVec 12) :
    flagWord (x.slt (k.signExtend 64)) = if x.toInt < k.toInt then 1 else 0 := by
  rw [flagWord_slt, BitVec.toInt_signExtend_of_le (by decide)]

/-! ## Counts and patterns (R58) -/

/-- Among the low n bits, the zero bits above the highest set one: none of them is set, and below them stands a set bit, if any. -/
theorem clzFrom_spec (x : Word) (n : Nat) :
    clzFrom x n ≤ n ∧ (∀ j < clzFrom x n, x.getLsbD (n - 1 - j) = false) ∧
      (clzFrom x n < n → x.getLsbD (n - 1 - clzFrom x n) = true) := by
  induction n with
  | zero => simp [clzFrom]
  | succ n ih =>
    obtain ⟨bound, zeros, one⟩ := ih
    rw [clzFrom]
    split
    · rename_i set
      exact ⟨Nat.zero_le _, nofun, fun _ => set⟩
    · rename_i clear
      refine ⟨by omega, fun j hj => ?_, fun below => ?_⟩
      · cases j with
        | zero => simpa using clear
        | succ j => rw [← zeros j (by omega)]; congr 1; omega
      · rw [← one (by omega)]; congr 1; omega

/-- From bit `64 - n` up, the zero bits below the lowest set one. -/
theorem ctzFrom_spec (x : Word) {n : Nat} (h : n ≤ 64) :
    ctzFrom x n ≤ n ∧ (∀ j < ctzFrom x n, x.getLsbD (64 - n + j) = false) ∧
      (ctzFrom x n < n → x.getLsbD (64 - n + ctzFrom x n) = true) := by
  induction n with
  | zero => simp [ctzFrom]
  | succ n ih =>
    obtain ⟨bound, zeros, one⟩ := ih (by omega)
    have first : 63 - n = 64 - (n + 1) := by omega
    rw [ctzFrom, first]
    split
    · rename_i set
      exact ⟨Nat.zero_le _, nofun, fun _ => set⟩
    · rename_i clear
      refine ⟨by omega, fun j hj => ?_, fun below => ?_⟩
      · cases j with
        | zero => simpa using clear
        | succ j => rw [← zeros j (by omega)]; congr 1; omega
      · rw [← one (by omega)]; congr 1; omega

theorem popcFrom_eq_countP (x : Word) (n : Nat) : popcFrom x n = (List.range n).countP fun j => x.getLsbD j := by
  induction n with
  | zero => rfl
  | succ n ih => rw [popcFrom, ih, List.range_succ, List.countP_append, List.countP_singleton, Nat.add_comm]

theorem getLsbD_brevWord (x : Word) {j : Nat} (h : j < 64) : (brevWord x).getLsbD j = x.getLsbD (63 - j) := by
  rw [brevWord, BitVec.getLsbD_reverse, BitVec.getMsbD_eq_getLsbD]
  simp [h]

theorem fld_zero_eq_truncate (x : Word) {n : Nat} (h : n ≤ 64) : fld x 0 n = x.truncate n := (BitVec.setWidth_eq_extractLsb' h).symm

/-! ## Shapes (R55) -/

section
variable {i : Instr} {d a b : BitVec 7}

/-- An instruction whose meaning `e` is of the shape of two operands writes its function's value. -/
theorem TwoOperand.of_aluForm {w : Half} {f g : Word → Word → Word} (e : State → Host.Outcome State Fault Refusal) (arm : exec i = e)
    (shape : ∀ s, e s = aluForm w d a b g s) (word : w = wordOf i) (value : ∀ x y, g x y = f x y) : TwoOperand i d a b f := by
  subst word
  rintro s y u v z issues ⟨h, first, second⟩
  refine leavesThread_of_here ((congrFun arm s).trans (shape s)) issues ?_
  simp only [bind, Except.bind, first, second, value]

/-- An instruction whose meaning `e` is of the shape of one operand writes its function's value. -/
theorem OneOperand.of_unaryForm {w : Half} {f g : Word → Word} (e : State → Host.Outcome State Fault Refusal) (arm : exec i = e)
    (shape : ∀ s, e s = unaryForm w d a g s) (word : w = wordOf i) (value : ∀ x, g x = f x) : OneOperand i d a f := by
  subst word
  intro s y u z issues read
  refine leavesThread_of_here ((congrFun arm s).trans (shape s)) issues ?_
  simp only [bind, Except.bind, read, value]

end

end Sys2Proof.Machine

open Sys2Proof Sys2Proof.Machine

/-- Settles O6: each instruction has the shape of its operands, with the value of its row. -/
theorem integerBitAndImmediateResults : Obligations.IntegerBitAndImmediateResults := by
  refine ⟨⟨fun d a b => ?alu, fun d a => ?bit⟩, fun d a k n u => ?immediate⟩
  case alu =>
    have low : ∀ y : Word, y.toNat % 64 < 64 := fun y => Nat.mod_lt _ (by decide)
    refine ⟨.of_aluForm (execAdd d a b) rfl (fun _ => rfl) rfl fun _ _ => rfl,
      .of_aluForm (execSub d a b) rfl (fun _ => rfl) rfl fun _ _ => rfl,
      .of_aluForm (execAnd d a b) rfl (fun _ => rfl) rfl fun _ _ => rfl,
      .of_aluForm (execOr d a b) rfl (fun _ => rfl) rfl fun _ _ => rfl,
      .of_aluForm (execXor d a b) rfl (fun _ => rfl) rfl fun _ _ => rfl,
      .of_aluForm (execAndn d a b) rfl (fun _ => rfl) rfl fun _ _ => rfl,
      .of_aluForm (execSll d a b) rfl (fun _ => rfl) rfl fun x y => ?sll,
      .of_aluForm (execSrl d a b) rfl (fun _ => rfl) rfl fun x y => ?srl,
      .of_aluForm (execSra d a b) rfl (fun _ => rfl) rfl fun x y => ?sra,
      .of_aluForm (execRol d a b) rfl (fun _ => rfl) rfl fun x y => ?rol,
      .of_aluForm (execRor d a b) rfl (fun _ => rfl) rfl fun x y => ?ror,
      .of_aluForm (execSlt d a b) rfl (fun _ => rfl) rfl flagWord_slt,
      .of_aluForm (execSltu d a b) rfl (fun _ => rfl) rfl flagWord_ult,
      .of_aluForm (execMin d a b) rfl (fun _ => rfl) rfl fun x y => if_sle x y x y,
      .of_aluForm (execMax d a b) rfl (fun _ => rfl) rfl fun x y => if_sle y x x y,
      .of_aluForm (execMinu d a b) rfl (fun _ => rfl) rfl fun x y => if_ule x y x y,
      .of_aluForm (execMaxu d a b) rfl (fun _ => rfl) rfl fun x y => if_ule y x x y,
      .of_aluForm (execMul d a b) rfl (fun _ => rfl) rfl fun _ _ => rfl,
      .of_aluForm (execMulh d a b) rfl (fun _ => rfl) rfl mulhWord_eq,
      .of_aluForm (execMulhu d a b) rfl (fun _ => rfl) rfl fun _ _ => rfl⟩
    case sll | srl => rw [bits_low_six]
    case sra => rw [bits_low_six, sraWord_eq]
    case rol => rw [bits_low_six, rolWord_eq x (low y)]
    case ror => rw [bits_low_six, rorWord_eq x (low y)]
  case bit =>
    have ctz : ∀ x : Word, ctzFrom x 64 ≤ 64 ∧ (∀ j < ctzFrom x 64, x.getLsbD j = false) ∧
        (ctzFrom x 64 < 64 → x.getLsbD (ctzFrom x 64) = true) := fun x => by simpa using ctzFrom_spec x (Nat.le_refl 64)
    exact ⟨⟨_,
      .of_unaryForm (execClz d a) rfl (fun _ => rfl) rfl fun _ => rfl, fun x => clzFrom_spec x 64⟩,
      ⟨_, .of_unaryForm (execCtz d a) rfl (fun _ => rfl) rfl fun _ => rfl, ctz⟩,
      .of_unaryForm (execPopc d a) rfl (fun _ => rfl) rfl fun x => congrArg _ (popcFrom_eq_countP x 64),
      ⟨_, .of_unaryForm (execBrev d a) rfl (fun _ => rfl) rfl fun _ => rfl, fun x _ => getLsbD_brevWord x⟩,
      .of_unaryForm (execSextB d a) rfl (fun _ => rfl) rfl fun x => congrArg _ (fld_zero_eq_truncate x (by decide)),
      .of_unaryForm (execSextH d a) rfl (fun _ => rfl) rfl fun x => congrArg _ (fld_zero_eq_truncate x (by decide)),
      .of_unaryForm (execSextW d a) rfl (fun _ => rfl) rfl fun x => congrArg _ (fld_zero_eq_truncate x (by decide)),
      .of_unaryForm (execZextW d a) rfl (fun _ => rfl) rfl fun x => congrArg _ (fld_zero_eq_truncate x (by decide))⟩
  case immediate =>
    refine ⟨.of_unaryForm (execAddi d a k) rfl (fun _ => rfl) rfl fun _ => rfl,
      .of_unaryForm (execAndi d a k) rfl (fun _ => rfl) rfl fun _ => rfl,
      .of_unaryForm (execOri d a k) rfl (fun _ => rfl) rfl fun _ => rfl,
      .of_unaryForm (execXori d a k) rfl (fun _ => rfl) rfl fun _ => rfl,
      .of_unaryForm (execSlti d a k) rfl (fun _ => rfl) rfl fun x => flagWord_slt_signExtend x k,
      .of_unaryForm (execSltiu d a k) rfl (fun _ => rfl) rfl fun x => flagWord_ult x _,
      .of_unaryForm (execSlli d a n) rfl (fun _ => rfl) rfl fun _ => rfl,
      .of_unaryForm (execSrli d a n) rfl (fun _ => rfl) rfl fun _ => rfl,
      .of_unaryForm (execSrai d a n) rfl (fun _ => rfl) rfl fun x => sraWord_eq x _,
      .of_unaryForm (execRori d a n) rfl (fun _ => rfl) rfl fun x => rorWord_eq x n.isLt,
      fun s y issues => ?lui, fun s y issues => ?auipc⟩
    case lui => exact leavesThread_of_here (body := fun _ h => .ok (h.write d (u.signExtend 64 * 4096))) rfl issues rfl
    case auipc =>
      exact leavesThread_of_here (body := fun self h => .ok (h.write d (self.pc + u.signExtend 64 * 4096))) rfl issues rfl

end

section
/-! PROOFS. The family 04, branches and jumps: targets, conditions, and the shapes of the branches (R63 to R66). -/

namespace Sys2Proof.Machine

/-- A target counts words from the instruction. -/
theorem wordTarget_eq {n : Nat} (pc : Word) (off : BitVec n) : wordTarget pc off = pc + 4 * off.signExtend 64 := by
  rw [wordTarget, BitVec.mul_comm]

theorem bits_low_two (x : Word) : bits x 0 2 = x.toNat % 4 := by simp [bits]

/-! ## Conditions (R63) -/

theorem bne_eq_decide_ne (x y : Word) : (x != y) = decide (x ≠ y) := by rw [bne, beq_eq_decide, decide_not]

theorem sle_eq_decide_ge (x y : Word) : y.sle x = decide (x.toInt ≥ y.toInt) := BitVec.sle_eq_decide

theorem ule_eq_decide_ge (x y : Word) : y.ule x = decide (x.toNat ≥ y.toNat) := BitVec.ule_eq_decide

/-! ## Shapes -/

section
variable {i : Instr} {a b : BitVec 7} {w : Half}

/-- An instruction whose meaning `e` is a compare and branch goes where its condition says. -/
theorem Branches.of_branchForm {off : BitVec 9} {c k : Word → Word → Bool} (e : State → Host.Outcome State Fault Refusal)
    (arm : exec i = e) (shape : ∀ s, e s = branchForm w a b off k s) (word : w = wordOf i) (cond : ∀ x y, k x y = c x y) :
    Branches i a b off c := by
  subst word
  rintro s y u v z issues ⟨h, first, second⟩
  refine leavesThread_of_here ((congrFun arm s).trans (shape s)) issues ?_
  simp only [bind, Except.bind, first, second, cond, wordTarget_eq, Here.goto]

/-- A bit test and branch whose meaning is `e`. -/
theorem leavesThread_of_bitBranchForm {bit : BitVec 6} {sense : Bool} {off : BitVec 12} {s : State} {y z : Here} {u : Word}
    (e : State → Host.Outcome State Fault Refusal) (arm : exec i = e) (shape : ∀ s, e s = bitBranchForm w a bit sense off s)
    (word : w = wordOf i) (issues : Issues s (form (wordOf i) [.src a]) y) (read : y.passed.read a = .ok (u, z)) :
    LeavesThread i s (if u.getLsbD bit.toNat = sense then z.goto (y.th.pc + 4 * off.signExtend 64) else z) := by
  subst word
  refine leavesThread_of_here ((congrFun arm s).trans (shape s)) issues ?_
  simp only [bind, Except.bind, read, wordTarget_eq, Here.goto]

end

/-! ## JALR (R66) -/

/-- What JALR does once it has issued. -/
def jalrBody (d a : BitVec 7) (imm : BitVec 12) (self : Thread) (h : Here) : Except Stop Here :=
  (h.read a).bind fun r =>
    let target := r.1 + imm.signExtend 64
    if bits target 0 2 ≠ 0 then .error (.trap .ealign target) else .ok ((r.2.write d (self.pc + 4)).goto target)

theorem exec_jalr (d a : BitVec 7) (imm : BitVec 12) (s : State) :
    exec (.jalr d a imm) s = issueHere (form (wordOf (.jalr d a imm)) [.dst d, .src a]) s (jalrBody d a imm) := rfl

section
variable {d a : BitVec 7} {imm : BitVec 12} {self : Thread} {h z : Here} {u : Word} (read : h.read a = .ok (u, z))
include read

theorem jalrBody_aligned (word : (u + imm.signExtend 64).toNat % 4 = 0) :
    jalrBody d a imm self h = .ok ((z.write d (self.pc + 4)).goto (u + imm.signExtend 64)) := by
  rw [jalrBody, read]
  exact if_neg (by simpa [bits_low_two] using word)

theorem jalrBody_misaligned (noWord : (u + imm.signExtend 64).toNat % 4 ≠ 0) :
    jalrBody d a imm self h = .error (.trap .ealign (u + imm.signExtend 64)) := by
  rw [jalrBody, read]
  exact if_pos (by simpa [bits_low_two] using noWord)

end

end Sys2Proof.Machine

open Sys2Proof Sys2Proof.Machine

/-- Settles O7: the two branch shapes with the condition of each row, and the bodies of the jumps. -/
theorem branchesAndJumps : Obligations.BranchesAndJumps := by
  refine ⟨fun a b off => ?branches, fun o s y issues => ?j, fun o s y issues => ?jal, fun d a k s y u z issues read => ?jalr⟩
  case branches =>
    refine ⟨.of_branchForm (execBeq a b off) rfl (fun _ => rfl) rfl beq_eq_decide,
      .of_branchForm (execBne a b off) rfl (fun _ => rfl) rfl bne_eq_decide_ne,
      .of_branchForm (execBlt a b off) rfl (fun _ => rfl) rfl fun _ _ => BitVec.slt_eq_decide,
      .of_branchForm (execBge a b off) rfl (fun _ => rfl) rfl sle_eq_decide_ge,
      .of_branchForm (execBltu a b off) rfl (fun _ => rfl) rfl fun _ _ => BitVec.ult_eq_decide,
      .of_branchForm (execBgeu a b off) rfl (fun _ => rfl) rfl ule_eq_decide_ge,
      fun bit o s y u z issues read => ?bbs, fun bit o s y u z issues read => ?bbc⟩
    case bbs => exact leavesThread_of_bitBranchForm (execBbs a bit o) rfl (fun _ => rfl) rfl issues read
    case bbc =>
      have clear := leavesThread_of_bitBranchForm (execBbc a bit o) rfl (fun _ => rfl) rfl issues read
      cases test : u.getLsbD bit.toNat <;> simpa [test] using clear
  case j =>
    rw [← wordTarget_eq]
    exact leavesThread_of_here (body := fun self h => .ok (h.goto (wordTarget self.pc o))) rfl issues rfl
  case jal =>
    rw [← wordTarget_eq]
    exact leavesThread_of_here (body := fun self h => .ok ((h.write 1 (self.pc + 4)).goto (wordTarget self.pc o))) rfl issues rfl
  case jalr =>
    exact ⟨fun word => leavesThread_of_here (exec_jalr d a k s) issues (jalrBody_aligned read word),
      fun noWord => raises_of_here (exec_jalr d a k s) issues (jalrBody_misaligned read noWord)⟩

end

section
/-! PROOFS. The family 04, the domain checks and undo records: what each mode meets at a bank and at a page (R73, R82), and the
record of a line's old bytes (R187, R191). -/

namespace Sys2Proof.Machine

/-! ## Scratch banks (R73, R82) -/

section
variable {h : Chip} {w : Who} {v off : Nat} {ea : Word} (tracked : (h.cluster v).mode (off / 65536) = .scratchT)
include tracked

theorem Chip.readScratch_equiet {n : Nat} (quiet : w.mode = .quiet) : h.readScratch w v off n ea = .error (.fault .equiet ea) := by
  simp only [Chip.readScratch, tracked, quiet]

theorem Chip.writeScratch_equiet {bs : List Byte} (quiet : w.mode = .quiet) :
    h.writeScratch w v off bs ea = .error (.fault .equiet ea) := by
  simp only [Chip.writeScratch, tracked, quiet]

theorem Chip.readScratch_eperm {n : Nat} (spec : w.mode = .spec) (reduced : h.ownReduction v w.uid false off n = true) :
    h.readScratch w v off n ea = .error (.fault .eperm ea) := by
  simp only [Chip.readScratch, tracked, spec, reduced, if_true]

theorem Chip.writeScratch_eperm {bs : List Byte} (spec : w.mode = .spec) (reduced : h.ownReduction v w.uid false off bs.length = true) :
    h.writeScratch w v off bs ea = .error (.fault .eperm ea) := by
  simp only [Chip.writeScratch, tracked, spec, reduced, if_true]

end

/-! ## Global pages (R73) -/

/-- A byte that its station translates, in a region that the driver has not rejected, is found. -/
theorem Chip.resolve_of_translate {h : Chip} {w : Who} {va : Nat} {l : Leaf} (ea : Word) (found : h.translate w.pid va = some l)
    (accepted : regionOf va ∉ w.rejected) : h.resolve w va ea = .ok l := by
  rw [Chip.resolve, if_neg (by simpa using accepted), found]

section
variable {h : Chip} {w : Who} {v va : Nat} {l : Leaf} {ea : Word} (found : (h.warm w.pid va).resolve w va ea = .ok l)
  (unpublished : l.pub = none)
include found unpublished

theorem Chip.readGlobal_host {n : Nat} (host : l.attr = .host) : h.readGlobal w v va n ea = .error (.fault .eperm ea) := by
  simp only [Chip.readGlobal, bind, Except.bind, found, unpublished, host]

theorem Chip.writeGlobal_closed {bs : List Byte} (closed : l.attr = .host ∨ l.attr = .readShared) :
    h.writeGlobal w v va bs ea = .error (.fault .eperm ea) := by
  rcases closed with attr | attr
  all_goals simp only [Chip.writeGlobal, bind, Except.bind, found, unpublished, attr]

theorem Chip.readGlobal_equiet {n : Nat} (coherent : l.attr = .coherent) (quiet : w.mode = .quiet) :
    h.readGlobal w v va n ea = .error (.fault .equiet ea) := by
  simp only [Chip.readGlobal, bind, Except.bind, found, unpublished, coherent, quiet]

theorem Chip.writeGlobal_equiet {bs : List Byte} (coherent : l.attr = .coherent) (quiet : w.mode = .quiet) :
    h.writeGlobal w v va bs ea = .error (.fault .equiet ea) := by
  simp only [Chip.writeGlobal, bind, Except.bind, found, unpublished, coherent, quiet]

end

/-! ## Room and records (R187, R191, R192) -/

/-- A need that the cluster has room for changes nothing. -/
theorem Chip.need_of_enough {h : Chip} {v uid n : Nat} {sig : Bool} (ea : Word) (room : h.room v uid n sig = .enough) :
    h.need v uid n sig ea = .ok h := by
  simp only [Chip.need, Chip.makeRoom, room]

section
variable {h : Chip} {w : Who} {v line : Nat} (ea : Word)

/-- A line that the task has recorded gets no second record. -/
theorem Chip.makeUndo_of_hasUndo (recorded : h.hasUndo v w.uid line = true) : h.makeUndo w v line ea = .ok h := by
  rw [Chip.makeUndo, if_pos recorded]

/-- The record of a line: its 64 bytes and its tags. -/
def Chip.undoOf (h : Chip) (v line : Nat) : LogRec := .undo line ((h.cluster v).scratch.readBytes (64 * line) 64) (h.tag v line)

theorem Chip.makeUndo_of_room (first : h.hasUndo v w.uid line = false) (room : h.room v w.uid 3 false = .enough) :
    h.makeUndo w v line ea = .ok (h.addRecord v w.uid (h.undoOf v line)) := by
  rw [Chip.makeUndo, if_neg (by simp [first]), Chip.need_of_enough ea room]
  rfl

end

@[simp] theorem Chip.cluster_tick (h : Chip) (u : Nat) : h.tick.cluster u = h.cluster u := rfl

/-- A record appended changes the log of its cluster alone. -/
theorem Chip.cluster_addRecord (h : Chip) (v uid u : Nat) (r : LogRec) : (h.addRecord v uid r).cluster u =
    if u = v then { h.cluster v with log := (h.cluster v).log ++ [⟨uid, h.nextSeq, r⟩] } else h.cluster u := by
  rw [Chip.addRecord, Chip.cluster_tick, Chip.cluster_modCluster]

theorem Chip.cluster_addRecord_same (h : Chip) (v uid : Nat) (r : LogRec) :
    (h.addRecord v uid r).cluster v = { h.cluster v with log := (h.cluster v).log ++ [⟨uid, h.nextSeq, r⟩] } := by
  rw [Chip.cluster_addRecord, if_pos rfl]

end Sys2Proof.Machine

open Sys2Proof Sys2Proof.Machine

/-- Settles O17: one lemma for each check of a mode at a bank or a page, and the two outcomes of `Chip.makeUndo`. -/
theorem domainChecksAndUndoRecords : Obligations.DomainChecksAndUndoRecords := by
  refine ⟨fun h w v off n bs ea => ⟨fun tracked quiet => ?quiet, fun tracked spec => ?reduced, fun va l found accepted pub => ?page⟩,
    fun h g w v line ea room made => ⟨fun recorded => ?again, fun first => ?first⟩⟩
  case quiet => exact ⟨Chip.readScratch_equiet tracked quiet, Chip.writeScratch_equiet tracked quiet⟩
  case reduced => exact ⟨Chip.readScratch_eperm tracked spec, Chip.writeScratch_eperm tracked spec⟩
  case page =>
    have found := Chip.resolve_of_translate ea found accepted
    exact ⟨fun host => ⟨Chip.readGlobal_host found pub host, Chip.writeGlobal_closed found pub (.inl host)⟩,
      fun shared => Chip.writeGlobal_closed found pub (.inr shared),
      fun coherent quiet => ⟨Chip.readGlobal_equiet found pub coherent quiet, Chip.writeGlobal_equiet found pub coherent quiet⟩⟩
  case again =>
    rw [Chip.makeUndo_of_hasUndo ea recorded] at made
    exact (Except.ok.inj made).symm
  case first =>
    rw [Chip.makeUndo_of_room ea first room] at made
    obtain rfl := Except.ok.inj made
    rw [Chip.cluster_addRecord_same]
    exact ⟨rfl, rfl, rfl⟩

end

section
/-! PROOFS. The family 04, what an instruction of the thread alone leaves unchanged: memory, tasks and packets, whether it completes,
waits or traps (R55, R105). -/

namespace Sys2Proof.Machine

/-! ## Two chips that differ in a thread alone -/

/-- The chips differ at most in the cores of their clusters. -/
structure Chip.SameButCores (h g : Chip) : Prop where
  cluster : ∀ u, ∃ cores, g.cluster u = { h.cluster u with cores := cores }
  rest : { g with clusters := h.clusters } = h

section
variable {h g k : Chip} {p : At}

theorem Chip.SameButCores.refl (h : Chip) : h.SameButCores h := ⟨fun _ => ⟨_, rfl⟩, rfl⟩

theorem Chip.SameButCores.trans (first : h.SameButCores g) (second : g.SameButCores k) : h.SameButCores k := by
  refine ⟨fun u => ?_, ?_⟩
  · obtain ⟨_, before⟩ := first.cluster u
    obtain ⟨cores, after⟩ := second.cluster u
    exact ⟨cores, by rw [after, before]⟩
  · rw [← first.rest, ← second.rest]

theorem Chip.SameButCores.parts (same : h.SameButCores g) : g.parts = h.parts := by rw [← same.rest]

theorem Chip.SameButCores.regs (same : h.SameButCores g) : g.regs = h.regs := by rw [← same.rest]

theorem Chip.SameButCores.modCores (h : Chip) (v : Nat) (f : Cluster → Map Core) :
    h.SameButCores (h.modCluster v fun k => { k with cores := f k }) := by
  refine ⟨fun u => ?_, rfl⟩
  rw [Chip.cluster_modCluster]
  split
  · subst u; exact ⟨_, rfl⟩
  · exact ⟨_, rfl⟩

theorem Chip.SameButCores.modCore (h : Chip) (v c : Nat) (f : Core → Core) : h.SameButCores (h.modCore v c f) := .modCores ..

theorem Chip.SameButCores.setSlot (h : Chip) (p : At) (x : Slot) : h.SameButCores (h.setSlot p x) := .modCore ..

theorem Chip.SameButCores.setThread (h : Chip) (p : At) (t : Thread) : h.SameButCores (h.setThread p t) := .setSlot ..

theorem Chip.SameButCores.putHere (h : Chip) (p : At) (x : Here) : h.SameButCores (h.putHere p x) :=
  (Chip.SameButCores.setThread ..).trans (.modCore ..)

/-- The end of an instruction leaves the chip, or ends a debug STEP (R135). -/
theorem Chip.endStep_cases (h : Chip) (p : At) : h.endStep p = h ∨
    ∃ t, h.slot p = .live t ∧ h.endStep p = h.setSlot p (.halted { t with stepOnce := false }) := by
  unfold Chip.endStep
  split
  · rename_i t live
    split
    · exact .inr ⟨t, live, rfl⟩
    · exact .inl rfl
  · exact .inl rfl

theorem Chip.SameButCores.endStep (h : Chip) (p : At) : h.SameButCores (h.endStep p) := by
  rcases h.endStep_cases p with same | ⟨t, -, halts⟩
  · rw [same]; exact .refl h
  · rw [halts]; exact .setSlot ..

end

/-! ## Two chips with one memory, and the same tasks and packets -/

/-- The memory of the machine is the same: every scratch bank, device memory, host memory and flash. -/
structure Chip.SameMemory (h g : Chip) : Prop where
  scratch : ∀ u, (g.cluster u).scratch = (h.cluster u).scratch
  hbm : g.hbm = h.hbm
  host : g.host = h.host
  flash : g.flash = h.flash

/-- The tasks and the packets in flight are the same too. -/
structure Chip.SameData (h g : Chip) : Prop extends Chip.SameMemory h g where
  tasks : g.tasks = h.tasks
  flights : g.flights = h.flights

section
variable {h g k : Chip} {p : At}

theorem Chip.SameMemory.trans (first : h.SameMemory g) (second : g.SameMemory k) : h.SameMemory k :=
  ⟨fun u => (second.scratch u).trans (first.scratch u), second.hbm.trans first.hbm, second.host.trans first.host,
    second.flash.trans first.flash⟩

theorem Chip.SameData.refl (h : Chip) : h.SameData h := ⟨⟨fun _ => rfl, rfl, rfl, rfl⟩, rfl, rfl⟩

theorem Chip.SameData.trans (first : h.SameData g) (second : g.SameData k) : h.SameData k :=
  ⟨first.toSameMemory.trans second.toSameMemory, second.tasks.trans first.tasks, second.flights.trans first.flights⟩

theorem Chip.SameButCores.sameData (same : h.SameButCores g) : h.SameData g where
  scratch u := by obtain ⟨_, cluster⟩ := same.cluster u; rw [cluster]
  hbm := by rw [← same.rest]
  host := by rw [← same.rest]
  flash := by rw [← same.rest]
  tasks := by rw [← same.rest]
  flights := by rw [← same.rest]

theorem Chip.SameData.modCluster (h : Chip) (v : Nat) {f : Cluster → Cluster} (keeps : ∀ k, (f k).scratch = k.scratch) :
    h.SameData (h.modCluster v f) where
  scratch u := by
    rw [Chip.cluster_modCluster]
    split
    · subst u; exact keeps _
    · rfl
  hbm := rfl
  host := rfl
  flash := rfl
  tasks := rfl
  flights := rfl

theorem Chip.SameMemory.memoryAfter (same : h.SameMemory g) (v : Nat) : MemoryAfter h g v (h.cluster v).scratch.read :=
  ⟨fun j => by rw [same.scratch v], fun u _ => same.scratch u, same.hbm, same.host, same.flash⟩

/-! ## A trap (R119 to R126) -/

theorem Chip.SameData.notify (h : Chip) (p : At) (n : Word) : h.SameData (h.notify p n) :=
  (Chip.SameButCores.modCore ..).sameData

theorem Chip.SameData.haltAt (h : Chip) (p : At) (t : Thread) : h.SameData (h.haltAt p t) :=
  (Chip.SameButCores.setSlot ..).sameData.trans (.modCluster _ _ fun _ => rfl)

theorem Chip.SameData.freeSlots (h : Chip) (p : At) : h.SameData (h.freeSlots p) := by
  unfold Chip.freeSlots
  split
  · exact ((Chip.SameButCores.setSlot ..).trans (.setSlot ..)).sameData
  · exact (Chip.SameButCores.setSlot ..).sameData

theorem Chip.SameData.tick (h : Chip) : h.SameData h.tick := ⟨⟨fun _ => rfl, rfl, rfl, rfl⟩, rfl, rfl⟩

theorem Chip.SameData.arrive (h : Chip) (v c uid : Nat) : h.SameData (h.arrive v c uid) :=
  (Chip.SameButCores.modCore ..).sameData.trans (.tick _)

theorem Chip.SameData.parkTo (h : Chip) (p : At) (c : Nat) (queued : Bool) : h.SameData (h.parkTo p c queued) := by
  unfold Chip.parkTo
  split
  · exact .refl h
  · refine (Chip.SameData.freeSlots h p).trans ?_
    split
    · exact (Chip.SameData.modCluster _ _ (by intro; rfl)).trans (.arrive ..)
    · exact (Chip.SameData.modCluster _ _ (by intro; rfl)).trans (.tick _)

theorem Chip.SameData.partitionError (h : Chip) (kind pid v core code : Nat) (stamp addr : Word) :
    h.SameData (h.partitionError kind pid v core code stamp addr) := ⟨⟨fun _ => rfl, rfl, rfl, rfl⟩, rfl, rfl⟩

theorem Chip.SameData.raise (h : Chip) (n : Nat) : h.SameData (h.raise n) := ⟨⟨fun _ => rfl, rfl, rfl, rfl⟩, rfl, rfl⟩

/-- However a trap is delivered, memory, tasks and packets stay. -/
theorem Chip.SameData.takeTrap (h : Chip) (p : At) (r : Raised) : h.SameData (h.takeTrap p r) := by
  unfold Chip.takeTrap
  split
  · exact .refl h
  · dsimp only
    split
    · exact ((Chip.SameButCores.setSlot ..).trans (.modCore ..)).sameData.trans
        ((Chip.SameData.notify ..).trans ((Chip.SameData.partitionError ..).trans (.raise ..)))
    split
    · exact (Chip.SameData.haltAt ..).trans (.notify ..)
    split
    · exact .haltAt ..
    split
    · exact (Chip.SameButCores.setThread ..).sameData.trans (.parkTo ..)
    split
    · exact (Chip.SameButCores.setThread ..).sameData
    · exact (Chip.SameData.haltAt ..).trans (.notify ..)

theorem Chip.SameData.stopped (h : Chip) (p : At) (t : Thread) (e : Stop) : h.SameData (h.stopped p t e) := by
  cases e with
  | stall => exact .refl h
  | trap | deferred => exact (Chip.SameData.takeTrap ..).trans (Chip.SameButCores.endStep ..).sameData

end

/-! ## The issue of an instruction of the thread alone -/

/-- However it ends, the chip has the same memory, tasks and packets, and the rest of the state is as it was. -/
theorem issueHere_sameData (f : Form) (s : State) (body : Thread → Here → Except Stop Here) :
    ∃ h, issueHere f s body = .next { s with chip := h } ∧ s.chip.SameData h := by
  have stays : ∃ h, .next s = (.next { s with chip := h } : Host.Outcome State Fault Refusal) ∧ s.chip.SameData h :=
    ⟨s.chip, rfl, .refl _⟩
  have stops : ∀ (x : Here) t e, s.chip.SameData ((s.chip.putHere s.place x).stopped s.place t e) := fun x t e =>
    (Chip.SameButCores.putHere ..).sameData.trans (.stopped ..)
  simp only [issueHere]
  split
  · split
    · exact stays
    · exact ⟨_, rfl, stops ..⟩
    · split
      · exact ⟨_, rfl, ((Chip.SameButCores.putHere ..).trans (.endStep ..)).sameData⟩
      · exact stays
      · exact ⟨_, rfl, stops ..⟩
  · exact stays

theorem aluForm_eq_issueHere (w : Half) (d a b : BitVec 7) (f : Word → Word → Word) (s : State) :
    ∃ form body, aluForm w d a b f s = issueHere form s body := ⟨_, _, rfl⟩

theorem unaryForm_eq_issueHere (w : Half) (d a : BitVec 7) (f : Word → Word) (s : State) :
    ∃ form body, unaryForm w d a f s = issueHere form s body := ⟨_, _, rfl⟩

theorem branchForm_eq_issueHere (w : Half) (a b : BitVec 7) (off : BitVec 9) (c : Word → Word → Bool) (s : State) :
    ∃ form body, branchForm w a b off c s = issueHere form s body := ⟨_, _, rfl⟩

theorem bitBranchForm_eq_issueHere (w : Half) (a : BitVec 7) (bit : BitVec 6) (sense : Bool) (off : BitVec 12) (s : State) :
    ∃ form body, bitBranchForm w a bit sense off s = issueHere form s body := ⟨_, _, rfl⟩

/-- Every instruction of the ALU, BIT and immediate majors, the branches and jumps, FP, FMA and CVT acts on its thread alone. -/
theorem exec_eq_issueHere {i : Instr} {w : Half} (word : encode i = some w)
    (major : 1 ≤ (fld w 26 6).toNat ∧ (fld w 26 6).toNat ≤ 0xB ∨ 0x18 ≤ (fld w 26 6).toNat ∧ (fld w 26 6).toNat ≤ 0x1F)
    (s : State) : ∃ form body, exec i s = issueHere form s body := by
  cases i
  case add | sub | and | or | xor | andn | sll | srl | sra | rol | ror | slt | sltu | min | max | minu | maxu | mul | mulh | mulhu =>
    unfold exec
    exact aluForm_eq_issueHere ..
  case clz | ctz | popc | brev | sextB | sextH | sextW | zextW | addi | andi | ori | xori | slti | sltiu | slli | srli | srai | rori =>
    unfold exec
    exact unaryForm_eq_issueHere ..
  case beq | bne | blt | bge | bltu | bgeu =>
    unfold exec
    exact branchForm_eq_issueHere ..
  case bbs | bbc =>
    unfold exec
    exact bitBranchForm_eq_issueHere ..
  case lui | auipc | j | jal | jalr | faddS | fsubS | fmulS | fdivS | fsqrtS | fminS | fmaxS | feqS | fltS | fleS | fclassS |
      fmaddS | fmsubS | fnmsubS | fnmaddS | cvtSL | cvtSLu | cvtLS | cvtLuS | cvtBf16S | cvtSBf16 | cvtHS | cvtSH | cvtE4m3S |
      cvtSE4m3 | cvtE5m2S | cvtSE5m2 | cvtF4bS | cvtSF4b =>
    unfold exec
    exact ⟨_, _, rfl⟩
  -- an event has no word, and any other word another major
  all_goals cases word
  all_goals simp [(wordR_eq_iff.1 rfl).1, (wordL_eq_iff.1 rfl).1, (wordV_eq_iff.1 rfl).1, (wordVS_eq_iff.1 rfl).1,
    (wordX_eq_iff.1 rfl).1, (wordP_eq_iff.1 rfl).1] at major

/-! ## The thread that stands at a place -/

/-- A debug STEP that ends clears `stepOnce` and leaves the thread and its registers otherwise (R135). -/
theorem Chip.here?_endStep {h : Chip} {p : At} {z : Here} (here : h.here? p = some z) :
    ∃ b, (h.endStep p).here? p = some { z with th := { z.th with stepOnce := b } } := by
  rcases h.endStep_cases p with same | ⟨t, live, halts⟩
  · rw [same]; exact ⟨z.th.stepOnce, here⟩
  · rw [Chip.here?, Chip.thread?, live] at here
    obtain rfl := Option.some.inj here
    rw [halts]
    refine ⟨false, ?_⟩
    rw [Chip.here?, Chip.thread?, Chip.slot_setSlot_same, Chip.file_setSlot]
    rfl

theorem Chip.slot_endStep_ne (h : Chip) {p q : At} (other : q ≠ p) : (h.endStep p).slot q = h.slot q := by
  rcases h.endStep_cases p with same | ⟨t, -, halts⟩
  · rw [same]
  · rw [halts, Chip.slot_setSlot, if_neg other]

@[simp] theorem Chip.file_endStep (h : Chip) (p : At) (v c : Nat) : ((h.endStep p).core v c).file = (h.core v c).file := by
  rcases h.endStep_cases p with same | ⟨t, -, halts⟩
  · rw [same]
  · rw [halts, Chip.file_setSlot]

/-- The registers of every other core stay. -/
theorem Chip.file_putHere_ne (h : Chip) {p : At} (x : Here) {v c : Nat} (other : ¬ (v = p.v ∧ c = p.c)) :
    ((h.putHere p x).core v c).file = (h.core v c).file := by
  rw [Chip.putHere, Chip.core_modCore, if_neg other, Chip.setThread, Chip.file_setSlot]

end Sys2Proof.Machine

open Sys2Proof Sys2Proof.Machine

/-- Settles O18: a thread put back and the end of a debug STEP change nothing else, and no outcome of the issue of an instruction of the
thread alone touches memory, tasks or packets. -/
theorem registerInstructionsStayInTheirThread : Obligations.RegisterInstructionsStayInTheirThread := by
  refine ⟨fun i s f y z issues leaves => ?leaves, fun i w s t word major next => ?outcomes⟩
  case leaves =>
    have same : s.chip.SameButCores ((s.chip.putHere s.place z).endStep s.place) :=
      (Chip.SameButCores.putHere ..).trans (.endStep ..)
    have data := same.sameData
    refine ⟨_, leaves, fun q other => ?_, fun v c other => ?_, Chip.here?_endStep (issues.here z), data.memoryAfter _, data.tasks,
      same.parts, data.flights, same.regs, rfl, rfl⟩
    · exact (Chip.slot_endStep_ne _ other).trans (Chip.slot_putHere_ne _ z other)
    · exact (Chip.file_endStep ..).trans (Chip.file_putHere_ne _ z other)
  case outcomes =>
    obtain ⟨f, body, arm⟩ := exec_eq_issueHere word major s
    obtain ⟨h, issue, data⟩ := issueHere_sameData f s body
    obtain rfl := Host.Outcome.next.inj ((next.symm.trans arm).trans issue)
    exact ⟨data.memoryAfter _, data.tasks, data.flights, rfl, rfl⟩

end

section
/-! PROOFS. The family 04, a scalar access from its issue to its result: what its thread keeps, and the access of a thread that need not
wait (R8, R19, R28, R45, R77). -/

namespace Sys2Proof.Machine

/-! ## The thread at a place -/

/-- The cores of every cluster, and with them every slot and register file, are the same. -/
structure Chip.SameCores (h g : Chip) : Prop where
  cores : ∀ u, (g.cluster u).cores = (h.cluster u).cores

section
variable {h g k : Chip} {p : At} {z : Here}

theorem Chip.SameCores.trans (first : h.SameCores g) (second : g.SameCores k) : h.SameCores k :=
  ⟨fun u => (second.cores u).trans (first.cores u)⟩

theorem Chip.SameCores.here?_eq (same : h.SameCores g) (p : At) : g.here? p = h.here? p := by
  simp only [Chip.here?, Chip.thread?, Chip.slot, Chip.core, same.cores]

theorem Chip.SameCores.modCluster (h : Chip) (v : Nat) {f : Cluster → Cluster} (keeps : ∀ k, (f k).cores = k.cores) :
    h.SameCores (h.modCluster v f) := by
  refine ⟨fun u => ?_⟩
  rw [Chip.cluster_modCluster]
  split
  · subst u; exact keeps _
  · rfl

theorem Chip.SameCores.refl (h : Chip) : h.SameCores h := ⟨fun _ => rfl⟩

theorem Chip.SameCores.tick (h : Chip) : h.SameCores h.tick := ⟨fun _ => rfl⟩

theorem Chip.modThread_of_here? (here : h.here? p = some z) (f : Thread → Thread) : h.modThread p f = h.setThread p (f z.th) := by
  obtain ⟨t, thread, rfl⟩ := Option.map_eq_some_iff.1 here
  simp only [Chip.modThread, thread]

/-- The thread at a place changed stands there with the registers as they were. -/
theorem Chip.here?_modThread (here : h.here? p = some z) (f : Thread → Thread) :
    (h.modThread p f).here? p = some { z with th := f z.th } := by
  rw [Chip.modThread_of_here? here]
  obtain ⟨t, thread, rfl⟩ := Option.map_eq_some_iff.1 here
  rw [Chip.thread?] at thread
  simp [Chip.here?, Chip.thread?, thread, Chip.setThread]

theorem Chip.SameButCores.modThread (h : Chip) (p : At) (f : Thread → Thread) : h.SameButCores (h.modThread p f) := by
  unfold Chip.modThread
  split
  · exact .setThread ..
  · exact .refl h

end

/-! ## What the cores do not hold: the records, tags, signatures, write-throughs and cached lines of a cluster -/

section
variable {h g : Chip} (same : h.SameButCores g) (v : Nat)
include same

theorem Chip.SameButCores.log : (g.cluster v).log = (h.cluster v).log := by
  obtain ⟨_, cluster⟩ := same.cluster v
  rw [cluster]

theorem Chip.SameButCores.sigs : (g.cluster v).sigs = (h.cluster v).sigs := by
  obtain ⟨_, cluster⟩ := same.cluster v
  rw [cluster]

theorem Chip.SameButCores.throughs : (g.cluster v).throughs = (h.cluster v).throughs := by
  obtain ⟨_, cluster⟩ := same.cluster v
  rw [cluster]

theorem Chip.SameButCores.cache : (g.cluster v).cache = (h.cluster v).cache := by
  obtain ⟨_, cluster⟩ := same.cluster v
  rw [cluster]

theorem Chip.SameButCores.tag (line : Nat) : g.tag v line = h.tag v line := by
  obtain ⟨_, cluster⟩ := same.cluster v
  rw [Chip.tag, cluster, Chip.tag]

end

/-! ## The modes of a thread (R22, R73) -/

section
variable {t : Thread}

theorem Thread.who_mode_spec (task : t.sup = false) (logs : t.quiet = false) : t.who.mode = .spec := by simp [Thread.who, task, logs]

theorem Thread.who_mode_super (sup : t.sup = true) : t.who.mode = .super := by simp [Thread.who, sup]

/-- The supervisor and a quiet task keep no log. -/
theorem Thread.who_mode_ne_spec (noLog : t.sup = true ∨ t.quiet = true) : t.who.mode ≠ .spec := by
  rcases noLog with sup | quiet
  · simp [Thread.who, sup]
  · cases sup : t.sup <;> simp [Thread.who, sup, quiet]

end

/-! ## What an access leaves with its thread (R19, R45, R77) -/

/-- The thread `u` is `t` with a result on its way to register d, or as the newest entry of the load-data queue. -/
def Thread.Gains (t u : Thread) (d : BitVec 7) (op : Op) (due : Due) (x : Word) : Prop :=
  if d = 120 then u = { t with ldq := t.ldq ++ [⟨op, .flying (.value x 0)⟩] }
  else u = { t with pend := t.pend ++ [⟨op, due, .reg d, .flying (.value x 0)⟩] }

theorem Thread.gains_iff {t u : Thread} {d : BitVec 7} {op : Op} {due : Due} {x : Word} : t.Gains u d op due x ↔
    u = if d.toNat = 120 then { t with ldq := t.ldq ++ [⟨op, .flying (.value x 0)⟩] }
      else t.addPend ⟨op, due, .reg d, .flying (.value x 0)⟩ := by
  have lq : d = 120 ↔ d.toNat = 120 := BitVec.toNat_inj.symm
  rw [Thread.Gains]
  by_cases queue : d = 120
  · rw [if_pos queue, if_pos (lq.1 queue)]
  · rw [if_neg queue, if_neg (mt lq.2 queue)]; rfl

theorem Thread.keep_load (t : Thread) (n : Nat) (signed : Bool) (op : Op) (due : Due) (d : BitVec 7) (x : Word) :
    t.Gains (t.keep (.load n signed) op due (.reg d) (.flying (.value x 0))) d op due x := Thread.gains_iff.2 rfl

theorem Thread.keep_amo (t : Thread) (k : AmoKind) (op : Op) (due : Due) (d : BitVec 7) (x : Word) :
    t.Gains (t.keep (.amo k) op due (.reg d) (.flying (.value x 0))) d op .next x := Thread.gains_iff.2 rfl

/-! ## An access that need not wait (R8, R28) -/

/-- The chip in which the access performed at `g` has left its result `x` with its thread. -/
def Chip.keeping (g : Chip) (p : At) (a : Access) (op : Op) (due : Due) (dest : Dest) (x : Word) : Chip :=
  g.modThread p fun t => t.keep a op due dest (.flying (.value x 0))

theorem Chip.SameButCores.keeping (g : Chip) (p : At) (a : Access) (op : Op) (due : Due) (dest : Dest) (x : Word) :
    g.SameButCores (g.keeping p a op due dest x) := .modThread ..

theorem Chip.here?_keeping {g : Chip} {p : At} {z : Here} (here : g.here? p = some z) (a : Access) (op : Op) (due : Due) (dest : Dest)
    (x : Word) : (g.keeping p a op due dest x).here? p = some { z with th := z.th.keep a op due dest (.flying (.value x 0)) } :=
  Chip.here?_modThread here _

theorem Chip.here?_keeping_none {g : Chip} {p : At} {z : Here} (here : g.here? p = some z) (a : Access) (op : Op) (due : Due) (x : Word) :
    (g.keeping p a op due .none x).here? p = some z := Chip.here?_keeping here a op due .none x

theorem Chip.launchAccess_of_performAs {h g : Chip} {w : Who} {p : At} {a : Access} {op : Op} {x : Word} (due : Due) (dest : Dest)
    (word : accessOf op.word = some a) (performed : h.performAs w p.v a op = .ok (x, g)) :
    h.launchAccess w p a op due dest = .ok (g.keeping p a op due dest x) := by
  simp only [Chip.launchAccess, Chip.perform, word, performed, Chip.keeping]

section
variable {s : State} {y z : Here} {a : Access} {op : Op} {due : Due} {dest : Dest} {x : Word} {g : Chip}
variable (word : accessOf op.word = some a)
include word

/-- The access of a thread to a bank of its own cluster is what its performance there gives. -/
theorem AtOwnBank.access {mode : BankMode} {off : Nat} (bank : AtOwnBank s y z op.ea a.size mode off)
    (addressable : mode.addressable = true) (acts : (s.holding z).tick.atScratch y.th.who s.place.v off a op = .ok (x, g)) :
    (s.holding z).tick.access y.th s.place a op due dest = .ok (g.keeping s.place a op due dest x) := by
  obtain ⟨place, aligned, modeAt, free⟩ := bank
  have place : accessPlace (s.holding z).tick.v s.place.v op.ea.toNat a.size = some (.here off) := place
  have open_ : ((s.holding z).cluster s.place.v).mode (off / 65536) = mode := modeAt
  have free : (s.holding z).tick.accessHeld s.place y.th op.ea.toNat a.size = false := free
  have performed : (s.holding z).tick.performAs y.th.who s.place.v a op = .ok (x, g) := by
    simp only [Chip.performAs, place, acts]
  simp [Chip.access, place, aligned, open_, addressable, free, Chip.launchAccess_of_performAs due dest word performed]

/-- So is its access to a global page. -/
theorem AtPage.access {l : Leaf} (page : AtPage s y z op.ea a.size l)
    (acts : (s.holding z).tick.atGlobal y.th.who s.place.v op.ea.toNat a op = .ok (x, g)) :
    (s.holding z).tick.access y.th s.place a op due dest = .ok (g.keeping s.place a op due dest x) := by
  obtain ⟨place, aligned, free, -⟩ := page
  have place : accessPlace (s.holding z).tick.v s.place.v op.ea.toNat a.size = some (.global op.ea.toNat) := place
  have free : (s.holding z).tick.accessHeld s.place y.th op.ea.toNat a.size = false := free
  have performed : (s.holding z).tick.performAs y.th.who s.place.v a op = .ok (x, g) := by
    simp only [Chip.performAs, place, acts]
  simp [Chip.access, place, aligned, free, Chip.launchAccess_of_performAs due dest word performed]

end

/-! ## The four kinds of access (R70, R77, R80) -/

/-- The instruction `i` loads n bytes into register field d; up to n bytes stand for `val`. -/
structure IsLoad (i : Instr) (d a : BitVec 7) (k : BitVec 4) (n : Nat) (signed : Bool) (o : BitVec 8) (val : List Byte → Word) :
    Prop where
  arm : ∀ s, exec i s = loadForm (wordOf i) d a k n signed (byteOff o n) s
  word : accessOf (wordOf i) = some (.load n signed)
  value : ∀ bs, bs.length ≤ n → loadValue n signed bs = val bs

/-- The instruction `i` stores the n low bytes of its data field d. -/
structure IsStore (i : Instr) (d a : BitVec 7) (n : Nat) (o : BitVec 8) : Prop where
  arm : ∀ s, exec i s = storeForm (wordOf i) d a n (byteOff o n) s
  word : accessOf (wordOf i) = some (.store n)

/-- The instruction `i` is a returning AMO of kind k, which reads d too where `cas` says so, and writes what `f` gives. -/
structure IsAmo (i : Instr) (d a b : BitVec 7) (k : AmoKind) (cas : Bool) (f : Word → Word → Word → Option Word) : Prop where
  arm : ∀ s, exec i s = amoForm (wordOf i) d a b k s
  word : accessOf (wordOf i) = some (.amo k)
  reads : k = .cas ↔ cas = true
  value : ∀ z y x, k.apply z y (if cas then x else 0) = f z y x

/-- The instruction `i` is a reduction of kind k. -/
structure IsRed (i : Instr) (a b : BitVec 7) (k : RedKind) : Prop where
  arm : ∀ s, exec i s = redForm (wordOf i) a b k s
  word : accessOf (wordOf i) = some (.red k)

section
variable {i : Instr} {d a b : BitVec 7} {s : State} {y z : Here} {u : Word} {g : Chip} {x : Word}

/-- A load that is performed leaves its result with its thread. -/
theorem IsLoad.completes {k : BitVec 4} {n : Nat} {signed : Bool} {o : BitVec 8} {val : List Byte → Word}
    (load : IsLoad i d a k n signed o val)
    (issues : Issues s (accessForm (wordOf i) [.loadDst d, .src a] a (o.signExtend 64 * BitVec.ofNat 64 n) s) y)
    (read : y.passed.read a = .ok (u, z)) {op : Op} (saved : opOf y.th (wordOf i) (effective u o n) 0 0 (s.holding z).nextSeq = op)
    (access : (s.holding z).tick.access y.th s.place (.load n signed) op (.window k.toNat) (.reg d) =
      .ok (g.keeping s.place (.load n signed) op (.window k.toNat) (.reg d) x)) (here : g.here? s.place = some z) :
    ∃ c t, LeavesChip i s c ∧ c.here? s.place = some ⟨t, z.file⟩ ∧ z.th.Gains t d op (.window k.toNat) x ∧
      g.SameButCores c := by
  refine ⟨_, _, leavesChip_of_chip (load.arm s) issues (Eq.trans ?_ access), Chip.here?_keeping here .., Thread.keep_load _ n signed ..,
    .keeping ..⟩
  simp only [bind, Except.bind, issues.read read, ← saved, byteOff, effective]

/-- A store that is performed leaves its thread as its operands do. -/
theorem IsStore.completes {n : Nat} {o : BitVec 8} {w : Word} {h : Here} (store : IsStore i d a n o)
    (issues : Issues s (accessForm (wordOf i) [.data d, .src a] a (o.signExtend 64 * BitVec.ofNat 64 n) s) y)
    (base : y.passed.read a = .ok (u, h)) (data : h.readData d = .ok (w, z)) {op : Op}
    (saved : opOf y.th (wordOf i) (effective u o n) w 0 (s.holding z).nextSeq = op)
    (access : (s.holding z).tick.access y.th s.place (.store n) op .memory .none =
      .ok (g.keeping s.place (.store n) op .memory .none x)) (here : g.here? s.place = some z) :
    ∃ c, LeavesChip i s c ∧ c.here? s.place = some z ∧ g.SameButCores c := by
  refine ⟨_, leavesChip_of_chip (store.arm s) issues (Eq.trans ?_ access), Chip.here?_keeping_none here .., .keeping ..⟩
  simp only [bind, Except.bind, issues.read base, issues.readData data, ← saved, byteOff, effective]

/-- The compared value is read where the AMO is a compare-and-swap. -/
theorem IsAmo.completes {k : AmoKind} {cas : Bool} {f : Word → Word → Word → Option Word} {w e : Word} {h : Here}
    (amo : IsAmo i d a b k cas f)
    (issues : Issues s (accessForm (wordOf i) [if cas then .both d else .loadDst d, .src a, .src b] a 0 s) y)
    (operands : Reads2 y a b u w h) (compared : if cas then h.read d = .ok (e, z) else z = h) {op : Op}
    (saved : opOf y.th (wordOf i) u w (if cas then e else 0) (s.holding z).nextSeq = op)
    (access : (s.holding z).tick.access y.th s.place (.amo k) op .next (.reg d) =
      .ok (g.keeping s.place (.amo k) op .next (.reg d) x)) (here : g.here? s.place = some z) :
    ∃ c t, LeavesChip i s c ∧ c.here? s.place = some ⟨t, z.file⟩ ∧ z.th.Gains t d op .next x ∧ g.SameButCores c := by
  obtain ⟨h', first, second⟩ := operands
  have uses : (if k = .cas then Use.both d else .loadDst d) = if cas then .both d else .loadDst d := by simp only [amo.reads]
  rw [← uses] at issues
  have arm := amo.arm s
  dsimp only [amoForm] at arm
  refine ⟨_, _, leavesChip_of_chip arm issues (Eq.trans ?_ access), Chip.here?_keeping here .., Thread.keep_amo _ k .., .keeping ..⟩
  cases cas with
  | true =>
    have compare : k = .cas := amo.reads.2 rfl
    have third := issues.read (show h.read d = .ok (e, z) from compared)
    simp only [bind, Except.bind, issues.read first, issues.read second, if_pos compare, third, ← saved, if_true]
  | false =>
    have plain : k ≠ .cas := fun compare => Bool.false_ne_true (amo.reads.1 compare)
    obtain rfl : z = h := compared
    simp only [bind, Except.bind, issues.read first, issues.read second, if_neg plain, ← saved, Bool.false_eq_true, if_false]

/-- A reduction that is performed leaves its thread as the performance does. -/
theorem IsRed.completes {k : RedKind} {w : Word} {z' : Here} (red : IsRed i a b k)
    (issues : Issues s (accessForm (wordOf i) [.src a, .src b] a 0 s) y) (operands : Reads2 y a b u w z) {op : Op}
    (saved : opOf y.th (wordOf i) u w 0 (s.holding z).nextSeq = op)
    (access : (s.holding z).tick.access y.th s.place (.red k) op .memory .none =
      .ok (g.keeping s.place (.red k) op .memory .none x)) (here : g.here? s.place = some z') :
    ∃ c, LeavesChip i s c ∧ c.here? s.place = some z' ∧ g.SameButCores c := by
  obtain ⟨h', first, second⟩ := operands
  refine ⟨_, leavesChip_of_chip (red.arm s) issues (Eq.trans ?_ access), Chip.here?_keeping_none here .., .keeping ..⟩
  simp only [bind, Except.bind, issues.read first, issues.read second, ← saved]

end

end Sys2Proof.Machine
end

section
/-! PROOFS. The family 04, accesses to SCRATCH and SCRATCH-T banks: plain loads, stores and atomics (R73, R77). -/

namespace Sys2Proof.Machine

/-! ## Memory around an access -/

section
variable {h h' g k : Chip} {v : Nat} {f : Nat → Byte}

/-- What happens before and after a change of memory and keeps memory does not matter. -/
theorem MemoryAfter.within (before : h.SameMemory h') (change : MemoryAfter h' g v f) (after : g.SameMemory k) : MemoryAfter h k v f := by
  obtain ⟨own, others, hbm, host, flash⟩ := change
  exact ⟨fun j => by rw [after.scratch v, own j], fun u other => ((after.scratch u).trans (others u other)).trans (before.scratch u),
    (after.hbm.trans hbm).trans before.hbm, (after.host.trans host).trans before.host, (after.flash.trans flash).trans before.flash⟩

/-- Bytes put into a scratch bank change nothing else. -/
theorem Chip.memoryAfter_putScratch (h : Chip) (v off : Nat) (bs : List Byte) (canonical : Memory.wf (h.cluster v).scratch = true) :
    MemoryAfter h (h.putScratch v off bs) v fun j =>
      if off ≤ j ∧ j < off + bs.length then bs.getD (j - off) 0 else (h.cluster v).scratch.read j := by
  refine ⟨fun j => ?_, fun u other => ?_, rfl, rfl, rfl⟩
  · rw [Chip.putScratch, Chip.cluster_modCluster, if_pos rfl, Mem.read_writeBytes _ _ _ canonical]
  · rw [Chip.putScratch, Chip.cluster_modCluster, if_neg other]

theorem Chip.SameCores.putScratch (h : Chip) (v off : Nat) (bs : List Byte) : h.SameCores (h.putScratch v off bs) :=
  .modCluster h v (by intro; rfl)

end

@[simp] theorem length_wordBytes (n : Nat) (x : Word) : (wordBytes n x).length = n := length_natToBytes ..

/-! ## The thread that issues, put back -/

section
variable (s : State) (z : Here)

theorem State.sameButCores_holding : s.chip.SameButCores (s.holding z) := .putHere ..

/-- The chip at the start of an access differs from the chip before the instruction in the thread and an order number. -/
theorem State.sameData_ticked : s.chip.SameData (s.holding z).tick := (s.sameButCores_holding z).sameData.trans (.tick _)

/-- A change of memory by an access is one by its instruction. -/
theorem State.memoryAfter_of_access {z : Here} {g c : Chip} {f : Nat → Byte}
    (change : MemoryAfter (s.holding z).tick g s.place.v f) (after : g.SameButCores c) : MemoryAfter s.chip c s.place.v f :=
  change.within (s.sameData_ticked z).toSameMemory after.sameData.toSameMemory

theorem AtOwnBank.mode_ticked {s : State} {y z : Here} {ea : Word} {n off : Nat} {mode : BankMode}
    (bank : AtOwnBank s y z ea n mode off) : ((s.holding z).tick.cluster s.place.v).mode (off / 65536) = mode := by
  obtain ⟨-, -, modeAt, -⟩ := bank
  exact modeAt

@[simp] theorem State.scratch_ticked (v : Nat) : ((s.holding z).tick.cluster v).scratch = (s.chip.cluster v).scratch :=
  (s.sameData_ticked z).scratch v

end

/-! ## SCRATCH banks (R73, R77) -/

section
variable {h : Chip} {w : Who} {v off : Nat} (plain : (h.cluster v).mode (off / 65536) = .scratch)
include plain

theorem Chip.readScratch_plain (w : Who) (n : Nat) (ea : Word) : h.readScratch w v off n ea = .ok (h.scratchBytes v off n, h) := by
  simp only [Chip.readScratch, plain]

theorem Chip.writeScratch_plain (noLog : w.mode ≠ .spec) (bs : List Byte) (ea : Word) :
    h.writeScratch w v off bs ea = .ok (h.putScratch v off bs) := by
  simp only [Chip.writeScratch, plain]

/-- The chip with a doubleword written at an offset, if there is one to write. -/
def Chip.putWord (h : Chip) (v off : Nat) : Option Word → Chip
  | none => h
  | some r => h.putScratch v off (wordBytes 8 r)

/-- An AMO gives the old doubleword and writes the value of its row. -/
theorem Chip.amoScratch_plain (noLog : w.mode ≠ .spec) (k : AmoKind) (y x ea : Word) :
    h.amoScratch w v off k y x ea =
      .ok ((h.cluster v).scratch.read64 off, h.putWord v off (k.apply ((h.cluster v).scratch.read64 off) y x)) := by
  simp only [Chip.amoScratch, bind, Except.bind, Chip.readScratch_plain plain, Chip.writeScratch_plain plain noLog, Chip.scratchBytes,
    Mem.read64]
  cases k.apply (BitVec.ofNat 64 (bytesToNat ((h.cluster v).scratch.readBytes off 8))) y x <;> rfl

end

theorem Chip.SameCores.putWord (h : Chip) (v off : Nat) (r : Option Word) : h.SameCores (h.putWord v off r) := by
  cases r with
  | none => exact .refl h
  | some r => exact .putScratch ..

theorem Chip.memoryAfter_putWord (h : Chip) (v off : Nat) (r : Option Word) (canonical : Memory.wf (h.cluster v).scratch = true) :
    MemoryAfter h (h.putWord v off r) v fun j =>
      match r with
      | some r => if off ≤ j ∧ j < off + 8 then (wordBytes 8 r).getD (j - off) 0 else (h.cluster v).scratch.read j
      | none => (h.cluster v).scratch.read j := by
  cases r with
  | none => exact (Chip.SameData.refl h).memoryAfter v
  | some r =>
    have change := h.memoryAfter_putScratch v off (wordBytes 8 r) canonical
    rwa [length_wordBytes] at change

/-- A returning AMO at a SCRATCH bank. -/
theorem AtomicScratch.of_isAmo {i : Instr} {d a b : BitVec 7} {k : AmoKind} {cas : Bool} {f : Word → Word → Word → Option Word}
    (amo : IsAmo i d a b k cas f) : AtomicScratch i d a b cas f := by
  intro s y u w x h z off issues operands compared bank noLog canonical old v
  have plain := bank.mode_ticked
  have acts := Chip.amoScratch_plain plain (Thread.who_mode_ne_spec noLog) k w (if cas then x else 0) u
  rw [State.scratch_ticked, amo.value] at acts
  obtain ⟨c, t, leaves, here, gains, after⟩ := amo.completes issues operands compared rfl (AtOwnBank.access amo.word bank rfl acts)
    (((Chip.SameCores.putWord ..).here?_eq _).trans (issues.here z))
  have change := (s.holding z).tick.memoryAfter_putWord s.place.v off (f v w x) (by rwa [State.scratch_ticked])
  rw [State.scratch_ticked] at change
  exact ⟨c, t, _, leaves, here, gains, rfl, s.memoryAfter_of_access change after⟩

end Sys2Proof.Machine
end

section
/-! PROOFS. The family 04, reductions at SCRATCH-T (R80 to R83): the record of a task that may be undone, and a reduction applied at
once, whose flags reach the thread. -/

namespace Sys2Proof.Machine

/-! ## Room for a record (R191, R192, R387) -/

section
variable {α β : Type}

/-- A put whose value gives the same list as the value before it, where an unlisted key gives none, keeps the lists joined. -/
theorem Map.flatMap_put_of_eq (m : Map α) (k : Nat) (x d : α) (f : α → List β) (none : f d = []) (same : f x = f (m.getOr k d)) :
    (m.put k x).flatMap (fun p => f p.2) = m.flatMap fun p => f p.2 := by
  induction m with
  | nil => simpa [Map.put, Map.getOr, Map.get, none] using same
  | cons p m ih =>
    obtain ⟨j, y⟩ := p
    rcases lt_trichotomy j k with before | rfl | after
    · rw [Map.put, if_pos before, List.flatMap_cons, List.flatMap_cons]
      rw [ih (by simpa [Map.getOr, Map.get, before, before.ne] using same)]
    · have same : f x = f y := by simpa [Map.getOr, Map.get] using same
      simp [Map.put, same]
    · have same : f x = [] := by simpa [Map.getOr, Map.get, after.ne', after.not_gt, none] using same
      simp [Map.put, after.ne', after.not_gt, same]

theorem Map.get_each (m : Map α) (f : Nat → α → α) (k : Nat) : (m.each f).get k = (m.get k).map (f k) := by
  induction m with
  | nil => rfl
  | cons p m ih =>
    obtain ⟨j, y⟩ := p
    change (if j = k then some (f j y) else if j < k then Map.get (Map.each m f) k else none) = _
    rw [ih, Map.get]
    by_cases here : j = k
    · subst j; simp
    · simp only [if_neg here]; split <;> rfl

end

section
variable {h g : Chip}

/-- A cluster's records are a task's whatever else of the cluster changes. -/
theorem Chip.recordsOf_modCluster (h : Chip) (v : Nat) {f : Cluster → Cluster} (keeps : ∀ k, (f k).log = k.log) (uid : Nat) :
    (h.modCluster v f).recordsOf uid = h.recordsOf uid :=
  Map.flatMap_put_of_eq h.clusters v (f (h.cluster v)) {} (fun k : Cluster => k.log.filter fun e : LogEntry => decide (e.uid = uid))
    rfl (by simp only [keeps]; rfl)

theorem Chip.recordsOf_putHere (h : Chip) (p : At) (x : Here) (uid : Nat) : (h.putHere p x).recordsOf uid = h.recordsOf uid :=
  (Chip.recordsOf_modCluster _ p.v (by intro; rfl) uid).trans (Chip.recordsOf_modCluster h p.v (by intro; rfl) uid)

/-- What room a need meets does not depend on the cores. -/
theorem Chip.room_eq (same : h.SameButCores g) (records : ∀ uid, g.recordsOf uid = h.recordsOf uid) (v uid n : Nat) (sig : Bool) :
    g.room v uid n sig = h.room v uid n sig := by
  have tasks := same.sameData.tasks
  have reservation : ∀ u, g.reservationOf u = h.reservationOf u := fun u => by
    simp only [Chip.reservationOf, Chip.task?, tasks, Chip.part, same.parts]
  obtain ⟨cores, cluster⟩ := same.cluster v
  simp only [Chip.room, Chip.greatestHolder, Chip.floorStamp, Chip.part, same.parts, reservation, records, Chip.task?, tasks, cluster,
    Cluster.reservedUnits, Cluster.reservedSigs, Cluster.logTotal, Cluster.countMode, Cluster.mode]
    <;> rfl

theorem State.room_ticked (s : State) (z : Here) (v uid n : Nat) (sig : Bool) :
    (s.holding z).tick.room v uid n sig = s.chip.room v uid n sig :=
  Chip.room_eq (s.sameButCores_holding z) (Chip.recordsOf_putHere s.chip s.place z) v uid n sig

end

/-! ## A thread found by its task number (R83) -/

section
variable {h : Chip} {p : At} {x : Slot} {z : Here}

theorem Chip.listed_putHere (h : Chip) (p : At) (z : Here) : (h.putHere p z).listed p ((h.slot p).withThread z.th) := by
  refine ⟨_, _, Map.get_put_same .., Map.get_put_same .., ?_⟩
  dsimp only
  rw [Chip.setThread, Chip.setSlot, Chip.modCore]
  simp [Chip.cluster_modCluster]

theorem Chip.listed.putScratch (listed : h.listed p x) (v off : Nat) (bs : List Byte) : (h.putScratch v off bs).listed p x := by
  obtain ⟨k, c, cluster, core, slot⟩ := listed
  by_cases same : p.v = v
  · refine ⟨_, c, (Map.get_put ..).trans (if_pos same), ?_, slot⟩
    have current : h.cluster v = k := by simp [Chip.cluster, Map.getOr, ← same, cluster]
    simpa [current] using core
  · exact ⟨k, c, ((Map.get_put ..).trans (if_neg same)).trans cluster, core, slot⟩

/-- What is done to a task's thread wherever it stands is done to the thread of a listed slot. -/
theorem Chip.here?_mapThread (listed : h.listed p x) (here : h.here? p = some z) (f : Thread → Thread) :
    (h.mapThread z.th.uid f).here? p = some { z with th := f z.th } := by
  obtain ⟨k, c, cluster, core, slot⟩ := listed
  obtain ⟨t, thread, rfl⟩ := Option.map_eq_some_iff.1 here
  have cluster' : (h.mapThread t.uid f).cluster p.v = k.mapThread t.uid f := by
    simp [Chip.cluster, Map.getOr, Chip.mapThread, Map.get_each, cluster]
  have core' : (h.mapThread t.uid f).core p.v p.c = { c with slots := c.slots.each fun _ s => s.mapThread t.uid f } := by
    simp [Chip.core, Map.getOr, cluster', Cluster.mapThread, Map.get_each, core]
  have before : h.core p.v p.c = c := by simp [Chip.core, Chip.cluster, Map.getOr, cluster, core]
  have thread : x.thread? = some t := by simpa [Chip.thread?, Chip.slot, before, Core.slot, slot] using thread
  have mapped : x.mapThread t.uid f = x.withThread (f t) := by simp [Slot.mapThread, thread]
  have thread' : (h.mapThread t.uid f).thread? p = some (f t) := by
    simp [Chip.thread?, Chip.slot, core', Core.slot, Map.get_each, slot, mapped, thread]
  simp [Chip.here?, thread', core', before]

theorem Chip.sameMemory_mapThread (h : Chip) (uid : Nat) (f : Thread → Thread) : h.SameMemory (h.mapThread uid f) where
  scratch u := by
    have each : (h.mapThread uid f).clusters.get u = (h.clusters.get u).map fun k => k.mapThread uid f :=
      Map.get_each h.clusters (fun _ k => k.mapThread uid f) u
    simp only [Chip.cluster, Map.getOr, each]
    cases h.clusters.get u <;> rfl
  hbm := rfl
  host := rfl
  flash := rfl

theorem Here.flag_zero (z : Here) : z.flag 0 = z := by simp [Here.flag]

/-- The flags of what a thread has done at once are raised in it. -/
theorem Chip.here?_raiseFlags (listed : h.listed p x) (here : h.here? p = some z) (f : BitVec 5) :
    (h.raiseFlags z.th.uid f).here? p = some (z.flag f) := by
  unfold Chip.raiseFlags
  split
  · rename_i none; rw [none, Here.flag_zero, here]
  · exact Chip.here?_mapThread listed here _

theorem Chip.sameMemory_raiseFlags (h : Chip) (uid : Nat) (f : BitVec 5) : h.SameMemory (h.raiseFlags uid f) := by
  unfold Chip.raiseFlags
  split
  · exact (Chip.SameData.refl h).toSameMemory
  · exact h.sameMemory_mapThread ..

theorem Thread.uid_past (t : Thread) : t.past.uid = t.uid := by
  simp only [Thread.past]
  split
  · rfl
  split
  · rfl
  split <;> rfl

/-- An operand read leaves the thread's task as it is. -/
theorem Here.uid_of_read {x z : Here} {r : BitVec 7} {u : Word} (read : x.read r = .ok (u, z)) : z.th.uid = x.th.uid := by
  unfold Here.read at read
  split at read
  · split at read
    · cases read
    · split at read
      · obtain ⟨rfl, rfl⟩ := read; rfl
      all_goals cases read
  · obtain ⟨rfl, rfl⟩ := read; rfl

theorem Reads2.uid {y z : Here} {a b : BitVec 7} {u w : Word} (operands : Reads2 y a b u w z) : z.th.uid = y.th.uid := by
  obtain ⟨h, first, second⟩ := operands
  exact (Here.uid_of_read second).trans ((Here.uid_of_read first).trans y.th.uid_past)

end

/-! ## A reduction at SCRATCH-T (R80, R81) -/

section
variable {h : Chip} {w : Who} {v off : Nat} (tracked : (h.cluster v).mode (off / 65536) = .scratchT)
include tracked

theorem Chip.redScratch_spec (task : w.mode = .spec) (k : RedKind) (y ea : Word) (room : h.room v w.uid 1 false = .enough) :
    h.redScratch w v off k y ea = .ok (h.addRecord v w.uid (.red k false off ea y)) := by
  simp only [Chip.redScratch, tracked, task, bind, Except.bind, Chip.need_of_enough ea room, stopOf]

theorem Chip.redScratch_super (sup : w.mode = .super) (k : RedKind) (y ea : Word) :
    h.redScratch w v off k y ea = .ok ((h.putScratch v off (k.apply (h.scratchBytes v off k.size) y)).raiseFlags w.uid
      (k.flags (h.scratchBytes v off k.size) y)) := by
  simp only [Chip.redScratch, tracked, sup]

end

theorem Chip.atScratch_red {h : Chip} {w : Who} {v off : Nat} {k : RedKind} {op : Op} {g : Chip}
    (performed : h.redScratch w v off k op.y op.ea = .ok g) : h.atScratch w v off (.red k) op = .ok (0, g) := by
  simp only [Chip.atScratch, bind, Except.bind, performed]

theorem bytesToNat_lt (bs : List Byte) : bytesToNat bs < 256 ^ bs.length := by
  induction bs with
  | nil => simp [bytesToNat]
  | cons b bs ih => rw [bytesToNat, List.length_cons, pow_succ]; have := b.isLt; omega

/-- A reduction leaves as many bytes as it covers. -/
theorem RedKind.length_apply (k : RedKind) (z : List Byte) (y : Word) : (k.apply z y).length = k.size := by
  cases k with
  | add | or | min | max => exact length_wordBytes ..
  | faddS => exact length_natToBytes ..

theorem Chip.SameCores.addRecord (h : Chip) (v uid : Nat) (r : LogRec) : h.SameCores (h.addRecord v uid r) :=
  (Chip.SameCores.modCluster h v (by intro; rfl)).trans (.tick _)

theorem Chip.SameData.addRecord (h : Chip) (v uid : Nat) (r : LogRec) : h.SameData (h.addRecord v uid r) :=
  (Chip.SameData.modCluster h v (by intro; rfl)).trans (.tick _)

/-- A reduction at SCRATCH-T, from what its kind leaves of the bytes it covers and the flags it raises. -/
theorem Reduces.of_isRed {i : Instr} {a b : BitVec 7} {k : RedKind} {f : List Byte → Word → List Byte}
    {fl : List Byte → Word → BitVec 5} (red : IsRed i a b k) (value : ∀ bs y, bs.length = k.size → k.apply bs y = f bs y)
    (flags : ∀ bs y, k.flags bs y = fl bs y) : Reduces i a b k f fl := by
  intro s y u w z off issues operands bank old
  have tracked := bank.mode_ticked
  have standing : (s.holding z).tick.here? s.place = some z := issues.here z
  refine ⟨fun task logs room => ?spec, fun sup canonical => ?super⟩
  case spec =>
    have performed := Chip.redScratch_spec tracked (Thread.who_mode_spec task logs) k w u
      ((s.room_ticked z ..).trans room)
    obtain ⟨c, leaves, here, after⟩ := red.completes issues operands rfl
      (AtOwnBank.access red.word bank rfl (Chip.atScratch_red performed))
      (((Chip.SameCores.addRecord ..).here?_eq _).trans standing)
    refine ⟨c, (s.holding z).tick.nextSeq, leaves, here, ?_,
      (((s.sameData_ticked z).trans (.addRecord ..)).trans after.sameData).toSameMemory.memoryAfter _⟩
    rw [after.log, Chip.cluster_addRecord_same, Chip.cluster_tick, (s.sameButCores_holding z).log]
    rfl
  case super =>
    have performed := Chip.redScratch_super tracked (Thread.who_mode_super sup) k w u
    rw [Chip.scratchBytes, State.scratch_ticked, value _ _ (Mem.length_readBytes ..), flags] at performed
    have listed : (s.holding z).tick.listed s.place _ := Chip.listed_putHere s.chip s.place z
    have covers : (f (old.readBytes off k.size) w).length = k.size := by
      rw [← value _ _ (Mem.length_readBytes ..), k.length_apply]
    obtain ⟨c, leaves, here, after⟩ := red.completes issues operands rfl
      (AtOwnBank.access red.word bank rfl (Chip.atScratch_red performed))
      (operands.uid ▸ Chip.here?_raiseFlags (listed.putScratch ..) (((Chip.SameCores.putScratch ..).here?_eq _).trans standing) _)
    have change := (s.holding z).tick.memoryAfter_putScratch s.place.v off (f (old.readBytes off k.size) w)
      (by rwa [State.scratch_ticked])
    rw [State.scratch_ticked, covers] at change
    exact ⟨c, leaves, here,
      s.memoryAfter_of_access (change.within (Chip.SameData.refl _).toSameMemory (Chip.sameMemory_raiseFlags ..)) after⟩

/-! ## The forms (R77, R80) -/

theorem accessOf_wordR (d a b : BitVec 7) (fn : BitVec 5) : accessOf (wordR 0x17#6 d a b fn) = atomicOf fn.toNat := by
  obtain ⟨op, -, -, -, function⟩ := wordR_eq_iff.1 (rfl : wordR 0x17#6 d a b fn = _)
  rw [accessOf, major, op, function]
  rfl

/-- An AMO other than CAS, which does not read d. -/
theorem IsAmo.of_value {i : Instr} {d a b : BitVec 7} {k : AmoKind} {f : Word → Word → Word → Option Word}
    (arm : ∀ s, exec i s = amoForm (wordOf i) d a b k s) (word : accessOf (wordOf i) = some (.amo k)) (other : k ≠ .cas)
    (value : ∀ z y, k.apply z y 0 = f z y 0) (ignores : ∀ z y x, f z y x = f z y 0) : IsAmo i d a b k false f :=
  ⟨arm, word, ⟨fun cas => absurd cas other, nofun⟩, fun z y x => (value z y).trans (ignores z y x).symm⟩

section
variable (d a b : BitVec 7)

theorem isAmo_amoSwap : IsAmo (.amoSwap d a b) d a b .swap false fun _ y _ => some y :=
  .of_value (fun _ => rfl) (accessOf_wordR d a b 0) nofun (fun _ _ => rfl) fun _ _ _ => rfl

theorem isAmo_amoAdd : IsAmo (.amoAdd d a b) d a b .add false fun z y _ => some (z + y) :=
  .of_value (fun _ => rfl) (accessOf_wordR d a b 1) nofun (fun _ _ => rfl) fun _ _ _ => rfl

theorem isAmo_amoAnd : IsAmo (.amoAnd d a b) d a b .and false fun z y _ => some (z &&& y) :=
  .of_value (fun _ => rfl) (accessOf_wordR d a b 2) nofun (fun _ _ => rfl) fun _ _ _ => rfl

theorem isAmo_amoOr : IsAmo (.amoOr d a b) d a b .or false fun z y _ => some (z ||| y) :=
  .of_value (fun _ => rfl) (accessOf_wordR d a b 3) nofun (fun _ _ => rfl) fun _ _ _ => rfl

theorem isAmo_amoXor : IsAmo (.amoXor d a b) d a b .xor false fun z y _ => some (z ^^^ y) :=
  .of_value (fun _ => rfl) (accessOf_wordR d a b 4) nofun (fun _ _ => rfl) fun _ _ _ => rfl

theorem isAmo_amoMin : IsAmo (.amoMin d a b) d a b .min false fun z y _ => some (if z.toInt ≤ y.toInt then z else y) :=
  .of_value (fun _ => rfl) (accessOf_wordR d a b 5) nofun (fun z y => congrArg some (if_sle z y z y)) fun _ _ _ => rfl

theorem isAmo_amoMax : IsAmo (.amoMax d a b) d a b .max false fun z y _ => some (if z.toInt ≥ y.toInt then z else y) :=
  .of_value (fun _ => rfl) (accessOf_wordR d a b 6) nofun (fun z y => congrArg some (if_sle y z z y)) fun _ _ _ => rfl

theorem isAmo_amoCas : IsAmo (.amoCas d a b) d a b .cas true fun z y x => if z = x then some y else none :=
  ⟨fun _ => rfl, accessOf_wordR d a b 7, ⟨fun _ => rfl, fun _ => rfl⟩, fun _ _ _ => rfl⟩

end

/-- FADD.S adds the four bytes it covers and the low word of its operand (R83). -/
theorem RedKind.apply_faddS (bs : List Byte) (y : Word) (covers : bs.length = 4) :
    RedKind.faddS.apply bs y = natToBytes 4 (sumFp32 [bytesToNat bs, y.toNat % 2 ^ 32]).1 := by
  have bound := bytesToNat_lt bs
  rw [covers] at bound
  rw [RedKind.apply, BitVec.toNat_ofNat, Nat.mod_eq_of_lt (bound.trans (by norm_num))]

end Sys2Proof.Machine

open Sys2Proof Sys2Proof.Machine

/-- Settles O16. An AMO performs one read and one write of its row of R77's table; a reduction appends its record, or writes what its
kind leaves and raises its flags in the thread that its task number names. The result of an AMO to lq waits as an entry of the load-data
queue (log 43), and the flags and the room are those of R83 and R192. -/
theorem atomicsAndReductions : Obligations.AtomicsAndReductions := by
  refine ⟨fun d a b => ⟨?swap, ?add, ?and, ?or, ?xor, ?min, ?max, ?cas⟩, fun a b => ⟨?redAdd, ?redOr, ?redMin, ?redMax, ?redFaddS⟩⟩
  case swap => exact .of_isAmo (isAmo_amoSwap d a b)
  case add => exact .of_isAmo (isAmo_amoAdd d a b)
  case and => exact .of_isAmo (isAmo_amoAnd d a b)
  case or => exact .of_isAmo (isAmo_amoOr d a b)
  case xor => exact .of_isAmo (isAmo_amoXor d a b)
  case min => exact .of_isAmo (isAmo_amoMin d a b)
  case max => exact .of_isAmo (isAmo_amoMax d a b)
  case cas => exact .of_isAmo (isAmo_amoCas d a b)
  case redAdd => exact .of_isRed ⟨fun _ => rfl, accessOf_wordR 0 a b 16⟩ (fun _ _ _ => rfl) fun _ _ => rfl
  case redOr => exact .of_isRed ⟨fun _ => rfl, accessOf_wordR 0 a b 17⟩ (fun _ _ _ => rfl) fun _ _ => rfl
  case redMin =>
    exact .of_isRed ⟨fun _ => rfl, accessOf_wordR 0 a b 18⟩ (fun _ _ _ => congrArg (wordBytes 8) (if_sle ..)) fun _ _ => rfl
  case redMax =>
    exact .of_isRed ⟨fun _ => rfl, accessOf_wordR 0 a b 19⟩ (fun _ _ _ => congrArg (wordBytes 8) (if_sle ..)) fun _ _ => rfl
  case redFaddS => exact .of_isRed ⟨fun _ => rfl, accessOf_wordR 0 a b 20⟩ RedKind.apply_faddS fun _ _ => rfl

end

section
/-! PROOFS. The family 04, loads and stores at the banks of a thread's own cluster (R70, R71, R73, R187, R188). -/

namespace Sys2Proof.Machine

/-! ## The value of a load (R70) -/

/-- A sign-extended load takes the sign of its top byte. -/
theorem sextBytes_eq {n x : Nat} (positive : 0 < n) (bound : x < 2 ^ (8 * n)) :
    sextBytes n x = (BitVec.ofNat (8 * n) x).signExtend 64 := by
  have half : 2 ^ (8 * n) = 2 * 2 ^ (8 * n - 1) := by rw [← pow_succ']; congr 1; omega
  rw [sextBytes, BitVec.signExtend, BitVec.toInt_eq_toNat_cond, BitVec.toNat_ofNat, Nat.mod_eq_of_lt bound]
  by_cases low : x < 2 ^ (8 * n - 1)
  · rw [if_pos low, if_pos (by omega)]; simp
  · rw [if_neg low, if_neg (by omega)]; push_cast; rfl

theorem loadValue_signed {n : Nat} (positive : 0 < n) {bs : List Byte} (short : bs.length ≤ n) :
    loadValue n true bs = (BitVec.ofNat (8 * n) (bytesToNat bs)).signExtend 64 := by
  refine (if_pos rfl).trans (sextBytes_eq positive ((bytesToNat_lt bs).trans_le ?_))
  rw [pow_mul]
  exact Nat.pow_le_pow_right (by norm_num) short

/-! ## The forms (R70, R71) -/

/-- Outside major 0x17 the major alone tells what a word accesses. -/
theorem accessOf_of_major {w w' : Half} (plain : major w ≠ 0x17) (same : major w' = major w) : accessOf w' = accessOf w := by
  simp only [accessOf, same]
  split
  case h_12 atomic => exact absurd atomic plain
  all_goals rfl

theorem accessOf_wordL {op : BitVec 6} {access : Access} (plain : major (wordL op 0 0 0 0) ≠ 0x17)
    (word : accessOf (wordL op 0 0 0 0) = some access) (d b : BitVec 7) (k : BitVec 4) (o : BitVec 8) :
    accessOf (wordL op d b k o) = some access := by
  obtain ⟨code, -⟩ := wordL_eq_iff.1 (rfl : wordL op d b k o = _)
  obtain ⟨code', -⟩ := wordL_eq_iff.1 (rfl : wordL op 0 0 0 0 = _)
  exact (accessOf_of_major plain (by rw [major, major, code, code'])).trans word

section
variable (d a : BitVec 7) (k : BitVec 4) (o : BitVec 8)

theorem isLoad_ldB : IsLoad (.ldB d a k o) d a k 1 true o fun bs => (BitVec.ofNat 8 (bytesToNat bs)).signExtend 64 :=
  ⟨fun _ => rfl, accessOf_wordL (by decide) rfl .., fun _ => loadValue_signed (by decide)⟩

theorem isLoad_ldH : IsLoad (.ldH d a k o) d a k 2 true o fun bs => (BitVec.ofNat 16 (bytesToNat bs)).signExtend 64 :=
  ⟨fun _ => rfl, accessOf_wordL (by decide) rfl .., fun _ => loadValue_signed (by decide)⟩

theorem isLoad_ldW : IsLoad (.ldW d a k o) d a k 4 true o fun bs => (BitVec.ofNat 32 (bytesToNat bs)).signExtend 64 :=
  ⟨fun _ => rfl, accessOf_wordL (by decide) rfl .., fun _ => loadValue_signed (by decide)⟩

theorem isLoad_ldBu : IsLoad (.ldBu d a k o) d a k 1 false o fun bs => BitVec.ofNat 64 (bytesToNat bs) :=
  ⟨fun _ => rfl, accessOf_wordL (by decide) rfl .., fun _ _ => rfl⟩

theorem isLoad_ldHu : IsLoad (.ldHu d a k o) d a k 2 false o fun bs => BitVec.ofNat 64 (bytesToNat bs) :=
  ⟨fun _ => rfl, accessOf_wordL (by decide) rfl .., fun _ _ => rfl⟩

theorem isLoad_ldWu : IsLoad (.ldWu d a k o) d a k 4 false o fun bs => BitVec.ofNat 64 (bytesToNat bs) :=
  ⟨fun _ => rfl, accessOf_wordL (by decide) rfl .., fun _ _ => rfl⟩

theorem isLoad_ldD : IsLoad (.ldD d a k o) d a k 8 false o fun bs => BitVec.ofNat 64 (bytesToNat bs) :=
  ⟨fun _ => rfl, accessOf_wordL (by decide) rfl .., fun _ _ => rfl⟩

theorem isStore_stB : IsStore (.stB d a o) d a 1 o :=
  ⟨fun _ => rfl, accessOf_wordL (by decide) rfl ..⟩

theorem isStore_stH : IsStore (.stH d a o) d a 2 o :=
  ⟨fun _ => rfl, accessOf_wordL (by decide) rfl ..⟩

theorem isStore_stW : IsStore (.stW d a o) d a 4 o :=
  ⟨fun _ => rfl, accessOf_wordL (by decide) rfl ..⟩

theorem isStore_stD : IsStore (.stD d a o) d a 8 o :=
  ⟨fun _ => rfl, accessOf_wordL (by decide) rfl ..⟩

end

/-! ## A SCRATCH bank (R73) -/

section
variable {h g : Chip} {w : Who} {v off n : Nat} {op : Op}

theorem Chip.atScratch_load {bs : List Byte} (signed : Bool) (read : h.readScratch w v off n op.ea = .ok (bs, g)) :
    h.atScratch w v off (.load n signed) op = .ok (loadValue n signed bs, g) := by
  simp only [Chip.atScratch, bind, Except.bind, read]

theorem Chip.atScratch_store (write : h.writeScratch w v off (wordBytes n op.y) op.ea = .ok g) :
    h.atScratch w v off (.store n) op = .ok (0, g) := by
  simp only [Chip.atScratch, bind, Except.bind, write]

end

theorem State.length_scratchBytes (s : State) (v off n : Nat) : ((s.chip.cluster v).scratch.readBytes off n).length ≤ n :=
  (Mem.length_readBytes ..).le

/-- Bytes put at the ticked chip are a change of the memory before the instruction. -/
theorem State.memoryAfter_putScratch (s : State) {z : Here} {g c : Chip} {off n : Nat} (w : Word)
    (before : (s.holding z).tick.SameData g) (after : (g.putScratch s.place.v off (wordBytes n w)).SameButCores c)
    (canonical : Memory.wf (s.chip.cluster s.place.v).scratch = true) : MemoryAfter s.chip c s.place.v fun j =>
      if off ≤ j ∧ j < off + n then (wordBytes n w).getD (j - off) 0 else (s.chip.cluster s.place.v).scratch.read j := by
  have same : (g.cluster s.place.v).scratch = (s.chip.cluster s.place.v).scratch := ((s.sameData_ticked z).trans before).scratch _
  have change := g.memoryAfter_putScratch s.place.v off (wordBytes n w) (by rwa [same])
  rw [length_wordBytes, same] at change
  exact s.memoryAfter_of_access (change.within before.toSameMemory (Chip.SameData.refl _).toSameMemory) after

theorem LoadsScratch.of_isLoad {i : Instr} {d a : BitVec 7} {k : BitVec 4} {n : Nat} {signed : Bool} {o : BitVec 8}
    {val : List Byte → Word} (load : IsLoad i d a k n signed o val) : LoadsScratch i d a k n o val := by
  intro s y u z off issues read bank
  have plain := bank.mode_ticked
  have acts := Chip.atScratch_load (op := opOf y.th (wordOf i) (effective u o n) 0 0 (s.holding z).nextSeq) signed
    (Chip.readScratch_plain plain y.th.who n _)
  rw [Chip.scratchBytes, State.scratch_ticked, load.value _ (s.length_scratchBytes ..)] at acts
  obtain ⟨c, t, leaves, here, gains, after⟩ := load.completes issues read rfl (AtOwnBank.access load.word bank rfl acts) (issues.here z)
  exact ⟨c, t, _, leaves, here, gains, rfl, ((s.sameData_ticked z).trans after.sameData).toSameMemory.memoryAfter _⟩

theorem StoresScratch.of_isStore {i : Instr} {d a : BitVec 7} {n : Nat} {o : BitVec 8} (store : IsStore i d a n o) :
    StoresScratch i d a n o := by
  intro s y u w x z off issues base data bank noLog canonical
  have plain := bank.mode_ticked
  obtain ⟨c, leaves, here, after⟩ := store.completes issues base data rfl (AtOwnBank.access store.word bank rfl
    (Chip.atScratch_store (Chip.writeScratch_plain plain (Thread.who_mode_ne_spec noLog) ..)))
    (((Chip.SameCores.putScratch ..).here?_eq _).trans (issues.here z))
  exact ⟨c, leaves, here, s.memoryAfter_putScratch w (.refl _) after canonical⟩

/-! ## Tracked lines (R187, R188) -/

section
variable (h : Chip) (v line uid : Nat)

theorem Chip.tag_putScratch (off : Nat) (bs : List Byte) : (h.putScratch v off bs).tag v line = h.tag v line := by
  rw [Chip.tag, Chip.putScratch, Chip.cluster_modCluster, if_pos rfl, Chip.tag]

theorem Chip.log_putScratch (off : Nat) (bs : List Byte) : ((h.putScratch v off bs).cluster v).log = (h.cluster v).log := by
  rw [Chip.putScratch, Chip.cluster_modCluster, if_pos rfl]

theorem Chip.tag_modTag (f : LineTag → LineTag) : (h.modTag v line f).tag v line = f (h.tag v line) := by
  simp [Chip.tag, Chip.modTag, Chip.cluster_modCluster]

theorem Chip.tag_modSig (f : Signature → Signature) : (h.modSig v uid f).tag v line = h.tag v line := by
  simp only [Chip.tag, Chip.modSig, Chip.cluster_modCluster, if_true]
  split <;> rfl

theorem Chip.SameCores.modTag (f : LineTag → LineTag) : h.SameCores (h.modTag v line f) := .modCluster _ _ (by intro; rfl)

theorem Chip.SameCores.modSig (f : Signature → Signature) : h.SameCores (h.modSig v uid f) :=
  .modCluster _ _ (by intro; split <;> rfl)

theorem Chip.SameData.modTag (f : LineTag → LineTag) : h.SameData (h.modTag v line f) := .modCluster _ _ (by intro; rfl)

theorem Chip.SameData.modSig (f : Signature → Signature) : h.SameData (h.modSig v uid f) :=
  .modCluster _ _ (by intro; split <;> rfl)

/-- A task whose signature is changed has one, old or new, and it is changed. -/
theorem Chip.mem_sigs_modSig (f : Signature → Signature) : ∃ x, x.uid = uid ∧ f x ∈ ((h.modSig v uid f).cluster v).sigs := by
  simp only [Chip.modSig, Chip.cluster_modCluster, if_true]
  split
  · rename_i old
    obtain ⟨x, mem, own⟩ := List.any_eq_true.1 old
    have own := of_decide_eq_true own
    exact ⟨x, own, List.mem_map.2 ⟨x, mem, if_pos own⟩⟩
  · exact ⟨{ uid := uid }, rfl, List.mem_append_right _ (List.mem_singleton.2 rfl)⟩

end

theorem mem_addOnce (xs : List Nat) (x : Nat) : x ∈ addOnce xs x := by
  unfold addOnce
  split
  · rename_i listed; exact List.contains_iff_mem.1 listed
  · exact List.mem_append_right _ (List.mem_singleton.2 rfl)

section
variable {h : Chip} {v line : Nat} (w : Who) (clean : (h.tag v line).u = false)
include clean

/-- A line that no uncommitted task wrote has no writer to abort. -/
theorem Chip.clearWriters_of_clean (t : Word) (n : Nat) : h.clearWriters v line t n = h := by
  cases n with
  | zero => rfl
  | succ n => simp [Chip.clearWriters, clean]

theorem Chip.dupAt_read_of_clean : h.dupAt w v line false = false := by simp [Chip.dupAt, clean]

theorem Chip.dupAt_write_of_clean (own : ∀ x ∈ (h.cluster v).sigs, x.uid = w.uid) : h.dupAt w v line true = false := by
  simp only [Chip.dupAt, clean, Bool.false_and, Bool.false_or, Bool.true_and]
  exact List.any_eq_false.2 fun x mem => by simp [own x mem]

end

/-- The chip after a tracked read of a line that no uncommitted task wrote. -/
def Chip.trackedRead (h : Chip) (w : Who) (v line : Nat) : Chip :=
  (h.modTag v line fun g => { g with rts := maxStamp g.rts w.stamp }).modSig v w.uid fun s =>
    { s with lines := addOnce s.lines (scratchKey line) }

/-- The chip after a tracked write's first effects at such a line: the record of its old bytes and its new tags. -/
def Chip.trackedWrite (h : Chip) (w : Who) (v line : Nat) : Chip :=
  (h.addRecord v w.uid (h.undoOf v line)).modTag v line fun g => { g with wts := w.stamp, u := true, writer := w.uid }

section
variable (h : Chip) (w : Who) (v line : Nat)

theorem Chip.SameCores.trackedRead : h.SameCores (h.trackedRead w v line) :=
  (Chip.SameCores.modTag ..).trans (.modSig ..)

theorem Chip.SameData.trackedRead : h.SameData (h.trackedRead w v line) := (Chip.SameData.modTag ..).trans (.modSig ..)

theorem Chip.tag_trackedRead : (h.trackedRead w v line).tag v line =
    { h.tag v line with rts := maxStamp (h.tag v line).rts w.stamp } := (Chip.tag_modSig ..).trans (Chip.tag_modTag ..)

/-- The line stands in the task's signature. -/
theorem Chip.mem_sigs_trackedRead :
    ∃ x ∈ ((h.trackedRead w v line).cluster v).sigs, x.uid = w.uid ∧ scratchKey line ∈ x.lines := by
  obtain ⟨x, own, mem⟩ := Chip.mem_sigs_modSig (h.modTag v line fun g => { g with rts := maxStamp g.rts w.stamp }) v w.uid
    fun s => { s with lines := addOnce s.lines (scratchKey line) }
  exact ⟨_, mem, own, mem_addOnce ..⟩

theorem Chip.SameCores.trackedWrite : h.SameCores (h.trackedWrite w v line) :=
  (Chip.SameCores.addRecord ..).trans (.modTag ..)

theorem Chip.SameData.trackedWrite : h.SameData (h.trackedWrite w v line) := (Chip.SameData.addRecord ..).trans (.modTag ..)

theorem Chip.tag_trackedWrite : (h.trackedWrite w v line).tag v line =
    { h.tag v line with wts := w.stamp, u := true, writer := w.uid } := by
  rw [Chip.trackedWrite, Chip.tag_modTag, Chip.tag, Chip.cluster_addRecord_same]
  rfl

theorem Chip.log_trackedWrite : ((h.trackedWrite w v line).cluster v).log =
    (h.cluster v).log ++ [⟨w.uid, h.nextSeq, h.undoOf v line⟩] := by
  rw [Chip.trackedWrite, Chip.modTag, Chip.cluster_modCluster, if_pos rfl, Chip.cluster_addRecord_same]

end

section
variable {h : Chip} {w : Who} {v off n : Nat} (tracked : (h.cluster v).mode (off / 65536) = .scratchT) (task : w.mode = .spec)
  (clean : (h.tag v (off / 64)).u = false) (ea : Word)
include tracked task clean

theorem Chip.readScratch_tracked (unreduced : h.ownReduction v w.uid false off n = false)
    (room : h.room v w.uid 0 (!h.hasSig v w.uid) = .enough) : h.readScratch w v off n ea =
      .ok ((h.cluster v).scratch.readBytes off n, h.trackedRead w v (off / 64)) := by
  have track : h.trackRead w v (off / 64) ea = .ok (h.trackedRead w v (off / 64)) := by
    simp only [Chip.trackRead, bind, Except.bind, Chip.need_of_enough ea room, stopOf, Chip.clearWriters_of_clean clean,
      Chip.dupAt_read_of_clean w clean, Bool.false_eq_true, if_false]
    rfl
  have bytes : (h.trackedRead w v (off / 64)).scratchBytes v off n = (h.cluster v).scratch.readBytes off n := by
    rw [Chip.scratchBytes, (Chip.SameData.trackedRead ..).scratch]
  simp only [Chip.readScratch, tracked, task, unreduced, Bool.false_eq_true, if_false, bind, Except.bind, track, bytes]

theorem Chip.writeScratch_tracked {bs : List Byte} (unreduced : h.ownReduction v w.uid false off bs.length = false)
    (room : h.room v w.uid 3 false = .enough) (first : h.hasUndo v w.uid (off / 64) = false)
    (readBefore : (h.tag v (off / 64)).rts.toNat ≤ w.stamp.toNat) (own : ∀ x ∈ (h.cluster v).sigs, x.uid = w.uid) :
    h.writeScratch w v off bs ea = .ok ((h.trackedWrite w v (off / 64)).putScratch v off bs) := by
  have noReader : w.stamp.ult (h.tag v (off / 64)).rts = false := by
    rw [BitVec.ult_eq_decide]; exact decide_eq_false (Nat.not_lt.2 readBefore)
  have track : h.trackWrite w v (off / 64) ea = .ok (h.trackedWrite w v (off / 64), true) := by
    simp only [Chip.trackWrite, bind, Except.bind, Chip.clearWriters_of_clean clean, Chip.dupAt_write_of_clean w clean own, noReader,
      Chip.makeUndo_of_room ea first room, Bool.false_eq_true, if_false]
    rfl
  simp only [Chip.writeScratch, tracked, task, unreduced, Bool.false_eq_true, if_false, bind, Except.bind, track, if_true]

end

theorem LoadsTracked.of_isLoad {i : Instr} {d a : BitVec 7} {k : BitVec 4} {n : Nat} {signed : Bool} {o : BitVec 8}
    {val : List Byte → Word} (load : IsLoad i d a k n signed o val) : LoadsTracked i d a k n o val := by
  intro s y u z off issues read bank task logs h v old unreduced room clean
  have tracked := bank.mode_ticked
  have acts := Chip.atScratch_load (op := opOf y.th (wordOf i) (effective u o n) 0 0 (s.holding z).nextSeq) signed
    (Chip.readScratch_tracked tracked (Thread.who_mode_spec task logs) clean _ unreduced room)
  rw [State.scratch_ticked, load.value _ (s.length_scratchBytes ..)] at acts
  obtain ⟨c, t, leaves, here, gains, after⟩ := load.completes issues read rfl (AtOwnBank.access load.word bank rfl acts)
    (((Chip.SameCores.trackedRead ..).here?_eq _).trans (issues.here z))
  refine ⟨c, t, _, leaves, here, gains, (after.tag ..).trans (Chip.tag_trackedRead ..), ?_,
    (((s.sameData_ticked z).trans (.trackedRead ..)).trans after.sameData).toSameMemory.memoryAfter _⟩
  rw [after.sigs]
  exact Chip.mem_sigs_trackedRead ..

theorem StoresTracked.of_isStore {i : Instr} {d a : BitVec 7} {n : Nat} {o : BitVec 8} (store : IsStore i d a n o) :
    StoresTracked i d a n o := by
  intro s y u w x z off issues base data bank task logs canonical h v old mem unreduced room first clean readBefore own
  have tracked := bank.mode_ticked
  have performed := Chip.writeScratch_tracked (bs := wordBytes n w) tracked (Thread.who_mode_spec task logs) clean (effective u o n)
    (by rwa [length_wordBytes]) room first readBefore own
  obtain ⟨c, leaves, here, after⟩ := store.completes issues base data rfl
    (AtOwnBank.access store.word bank rfl (Chip.atScratch_store performed))
    ((((Chip.SameCores.trackedWrite ..).trans (.putScratch ..)).here?_eq _).trans (issues.here z))
  refine ⟨c, (s.holding z).tick.nextSeq, leaves, here, ?log, ?tag, s.memoryAfter_putScratch w (.trackedWrite ..) after canonical⟩
  case log =>
    rw [after.log, Chip.log_putScratch, Chip.log_trackedWrite, Chip.undoOf, State.scratch_ticked, Chip.cluster_tick,
      (s.sameButCores_holding z).log]
    rfl
  case tag => rw [after.tag, Chip.tag_putScratch, Chip.tag_trackedWrite]; rfl

end Sys2Proof.Machine
end

section
/-! PROOFS. The family 04, loads and stores at PRIVATE and READ-SHARED pages (R73 to R75, R184, R186, R191). -/

namespace Sys2Proof.Machine

/-! ## The lookup of a page (R320) -/

/-- An order number taken before the lookup may be taken after it. -/
theorem Chip.enterPage_tick (h : Chip) (pid region : Nat) (leaf : Word) (level : Nat) :
    h.tick.enterPage pid region leaf level = (h.enterPage pid region leaf level).tick := by
  have path : h.tick.walkPath pid (region * 2 ^ 16) = h.walkPath pid (region * 2 ^ 16) := rfl
  simp only [Chip.enterPage, path]
  rw [List.foldl_hom Chip.tick]
  · rfl
  · intros; rfl

theorem Chip.warm_tick (h : Chip) (pid va : Nat) : h.tick.warm pid va = (h.warm pid va).tick := by
  by_cases held : (h.station pid (regionOf va)).isSome ∨ (h.walkOf pid (regionOf va)).isSome ∨ !h.takesRequest pid (regionOf va)
  · exact (if_pos held).trans (congrArg Chip.tick (if_pos held).symm)
  · refine (if_neg held).trans (Eq.trans ?_ (congrArg Chip.tick (if_neg held).symm))
    have walk : h.tick.walk pid va = h.walk pid va := rfl
    rw [walk]
    cases h.walk pid va with
    | ok => exact h.enterPage_tick ..
    | error => rfl

/-! ## Two chips that differ in cached lines -/

/-- The chips hold the same memory, threads and records; clusters may hold other lines in their caches. -/
structure Chip.SameButCaches (h g : Chip) : Prop where
  cluster : ∀ u, ∃ cache, g.cluster u = { h.cluster u with cache := cache }
  records : ∀ uid, g.recordsOf uid = h.recordsOf uid
  data : h.SameData g

section
variable {h g k : Chip}

theorem Chip.SameButCaches.refl (h : Chip) : h.SameButCaches h := ⟨fun _ => ⟨_, rfl⟩, fun _ => rfl, .refl h⟩

theorem Chip.SameButCaches.trans (first : h.SameButCaches g) (second : g.SameButCaches k) : h.SameButCaches k := by
  refine ⟨fun u => ?_, fun uid => (second.records uid).trans (first.records uid), first.data.trans second.data⟩
  obtain ⟨_, before⟩ := first.cluster u
  obtain ⟨cache, after⟩ := second.cluster u
  exact ⟨cache, by rw [after, before]⟩

theorem Chip.SameButCaches.sameCores (same : h.SameButCaches g) : h.SameCores g := by
  refine ⟨fun u => ?_⟩
  obtain ⟨_, cluster⟩ := same.cluster u
  rw [cluster]

theorem Chip.SameButCaches.throughs (same : h.SameButCaches g) (v : Nat) : (g.cluster v).throughs = (h.cluster v).throughs := by
  obtain ⟨_, cluster⟩ := same.cluster v
  rw [cluster]

theorem Chip.SameButCaches.modCluster (h : Chip) (v : Nat) {f : Cluster → Cluster}
    (keeps : ∀ k, ∃ cache, f k = { k with cache := cache }) : h.SameButCaches (h.modCluster v f) where
  cluster u := by
    rw [Chip.cluster_modCluster]
    split
    · subst u; exact keeps _
    · exact ⟨_, rfl⟩
  records := Chip.recordsOf_modCluster h v fun k => by obtain ⟨_, changed⟩ := keeps k; rw [changed]
  data := .modCluster h v fun k => by obtain ⟨_, changed⟩ := keeps k; rw [changed]

theorem Chip.SameButCaches.tiers (h : Chip) (tiers : Tiers) : h.SameButCaches { h with tiers := tiers } :=
  ⟨fun _ => ⟨_, rfl⟩, fun _ => rfl, ⟨fun _ => rfl, rfl, rfl, rfl⟩, rfl, rfl⟩

theorem Chip.SameButCaches.touchHome (h : Chip) (pa : Nat) (dirty : Bool) : h.SameButCaches (h.touchHome pa dirty) := .tiers ..

/-- A line touched moves through the tiers and changes nothing else (R312, R315). -/
theorem Chip.SameButCaches.touch (h : Chip) (pa : Nat) (dirty : Bool) : h.SameButCaches (h.touch pa dirty) := by
  have entered : ∀ held : Bool, h.SameButCaches (if held then h else h.touchHome pa false) := fun held => by
    cases held with
    | true => exact .refl h
    | false => exact .touchHome ..
  unfold Chip.touch
  split
  · exact .refl h
  · extract_lets slice lines home room tiers done
    have same : h.SameButCaches done := (entered _).trans (.tiers home _)
    split
    · split
      · exact same.trans (.touchHome ..)
      · exact same
    · exact same

/-- A fill changes the cache of its cluster. -/
theorem Cluster.fill_eq (k : Cluster) (c : CacheLine) : ∃ cache, k.fill c = { k with cache := cache } := by
  unfold Cluster.fill
  dsimp only
  split <;> exact ⟨_, rfl⟩

theorem Chip.SameButCaches.warm (h : Chip) (pid va : Nat) : h.SameButCaches (h.warm pid va) := by
  obtain ⟨us, es, warm⟩ := h.warm_eq pid va
  rw [warm]
  exact ⟨fun _ => ⟨_, rfl⟩, fun _ => rfl, ⟨fun _ => rfl, rfl, rfl, rfl⟩, rfl, rfl⟩

end

/-! ## Loads (R73 to R75, R184) -/

section
variable (h : Chip) (v : Nat) (l : Leaf) (n : Nat)

theorem Chip.SameButCaches.cachedRead (fresh : Bool) : h.SameButCaches (h.cachedRead v l n fresh).2 := by
  unfold Chip.cachedRead
  dsimp only
  split
  · exact .modCluster h v fun _ => ⟨_, rfl⟩
  · refine (Chip.SameButCaches.touch h l.pa false).trans ?_
    split
    · exact .refl _
    · exact .modCluster _ v fun k => k.fill_eq _

/-- A load sees the copy of the line in the cluster's cache, or device memory. -/
theorem Chip.bytes_cachedRead : (h.cachedRead v l n false).1 = if l.nc then h.hbm.readBytes l.pa n else h.lineCopy v l.pa n := by
  have memory := (Chip.SameButCaches.touch h l.pa false).data.hbm
  have offset : l.pa - l.pa / 64 * 64 = l.pa % 64 := by omega
  cases uncached : l.nc with
  | true => simp [Chip.cachedRead, uncached, memory]
  | false =>
    simp only [Chip.cachedRead, Chip.lineCopy, uncached, Bool.or_false, Bool.false_eq_true, if_false, offset, memory]
    cases (h.cluster v).cache.find? fun c => decide (c.pa = l.pa / 64 * 64) with
    | some | none => rfl

theorem Chip.length_lineCopy (pa : Nat) : (h.lineCopy v pa n).length ≤ n := by
  unfold Chip.lineCopy
  split
  · exact List.length_take_le ..
  · exact (Mem.length_readBytes ..).le

end

section
variable {h : Chip} {w : Who} {v va n : Nat} {l : Leaf} {ea : Word} (found : (h.warm w.pid va).resolve w va ea = .ok l)
  (unpublished : l.pub = none)
include found unpublished

/-- With no store of its own outstanding a task's load gives what the cluster sees. -/
theorem Chip.readGlobal_of_cached (attr : l.attr = .priv ∨ l.attr = .readShared) (noThroughs : (h.cluster v).throughs = [])
    (noRecords : h.recordsOf w.uid = []) : h.readGlobal w v va n ea = .ok ((h.warm w.pid va).cachedRead v l n false) := by
  have same := (Chip.SameButCaches.warm h w.pid va).trans (.cachedRead (h.warm w.pid va) v l n false)
  have throughs := (same.throughs v).trans noThroughs
  have records := (same.records w.uid).trans noRecords
  rcases attr with attr | attr
  · simp only [Chip.readGlobal, bind, Except.bind, found, unpublished, attr, Chip.withThroughs, throughs, Chip.withRedo, records]
    cases w.mode <;> rfl
  · simp only [Chip.readGlobal, bind, Except.bind, found, unpublished, attr]

end

section
variable {h g : Chip} {w : Who} {v va n : Nat} {op : Op}

theorem Chip.atGlobal_load {r : List Byte × Chip} (signed : Bool) (read : h.readGlobal w v va n op.ea = .ok r) :
    h.atGlobal w v va (.load n signed) op = .ok (loadValue n signed r.1, r.2) := by
  simp only [Chip.atGlobal, bind, Except.bind, read]

theorem Chip.atGlobal_store (write : h.writeGlobal w v va (wordBytes n op.y) op.ea = .ok g) :
    h.atGlobal w v va (.store n) op = .ok (0, g) := by
  simp only [Chip.atGlobal, bind, Except.bind, write]

end

section
variable {s : State} {y z : Here} {ea : Word} {n : Nat} {l : Leaf}

/-- The chip in which an access performs whose page is looked up. -/
def State.lookedUp (s : State) (y z : Here) (ea : Word) : Chip := (s.holding z).tick.warm y.th.pid ea.toNat

theorem AtPage.found (page : AtPage s y z ea n l) : (s.lookedUp y z ea).resolve y.th.who ea.toNat ea = .ok l := by
  obtain ⟨-, -, -, found⟩ := page
  rw [State.lookedUp, Chip.warm_tick]
  exact found

theorem State.sameButCaches_lookedUp (s : State) (y z : Here) (ea : Word) : (s.holding z).tick.SameButCaches (s.lookedUp y z ea) :=
  .warm ..

theorem State.sameData_lookedUp (s : State) (y z : Here) (ea : Word) : s.chip.SameData (s.lookedUp y z ea) :=
  (s.sameData_ticked z).trans (s.sameButCaches_lookedUp y z ea).data

theorem State.log_lookedUp (s : State) (y z : Here) (ea : Word) (v : Nat) :
    ((s.lookedUp y z ea).cluster v).log = (s.chip.cluster v).log := by
  obtain ⟨_, cluster⟩ := (s.sameButCaches_lookedUp y z ea).cluster v
  rw [cluster, ← (s.sameButCores_holding z).log]
  rfl

/-- The lookup leaves the room of a task as it is. -/
theorem State.room_lookedUp (s : State) (y z : Here) (ea : Word) (v uid n : Nat) (sig : Bool) :
    (s.lookedUp y z ea).room v uid n sig = (s.holding z).room v uid n sig := by
  obtain ⟨us, es, warm⟩ := (s.holding z).tick.warm_eq y.th.pid ea.toNat
  rw [State.lookedUp, warm]
  rfl

theorem State.throughs_ticked (s : State) (z : Here) (v : Nat) :
    ((s.holding z).tick.cluster v).throughs = (s.chip.cluster v).throughs := (s.sameButCores_holding z).throughs v

theorem State.lineCopy_lookedUp (s : State) (y z : Here) (ea : Word) (v pa n : Nat) :
    (s.lookedUp y z ea).lineCopy v pa n = s.chip.lineCopy v pa n := by
  obtain ⟨us, es, warm⟩ := (s.holding z).tick.warm_eq y.th.pid ea.toNat
  have cache : ((s.lookedUp y z ea).cluster v).cache = (s.chip.cluster v).cache := by
    rw [State.lookedUp, warm]
    exact (s.sameButCores_holding z).cache v
  rw [Chip.lineCopy, Chip.lineCopy, cache, (s.sameData_lookedUp y z ea).hbm]

end

theorem LoadsPage.of_isLoad {i : Instr} {d a : BitVec 7} {k : BitVec 4} {n : Nat} {signed : Bool} {o : BitVec 8}
    {val : List Byte → Word} (load : IsLoad i d a k n signed o val) : LoadsPage i d a k n o val := by
  intro s y u z l issues read page unpublished attr noThroughs noRecords bs
  have performed := Chip.readGlobal_of_cached (n := n) page.found unpublished attr
    ((s.throughs_ticked z s.place.v).trans noThroughs) noRecords
  have bytes : ((s.lookedUp y z (effective u o n)).cachedRead s.place.v l n false).1 = bs := by
    rw [Chip.bytes_cachedRead, State.lineCopy_lookedUp, (s.sameData_lookedUp y z _).hbm]
  have short : bs.length ≤ n := by
    dsimp only [bs]
    split
    · exact (Mem.length_readBytes ..).le
    · exact s.chip.length_lineCopy ..
  let op := opOf y.th (wordOf i) (effective u o n) 0 0 (s.holding z).nextSeq
  have acts := Chip.atGlobal_load (op := op) signed performed
  have same := (s.sameButCaches_lookedUp y z (effective u o n)).trans (.cachedRead _ s.place.v l n false)
  obtain ⟨c, t, leaves, here, gains, after⟩ := load.completes issues read rfl (page.access load.word acts)
    ((same.sameCores.here?_eq _).trans (issues.here z))
  refine ⟨c, t, op, leaves, here, ?_, rfl,
    (((s.sameData_ticked z).trans same.data).trans after.sameData).toSameMemory.memoryAfter _⟩
  have value : loadValue n signed ((s.lookedUp y z (effective u o n)).cachedRead s.place.v l n false).1 = val bs := by
    rw [bytes, load.value _ short]
  rw [← value]
  exact gains

/-! ## Stores (R74, R75, R186, R191) -/

/-- The chip in which cluster v has a write-through of a PRIVATE line under way, which its own copies show. -/
def Chip.writingThrough (h : Chip) (v uid pa : Nat) (bs : List Byte) : Chip :=
  h.modCluster v fun k => { k.updateCache pa bs with throughs := k.throughs ++ [⟨uid, pa, false, bs⟩] }

/-- The bytes of a first record of a line. -/
def redoBytes (pa : Nat) (bs : List Byte) : Map Byte :=
  (List.range bs.length).foldl (fun m i => m.put (pa - pa / 64 * 64 + i) (bs.getD i 0)) []

theorem Map.get_foldl_put {α : Type} (m : Map α) (x n j : Nat) (f : Nat → α) :
    ((List.range n).foldl (fun m i => m.put (x + i) (f i)) m).get j = if x ≤ j ∧ j < x + n then some (f (j - x)) else m.get j := by
  induction n with
  | zero => rw [if_neg (by omega)]; rfl
  | succ n ih =>
    rw [List.range_succ, List.foldl_append, List.foldl_cons, List.foldl_nil, Map.get_put, ih]
    by_cases last : j = x + n
    · subst j; rw [if_pos rfl, if_pos (by omega), Nat.add_sub_cancel_left]
    · have inside : (x ≤ j ∧ j < x + n) ↔ x ≤ j ∧ j < x + (n + 1) := by omega
      simp only [if_neg last, inside]

theorem get_redoBytes (pa : Nat) (bs : List Byte) (j : Nat) : (redoBytes pa bs).get j =
    if pa % 64 ≤ j ∧ j < pa % 64 + bs.length then some (bs.getD (j - pa % 64) 0) else none := by
  have offset : pa - pa / 64 * 64 = pa % 64 := by omega
  rw [redoBytes, offset]
  exact Map.get_foldl_put [] (pa % 64) bs.length j fun i => bs.getD i 0

section
variable (h : Chip) (v uid pa : Nat) (bs : List Byte)

theorem Chip.SameCores.writingThrough : h.SameCores (h.writingThrough v uid pa bs) := .modCluster _ _ (by intro; rfl)

theorem Chip.SameData.writingThrough : h.SameData (h.writingThrough v uid pa bs) := .modCluster _ _ (by intro; rfl)

theorem Chip.throughs_writingThrough :
    ((h.writingThrough v uid pa bs).cluster v).throughs = (h.cluster v).throughs ++ [⟨uid, pa, false, bs⟩] := by
  rw [Chip.writingThrough, Chip.cluster_modCluster, if_pos rfl]

end

section
variable {h : Chip} {w : Who} {v va : Nat} {l : Leaf} {ea : Word} (found : (h.warm w.pid va).resolve w va ea = .ok l)
  (unpublished : l.pub = none) (attr : l.attr = .priv)
include found unpublished attr

theorem Chip.writeGlobal_through (noLog : w.mode ≠ .spec) (bs : List Byte) :
    h.writeGlobal w v va bs ea = .ok ((h.warm w.pid va).writingThrough v w.uid l.pa bs) := by
  simp only [Chip.writeGlobal, bind, Except.bind, found, unpublished, attr]
  cases mode : w.mode with
  | spec => exact absurd mode noLog
  | quiet | super => rfl

theorem Chip.writeGlobal_redo (task : w.mode = .spec) (noRecords : (h.warm w.pid va).recordsOf w.uid = [])
    (room : (h.warm w.pid va).room v w.uid 3 false = .enough) (bs : List Byte) : h.writeGlobal w v va bs ea =
      .ok ((h.warm w.pid va).addRecord v w.uid (.redo (l.pa / 64 * 64) false (BitVec.ofNat 64 (va / 64 * 64)) (redoBytes l.pa bs))) := by
  simp only [Chip.writeGlobal, bind, Except.bind, found, unpublished, attr, task, Chip.redoWrite, noRecords, List.any_nil,
    Bool.false_eq_true, if_false, Chip.need_of_enough ea room, stopOf]
  rfl

end

theorem StoresPage.of_isStore {i : Instr} {d a : BitVec 7} {n : Nat} {o : BitVec 8} (store : IsStore i d a n o) :
    StoresPage i d a n o := by
  intro s y u w x z l issues base data page unpublished attr v kept
  let h := s.lookedUp y z (effective u o n)
  have same := s.sameButCaches_lookedUp y z (effective u o n)
  have standing : h.here? s.place = some z := (same.sameCores.here?_eq _).trans (issues.here z)
  have throughs : (h.cluster v).throughs = (s.chip.cluster v).throughs := (same.throughs v).trans (s.throughs_ticked z v)
  refine ⟨fun noLog => ?through, fun task logs noRecords room => ?redo⟩
  case through =>
    have performed := Chip.writeGlobal_through (v := v) page.found unpublished attr (Thread.who_mode_ne_spec noLog) (wordBytes n w)
    obtain ⟨c, leaves, here, after⟩ := store.completes issues base data rfl (page.access store.word (Chip.atGlobal_store performed))
      (((Chip.SameCores.writingThrough ..).here?_eq _).trans standing)
    refine ⟨c, leaves, ⟨here, ?_⟩, ?_⟩
    · exact (((s.sameData_lookedUp ..).trans (.writingThrough ..)).trans after.sameData).toSameMemory.memoryAfter _
    · rw [after.throughs, ← throughs]; exact Chip.throughs_writingThrough ..
  case redo =>
    have records : h.recordsOf y.th.uid = [] := (same.records _).trans noRecords
    have room : h.room v y.th.uid 3 false = .enough := (s.room_lookedUp ..).trans room
    have performed := Chip.writeGlobal_redo page.found unpublished attr (Thread.who_mode_spec task logs) records room (wordBytes n w)
    obtain ⟨c, leaves, here, after⟩ := store.completes issues base data rfl (page.access store.word (Chip.atGlobal_store performed))
      (((Chip.SameCores.addRecord ..).here?_eq _).trans standing)
    refine ⟨c, h.nextSeq, redoBytes l.pa (wordBytes n w), leaves, ⟨here, ?_⟩, ?_, ?_, fun j => ?_⟩
    · exact (((s.sameData_lookedUp ..).trans (.addRecord ..)).trans after.sameData).toSameMemory.memoryAfter _
    · rw [after.throughs, Chip.cluster_addRecord_same]; exact throughs
    · rw [after.log, Chip.cluster_addRecord_same, ← s.log_lookedUp y z (effective u o n)]; rfl
    · rw [get_redoBytes, length_wordBytes]

end Sys2Proof.Machine

open Sys2Proof Sys2Proof.Machine

/-- Settles O15. What each form loads or stores is one fact (`IsLoad`, `IsStore`), and what a load or store does at its place is one lemma
for each kind of place: a SCRATCH bank, a page, a SCRATCH-T bank. -/
theorem scratchLoadsAndStores : Obligations.ScratchLoadsAndStores := by
  refine ⟨fun d a k o => ?loads, fun d a o => ?stores, fun d a k o => ⟨?pageLoads, ?trackedLoads⟩,
    fun d a o => ⟨?pageStores, ?trackedStores⟩⟩
  case loads => exact ⟨.of_isLoad (isLoad_ldB ..), .of_isLoad (isLoad_ldBu ..), .of_isLoad (isLoad_ldH ..), .of_isLoad (isLoad_ldHu ..),
    .of_isLoad (isLoad_ldW ..), .of_isLoad (isLoad_ldWu ..), .of_isLoad (isLoad_ldD ..)⟩
  case stores => exact ⟨.of_isStore (isStore_stB ..), .of_isStore (isStore_stH ..), .of_isStore (isStore_stW ..),
    .of_isStore (isStore_stD ..)⟩
  case pageLoads => exact ⟨.of_isLoad (isLoad_ldB ..), .of_isLoad (isLoad_ldBu ..), .of_isLoad (isLoad_ldH ..),
    .of_isLoad (isLoad_ldHu ..), .of_isLoad (isLoad_ldW ..), .of_isLoad (isLoad_ldWu ..), .of_isLoad (isLoad_ldD ..)⟩
  case trackedLoads => exact ⟨.of_isLoad (isLoad_ldB ..), .of_isLoad (isLoad_ldBu ..), .of_isLoad (isLoad_ldH ..),
    .of_isLoad (isLoad_ldHu ..), .of_isLoad (isLoad_ldW ..), .of_isLoad (isLoad_ldWu ..), .of_isLoad (isLoad_ldD ..)⟩
  case pageStores => exact ⟨.of_isStore (isStore_stB ..), .of_isStore (isStore_stH ..), .of_isStore (isStore_stW ..),
    .of_isStore (isStore_stD ..)⟩
  case trackedStores => exact ⟨.of_isStore (isStore_stB ..), .of_isStore (isStore_stH ..), .of_isStore (isStore_stW ..),
    .of_isStore (isStore_stD ..)⟩

end

section
/-! PROOFS. The family 05, the floating-point instructions: the shapes of one, two and three operands, and the operations of
R108 on the exact values of their operands. -/

namespace Sys2Proof.Machine

/-! ## Shapes (R105, R106) -/

section
variable {at_ : State → Prop} {i : Instr} {f : Fmt} {d a b : BitVec 7} {w : Half}

/-- An instruction whose body is `fpUnary` where it issues gives its operation's result. -/
theorem FpOne.of_fpUnary {op g : Rnd → Nat → Nat × BitVec 5}
    (arm : ∀ s, at_ s → exec i s = issueHere (formDA w d a) s fun _ h => fpUnary f d a g h) (word : w = wordOf i)
    (value : ∀ r x, g r x = op r x) : FpOne at_ i f d a op := by
  subst word
  intro s y u z core issues read
  refine leavesThread_of_here (arm s core) issues ?_
  simp only [fpUnary, bind, Except.bind, read, value]
  rfl

/-- An instruction whose body is `fpBinary` where it issues gives its operation's result. -/
theorem FpTwo.of_fpBinary {op g : Rnd → Nat → Nat → Nat × BitVec 5}
    (arm : ∀ s, at_ s → exec i s = issueHere (formDAB w d a b) s fun _ h => fpBinary f d a b g h) (word : w = wordOf i)
    (value : ∀ r x y, g r x y = op r x y) : FpTwo at_ i f d a b op := by
  subst word
  rintro s y u v z core issues ⟨h, first, second⟩
  refine leavesThread_of_here (arm s core) issues ?_
  simp only [fpBinary, bind, Except.bind, first, second, value]
  rfl

/-- An instruction whose body is `fpFused` where it issues gives the fused result. -/
theorem FpThree.of_fpFused {negP negC : Bool}
    (arm : ∀ s, at_ s → exec i s = issueHere (formFused w d a b) s fun _ h => fpFused f d a b negP negC h) (word : w = wordOf i) :
    FpThree at_ i f d a b fun r x y c => f.fma r negP negC x y c := by
  subst word
  rintro s y u v c z core issues ⟨h, ⟨k, first, second⟩, third⟩
  refine leavesThread_of_here (arm s core) issues ?_
  simp only [fpFused, bind, Except.bind, first, second, third]
  rfl

end

/-! ## Sums, differences and products (R108) -/

section
variable (f : Fmt) (r : Rnd) (x y : Nat)

theorem Fmt.add_eq_roundedOr : f.add r false x y = roundedOr f r (addNum r (f.decode x) (f.decode y)) := by
  simp only [Fmt.add, Bool.false_eq_true, if_false]
  cases addNum r (f.decode x) (f.decode y) <;> rfl

theorem Fmt.sub_eq_roundedOr : f.add r true x y = roundedOr f r (addNum r (f.decode x) (negNum (f.decode y))) := by
  simp only [Fmt.add, if_true]
  cases addNum r (f.decode x) (negNum (f.decode y)) <;> rfl

theorem Fmt.mul_eq_roundedOr : f.mul r x y = roundedOr f r (mulNum (f.decode x) (f.decode y)) := by
  rw [Fmt.mul]
  cases mulNum (f.decode x) (f.decode y) <;> rfl

end

end Sys2Proof.Machine

open Sys2Proof Sys2Proof.Machine

/-- Settles O8: each instruction has the shape of its operands, and its sum, difference or product is the exact one rounded. -/
theorem fp32Results : Obligations.Fp32Results := by
  intro d a b
  exact ⟨.of_fpBinary (fun _ _ => rfl) rfl (fp32.add_eq_roundedOr ·),
    .of_fpBinary (fun _ _ => rfl) rfl (fp32.sub_eq_roundedOr ·),
    .of_fpBinary (fun _ _ => rfl) rfl (fp32.mul_eq_roundedOr ·),
    .of_fpBinary (fun _ _ => rfl) rfl fun _ _ _ => rfl,
    .of_fpUnary (fun _ _ => rfl) rfl fun _ _ => rfl,
    .of_fpBinary (fun _ _ => rfl) rfl fun _ _ _ => rfl,
    .of_fpBinary (fun _ _ => rfl) rfl fun _ _ _ => rfl,
    .of_fpBinary (fun _ _ => rfl) rfl fun _ _ _ => rfl,
    .of_fpBinary (fun _ _ => rfl) rfl fun _ _ _ => rfl,
    .of_fpBinary (fun _ _ => rfl) rfl fun _ _ _ => rfl,
    .of_fpUnary (fun _ _ => rfl) rfl fun _ _ => rfl,
    .of_fpFused (fun _ _ => rfl) rfl,
    .of_fpFused (fun _ _ => rfl) rfl,
    .of_fpFused (fun _ _ => rfl) rfl,
    .of_fpFused (fun _ _ => rfl) rfl⟩

end

section
/-! PROOFS. The family 05, rounding: the special operands of R108, R109 and R111, and the values that a format holds (R87, R94). -/

namespace Sys2Proof.Machine

/-! ## Special operands -/

section
variable {f : Fmt} (r : Rnd) {x y : Nat} {s t : Bool} {m n : Nat} {e g : Int}

theorem Fmt.div_zero (a : f.decode x = .fin s m e) (nonzero : m ≠ 0) (b : f.decode y = .fin t 0 g) :
    f.div r x y = (f.signPat (s != t) + f.infPat, flDZ) := by
  simp only [Fmt.div, a, b, if_true, if_neg nonzero]

theorem Fmt.zero_div_zero (a : f.decode x = .fin s 0 e) (b : f.decode y = .fin t 0 g) : f.div r x y = (f.nanPat, flNV) := by
  simp only [Fmt.div, a, b, if_true]

theorem Fmt.inf_div_inf (a : f.decode x = .inf s) (b : f.decode y = .inf t) : f.div r x y = (f.nanPat, flNV) := by
  simp only [Fmt.div, a, b]

theorem Fmt.zero_mul_inf (a : f.decode x = .fin s 0 e) (b : f.decode y = .inf t) : f.mul r x y = (f.nanPat, flNV) := by
  simp only [Fmt.mul, mulNum, a, b, if_true]

theorem Fmt.inf_add_opposite (a : f.decode x = .inf s) (b : f.decode y = .inf (!s)) : f.add r false x y = (f.nanPat, flNV) := by
  simp only [Fmt.add, addNum, a, b, Bool.false_eq_true, if_false, Bool.eq_not_self]

theorem Fmt.sqrt_negative (a : f.decode x = .fin true m e) (nonzero : m ≠ 0) : f.sqrt r x = (f.nanPat, flNV) := by
  simp only [Fmt.sqrt, a, if_neg nonzero, if_true]

theorem Fmt.sqrt_negZero (a : f.decode x = .fin true 0 e) : f.sqrt r x = (f.signPat true, 0) := by
  simp only [Fmt.sqrt, a, if_true]

theorem Fmt.compare_nan (a : f.decode x = .nan s) :
    f.lt x y = (false, flNV) ∧ f.le x y = (false, flNV) ∧ (f.eq x y).1 = false := by
  simp only [Fmt.lt, Fmt.le, Fmt.eq, a, Num.isNan, Bool.true_or, if_true, and_self]

end

/-! ## The patterns of finite values (R87) -/

section
variable (f : Fmt) {x : Nat} {s : Bool} {m : Nat} {e : Int}

/-- The pattern of the magnitude `m · 2^e` where `2^e` is the unit of the last place. -/
def Fmt.magPat (f : Fmt) (m : Nat) (e : Int) : Nat := (e + f.p + f.bias - 1).toNat * 2 ^ f.p + m

/-- A pattern is its sign above its magnitude. -/
theorem Fmt.signPat_add_mod (bound : x < 2 ^ f.width) :
    f.signPat (x / 2 ^ (f.ebits + f.p) % 2 == 1) + x % 2 ^ (f.ebits + f.p) = x := by
  have wide : 2 ^ f.width = 2 ^ (f.ebits + f.p) * 2 := by rw [← Nat.pow_succ]; congr 1; simp only [Fmt.width]; omega
  have top : x / 2 ^ (f.ebits + f.p) < 2 := Nat.div_lt_of_lt_mul (wide ▸ bound)
  have split := Nat.div_add_mod x (2 ^ (f.ebits + f.p))
  generalize x / 2 ^ (f.ebits + f.p) = sign at *
  obtain rfl | rfl : sign = 0 ∨ sign = 1 := by omega
  · simpa [Fmt.signPat] using split
  · simpa [Fmt.signPat] using split

/-- A magnitude is its exponent field above its mantissa field. -/
theorem Fmt.fields_eq_mod (x : Nat) : x / 2 ^ f.p % 2 ^ f.ebits * 2 ^ f.p + x % 2 ^ f.p = x % 2 ^ (f.ebits + f.p) := by
  rw [Nat.add_comm f.ebits, Nat.pow_add, Nat.mod_mul]; ring

/-- The magnitude of a finite value is no more than the greatest: the patterns above it are the infinity and the NaNs. -/
theorem Fmt.mod_le_maxPat (value : f.decode x = .fin s m e) : x % 2 ^ (f.ebits + f.p) ≤ f.maxPat := by
  have fields := f.fields_eq_mod x
  have fraction : x % 2 ^ f.p < 2 ^ f.p := Nat.mod_lt _ (by positivity)
  have exponent : x / 2 ^ f.p % 2 ^ f.ebits < 2 ^ f.ebits := Nat.mod_lt _ (by positivity)
  have magnitude : x % 2 ^ (f.ebits + f.p) < 2 ^ (f.ebits + f.p) := Nat.mod_lt _ (by positivity)
  cases ieee : f.ieee
  · have number : x % 2 ^ (f.ebits + f.p) ≠ 2 ^ (f.ebits + f.p) - 1 := by
      intro nan
      simp [Fmt.decode, ieee, nan] at value
    simp only [Fmt.maxPat, ieee, Bool.false_eq_true, if_false]
    omega
  · have number : x / 2 ^ f.p % 2 ^ f.ebits ≠ 2 ^ f.ebits - 1 := by
      intro special
      simp only [Fmt.decode, ieee, special, and_self, if_true] at value
      split at value <;> cases value
    have below : (x / 2 ^ f.p % 2 ^ f.ebits + 1) * 2 ^ f.p ≤ (2 ^ f.ebits - 1) * 2 ^ f.p := Nat.mul_le_mul_right _ (by omega)
    simp only [Fmt.maxPat, ieee, if_true]
    rw [Nat.add_mul, Nat.one_mul] at below
    omega

/-- `m · 2^e` is a magnitude of the format in units of its last place: a zero or subnormal, or a normal. -/
def Fmt.Held (f : Fmt) (m : Nat) (e : Int) : Prop :=
  m < 2 ^ f.p ∧ e = 1 - f.bias - f.p ∨ 2 ^ f.p ≤ m ∧ m < 2 ^ (f.p + 1) ∧ 1 - f.bias - f.p ≤ e

/-- A pattern that decodes to a finite value holds its sign and its magnitude. -/
theorem Fmt.held_of_decode (value : f.decode x = .fin s m e) :
    s = (x / 2 ^ (f.ebits + f.p) % 2 == 1) ∧ f.magPat m e = x % 2 ^ (f.ebits + f.p) ∧ f.Held m e := by
  have fraction : x % 2 ^ f.p < 2 ^ f.p := Nat.mod_lt _ (by positivity)
  rw [← f.fields_eq_mod]
  simp only [Fmt.decode] at value
  split at value
  · split at value <;> cases value
  split at value
  · cases value
  split at value
  next subnormal =>
    cases value
    refine ⟨rfl, ?_, .inl ⟨fraction, rfl⟩⟩
    rw [subnormal, Fmt.magPat, show (1 - (f.bias : Int) - f.p + f.p + f.bias - 1).toNat = 0 by omega]
  next normal =>
    cases value
    have double : 2 ^ (f.p + 1) = 2 ^ f.p + 2 ^ f.p := by rw [Nat.pow_succ]; omega
    generalize x / 2 ^ f.p % 2 ^ f.ebits = ex at *
    refine ⟨rfl, ?_, .inr ⟨by omega, by omega, by omega⟩⟩
    obtain ⟨ex, rfl⟩ := Nat.exists_eq_succ_of_ne_zero normal
    rw [Fmt.magPat, show (((ex + 1 : Nat) : Int) - f.bias - f.p + f.p + f.bias - 1).toNat = ex by omega, Nat.succ_mul]
    omega

end

/-! ## A value that a format holds rounds to itself (R94) -/

section
variable {f : Fmt} (r : Rnd) (neg : Bool) {m : Nat} {e : Int}

theorem cutAt_self : cutAt m e e = (m, 0, 0) := by simp [cutAt, Nat.mod_one]

/-- A whole number of units stays. -/
theorem roundsUp_exact (lo k : Nat) : roundsUp r neg lo 0 k false = false := by
  have part : 0 ≠ 2 ^ k := (Nat.two_pow_pos k).ne
  cases r <;> simp [roundsUp, part]

/-- A zero is held in the units of the subnormals, and its magnitude has the pattern 0. -/
theorem Fmt.Held.magPat_zero (held : f.Held 0 e) : f.magPat 0 e = 0 := by
  rcases held with ⟨-, unit⟩ | ⟨large, -⟩
  · rw [Fmt.magPat, show (e + f.p + f.bias - 1).toNat = 0 by omega, Nat.zero_mul]
  · exact absurd large (Nat.two_pow_pos f.p).not_ge

/-- The rounding of a non-zero value cuts it at the unit of its own last place. -/
theorem Fmt.Held.unit_eq (held : f.Held m e) (nonzero : m ≠ 0) : max (Nat.log2 m + e) (1 - (f.bias : Int)) - f.p = e := by
  rcases held with ⟨small, unit⟩ | ⟨large, small, unit⟩
  · have : Nat.log2 m < f.p := (Nat.log2_lt nonzero).2 small
    omega
  · have : Nat.log2 m = f.p := (Nat.log2_eq_iff nonzero).2 ⟨large, small⟩
    omega

/-- A value that the format holds is its own rounding, in every mode, with no flag. -/
theorem Fmt.roundMag_held (held : f.Held m e) (finite : f.magPat m e ≤ f.maxPat) :
    f.roundMag r neg m e false = (f.signPat neg + f.magPat m e, 0) := by
  by_cases zero : m = 0
  case pos =>
    subst zero
    rw [held.magPat_zero, Fmt.roundMag, if_pos ⟨rfl, rfl⟩, Nat.add_zero]
  case neg =>
    simp only [Fmt.magPat] at finite ⊢
    simp only [Fmt.roundMag, zero, false_and, if_false, held.unit_eq zero, cutAt_self, roundsUp_exact, Bool.false_eq_true]
    generalize (e + f.p + f.bias - 1).toNat * 2 ^ f.p = base at *
    have beyond : ¬ f.maxPat < base + m := by omega
    cases r <;> simp [flagIf, beyond, Nat.add_assoc]

/-- A finite value of a format rounds to its own pattern. -/
theorem Fmt.round_decode {x : Nat} {s : Bool} (bound : x < 2 ^ f.width) (value : f.decode x = .fin s m e) :
    f.round r (f.decode x) = (x, 0) := by
  obtain ⟨sign, magnitude, held⟩ := f.held_of_decode value
  have finite : f.magPat m e ≤ f.maxPat := magnitude ▸ f.mod_le_maxPat value
  rw [value, Fmt.round, Fmt.roundMag_held r s held finite, sign, magnitude, f.signPat_add_mod bound]

end

end Sys2Proof.Machine

open Sys2Proof Sys2Proof.Machine

/-- Settles O9: the special operands one by one, and the rounding of a value that the format holds. -/
theorem roundingAndSpecialOperands : Obligations.RoundingAndSpecialOperands := by
  refine ⟨fun f _ r x y => ?special, fun f _ r x s m e bound value => Fmt.round_decode r bound value⟩
  case special =>
    exact ⟨fun _ _ _ _ _ dividend nonzero divisor => Fmt.div_zero r dividend nonzero divisor,
      fun _ _ _ _ dividend divisor => Fmt.zero_div_zero r dividend divisor,
      fun _ _ dividend divisor => Fmt.inf_div_inf r dividend divisor,
      fun _ _ _ zero infinite => Fmt.zero_mul_inf r zero infinite,
      fun _ first second => Fmt.inf_add_opposite r first second,
      fun _ _ negative nonzero => Fmt.sqrt_negative r negative nonzero,
      fun _ zero => Fmt.sqrt_negZero r zero,
      fun _ nan => Fmt.compare_nan nan⟩

end

section
/-! PROOFS. The family 06, conversions: what the body of each conversion does once its operands are read (R113 to R115). -/

namespace Sys2Proof.Machine

/-! ## Integers (R113) -/

section
variable (f : Fmt) (d a : BitVec 7) {h z : Here} {u : Word} (read : h.read a = .ok (u, z))
include read

theorem fpFromInt_of_read : fpFromInt f d a h = .ok (z.result d (f.round z.rnd (numOf u.toInt 0 false))) := by
  simp only [fpFromInt, bind, Except.bind, read, Fmt.ofInt]

theorem fpFromNat_of_read : fpFromNat f d a h = .ok (z.result d (f.round z.rnd (numOf u.toNat 0 false))) := by
  simp only [fpFromNat, bind, Except.bind, read, Fmt.ofInt]

theorem fpToInt_of_read (lo hi : Int) : fpToInt f lo hi d a h =
    .ok ((z.write d (f.toInt64 z.rnd lo hi (patOf f u)).1).flag (f.toInt64 z.rnd lo hi (patOf f u)).2) := by
  simp only [fpToInt, bind, Except.bind, read]

end

/-- An FP64 operand is the whole register (R105). -/
theorem patOf_fp64 (u : Word) : patOf fp64 u = u.toNat := Nat.mod_eq_of_lt u.isLt

/-! ## Narrowing (R94, R114) -/

/-- The mode of a narrowing conversion whose next draw is `u`: FRM = 4 rounds stochastically. -/
def Here.narrowRnd (z : Here) (u : Half) : Rnd := if z.th.frm = 4 then .sr u else z.rnd

/-- The thread once a narrowing conversion has taken its draw, if it takes one. -/
def Here.drawn (z : Here) : Here := z.takeDraws (if z.th.frm = 4 then 1 else 0)

theorem Here.narrow_eq (z : Here) (u : Half) (d : BitVec 7) (op : Rnd → Nat × BitVec 5) :
    (if z.th.frm = 4 then .ok ((z.takeDraws 1).result d (op (.sr u))) else .ok (z.result d (op z.rnd)) : Except Stop Here) =
      .ok (z.drawn.result d (op (z.narrowRnd u))) := by
  unfold Here.drawn Here.narrowRnd
  split <;> rfl

theorem fpNarrow_of_read (u : Half) (d a : BitVec 7) (op : Rnd → Word → Nat × BitVec 5) {h z : Here} {x : Word}
    (read : h.read a = .ok (x, z)) : fpNarrow u d a op h = .ok (z.drawn.result d (op (z.narrowRnd u) x)) := by
  simp only [fpNarrow, bind, Except.bind, read]
  exact z.narrow_eq u d (op · x)

/-- An instruction whose body is `fpNarrow` with the next draw converts its operand's pattern. -/
theorem Narrows.of_fpNarrow {at_ : State → Prop} {i : Instr} {src dst : Fmt} {d a : BitVec 7} {w : Half}
    (arm : ∀ s, at_ s → exec i s =
      issueHere (formDA w d a) s fun _ h => fpNarrow (nextDraw s) d a (fun r x => convert src dst r (patOf src x)) h)
    (word : w = wordOf i) : Narrows at_ i src d a fun r x => dst.round r (src.decode x) := by
  subst word
  intro s y u z core issues read
  exact leavesThread_of_here (arm s core) issues (fpNarrow_of_read _ d a _ read)

/-! ## F4B (R115) -/

theorem bits_low_four (x : Word) : bits x 0 4 = x.toNat % 16 := by simp [bits]

theorem bits_low_eight (y : Word) : bits y 0 8 = y.toNat % 256 := by simp [bits]

theorem bits_second_eight (y : Word) : bits y 8 8 = y.toNat / 256 % 256 := rfl

section
variable (d : BitVec 7) {a b : BitVec 7} {y z : Here} {u v : Word} (operands : Reads2 y a b u v z)
include operands

theorem fpF4b_of_reads (draw : Half) : fpF4b draw d a b y.passed = .ok (z.drawn.result d
    (toF4B (z.narrowRnd draw) (v.toNat % 256) (v.toNat / 256 % 256) (fp32.decode (patOf fp32 u)))) := by
  obtain ⟨h, first, second⟩ := operands
  simp only [fpF4b, bind, Except.bind, first, second, bits_low_eight, bits_second_eight]
  exact z.narrow_eq draw d fun r => toF4B r (v.toNat % 256) (v.toNat / 256 % 256) (fp32.decode (patOf fp32 u))

theorem fpOfF4b_of_reads : fpOfF4b d a b y.passed = .ok (z.result d
    (fp32.round z.rnd (decodeF4B (u.toNat % 16) (v.toNat % 256) (v.toNat / 256 % 256)))) := by
  obtain ⟨h, first, second⟩ := operands
  simp only [fpOfF4b, bind, Except.bind, first, second, bits_low_eight, bits_second_eight, bits_low_four]

end

end Sys2Proof.Machine

open Sys2Proof Sys2Proof.Machine

/-- Settles O10: integer conversions by their bodies, conversions between formats by the shape of a narrowing or a widening one, and
the F4B conversions by their bodies. -/
theorem fp32Conversions : Obligations.Fp32Conversions := by
  intro d a b
  refine ⟨?fromInt, ?fromNat, ?toInt, ?toNat, ?bf16, ?fp16, ?e4m3, ?e5m2, ?ofBf16, ?ofFp16, ?ofE4m3, ?ofE5m2, ?toF4b, ?ofF4b⟩
  case fromInt => exact fun s y u z issues read =>
    leavesThread_of_here (body := fun _ h => fpFromInt fp32 d a h) rfl issues (fpFromInt_of_read fp32 d a read)
  case fromNat => exact fun s y u z issues read =>
    leavesThread_of_here (body := fun _ h => fpFromNat fp32 d a h) rfl issues (fpFromNat_of_read fp32 d a read)
  case toInt => exact fun s y u z issues read =>
    leavesThread_of_here (body := fun _ h => fpToInt fp32 (-2 ^ 63) (2 ^ 63 - 1) d a h) rfl issues (fpToInt_of_read fp32 d a read ..)
  case toNat => exact fun s y u z issues read =>
    leavesThread_of_here (body := fun _ h => fpToInt fp32 0 (2 ^ 64 - 1) d a h) rfl issues (fpToInt_of_read fp32 d a read ..)
  case bf16 | fp16 | e4m3 | e5m2 => exact .of_fpNarrow (fun _ _ => rfl) rfl
  case ofBf16 | ofFp16 | ofE4m3 | ofE5m2 => exact .of_fpUnary (fun _ _ => rfl) rfl fun _ _ => rfl
  case toF4b => exact fun s y u v z issues operands =>
    leavesThread_of_here (body := fun _ h => fpF4b (nextDraw s) d a b h) rfl issues (fpF4b_of_reads d operands _)
  case ofF4b => exact fun s y u v z issues operands =>
    leavesThread_of_here (body := fun _ h => fpOfF4b d a b h) rfl issues (fpOfF4b_of_reads d operands)

end

section
/-! PROOFS. The family 06, FP64: on an X64 core its instructions issue as those of FP32 do (R52, R116). -/

open Sys2Proof Sys2Proof.Machine

/-- Settles O11: on an X64 core each instruction issues as one of the base set, with the FP32 form's shape at FP64. -/
theorem fp64Results : Obligations.Fp64Results := by
  intro d a b
  refine ⟨?add, ?sub, ?mul, ?div, ?sqrt, ?min, ?max, ?eq, ?lt, ?le, ?classify, ?madd, ?msub, ?nmsub, ?nmadd, ?widen, ?narrow,
    ?fromInt, ?toInt⟩
  case add => exact .of_fpBinary (fun _ => issueX64_of_x64Place) rfl (fp64.add_eq_roundedOr ·)
  case sub => exact .of_fpBinary (fun _ => issueX64_of_x64Place) rfl (fp64.sub_eq_roundedOr ·)
  case mul => exact .of_fpBinary (fun _ => issueX64_of_x64Place) rfl (fp64.mul_eq_roundedOr ·)
  case div | min | max | eq | lt | le => exact .of_fpBinary (fun _ => issueX64_of_x64Place) rfl fun _ _ _ => rfl
  case sqrt | classify | widen => exact .of_fpUnary (fun _ => issueX64_of_x64Place) rfl fun _ _ => rfl
  case madd | msub | nmsub | nmadd => exact .of_fpFused (fun _ => issueX64_of_x64Place) rfl
  case narrow => exact .of_fpNarrow (fun _ => issueX64_of_x64Place) rfl
  case fromInt =>
    intro s y u z core issues read
    exact leavesThread_of_here (issueX64_of_x64Place core) issues (fpFromInt_of_read fp64 d a read)
  case toInt =>
    intro s y u z core issues read
    rw [← patOf_fp64 u]
    exact leavesThread_of_here (issueX64_of_x64Place core) issues (fpToInt_of_read fp64 d a read ..)

end

section
/-! PROOFS. The family 07, how a trap is taken: nested, held, delivered into its thread, or a halt with a notice (R122 to R125, R134,
R161). -/

namespace Sys2Proof.Machine

/-! ## What a halt and a notice change (R134, R253) -/

@[simp] theorem Chip.slot_notify (h : Chip) (p q : At) (n : Word) : (h.notify p n).slot q = h.slot q :=
  h.slot_modCore_of_slots p.v p.c q fun _ => rfl

/-- A notice is the only one of a core that had none. -/
theorem Chip.notices_notify {h : Chip} {p : At} (none_ : (h.core p.v p.c).notices = []) (n : Word) :
    ((h.notify p n).core p.v p.c).notices = [n] := by
  rw [Chip.notify, Chip.core_modCore_same, none_]
  rfl

@[simp] theorem Chip.notices_setSlot (h : Chip) (p : At) (x : Slot) (v c : Nat) :
    ((h.setSlot p x).core v c).notices = (h.core v c).notices := by
  rw [Chip.setSlot, Chip.core_modCore]
  split
  · rename_i same; obtain ⟨rfl, rfl⟩ := same; rfl
  · rfl

/-- A halted thread's core is that of a slot replaced. -/
theorem Chip.core_haltAt (h : Chip) (p : At) (t : Thread) (v c : Nat) :
    (h.haltAt p t).core v c = (h.setSlot p (.halted { t with stepOnce := false })).core v c :=
  Chip.core_modCluster_of_cores _ _ _ _ fun _ => rfl

@[simp] theorem Chip.slot_haltAt (h : Chip) (p q : At) (t : Thread) :
    (h.haltAt p t).slot q = if q = p then .halted { t with stepOnce := false } else h.slot q := by
  rw [Chip.slot, Chip.core_haltAt, ← Chip.slot, Chip.slot_setSlot]

@[simp] theorem Chip.notices_haltAt (h : Chip) (p : At) (t : Thread) (v c : Nat) :
    ((h.haltAt p t).core v c).notices = (h.core v c).notices := by
  rw [Chip.core_haltAt, Chip.notices_setSlot]

theorem Chip.core_partitionError (h : Chip) (kind pid v core code : Nat) (stamp addr : Word) (u c : Nat) :
    (h.partitionError kind pid v core code stamp addr).core u c = h.core u c := rfl

theorem Chip.core_raise (h : Chip) (n u c : Nat) : (h.raise n).core u c = h.core u c := rfl

/-! ## A thread that leaves its slot (R161) -/

/-- A freed slot is FREE, whether a pair or a thread alone stood there. -/
theorem Chip.slot_freeSlots (h : Chip) (p : At) : (h.freeSlots p).slot p = .free := by
  have apart : p ≠ p.trail := fun same => by
    have := congrArg At.t same
    simp [At.trail] at this
  unfold Chip.freeSlots
  split
  · rw [Chip.slot_setSlot, if_neg apart, Chip.slot_setSlot_same]
  · rw [Chip.slot_setSlot_same]

/-- The length of an inbound queue from which on an entry goes to the overflow area (R140). -/
def Entry.limit (e : Entry) (floor : Bool) : Nat := if floor || e.arrival then 40 else 32

section
variable {k : Core} {e : Entry} {floor : Bool}

theorem Core.enter_of_room (room : k.queue.length < e.limit floor) : k.enter e floor = { k with queue := k.queue ++ [e] } := if_pos room

theorem Core.enter_of_full (full : ¬ k.queue.length < e.limit floor) : k.enter e floor = { k with overflow := k.overflow ++ [e] } :=
  if_neg full

theorem Core.slots_enter (k : Core) (e : Entry) (floor : Bool) : (k.enter e floor).slots = k.slots := by
  by_cases room : k.queue.length < e.limit floor
  · rw [Core.enter_of_room room]
  · rw [Core.enter_of_full room]

end

/-- A packet or an arrival enters its core's queue, and no other core changes (R140). -/
theorem Chip.core_enqueue (h : Chip) (v c uid : Nat) (arrival floor : Bool) (u d : Nat) : (h.enqueue v c uid arrival floor).core u d =
    if u = v ∧ d = c then (h.core v c).enter (freshEntry h uid arrival) floor else h.core u d :=
  h.core_modCore v c u d fun k => k.enter (freshEntry h uid arrival) floor

theorem Chip.arrive_eq_enqueue (h : Chip) (v c uid : Nat) : h.arrive v c uid = h.enqueue v c uid true false := rfl

theorem Chip.slot_enqueue (h : Chip) (v c uid : Nat) (arrival floor : Bool) (q : At) :
    (h.enqueue v c uid arrival floor).slot q = h.slot q := by
  rw [Chip.slot, Chip.core_enqueue]
  split
  · rename_i same
    obtain ⟨hv, hc⟩ := same
    rw [Core.slot, Core.slots_enter, ← hv, ← hc]
    rfl
  · rfl

theorem Chip.parked_enqueue (h : Chip) (v c uid : Nat) (arrival floor : Bool) (u : Nat) :
    ((h.enqueue v c uid arrival floor).cluster u).parked = (h.cluster u).parked := by
  obtain ⟨_, cluster⟩ :=
    (Chip.SameButCores.modCore h v c fun k => k.enter (freshEntry h uid arrival) floor).cluster u
  rw [Chip.enqueue, Chip.cluster_tick]
  exact (congrArg Cluster.parked cluster).trans rfl

section
variable {h : Chip} {p : At} {x : Here} (here : h.here? p = some x) (c : Nat) (queued : Bool)
include here

/-- A thread that leaves its slot is a saved context with its registers; it is queued at its core, or waits. -/
theorem Chip.parkTo_eq : ∃ q f, h.parkTo p c queued = (let g := (h.freeSlots p).modCluster p.v f
      if queued then g.enqueue p.v c x.th.uid true false else g.tick) ∧ (∀ k, (f k).cores = k.cores ∧ (f k).parked = k.parked ++ [q]) ∧
    q.thread = x.th ∧ q.regs = saveFile x.th x.file ∧ q.core = c := by
  simp only [Chip.parkTo, here]
  exact ⟨_, _, rfl, fun _ => ⟨rfl, rfl⟩, rfl, rfl, rfl⟩

theorem Chip.slot_parkTo : (h.parkTo p c queued).slot p = .free := by
  obtain ⟨q, f, parks, keeps, -⟩ := Chip.parkTo_eq here c queued
  have free : ((h.freeSlots p).modCluster p.v f).slot p = .free := by
    rw [Chip.slot, Chip.core_modCluster_of_cores _ _ _ _ fun k => (keeps k).1]
    exact h.slot_freeSlots p
  rw [parks]
  cases queued with
  | true => exact (Chip.slot_enqueue ..).trans free
  | false => exact free

theorem Chip.mem_parked_parkTo :
    ∃ q ∈ ((h.parkTo p c queued).cluster p.v).parked, q.thread = x.th ∧ q.regs = saveFile x.th x.file ∧ q.core = c := by
  obtain ⟨q, f, parks, keeps, saved⟩ := Chip.parkTo_eq here c queued
  have parked : q ∈ (((h.freeSlots p).modCluster p.v f).cluster p.v).parked := by
    rw [Chip.cluster_modCluster, if_pos rfl, (keeps _).2]
    simp
  refine ⟨q, ?_, saved⟩
  rw [parks]
  cases queued with
  | true => exact (Chip.parked_enqueue ..).symm ▸ parked
  | false => exact parked

end

/-! ## The order of delivery (R122 to R124) -/

/-- The thread once its trap is noted (R174) and its rejected regions are reported (R324). -/
def Thread.trapping (t : Thread) (r : Raised) : Thread := { t with rejected := [], trapped := some (r.trap.code, r.tval) }

/-- Such a thread whose reported operation is no longer pending (R121). -/
def Thread.told (t : Thread) (r : Raised) : Thread := { t.trapping r with pend := dropSaved r t.pend }

section
variable {h : Chip} {p : At} {t : Thread} (live : h.slot p = .live t) (r : Raised) (held : Bool)
include live

theorem Chip.thread?_of_live : h.thread? p = some t := by rw [Chip.thread?, live]; rfl

/-- A trap in slot 0 is a nested one: the dispatch stops, and the host is told (R124). -/
theorem Chip.takeTrap_slot0 (slot0 : p.t = 0) : ∃ pid, h.takeTrap p r held =
    (((((h.setSlot p (.halted { t.told r with traps := r.write t.traps })).modCore p.v p.c fun k => { k with stopped := true }).notify p
      (notice 0 true false r.saved.isSome r.trap.code)).partitionError 2 pid p.v p.c r.trap.code 0 0).raise 5) := by
  simp only [Chip.takeTrap, Chip.thread?_of_live live]
  exact ⟨_, if_pos slot0⟩

variable (task : p.t ≠ 0)
include task

/-- A nested trap halts the thread with its first trap's registers (R124). -/
theorem Chip.takeTrap_nested (sup : t.sup = true) : h.takeTrap p r held =
    (h.haltAt p (t.told r)).notify p (notice p.t true false r.saved.isSome r.trap.code) := by
  simp only [Chip.takeTrap, Chip.thread?_of_live live]
  exact (if_neg task).trans (if_pos sup)

variable (mode : t.sup = false) (noBreak : r.trap ≠ .ebreak)
include mode noBreak

/-- A trap in task mode is held, or starts the handler, or halts a thread that has none. -/
theorem Chip.takeTrap_task : h.takeTrap p r held =
    if t.speculative && !h.floorStamp t.pid t.stamp then
      (h.setThread p { t.told r with
        held := some (r.cause, r.epc, r.cpc, r.tval), saved := r.saved, stepOnce := false }).park p false
    else if t.traps.vec ≠ 0 then h.setThread p ((t.trapping r).deliver r)
    else (h.haltAt p { t.told r with traps := r.write t.traps, pc := r.cpc }).notify p
      (notice p.t false held r.saved.isSome r.trap.code) := by
  simp only [Chip.takeTrap, Chip.thread?_of_live live]
  exact (if_neg task).trans ((if_neg (by simp [mode])).trans (if_neg noBreak))

/-- A trap of a non-quiet task that is not the floor task is held (R122). -/
theorem Chip.takeTrap_held (logs : t.speculative = true) (noFloor : h.floorStamp t.pid t.stamp = false) : h.takeTrap p r held =
    (h.setThread p { t.told r with
      held := some (r.cause, r.epc, r.cpc, r.tval), saved := r.saved, stepOnce := false }).park p false := by
  rw [Chip.takeTrap_task live r held task mode noBreak, if_pos (by simp [logs, noFloor])]

variable (ready : t.speculative = false ∨ h.floorStamp t.pid t.stamp = true)
include ready

/-- Any other trap starts the handler, where there is one (R123). -/
theorem Chip.takeTrap_delivers (handler : t.traps.vec ≠ 0) : h.takeTrap p r held = h.setThread p ((t.trapping r).deliver r) := by
  rw [Chip.takeTrap_task live r held task mode noBreak, if_neg (by rcases ready with e | e <;> simp [e]), if_pos handler]

/-- Without a handler the thread halts and the core has a notice (R134). -/
theorem Chip.takeTrap_halts (noHandler : t.traps.vec = 0) : h.takeTrap p r held =
    (h.haltAt p { t.told r with traps := r.write t.traps, pc := r.cpc }).notify p
      (notice p.t false held r.saved.isSome r.trap.code) := by
  rw [Chip.takeTrap_task live r held task mode noBreak, if_neg (by rcases ready with e | e <;> simp [e]), if_neg (by simp [noHandler])]

end

end Sys2Proof.Machine

open Sys2Proof Sys2Proof.Machine

/-- Settles O19: what the machine has become is read off the outcome of each delivery, in the order of R122. -/
theorem trapsAreDeliveredHeldOrHalt : Obligations.TrapsAreDeliveredHeldOrHalt := by
  refine ⟨fun h p t r held live task mode noBreak handler ready => ?delivered,
    fun h p t r live task mode noBreak logs noFloor => ?held, fun h p t r live noBreak quietCore => ⟨?halts, ?nested, ?slot0⟩⟩
  case delivered =>
    rw [Chip.takeTrap_delivers live r held task mode noBreak ready handler]
    refine ⟨(t.trapping r).deliver r, ?_, rfl, rfl, rfl, rfl, rfl, rfl, rfl, rfl, rfl, rfl, rfl, ⟨_, rfl, rfl, rfl, rfl⟩,
      fun q other => ?_, rfl⟩
    · rw [Chip.slot_setThread_same, live]; rfl
    · rw [Chip.setThread, Chip.slot_setSlot, if_neg other]
  case held =>
    rw [Chip.takeTrap_held live r false task mode noBreak logs noFloor]
    set x : Thread := { t.told r with held := some (r.cause, r.epc, r.cpc, r.tval), saved := r.saved, stepOnce := false }
    have here : (h.setThread p x).here? p = some ⟨x, (h.core p.v p.c).file⟩ := by
      rw [Chip.here?, Chip.thread?, Chip.slot_setThread_same, live, Chip.setThread, Chip.file_setSlot]
      rfl
    obtain ⟨q, parked, thread, regs, core⟩ := Chip.mem_parked_parkTo here p.c false
    exact ⟨Chip.slot_parkTo here p.c false, q, parked, by rw [thread]; rfl, by rw [thread], core, regs⟩
  case halts =>
    intro task mode noHandler quiet
    rw [Chip.takeTrap_halts live r false task mode noBreak (.inl quiet) noHandler]
    exact ⟨⟨_, by rw [Chip.slot_notify, Chip.slot_haltAt, if_pos rfl], rfl, rfl, rfl, rfl⟩,
      Chip.notices_notify (by rw [Chip.notices_haltAt, quietCore]) _⟩
  case nested =>
    intro task sup
    rw [Chip.takeTrap_nested live r false task sup]
    exact ⟨⟨{ t.told r with stepOnce := false }, by rw [Chip.slot_notify, Chip.slot_haltAt, if_pos rfl], rfl⟩,
      Chip.notices_notify (by rw [Chip.notices_haltAt, quietCore]) _⟩
  case slot0 =>
    intro slot0
    obtain ⟨pid, stops⟩ := Chip.takeTrap_slot0 live r false slot0
    rw [stops, Chip.slot, Chip.core_raise, Chip.core_partitionError, ← Chip.slot]
    refine ⟨⟨{ t.told r with traps := r.write t.traps }, ?_⟩, ?_, Chip.notices_notify ?_ _, List.mem_append_right _ (List.mem_singleton_self 5)⟩
    · rw [Chip.slot_notify, Chip.slot_modCore_of_slots _ _ _ _ (by intro; rfl), Chip.slot_setSlot_same]
    · rw [Chip.notify, Chip.core_modCore_same, Chip.core_modCore_same]
    · rw [Chip.core_modCore_same]
      exact (Chip.notices_setSlot ..).trans quietCore

end

section
/-! PROOFS. The family 07, TRAP, BKPT and WAIT (R128, R131, R133). -/

namespace Sys2Proof.Machine

/-! ## Where a breakpoint and a TRAP resume (R125) -/

theorem raisedBy_etrap (t : Thread) (x : Word) :
    raisedBy t .etrap x = { trap := .etrap, tval := x, epc := t.pc, cpc := t.pc + 4, frame := t.frame.isSome } := rfl

theorem raisedBy_ebreak (t : Thread) (x : Word) :
    raisedBy t .ebreak x = { trap := .ebreak, tval := x, epc := t.pc, cpc := t.pc + 4, frame := t.frame.isSome } := rfl

/-! ## What a thread put back leaves of its core -/

/-- A thread put back changes its core in the slots and the register file alone. -/
theorem Chip.core_putHere (h : Chip) (p : At) (x : Here) (v c : Nat) :
    ∃ slots file, (h.putHere p x).core v c = { h.core v c with slots := slots, file := file } := by
  by_cases here : v = p.v ∧ c = p.c
  · obtain ⟨rfl, rfl⟩ := here
    rw [Chip.putHere, Chip.core_modCore_same, Chip.setThread, Chip.setSlot, Chip.core_modCore_same]
    exact ⟨_, _, rfl⟩
  · rw [Chip.putHere, Chip.core_modCore, if_neg here, Chip.setThread, Chip.setSlot, Chip.core_modCore, if_neg here]
    exact ⟨_, _, rfl⟩

theorem Chip.endedAt_putHere (h : Chip) (p : At) (x : Here) (v c t : Nat) : (h.putHere p x).endedAt v c t = h.endedAt v c t := by
  by_cases here : (⟨v, c, t⟩ : At) = p
  · subst here
    rw [Chip.endedAt, Chip.slot_putHere_same, Chip.endedAt]
    cases h.slot ⟨v, c, t⟩ with
    | free | live | halted | ended | trailing => rfl
  · rw [Chip.endedAt, Chip.slot_putHere_ne _ _ here, Chip.endedAt]

/-- A thread put back is no event (R133). -/
theorem Chip.coreEvents_putHere (h : Chip) (p : At) (x : Here) (v c : Nat) : (h.putHere p x).coreEvents v c = h.coreEvents v c := by
  have ended : (h.putHere p x).endedSlot v c = h.endedSlot v c := by
    change (List.range 16).findSome? ((h.putHere p x).endedAt v c) = (List.range 16).findSome? (h.endedAt v c)
    rw [funext (h.endedAt_putHere p x v c)]
  obtain ⟨_, _, core⟩ := h.core_putHere p x v c
  simp only [Chip.coreEvents, ended, core]

/-! ## The three instructions' bodies -/

/-- What BKPT does once it has issued. -/
def bkptBody (self : Thread) (p : At) (h : Chip) : Except Stop Chip :=
  if (h.core p.v p.c).den && !(h.part (h.pidAt p.v self)).bounded then .error (.trap .ebreak 0) else .ok h

theorem exec_bkpt (s : State) : exec .bkpt s = issueChip (form (wordOf .bkpt)) s bkptBody := rfl

/-- What TRAP does once it has issued. -/
def trapBody (a : BitVec 7) (_ : Thread) (p : At) (h : Chip) : Except Stop Chip :=
  (h.readAt p a).bind fun r => .error (.trap .etrap r.1)

theorem exec_trap (a : BitVec 7) (s : State) : exec (.trap a) s = issueChip (form (wordOf (.trap a)) [.src a]) s (trapBody a) := rfl

/-- What WAIT does with its mask. -/
def waitAnswer (d : BitVec 7) (w : Half) (p : At) (x : Word) (h : Chip) : Except Stop Chip :=
  let e := h.coreEvents p.v p.c
  if x = 0 ∨ bits x 4 60 ≠ 0 then .error (.trap .eill (tvalWord w))
  else if e &&& x.toNat = 0 then .error .stall
  else .ok (h.writeDst p d (BitVec.ofNat 64 (e &&& x.toNat)))

/-- What WAIT does once it has issued. -/
def waitBody (d a : BitVec 7) (w : Half) (_ : Thread) (p : At) (h : Chip) : Except Stop Chip :=
  (h.readAt p a).bind fun r => waitAnswer d w p r.1 r.2

theorem exec_wait (d a : BitVec 7) (s : State) : exec (.wait d a) s =
    issueChip (form (wordOf (.wait d a)) [.dst d, .src a] true) s (waitBody d a (wordOf (.wait d a))) := rfl

/-- A mask is legal where it names one of the four events and nothing else. -/
theorem wait_mask_illegal_iff (x : Word) : (x = 0 ∨ bits x 4 60 ≠ 0) ↔ x = 0 ∨ 16 ≤ x.toNat := by
  refine or_congr_right ?_
  have := x.isLt
  simp only [bits]
  omega

/-- BKPT halts for the debug port of its core and partition, whatever the thread has been moved to. -/
theorem bkptBody_holding (s : State) (y : Here) : bkptBody y.th s.place (s.holding y.passed) =
    if (s.chip.core s.place.v s.place.c).den && !(s.chip.part (s.chip.pidAt s.place.v y.th)).bounded then .error (.trap .ebreak 0)
    else .ok (s.holding y.passed) := by
  obtain ⟨_, _, core⟩ := s.chip.core_putHere s.place y.passed s.place.v s.place.c
  have pid : (s.holding y.passed).pidAt s.place.v y.th = s.chip.pidAt s.place.v y.th := by
    simp only [Chip.pidAt, State.holding, Chip.pid_putHere]
  rw [bkptBody, pid]
  simp only [State.holding, core]
  rfl

section
variable {f : Form} {s : State} {y z : Here} {d a : BitVec 7} {u : Word} (issues : Issues s f y)
  (read : y.passed.read a = .ok (u, z))
include issues read

theorem trapBody_of_read : trapBody a y.th s.place (s.holding y.passed) = .error (.trap .etrap u) := by
  rw [trapBody, issues.read read]
  rfl

theorem waitBody_of_read (w : Half) : waitBody d a w y.th s.place (s.holding y.passed) =
    let e := s.chip.coreEvents s.place.v s.place.c &&& u.toNat
    if u = 0 ∨ 16 ≤ u.toNat then .error (.trap .eill (tvalWord w))
    else if e = 0 then .error .stall
    else .ok (s.holding (z.write d (BitVec.ofNat 64 e))) := by
  have events : (s.holding z).coreEvents s.place.v s.place.c = s.chip.coreEvents s.place.v s.place.c := Chip.coreEvents_putHere ..
  rw [waitBody, issues.read read]
  simp only [Except.bind, waitAnswer, wait_mask_illegal_iff, events, issues.writeDst]

end

end Sys2Proof.Machine

open Sys2Proof Sys2Proof.Machine

/-- Settles O20: the body of each instruction, with the operand that it reads. -/
theorem trapBreakpointAndWait : Obligations.TrapBreakpointAndWait := by
  refine ⟨⟨fun a s y u z issues read => ?trap, fun s y issues => ⟨fun den unbounded => ?breaks, fun off => ?passes⟩⟩,
    fun d a s y u z issues read => ⟨fun nonzero small events => ?ends, fun nonzero small noEvent => ?waits, fun illegal => ?illegal⟩⟩
  case trap =>
    rw [← raisedBy_etrap]
    exact raises_of_chip (exec_trap a s) issues (trapBody_of_read issues read)
  case breaks =>
    rw [← raisedBy_ebreak]
    exact raises_of_chip (exec_bkpt s) issues ((bkptBody_holding s y).trans (if_pos (by simp [den, unbounded])))
  case passes =>
    have nothing : ¬ ((s.chip.core s.place.v s.place.c).den && !(s.chip.part (s.chip.pidAt s.place.v y.th)).bounded) = true := by
      rcases off with e | e <;> simp [e]
    exact leavesThread_of_chip (exec_bkpt s) issues ((bkptBody_holding s y).trans (if_neg nothing))
  case ends =>
    exact leavesThread_of_chip (exec_wait d a s) issues
      ((waitBody_of_read issues read _).trans ((if_neg (not_or.2 ⟨nonzero, by omega⟩)).trans (if_neg events)))
  case waits =>
    exact waits_of_chip (exec_wait d a s) issues
      ((waitBody_of_read issues read _).trans ((if_neg (not_or.2 ⟨nonzero, by omega⟩)).trans (if_pos noEvent)))
  case illegal =>
    exact raises_of_chip (exec_wait d a s) issues ((waitBody_of_read issues read _).trans (if_pos illegal))

end

section
/-! PROOFS. The family 07, ERET and TREPLAY (R129, R132). -/

namespace Sys2Proof.Machine

/-! ## ERET (R129) -/

/-- A thread moved past its instruction changes in its place, its windows and its count of issues alone. -/
theorem Thread.past_eq (t : Thread) : ∃ frame pc, t.past =
    { t with pend := t.pend.map Pend.tick, issued := t.issued + 1, frame := frame, pc := pc } := by
  unfold Thread.past
  dsimp only
  split
  · exact ⟨_, _, rfl⟩
  split
  · exact ⟨_, _, rfl⟩
  split <;> exact ⟨_, _, rfl⟩

/-- The task that a handler returns to does not depend on whether the thread stands past the ERET. -/
theorem Thread.restoreTask_past (t : Thread) (u : Suspended) : t.past.restoreTask u =
    { t.past with
      sup := false, pc := t.traps.cpc, ldq := u.ldq, sdq := u.sdq, pend := u.pend, frame := u.frame, suspended := none, saved := none
      counters := { t.counters with draw := u.draw } } := by
  obtain ⟨frame, pc, past⟩ := t.past_eq
  rw [Thread.restoreTask, past]

/-- What ERET does once it has issued. -/
def eretBody (w : Half) (self : Thread) (p : At) (h : Chip) : Except Stop Chip :=
  match self.suspended with
  | none => .error (.trap .eill (tvalWord w))
  | some u => h.trapReturn p self u

theorem exec_eret (s : State) : exec .eret s = issueChip (form (wordOf .eret) [] true) s (eretBody (wordOf .eret)) := rfl

theorem Thread.unreplayed_eq_false {t : Thread} (done : t.traps.cause.getLsbD 8 = false ∨ t.traps.cause.getLsbD 9 = true) :
    t.unreplayed = false := by
  rcases done with e | e
  · rw [Thread.unreplayed, e, Bool.false_and]
  · rw [Thread.unreplayed, e, Bool.not_true, Bool.and_false]

/-- With nothing to replay the suspended task resumes. -/
theorem Chip.trapReturn_of_replayed {h : Chip} {p : At} {t : Thread} (u : Suspended) (done : t.unreplayed = false) :
    h.trapReturn p t u = .ok (h.resumeTask p u) := if_neg (by simp [done])

/-! ## What a replay comes to (R132) -/

section
variable {h : Chip} {p : At} {t : Thread} {op : Op} {v n : Nat} {signed : Bool} {o : Nat}

/-- A load performed at a SCRATCH bank gives the bytes there and leaves the chip as it is. -/
theorem Chip.performAny_load_scratch (w : Who) (word : accessOf op.word = some (.load n signed))
    (place : accessPlace h.v v op.ea.toNat n = some (.here o)) (mode : (h.cluster v).mode (o / 65536) = .scratch) :
    h.performAny w v op = .ok (loadValue n signed (h.scratchBytes v o n), h) := by
  have scalar : major op.word ≠ 0x2E := fun mailbox => by simp [accessOf, mailbox] at word
  have place : accessPlace h.v v op.ea.toNat (Access.load n signed).size = some (.here o) := place
  rw [Chip.performAny, if_neg scalar]
  simp only [Chip.perform, word, Chip.performAs, place]
  exact Chip.atScratch_load signed (Chip.readScratch_plain mode w n op.ea)

/-- A saved load is replayed by its performance. -/
theorem Chip.replayOp_load_scratch (word : accessOf op.word = some (.load n signed))
    (place : accessPlace h.v p.v op.ea.toNat n = some (.here o)) (mode : (h.cluster p.v).mode (o / 65536) = .scratch) :
    h.replayOp p t op = .ok (loadValue n signed (h.scratchBytes p.v o n), 0, h) := by
  have scalar : major op.word ≠ 0x2E := fun mailbox => by simp [accessOf, mailbox] at word
  simp only [Chip.replayOp, if_neg scalar, word, Option.isSome_some, if_true, bind, Except.bind,
    Chip.performAny_load_scratch t.taskWho word place mode]

variable {y : Here} {u : Suspended} {q : Pend} {ldq : Bool}

/-- A replayed load has its value in the task's register or queue. -/
theorem Chip.replay_load_scratch (here : h.here? p = some y) (task : t.suspended = some u) (saved : t.saved = some (q, ldq))
    (word : accessOf q.op.word = some (.load n signed)) (place : accessPlace h.v p.v q.op.ea.toNat n = some (.here o))
    (mode : (h.cluster p.v).mode (o / 65536) = .scratch) (room : replayFull u q ldq = false) :
    h.replay p t = .done (h.putHere p (y.replayed u q ldq (loadValue n signed (h.scratchBytes p.v o n)) 0)) := by
  simp only [Chip.replay, task, saved, Chip.replayOp_load_scratch word place mode, room, here]
  rfl

end

/-! ## TREPLAY -/

/-- A handler's deferred operation waits to be replayed (R132). -/
def Thread.replays (t : Thread) : Bool :=
  t.suspended.isSome && t.saved.isSome && t.traps.cause.getLsbD 8 && !t.traps.cause.getLsbD 9

/-- The thread once its operation has faulted again: TCAUSE.CODE and TVAL describe the new fault (R132). -/
def Thread.faultedAgain (t : Thread) (e : Trap) (v : Word) : Thread :=
  { t with rejected := [], traps := { t.traps with cause := (t.traps.cause &&& 0x700) ||| BitVec.ofNat 11 e.code, val := v } }

/-- What TREPLAY does with the replay. -/
def treplayAnswer (d : BitVec 7) (self : Thread) (p : At) (h : Chip) : Replay → Except Stop Chip
  | .done g => .ok (g.writeDst p d 0)
  | .again e v => .ok ((h.modThread p fun y => y.faultedAgain e v).writeDst p d (BitVec.ofNat 64 e.code))
  | .walk pid r k => .ok (h.waitWalk self p pid r k)
  | .stall => .error .stall

/-- What TREPLAY does once it has issued. -/
def treplayBody (d : BitVec 7) (w : Half) (self : Thread) (p : At) (h : Chip) : Except Stop Chip :=
  if !self.unreplayed || self.saved.isNone || self.suspended.isNone then .error (.trap .eill (tvalWord w))
  else treplayAnswer d self p h (h.replay p self)

theorem exec_treplay (d : BitVec 7) (s : State) : exec (.treplay d) s =
    issueChip (form (wordOf (.treplay d)) [.dst d] true) s (treplayBody d (wordOf (.treplay d))) := rfl

theorem Thread.not_replays (t : Thread) : (!t.unreplayed || t.saved.isNone || t.suspended.isNone) = !t.replays := by
  simp only [Thread.replays, Thread.unreplayed, ← Option.not_isSome, ← Bool.not_and]
  ac_rfl

theorem treplayBody_of_replays {self : Thread} (waits : self.replays = true) (d : BitVec 7) (w : Half) (p : At) (h : Chip) :
    treplayBody d w self p h = treplayAnswer d self p h (h.replay p self) := if_neg (by rw [self.not_replays, waits]; decide)

theorem treplayBody_of_nothing {self : Thread} (nothing : self.replays = false) (d : BitVec 7) (w : Half) (p : At) (h : Chip) :
    treplayBody d w self p h = .error (.trap .eill (tvalWord w)) := if_pos (by rw [self.not_replays, nothing]; rfl)

end Sys2Proof.Machine

open Sys2Proof Sys2Proof.Machine

/-- Settles O21: what a replay comes to, and the body of each instruction. That TREPLAY raises EILL where TCAUSE.DEF is set and no operation
is saved is the model's choice (log 54). -/
theorem returnsAndReplays : Obligations.ReturnsAndReplays := by
  refine ⟨fun s y issues => ⟨fun u task done => ?returns, fun none_ => ?eretIllegal⟩,
    fun d s y issues => ⟨fun waits g done => ?done, fun waits u q ldq n sg o task saved word place mode room => ?load,
      fun waits e v again => ?again, fun nothing => ?illegal⟩⟩
  case returns =>
    refine leavesThread_of_chip (exec_eret s) issues ?_
    simp only [eretBody, task, Chip.trapReturn_of_replayed u (Thread.unreplayed_eq_false done), Chip.resumeTask, issues.modThread]
    exact congrArg (fun t => Except.ok (s.holding ⟨t, y.file⟩)) (y.th.restoreTask_past u)
  case eretIllegal =>
    exact raises_of_chip (exec_eret s) issues (by simp only [eretBody, none_])
  case done =>
    have done : (s.holding y.passed).replay s.place y.th = .done g := done
    exact leavesChip_of_chip (exec_treplay d s) issues (by rw [treplayBody_of_replays waits, done]; rfl)
  case load =>
    have same := s.sameButCores_holding y.passed
    obtain ⟨_, cluster⟩ := same.cluster s.place.v
    have mode : ((s.holding y.passed).cluster s.place.v).mode (o / 65536) = .scratch := by rw [cluster]; exact mode
    have bytes : (s.holding y.passed).scratchBytes s.place.v o n = s.scratchAt o n := by rw [Chip.scratchBytes, cluster]; rfl
    have done := Chip.replay_load_scratch (issues.here y.passed) task saved word place mode room
    rw [bytes, State.holding, Chip.putHere_putHere] at done
    refine leavesThread_of_chip (exec_treplay d s) issues ?_
    rw [treplayBody_of_replays waits, State.holding, done]
    exact congrArg Except.ok (issues.writeDst ..)
  case again =>
    have again : (s.holding y.passed).replay s.place y.th = .again e v := again
    refine leavesThread_of_chip (exec_treplay d s) issues ?_
    rw [treplayBody_of_replays waits, again]
    simp only [treplayAnswer, issues.modThread, issues.writeDst]
    rfl
  case illegal =>
    exact raises_of_chip (exec_treplay d s) issues (treplayBody_of_nothing nothing ..)

end

section
/-! PROOFS. The family 07, what the end of a task leaves of the slots: groups, launches and claims are no part of a core (R203, R371,
R372). -/

namespace Sys2Proof.Machine

/-! ## What keeps every core -/

section
variable {h g : Chip}

theorem Chip.SameCores.core_eq (same : h.SameCores g) (v c : Nat) : g.core v c = h.core v c := by
  simp only [Chip.core, same.cores]

theorem Chip.SameCores.slot_eq (same : h.SameCores g) (p : At) : g.slot p = h.slot p := by
  rw [Chip.slot, same.core_eq, Chip.slot]

theorem Chip.SameCores.foldl {α : Type} {f : Chip → α → Chip} (keeps : ∀ (g : Chip) x, g.SameCores (f g x)) (xs : List α) (h : Chip) :
    h.SameCores (xs.foldl f h) :=
  List.foldlRecOn (motive := h.SameCores) xs f (.refl h) fun g same x _ => same.trans (keeps g x)

theorem Chip.SameCores.each (h : Chip) {f : Nat → Cluster → Cluster} (keeps : ∀ v k, (f v k).cores = k.cores) :
    h.SameCores { h with clusters := h.clusters.each f } := by
  refine ⟨fun u => ?_⟩
  simp only [Chip.cluster, Map.getOr, Map.get_each]
  cases h.clusters.get u with
  | none => rfl
  | some k => exact keeps u k

end

/-! ## Claims (R198 to R203) -/

/-- The chips differ at most in the claims of their clusters. -/
structure Chip.SameButClaims (h g : Chip) : Prop where
  cluster : ∀ u, ∃ claims, g.cluster u = { h.cluster u with claims := claims }
  rest : { g with clusters := h.clusters } = h

section
variable {h g k : Chip}

theorem Chip.SameButClaims.refl (h : Chip) : h.SameButClaims h := ⟨fun _ => ⟨_, rfl⟩, rfl⟩

theorem Chip.SameButClaims.trans (first : h.SameButClaims g) (second : g.SameButClaims k) : h.SameButClaims k := by
  refine ⟨fun u => ?_, by rw [← first.rest, ← second.rest]⟩
  obtain ⟨_, before⟩ := first.cluster u
  obtain ⟨claims, after⟩ := second.cluster u
  exact ⟨claims, by rw [after, before]⟩

theorem Chip.SameButClaims.modClaims (h : Chip) (v : Nat) (f : Cluster → List Claim) :
    h.SameButClaims (h.modCluster v fun k => { k with claims := f k }) := by
  refine ⟨fun u => ?_, rfl⟩
  rw [Chip.cluster_modCluster]
  split
  · subst u; exact ⟨_, rfl⟩
  · exact ⟨_, rfl⟩

theorem Chip.SameButClaims.sameCores (same : h.SameButClaims g) : h.SameCores g := by
  refine ⟨fun u => ?_⟩
  obtain ⟨_, cluster⟩ := same.cluster u
  rw [cluster]

theorem Chip.SameButClaims.parked (same : h.SameButClaims g) (v : Nat) : (g.cluster v).parked = (h.cluster v).parked := by
  obtain ⟨_, cluster⟩ := same.cluster v
  rw [cluster]

theorem Chip.SameButClaims.flights (same : h.SameButClaims g) : g.flights = h.flights := by rw [← same.rest]

end

section
variable (h : Chip) (v uid : Nat)

theorem Chip.SameButClaims.modClaim (f : Claim → Claim) : h.SameButClaims (h.modClaim v uid f) := .modClaims ..

theorem Chip.SameButClaims.spill : h.SameButClaims (h.spill v) := by
  unfold Chip.spill
  dsimp only
  split
  · exact .refl h
  · exact .modClaim ..

theorem Chip.SameButClaims.takeContext : h.SameButClaims (h.takeContext v uid) := by
  unfold Chip.takeContext
  split
  · exact .refl h
  split
  · exact .refl h
  · extract_lets g
    have made : h.SameButClaims g := by
      dsimp only [g]
      split
      · exact .refl h
      · exact .spill ..
    split
    · exact made.trans (.modClaim ..)
    · exact made

theorem Chip.SameButClaims.evaluate : h.SameButClaims (h.evaluate v uid) := by
  unfold Chip.evaluate
  split
  · exact .refl h
  · dsimp only
    refine Chip.SameButClaims.trans ?_ (.modClaim ..)
    split
    · exact .refl h
    · exact .takeContext ..

theorem Chip.SameButClaims.serveClaims : h.SameButClaims (h.serveClaims v) :=
  List.foldlRecOn (motive := h.SameButClaims) _ _ (.refl h) fun _ same _ _ => same.trans (.evaluate ..)

theorem Chip.SameButClaims.renegotiate : h.SameButClaims (h.renegotiate v uid) := by
  unfold Chip.renegotiate
  split
  · exact .refl h
  · exact ((Chip.SameButClaims.serveClaims ..).trans (.evaluate ..)).trans (.serveClaims ..)

theorem Chip.SameButClaims.releaseClaim : h.SameButClaims (h.releaseClaim v uid) :=
  (Chip.SameButClaims.modClaims ..).trans (.serveClaims ..)

end

/-! ## Groups and launches (R367, R371, R372, R379) -/

section
variable (h : Chip) (pid uid gid : Nat)

theorem Chip.SameCores.modPart (f : Partition → Partition) : h.SameCores (h.modPart pid f) := ⟨fun _ => rfl⟩

theorem Chip.SameCores.modGroup (f : Group → Group) : h.SameCores (h.modGroup pid gid f) := ⟨fun _ => rfl⟩

theorem Chip.SameCores.modTask (f : Task → Task) : h.SameCores (h.modTask uid f) := by
  unfold Chip.modTask
  split
  · exact ⟨fun _ => rfl⟩
  · exact .refl h

theorem Chip.SameCores.exitGroup : h.SameCores (h.exitGroup pid gid) :=
  (Chip.SameCores.modGroup h pid gid _).trans (.each _ fun _ _ => rfl)

theorem Chip.SameCores.leaveGroup : h.SameCores (h.leaveGroup pid uid gid) := by
  unfold Chip.leaveGroup Chip.exitIfDone
  split
  · exact (Chip.SameCores.modGroup ..).trans (.exitGroup ..)
  · exact .modGroup ..

theorem Chip.SameCores.leaveGroups (grps : BitVec 36) : h.SameCores (h.leaveGroups pid uid grps) :=
  .foldl (fun g x => .leaveGroup g pid uid x) _ h

theorem Chip.SameCores.noteAbort (grps : BitVec 36) (stamp : Word) (code : Nat) : h.SameCores (h.noteAbort pid grps stamp code) :=
  .foldl (fun g x => .modGroup g pid x _) _ h

theorem Chip.SameCores.launchDone (n : Nat) : h.SameCores (h.launchDone pid n) := by
  unfold Chip.launchDone
  split
  · exact .refl h
  split
  · dsimp only
    have left := Chip.SameCores.modPart h pid fun q => { q with jobs := q.jobs.filter fun j => decide (j.lnum ≠ n) }
    have freed := left.trans (.each (f := fun _ k => { k with reserve := k.reserve.erase (pid * 2 ^ 32 + n) }) _ fun _ _ => rfl)
    split
    · exact freed
    · split
      · exact freed.trans ⟨fun _ => rfl⟩
      · exact freed
  · exact .refl h

theorem Chip.SameCores.launchLive (l : Option Nat) (up : Bool) : h.SameCores (h.launchLive pid l up) := by
  unfold Chip.launchLive
  split
  · exact .refl h
  · dsimp only
    split
    · exact .modPart ..
    · exact Chip.SameCores.trans (.modPart h pid _) (.launchDone ..)

theorem Chip.SameCores.handLaunches : h.SameCores (h.handLaunches pid uid) := by
  unfold Chip.handLaunches
  dsimp only
  exact Chip.SameCores.trans (.trans (.modPart h pid _) (.each _ (by intros; rfl))) (.modTask ..)

end

/-! ## The end of a task (R151, R152) -/

theorem Chip.SameCores.endQuiet (h : Chip) (t : Thread) : h.SameCores (h.endQuiet t) := by
  unfold Chip.endQuiet
  split
  · extract_lets left launch
    have same : h.SameCores left := (Chip.SameCores.handLaunches ..).trans (.leaveGroups ..)
    exact Chip.SameCores.trans (g := { left with tasks := left.tasks.erase t.uid }) ⟨same.cores⟩ (.launchLive ..)
  · exact (Chip.SameCores.modTask ..).trans (.leaveGroups ..)

/-- The slot of a thread that has ended keeps its allocation. -/
theorem Chip.slot_leaveSlot (h : Chip) (p : At) (t : Thread) (aborted : Bool) :
    (h.leaveSlot p t aborted).slot p = .ended t.regBase t.regLim false aborted := by
  unfold Chip.leaveSlot
  extract_lets drained left
  have ended : left.slot p = .ended t.regBase t.regLim false aborted := by
    rw [(Chip.SameButClaims.releaseClaim ..).sameCores.slot_eq, Chip.slot_setSlot_same]
  split
  · exact ((Chip.SameCores.modGroup ..).slot_eq p).trans ended
  · exact ended

/-- A quiet task that is aborted leaves an ENDED slot with ABORTED (R152). -/
theorem Chip.slot_abortSelf {t : Thread} (quiet : t.quiet = true) (h : Chip) (p : At) (code : Nat) :
    (h.abortSelf p t code).slot p = .ended t.regBase t.regLim false true := by
  have same : (h.leaveSlot p t true).SameCores (h.abortSelf p t code) := by
    rw [Chip.abortSelf, if_pos quiet]
    exact (Chip.SameCores.noteAbort ..).trans (.endQuiet ..)
  rw [same.slot_eq, Chip.slot_leaveSlot]

end Sys2Proof.Machine

end

section
/-! PROOFS. The family 07, the debug port: its commands, DDATA and TNQ, the restart of a core's dispatch, and the host's register writes
(R124, R134, R135, R415). -/

namespace Sys2Proof.Machine

/-! ## A debug command (R135) -/

/-- Of two changes of one core the later acts on what the earlier leaves. -/
theorem Chip.modCore_modCore (h : Chip) (v c : Nat) (f g : Core → Core) :
    (h.modCore v c f).modCore v c g = h.modCore v c fun k => g (f k) := by
  simp only [Chip.modCore, Chip.modCluster, Chip.cluster, Map.put_put, Map.getOr_put_same]

theorem Chip.slot_answered (h : Chip) (v c r : Nat) (q : At) : (h.answered v c r).slot q = h.slot q :=
  h.slot_modCore_of_slots v c q fun _ => rfl

/-- The chip once a command that the port has acted on is answered, or stays pending. -/
def Chip.afterCommand (h : Chip) (v c : Nat) : PortAnswer → Chip
  | .done g => g.answered v c 0
  | .refused => h.answered v c 2
  | .waits g => g

section
variable {h : Chip} {v c n : Nat} {act : At → Slot → PortAnswer}

theorem Chip.debugCommand_idle (idle : (h.core v c).debugPending = false ∨ (h.core v c).dcmd.toNat ≠ n) :
    h.debugCommand v c n act = h := if_pos (by simpa using idle)

variable (pending : (h.core v c).debugPending = true) (command : (h.core v c).dcmd.toNat = n)
include pending command

/-- A command for a slot that the port may not act on is refused. -/
theorem Chip.debugCommand_closed (closed : h.portSlot (h.selected v c) = false) :
    h.debugCommand v c n act = h.answered v c 2 :=
  (if_neg (by simp [pending, command])).trans ((if_pos (by simp [closed])).trans (Chip.modCore_modCore ..))

theorem Chip.debugCommand_open (open_ : h.portSlot (h.selected v c) = true) :
    h.debugCommand v c n act = h.afterCommand v c (act (h.selected v c) (h.slot (h.selected v c))) := by
  refine (if_neg (by simp [pending, command])).trans ((if_neg (by simp [open_])).trans ?_)
  cases act (h.selected v c) (h.slot (h.selected v c)) with
  | done => exact Chip.modCore_modCore ..
  | refused => exact Chip.modCore_modCore ..
  | waits => rfl

end

/-- What the command `n` in DCMD does to the slot that DSEL selects: it is refused where the port may not act on the slot, or the slot is
not in a state that satisfies `pre`, and acts as `effect` says where the slot satisfies `ready`. -/
def PortCommand (i : Instr) (s : State) (v c n : Nat) (pre ready : Slot → Prop) (effect : Slot → Chip → Prop) : Prop :=
  let h := s.chip
  let k := h.core v c
  let p := h.selected v c
  (k.debugPending = false ∨ k.dcmd.toNat ≠ n → Ignored i s) ∧
  (k.debugPending = true → k.dcmd.toNat = n → h.portSlot p = false → Becomes i s (h.answered v c 2)) ∧
  (k.debugPending = true → k.dcmd.toNat = n → h.portSlot p = true → ¬ pre (h.slot p) → Becomes i s (h.answered v c 2)) ∧
  (k.debugPending = true → k.dcmd.toNat = n → h.portSlot p = true → ready (h.slot p) →
    ∃ g', Becomes i s g' ∧ effect (h.slot p) g' ∧ (g'.core v c).debugPending = false ∧ (g'.core v c).dstatRes = 0)

section
variable {i : Instr} {s : State} {v c n : Nat} {act : At → Slot → PortAnswer}
  (arm : exec i s = .next { s with chip := s.chip.debugCommand v c n act })
include arm

/-- A command that refuses, and acts, as its answers say. -/
theorem PortCommand.of_debugCommand {pre ready : Slot → Prop} {effect : Slot → Chip → Prop}
    (refuses : ∀ x, ¬ pre x → act (s.chip.selected v c) x = .refused)
    (acts : ready (s.chip.slot (s.chip.selected v c)) → ∃ g, act (s.chip.selected v c) (s.chip.slot (s.chip.selected v c)) = .done g ∧
      effect (s.chip.slot (s.chip.selected v c)) (g.answered v c 0)) : PortCommand i s v c n pre ready effect := by
  refine ⟨fun idle => ?_, fun pending command closed => ?_, fun pending command open_ bad => ?_, fun pending command open_ good => ?_⟩
  · rw [Ignored, arm, Chip.debugCommand_idle idle]
  · rw [Becomes, arm, Chip.debugCommand_closed pending command closed]
  · rw [Becomes, arm, Chip.debugCommand_open pending command open_, refuses _ bad]
    rfl
  · obtain ⟨g, done, effect⟩ := acts good
    refine ⟨_, ?_, effect, ?_, ?_⟩
    · rw [Becomes, arm, Chip.debugCommand_open pending command open_, done]
      rfl
    · rw [Chip.answered, Chip.core_modCore_same]
    · rw [Chip.answered, Chip.core_modCore_same]
      rfl

/-- A command that has to wait stays pending. -/
theorem ignored_of_debugCommand (pending : (s.chip.core v c).debugPending = true) (command : (s.chip.core v c).dcmd.toNat = n)
    (open_ : s.chip.portSlot (s.chip.selected v c) = true)
    (waits : act (s.chip.selected v c) (s.chip.slot (s.chip.selected v c)) = .waits s.chip) : Ignored i s := by
  rw [Ignored, arm, Chip.debugCommand_open pending command open_, waits]
  rfl

end

/-! ## The four commands -/

section
variable (s : State) (v c : Nat)

theorem portCommand_debugHalt : PortCommand (.debugHalt v c) s v c 1 (fun x => ∃ t, x = .live t ∨ x = .halted t)
    (fun x => ∃ t, x = .live t ∧ t.wait = .none ∨ x = .halted t)
    (fun x g => (∀ t, x = .halted t → g.slot (s.chip.selected v c) = .halted t) ∧
      ∀ t, x = .live t → g.slot (s.chip.selected v c) = .halted { t with stepOnce := false }) := by
  refine .of_debugCommand rfl (fun x bad => ?refuses) fun ready => ?acts
  case refuses =>
    cases x with
    | live t | halted t => exact absurd ⟨t, by simp⟩ bad
    | free | ended | trailing => rfl
  case acts =>
    obtain ⟨t, ⟨live, noWait⟩ | halted⟩ := ready
    · refine ⟨s.chip.haltAt (s.chip.selected v c) t, ?_, ?_, ?_⟩
      · rw [live]; exact if_pos noWait
      · intro u other; rw [live] at other; cases other
      · intro u same
        obtain rfl := Slot.live.inj (live.symm.trans same)
        rw [Chip.slot_answered, Chip.slot_haltAt, if_pos rfl]
    · refine ⟨s.chip, by rw [halted], fun u same => ?_, ?_⟩
      · rw [Chip.slot_answered, same]
      · intro u other; rw [halted] at other; cases other

theorem portCommand_debugResume : PortCommand (.debugResume v c) s v c 2 (fun x => ∃ t, x = .halted t)
    (fun x => ∃ t, x = .halted t ∧ t.suspended = none)
    (fun x g => ∀ t, x = .halted t → g.slot (s.chip.selected v c) = .live t) := by
  refine .of_debugCommand rfl (fun x bad => ?refuses) fun ⟨t, halted, task⟩ => ?acts
  case refuses =>
    cases x with
    | halted t => exact absurd ⟨t, rfl⟩ bad
    | live | free | ended | trailing => rfl
  case acts =>
    refine ⟨s.chip.setSlot (s.chip.selected v c) (.live t), ?_, fun u same => ?_⟩
    · rw [halted]; simp only [Chip.debugResume, task]
    · obtain rfl := Slot.halted.inj (halted.symm.trans same)
      rw [Chip.slot_answered, Chip.slot_setSlot_same]

theorem portCommand_debugStep : PortCommand (.debugStep v c) s v c 3 (fun x => ∃ t, x = .halted t) (fun x => ∃ t, x = .halted t)
    (fun x g => ∀ t, x = .halted t → g.slot (s.chip.selected v c) = .live { t with stepOnce := true }) := by
  refine .of_debugCommand rfl (fun x bad => ?refuses) fun ⟨t, halted⟩ => ?acts
  case refuses =>
    cases x with
    | halted t => exact absurd ⟨t, rfl⟩ bad
    | live | free | ended | trailing => rfl
  case acts =>
    refine ⟨s.chip.setSlot (s.chip.selected v c) (.live { t with stepOnce := true }), by rw [halted], fun u same => ?_⟩
    obtain rfl := Slot.halted.inj (halted.symm.trans same)
    rw [Chip.slot_answered, Chip.slot_setSlot_same]

theorem portCommand_debugAbort : PortCommand (.debugAbort v c) s v c 4 (fun x => ∃ t, x = .halted t)
    (fun x => ∃ t, x = .halted t ∧ s.chip.endHeld (s.chip.selected v c) t = false ∧ t.windowsOpen = false)
    (fun x g => ∀ t, x = .halted t → t.quiet = true →
      g.slot (s.chip.selected v c) = .ended t.regBase t.regLim false true) := by
  refine .of_debugCommand rfl (fun x bad => ?refuses) fun ⟨t, halted, accepted, closed⟩ => ?acts
  case refuses =>
    cases x with
    | halted t => exact absurd ⟨t, rfl⟩ bad
    | live | free | ended | trailing => rfl
  case acts =>
    refine ⟨s.chip.abortSelf (s.chip.selected v c) t 0, ?_, fun u same quiet => ?_⟩
    · rw [halted]; exact if_neg (by rw [accepted, closed]; decide)
    · obtain rfl := Slot.halted.inj (halted.symm.trans same)
      rw [Chip.slot_answered, Chip.slot_abortSelf quiet]

end

/-! ## DDATA (R134, R135) -/

section
variable {x : Here} {i : Nat}

theorem Here.item_gpr (register : i < 0x78) : x.item i = if i < x.th.regLim then (readGpr x.th x.file i, 0) else (0, 2) :=
  if_pos register

theorem Here.item_pc : x.item 0x2000 = (x.th.pc, 0) := rfl

theorem Here.item_ldq {j : Nat} {e : LdqEntry} {w : Word} {f : BitVec 5} (bound : j < 16) (entry : x.th.ldq[j]? = some e)
    (landed : e.arrival = .landed (.value w f)) : x.item (0x80 + j) = (w, 0) := by
  rw [Here.item, if_neg (by omega), if_pos (by omega), Nat.add_sub_cancel_left, entry]
  simp only [landed]

theorem Here.item_sdq {j : Nat} {w : Word} (bound : j < 16) (entry : x.th.sdq[j]? = some w) : x.item (0x90 + j) = (w, 0) := by
  rw [Here.item, if_neg (by omega), if_neg (by omega), if_pos (by omega), Nat.add_sub_cancel_left, entry]

theorem Here.item_reg {j : Nat} {w : Word} (bound : j < 0x1000) (register : x.th.reg j = some w) : x.item (0x1000 + j) = (w, 0) := by
  rw [Here.item, if_neg (by omega), if_neg (by omega), if_neg (by omega), if_neg (by omega), if_pos (by omega),
    Nat.add_sub_cancel_left, register]

variable (others : List (Nat × Nat)) (y : Word)

theorem Here.setItem_gpr (register : i < 0x78) (own : i < x.th.regLim) (free : x.th.awaits i = false) :
    x.setItem others i y = .ok { x with file := writeGpr x.th x.file i y } := by
  rw [Here.setItem, if_pos register, if_neg (by omega), if_neg (by simp [free])]

/-- A register that a result is bound for is busy. -/
theorem Here.setItem_busy (register : i < 0x78) (own : i < x.th.regLim) (bound : x.th.awaits i = true) :
    x.setItem others i y = .error 1 := by
  rw [Here.setItem, if_pos register, if_neg (by omega), if_pos bound]

theorem Here.setItem_pc (aligned : y.toNat % 4 = 0) :
    x.setItem others 0x2000 y = .ok { x with th := { x.th with pc := y } } := if_pos aligned

end

section
variable {h : Chip} {v c : Nat}

theorem Chip.ddataRead_of_none (closed : h.portThread (h.selected v c) = none) : h.ddataRead v c = (0, h.portResult v c 2) := by
  simp only [Chip.ddataRead, closed]

theorem Chip.ddataWrite_of_none (closed : h.portThread (h.selected v c) = none) (y : Word) :
    h.ddataWrite v c y = h.portResult v c 2 := by
  simp only [Chip.ddataWrite, closed]

variable {x : Here} (open_ : h.portThread (h.selected v c) = some x)
include open_

theorem Chip.ddataRead_of_item {w : Word} {r : Nat} (item : x.item (h.core v c).didx.toNat = (w, r)) :
    h.ddataRead v c = (w, h.portResult v c r) := by
  simp only [Chip.ddataRead, open_, item]

/-- Slot 0 is read only. -/
theorem Chip.ddataWrite_slot0 (slot0 : (h.selected v c).t = 0) (y : Word) : h.ddataWrite v c y = h.portResult v c 2 := by
  simp only [Chip.ddataWrite, open_, if_pos slot0]

variable (task : (h.selected v c).t ≠ 0) {y : Word} {i : Nat} (index : (h.core v c).didx.toNat = i)
include task index

/-- An item other than REGLIM is written where the thread's own rules allow it. -/
theorem Chip.ddataWrite_of_ok {z : Here} (set : ∀ others, x.setItem others i y = .ok z) (other : i - 0x1000 ≠ 0x021) :
    h.ddataWrite v c y = (h.putHere (h.selected v c) z).portResult v c 0 := by
  simp only [Chip.ddataWrite, open_, if_neg task, index, set, Chip.pairLimit_of_ne h _ x.th _ other, if_true]

theorem Chip.ddataWrite_of_error {r : Nat} (set : ∀ others, x.setItem others i y = .error r) :
    h.ddataWrite v c y = h.portResult v c r := by
  simp only [Chip.ddataWrite, open_, if_neg task, index, set]

end

section
variable {s : State} {v c : Nat} {w : Word} {g : Chip}

theorem becomes_of_ddataRead (read : s.chip.ddataRead v c = (w, g)) : Becomes (.ddataRead v c) s { g with hostAnswer := some w } := by
  have arm : Becomes (.ddataRead v c) s { (s.chip.ddataRead v c).2 with hostAnswer := some (s.chip.ddataRead v c).1 } := rfl
  rwa [read] at arm

theorem becomes_of_ddataWrite {x : BitVec 64} (write : s.chip.ddataWrite v c x = g) : Becomes (.ddataWrite v c x) s g := write ▸ rfl

theorem becomes_of_tnqRead (read : s.chip.tnqRead v c = (w, g)) : Becomes (.tnqRead v c) s { g with hostAnswer := some w } := by
  have arm : Becomes (.tnqRead v c) s { (s.chip.tnqRead v c).2 with hostAnswer := some (s.chip.tnqRead v c).1 } := rfl
  rwa [read] at arm

end

theorem Chip.tnqRead_of_nil {h : Chip} {v c : Nat} (none_ : (h.core v c).notices = []) : h.tnqRead v c = (0, h) := by
  simp only [Chip.tnqRead, none_]

theorem Chip.tnqRead_of_cons {h : Chip} {v c : Nat} {w : Word} {ws : List Word} (some_ : (h.core v c).notices = w :: ws) :
    h.tnqRead v c = (w, h.modCore v c fun k => { k with notices := ws }) := by
  simp only [Chip.tnqRead, some_]

/-! ## The restart of a core's dispatch (R124) -/

/-- Slot 0's thread as a restart leaves it (log 61). -/
def Chip.restarted (h : Chip) (v c : Nat) : Thread :=
  { (h.thread? ⟨v, c, 0⟩).getD (dispatcher v c) with
    pc := h.dispatchEntry v, sup := true, regBase := 0, regLim := 32, traps := {}, frame := none, stepOnce := false }

theorem Chip.restartDispatch_of_running {h : Chip} {v c : Nat} (running : (h.core v c).stopped = false) :
    h.restartDispatch v c = h := if_pos (by simp [running])

theorem Chip.restartDispatch_of_stopped {h : Chip} {v c : Nat} (stopped : (h.core v c).stopped = true) : h.restartDispatch v c =
    (h.setSlot ⟨v, c, 0⟩ (.live (h.restarted v c))).modCore v c fun k => { k with stopped := false } := if_neg (by simp [stopped])

/-! ## A host's register write (R24, R415) -/

section
variable {s : State} {n : Nat} {x : BitVec 64}

theorem registerWrite_ignored
    (none_ : n < 0x100 ∨ 0x7FF < n ∨ readOnly n = true ∨ (n < 0x400 ∧ s.chip.v ≤ bits (s.chip.reg 0x4A3) 16 11)) :
    Ignored (.registerWrite n x) s := if_pos none_

theorem exec_registerWrite (low : 0x100 ≤ n) (high : n ≤ 0x7FF) (writable : readOnly n = false)
    (selects : 0x400 ≤ n ∨ bits (s.chip.reg 0x4A3) 16 11 < s.chip.v) : exec (.registerWrite n x) s =
      .next ((s.writeReg (bits (s.chip.reg 0x4A3) 16 11) (bits (s.chip.reg 0x4A3) 0 3) n x).getD s) := by
  refine if_neg ?_
  rw [writable]
  simp only [Bool.false_eq_true, false_or]
  omega

end

end Sys2Proof.Machine

open Sys2Proof Sys2Proof.Machine

/-- Settles O43. The four commands share the port's answers (`PortCommand`), of which DCMD reads 0 once a command is over (log 46); DDATA is
its items, of which a register from REGLIM up is refused (log 63). -/
theorem debugPort : Obligations.DebugPort := by
  refine ⟨fun s v c => ?commands, fun s v c x => ⟨fun closed => ?closed, fun y open_ => ?items, fun none_ => ?empty, fun w ws some_ => ?pops⟩,
    fun s v c => ⟨fun running => ?running, fun stopped => ?restarts⟩, fun s n x => ⟨registerWrite_ignored, ?writes⟩⟩
  case commands =>
    refine ⟨portCommand_debugHalt s v c, fun pending command open_ t live waits => ?_, portCommand_debugResume s v c,
      portCommand_debugStep s v c, portCommand_debugAbort s v c, fun pending command open_ t halted held => ?_⟩
    · exact ignored_of_debugCommand rfl pending command open_ (by rw [live]; exact if_neg waits)
    · refine ignored_of_debugCommand rfl pending command open_ ?_
      rw [halted]
      exact if_pos (by simpa using held)
  case closed => exact ⟨becomes_of_ddataRead (Chip.ddataRead_of_none closed), becomes_of_ddataWrite (Chip.ddataWrite_of_none closed x)⟩
  case items =>
    have reads : ∀ {w r}, y.item (s.chip.core v c).didx.toNat = (w, r) → Becomes (.ddataRead v c) s
        { s.chip.portResult v c r with hostAnswer := some w } := fun item => becomes_of_ddataRead (Chip.ddataRead_of_item open_ item)
    refine ⟨fun register own => reads ((Here.item_gpr register).trans (if_pos own)),
      fun register foreign => reads ((Here.item_gpr register).trans (if_neg (by omega))), fun pc => reads (by rw [pc]; exact Here.item_pc),
      fun j w bound index entry => reads (by rw [index]; exact Here.item_sdq bound entry),
      fun j e w f bound index entry landed => reads (by rw [index]; exact Here.item_ldq bound entry landed),
      fun j w index bound register => reads (by rw [index]; exact Here.item_reg bound register),
      fun task register own free => becomes_of_ddataWrite
        (Chip.ddataWrite_of_ok open_ task rfl (fun others => Here.setItem_gpr others x register own free) (by omega)),
      fun task register own bound => becomes_of_ddataWrite
        (Chip.ddataWrite_of_error open_ task rfl fun others => Here.setItem_busy others x register own bound),
      fun task pc aligned => becomes_of_ddataWrite
        (Chip.ddataWrite_of_ok open_ task pc (fun others => Here.setItem_pc others x aligned) (by decide)),
      fun slot0 => becomes_of_ddataWrite (Chip.ddataWrite_slot0 open_ slot0 x)⟩
  case empty => exact becomes_of_tnqRead (Chip.tnqRead_of_nil none_)
  case pops => exact becomes_of_tnqRead (Chip.tnqRead_of_cons some_)
  case running =>
    have arm : exec (.cdispRestart v c) s = .next { s with chip := s.chip.restartDispatch v c } := rfl
    rw [Ignored, arm, Chip.restartDispatch_of_running running]
  case restarts =>
    have arm : exec (.cdispRestart v c) s = .next { s with chip := s.chip.restartDispatch v c } := rfl
    refine ⟨_, s.chip.restarted v c, arm, ?_, ?_, rfl, rfl, rfl, rfl, rfl⟩
    · rw [Chip.restartDispatch_of_stopped stopped, Chip.core_modCore_same]
    · rw [Chip.restartDispatch_of_stopped stopped, Chip.slot_modCore_of_slots _ _ _ _ (by intro; rfl), Chip.slot_setSlot_same]
  case writes =>
    intro low high writable selects
    have arm := exec_registerWrite (x := x) low high writable selects
    exact ⟨fun refused => by rw [Ignored, arm, refused]; rfl, fun t written => by rw [arm, written]; rfl⟩

end

section
/-! PROOFS. The family 07, packets and arrivals at a core's inbound queue (R122, R140, R194 to R197). -/

namespace Sys2Proof.Machine

/-! ## The packet leaves the network -/

/-- No entry of an erased map has the erased key. -/
theorem Map.ne_of_mem_erase {α : Type} {m : Map α} {k : Nat} {p : Nat × α} (mem : p ∈ m.erase k) : p.1 ≠ k := by
  induction m with
  | nil => simp [Map.erase] at mem
  | cons q m ih =>
    obtain ⟨j, y⟩ := q
    simp only [Map.erase] at mem
    split at mem
    · exact ih mem
    · rcases List.mem_cons.1 mem with rfl | mem
      · assumption
      · exact ih mem

section
variable {h g : Chip} {k : Nat}

theorem Chip.delivered_of_flights (flights : g.flights = (h.landed k).flights) : Delivered h g k := by
  intro _ _ p mem
  rw [flights] at mem
  exact Map.ne_of_mem_erase mem

theorem Chip.delivered_send (src destV : Nat) (b : Packetry) : Delivered h ((h.landed k).send src destV b) k := by
  intro _ older p mem
  rcases Map.mem_put mem with rfl | mem
  · exact Nat.ne_of_gt older
  · exact Map.ne_of_mem_erase mem

theorem Chip.inFlight_send (src destV : Nat) (b : Packetry) : InFlight (h.send src destV b) b :=
  ⟨h.nextSeq, _, Map.get_put_same .., rfl⟩

end

/-! ## A packet enters its core (R140, R383) -/

section
variable (h : Chip) (uid : Nat) (t : Task)

theorem Chip.SameCores.noteWaiting : h.SameCores (h.noteWaiting uid t) := by
  unfold Chip.noteWaiting
  split
  · exact .refl h
  · exact .foldl (fun _ _ => .modGroup ..) _ h

@[simp] theorem Chip.flights_noteWaiting : (h.noteWaiting uid t).flights = h.flights := by
  unfold Chip.noteWaiting
  split
  · rfl
  · exact List.foldlRecOn (motive := fun g : Chip => g.flights = h.flights) _ _ rfl fun _ same _ _ => same

end

/-- The core that a packet or an arrival enters. -/
theorem Chip.core_enqueue_same (h : Chip) (v c uid : Nat) (arrival floor : Bool) : (h.enqueue v c uid arrival floor).core v c =
    (h.core v c).enter (freshEntry h uid arrival) floor := by
  rw [Chip.core_enqueue, if_pos ⟨rfl, rfl⟩]

/-- An arrival is refused the queue only where all 40 entries are taken. -/
theorem Chip.limit_arrival (h : Chip) (uid : Nat) (floor : Bool) : (freshEntry h uid true).limit floor = 40 :=
  if_pos (Bool.or_true floor)

/-- The packet of a task that is not the floor task leaves the last 8 entries free. -/
theorem Chip.limit_packet (h : Chip) (uid : Nat) (floor : Bool) : (freshEntry h uid false).limit floor = if floor = true then 40 else 32 := by
  cases floor <;> rfl

/-- The entry that an arrival leaves at its core, in the queue of 40 or behind it. -/
theorem Core.mem_enter_arrival (k : Core) (h : Chip) (uid : Nat) (floor : Bool) :
    if k.queue.length < 40 then freshEntry h uid true ∈ (k.enter (freshEntry h uid true) floor).queue
    else freshEntry h uid true ∈ (k.enter (freshEntry h uid true) floor).overflow := by
  split
  · rw [Core.enter_of_room (by rwa [Chip.limit_arrival])]; simp
  · rw [Core.enter_of_full (by rwa [Chip.limit_arrival])]; simp

section
variable {s : State} {k : Nat} {f : Flight} (flight : s.chip.flights.get k = some f)
include flight

theorem exec_packetEnqueue {v c uid : Nat} {t : Task} (body : f.body = .task v c uid) (task : s.chip.task? uid = some t) :
    exec (.packetEnqueue k) s =
      let h := s.chip
      if h.arrives t.pid v f then
        .next { s with chip := ((h.landed k).enqueue v c uid false (h.floorStamp t.pid t.packet.stamp)).noteWaiting uid t }
      else .next s := by
  simp only [exec, execPacketEnqueue, Chip.inFlight, flight, body, task]

theorem exec_migrationArrival {v : Nat} {q : Parked} (body : f.body = .migration v q) :
    exec (.migrationArrival k) s =
      .next { s with chip := if s.chip.arrives q.thread.pid v f then s.chip.migrationArrives k v q else s.chip } := by
  simp only [exec, execMigrationArrival, Chip.inFlight, flight, body]

end

theorem exec_heldTrapDelivery {s : State} {v tid : Nat} {q : Parked} (context : (s.chip.cluster v).context tid = some q) :
    exec (.heldTrapDelivery v tid) s =
      let h := s.chip
      if q.thread.held.isSome && h.floorStamp q.thread.pid q.thread.stamp && !(h.core v q.core).queued tid then
        .next { s with chip := h.arrive v q.core tid }
      else .next s := by
  simp only [exec, execHeldTrapDelivery, context]

theorem exec_overflowRefill (v c : Nat) (s : State) :
    exec (.overflowRefill v c) s = .next { s with chip := s.chip.refill v c } := rfl

/-! ## The order of a queue (R141) -/

section
variable {α : Type} {le : α → α → Bool} {x : α}

theorem mem_insertBy {y z : α} {ys : List α} : z ∈ insertBy le y ys ↔ z = y ∨ z ∈ ys := by
  induction ys with
  | nil => simp [insertBy]
  | cons w ys ih =>
    rw [insertBy]
    split
    · exact List.mem_cons
    · rw [List.mem_cons, ih, List.mem_cons]; tauto

theorem mem_sortBy {y : α} {xs : List α} : y ∈ sortBy le xs ↔ y ∈ xs := by
  induction xs with
  | nil => rfl
  | cons z xs ih => rw [sortBy, mem_insertBy, ih, List.mem_cons]

/-- An element put before all that differ from it takes the first place. -/
theorem head?_insertBy_least {ys : List α} (least : ∀ y ∈ ys, y ≠ x → le x y = true) : (insertBy le x ys).head? = some x := by
  cases ys with
  | nil => rfl
  | cons y ys =>
    rw [insertBy]
    split
    · rfl
    · rename_i after
      by_contra other
      exact after (least y List.mem_cons_self fun same => other (congrArg some same))

/-- An element that does not come before the first one leaves it the first place. -/
theorem head?_insertBy_of_not {y : α} {ys : List α} (first : ys.head? = some x) (after : le y x = false) :
    (insertBy le y ys).head? = some x := by
  obtain ⟨zs, rfl⟩ := List.head?_eq_some_iff.1 first
  rw [insertBy, if_neg (by simp [after])]
  rfl

/-- The element that comes before all that differ from it is the first of the sorted list. -/
theorem head?_sortBy {xs : List α} (mem : x ∈ xs) (least : ∀ y ∈ xs, y ≠ x → le x y = true ∧ le y x = false) :
    (sortBy le xs).head? = some x := by
  induction xs with
  | nil => simp at mem
  | cons y ys ih =>
    by_cases same : y = x
    · subst same
      exact head?_insertBy_least fun z hz other => (least z (List.mem_cons_of_mem _ (mem_sortBy.1 hz)) other).1
    · have rest := ih ((List.mem_cons.1 mem).resolve_left (Ne.symm same)) fun z hz => least z (List.mem_cons_of_mem _ hz)
      exact head?_insertBy_of_not rest (least y List.mem_cons_self same).2

end

theorem Chip.entry_of_ticket {h : Chip} {v : Nat} {e : Entry} {x : Ticket} (ticket : h.ticket v e = some x) : x.entry = e := by
  unfold Chip.ticket at ticket
  split at ticket
  · obtain ⟨_, -, rfl⟩ := Option.map_eq_some_iff.1 ticket; rfl
  · obtain ⟨_, -, rfl⟩ := Option.map_eq_some_iff.1 ticket; rfl

/-! ## The overflow area refills the queue (R140) -/

section
variable {h : Chip} {v c : Nat} {e : Entry} {x : Ticket} (waits : e ∈ (h.core v c).overflow) (ticket : h.ticket v e = some x)
  (first : ∀ e' ∈ (h.core v c).overflow, e' ≠ e → ∀ x', h.ticket v e' = some x' → x.before x' = true ∧ x'.before x = false)
include waits ticket first

/-- The first of the overflow area in the order of R141. -/
theorem Chip.head?_overflow : (sortBy Ticket.before ((h.core v c).overflow.filterMap (h.ticket v))).head? = some x := by
  refine head?_sortBy (List.mem_filterMap.2 ⟨e, waits, ticket⟩) fun y hy other => ?_
  obtain ⟨e', he', ticket'⟩ := List.mem_filterMap.1 hy
  refine first e' he' (fun same => other ?_) y ticket'
  rw [same, ticket] at ticket'
  exact (Option.some.inj ticket').symm

/-- The first entry of the overflow area moves where the queue has room for it. -/
theorem Chip.refill_first : h.refill v c = if (if x.floor = true ∨ e.arrival = true then 40 else 32) ≤ (h.core v c).queue.length then h
    else (h.modCore v c fun k =>
      { k with queue := k.queue ++ [{ e with seq := h.nextSeq }]
               overflow := k.overflow.filter fun y => decide (y.uid ≠ e.uid) }).tick := by
  obtain ⟨ys, sorted⟩ := List.head?_eq_some_iff.1 (Chip.head?_overflow waits ticket first)
  simp only [Chip.refill, sorted, Chip.entry_of_ticket ticket, Bool.or_eq_true]

end

/-! ## A migrating thread arrives (R194, R195) -/

section
variable (h : Chip) (v : Nat) (q : Parked) (t : Thread)

theorem Chip.arrivalCore_of_fits {c n : Nat} {floor : Bool} (fits : h.coreFits v c n floor = true) : h.arrivalCore v c n floor = c :=
  if_pos fits

/-- The arrived thread as it is kept at its cluster, before its entry is queued. -/
def Chip.arrivedContext (h : Chip) (v : Nat) (q : Parked) (t : Thread) : Parked :=
  { q with thread := t, core := h.arrivalCore v q.core t.regLim (h.floorStamp t.pid t.stamp)
           cached := decide (cacheUse (h.cluster v).parked < 64), seq := h.nextSeq, access := none, claim := none, bounced := none }

/-- An arrival is a saved context of its cluster and an entry of its core; then its claim is re-negotiated. -/
theorem Chip.settleArrival_eq (claim : Option Claim) : ∃ g : Chip, h.settleArrival v q t claim =
      (g.enqueue v (h.arrivedContext v q t).core t.uid true false).renegotiate v t.uid ∧ g.flights = h.flights ∧
    g.nextSeq = h.nextSeq ∧ h.arrivedContext v q t ∈ (g.cluster v).parked ∧ ∀ c, g.core v c = h.core v c := by
  unfold Chip.settleArrival
  extract_lets c cached x placed g
  have clusters : g.clusters = placed.clusters := by dsimp only [g]; split <;> rfl
  refine ⟨g, rfl, by dsimp only [g]; split <;> rfl, by dsimp only [g]; split <;> rfl, ?_, fun d => ?_⟩
  · rw [Chip.cluster, clusters, ← Chip.cluster, Chip.cluster_modCluster, if_pos rfl]
    exact List.mem_append_right _ (List.mem_singleton_self _)
  · rw [Chip.core, Chip.cluster, clusters, ← Chip.cluster, ← Chip.core]
    exact (Chip.core_modCluster_of_cores _ v v d (by intro; rfl)).trans (Chip.core_dropPrivate ..)

theorem Chip.flights_settleArrival (claim : Option Claim) : (h.settleArrival v q t claim).flights = h.flights := by
  obtain ⟨g, settles, flights, -⟩ := h.settleArrival_eq v q t claim
  rw [settles, (Chip.SameButClaims.renegotiate ..).flights]
  exact flights

theorem Chip.mem_parked_settleArrival (claim : Option Claim) :
    h.arrivedContext v q t ∈ ((h.settleArrival v q t claim).cluster v).parked := by
  obtain ⟨g, settles, -, -, parked, -⟩ := h.settleArrival_eq v q t claim
  rwa [settles, (Chip.SameButClaims.renegotiate ..).parked, Chip.parked_enqueue]

theorem Chip.core_settleArrival (claim : Option Claim) {c : Nat} (core : (h.arrivedContext v q t).core = c) :
    (h.settleArrival v q t claim).core v c = (h.core v c).enter (freshEntry h t.uid true) false := by
  obtain ⟨g, settles, -, seq, -, kept⟩ := h.settleArrival_eq v q t claim
  rw [settles, (Chip.SameButClaims.renegotiate ..).sameCores.core_eq, core, Chip.core_enqueue_same, kept, freshEntry, seq, freshEntry]

end

section
variable {h : Chip} {k v : Nat} {q : Parked}

/-- A thread without an access and without a claim has nothing to wait for (R195). -/
theorem Chip.migrationArrives_plain (access : q.access = none) (claim : q.claim = none) : h.migrationArrives k v q =
    (h.landed k).settleArrival v q { q.thread with away := decide (v ≠ q.thread.homeV) } none := by
  simp only [Chip.migrationArrives, access, claim, Chip.arrivalContext]

/-- An access whose region is gone sends its thread home with the address (R197). -/
theorem Chip.migrationArrives_gone {a : Pend} {x : Word} (access : q.access = some a) (fresh : q.bounced = none)
    (gone : h.bounces v q.claim a = some x) : h.migrationArrives k v q =
    (h.landed k).send (h.routerOf v) q.thread.homeV (.migration q.thread.homeV { q with bounced := some x }) := by
  simp only [Chip.migrationArrives, access, fresh, gone]

end

end Sys2Proof.Machine

open Sys2Proof Sys2Proof.Machine

/-- Settles O46: the core's queue and its overflow area are read off the two outcomes of `Core.enter`; where an access waits while its
thread migrates is the model's choice (log 30). -/
theorem packetsAndArrivals : Obligations.PacketsAndArrivals := by
  refine ⟨fun s k f v c uid t flight body task => ⟨fun no => ?_, fun yes => ?enqueues⟩,
    fun s v c e x waits ticket first => ⟨fun full => ?stays, fun room => ?refills⟩,
    fun s k f v q flight body => ⟨fun no => ?_, fun yes access claim => ?arrives, fun a x yes access fresh gone => ?bounces⟩,
    fun s v tid q context => ⟨fun none_ => ?_, fun held floor absent => ?delivers⟩⟩
  · exact (exec_packetEnqueue flight body task).trans (if_neg (by simp [no]))
  case enqueues =>
    have core := (Chip.SameCores.noteWaiting ((s.chip.landed k).enqueue v c uid false (s.chip.floorStamp t.pid t.packet.stamp)) uid
      t).core_eq v c
    rw [Chip.core_enqueue_same] at core
    have limit := (s.chip.landed k).limit_packet uid (s.chip.floorStamp t.pid t.packet.stamp)
    refine ⟨_, (exec_packetEnqueue flight body task).trans (if_pos yes), Chip.delivered_of_flights (Chip.flights_noteWaiting ..),
      fun full => ?_, fun room => ?_⟩
    · rw [core, Core.enter_of_full (by rw [limit]; exact Nat.not_lt.2 full)]
      exact ⟨rfl, rfl⟩
    · rw [core, Core.enter_of_room (by rw [limit]; exact Nat.not_le.1 room)]
      exact ⟨rfl, rfl⟩
  case stays =>
    rw [Ignored, exec_overflowRefill, Chip.refill_first waits ticket first, if_pos full]
  case refills =>
    refine ⟨s.chip.refill v c, exec_overflowRefill .., ?_⟩
    rw [Chip.refill_first waits ticket first, if_neg (Nat.not_le.2 room), Chip.core, Chip.cluster_tick, ← Chip.core,
      Chip.core_modCore_same]
    exact ⟨rfl, rfl⟩
  · exact (exec_migrationArrival flight body).trans (by simp [no])
  case arrives =>
    refine ⟨s.chip.migrationArrives k v q, (s.chip.landed k).arrivedContext v q { q.thread with away := decide (v ≠ q.thread.homeV) },
      (exec_migrationArrival flight body).trans (by rw [if_pos yes]), ?_⟩
    rw [Chip.migrationArrives_plain access claim]
    refine ⟨Chip.delivered_of_flights (Chip.flights_settleArrival ..), Chip.mem_parked_settleArrival .., rfl, rfl,
      Chip.arrivalCore_of_fits _ _, ?_⟩
    rw [Chip.core_settleArrival _ _ _ _ _ rfl]
    exact Core.mem_enter_arrival ..
  case bounces =>
    refine ⟨s.chip.migrationArrives k v q, (exec_migrationArrival flight body).trans (by rw [if_pos yes]), ?_⟩
    rw [Chip.migrationArrives_gone access fresh gone]
    exact ⟨Chip.delivered_send _ _ _, Chip.inFlight_send ..⟩
  · exact (exec_heldTrapDelivery context).trans (if_neg (by simp [none_]))
  case delivers =>
    refine ⟨_, (exec_heldTrapDelivery context).trans (if_pos (by simp [held, floor, absent])), ?_⟩
    rw [Chip.arrive_eq_enqueue, Chip.core_enqueue_same]
    split
    · rw [Core.enter_of_room (by rwa [Chip.limit_arrival])]
    · rw [Core.enter_of_full (by rwa [Chip.limit_arrival])]

end

section
/-! PROOFS. The family 08, common registers and what a thread asks about itself and the grid (R156 to R158, R409, R410). -/

namespace Sys2Proof.Machine

/-! ## The bodies of the five instructions -/

/-- What MFC does once it has issued. -/
def mfcBody (d n : BitVec 7) (_ : Thread) (p : At) (h : Chip) : Except Stop Chip :=
  if 16 ≤ n.toNat then .error (.trap .eill (tvalWord (wordOf (.mfc d n))))
  else .ok (h.writeDst p d ((h.core p.v p.c).common.getOr n.toNat 0))

theorem exec_mfc (d n : BitVec 7) (s : State) : exec (.mfc d n) s = issueChip (form (wordOf (.mfc d n)) [.dst d]) s (mfcBody d n) := rfl

/-- The chip in which an MTC write waits for the rotation boundary (R158). -/
def Chip.keepCommon (h : Chip) (p : At) (n : Nat) (x : Word) : Chip :=
  h.modCore p.v p.c fun k => { k with pendingCommon := k.pendingCommon ++ [(n, p.t, x)] }

/-- What MTC does once it has issued. -/
def mtcBody (a n : BitVec 7) (_ : Thread) (p : At) (h : Chip) : Except Stop Chip :=
  (h.readAt p a).bind fun r =>
    if 16 ≤ n.toNat then .error (.trap .eill (tvalWord (wordOf (.mtc a n)))) else .ok (r.2.keepCommon p n.toNat r.1)

theorem exec_mtc (a n : BitVec 7) (s : State) : exec (.mtc a n) s = issueChip (form (wordOf (.mtc a n)) [.src a]) s (mtcBody a n) := rfl

theorem exec_self (d : BitVec 7) (s : State) : exec (.self d) s =
    issueChip (form (wordOf (.self d)) [.dst d]) s fun self p h => .ok (h.writeDst p d (h.selfWord self p)) := rfl

/-- The word that GRADE writes for a thread (R409). -/
def State.gradeFor (s : State) (self : Thread) (h : Chip) : Word := if self.sup then s.gradeWord else (h.part self.pid).grade

theorem exec_grade (d : BitVec 7) (s : State) : exec (.grade d) s =
    issueChip (form (wordOf (.grade d)) [.dst d]) s fun self p h => .ok (h.writeDst p d (s.gradeFor self h)) := rfl

/-- V of the grid that a thread asks about (R410, R424). -/
def Chip.gridV (h : Chip) (self : Thread) : Nat := if self.sup then h.v else bits (h.part self.pid).grade 0 12

/-- What TOPO does once it has issued. -/
def topoBody (d a : BitVec 7) (self : Thread) (p : At) (h : Chip) : Except Stop Chip :=
  (h.readAt p a).bind fun r =>
    if bits r.1 11 53 ≠ 0 then .error (.trap .eill (tvalWord (wordOf (.topo d a))))
    else if r.2.gridV self ≤ r.1.toNat then .error (.trap .ewindow r.1)
    else .ok (r.2.writeDst p d (topoWord (r.2.gridV self) r.1.toNat))

theorem exec_topo (d a : BitVec 7) (s : State) : exec (.topo d a) s =
    issueChip (form (wordOf (.topo d a)) [.dst d, .src a]) s (topoBody d a) := rfl

/-! ## What they give for the thread whose turn it is -/

theorem State.common_holding (s : State) (x : Here) (v c : Nat) : ((s.holding x).core v c).common = (s.chip.core v c).common := by
  obtain ⟨_, _, core⟩ := s.chip.core_putHere s.place x v c
  rw [State.holding, core]

theorem State.gridV_holding (s : State) (x : Here) (t : Thread) : (s.holding x).gridV t = s.chip.gridV t := rfl

/-- An operand of 11 bits is the number of a cluster. -/
theorem bits_above_eleven_eq_zero_iff (x : Word) : bits x 11 53 = 0 ↔ x.toNat < 2 ^ 11 := by
  have := x.isLt
  simp only [bits]
  omega

section
variable {f : Form} {s : State} {y z : Here} {d a n : BitVec 7} {u : Word} (issues : Issues s f y)
include issues

theorem mfcBody_common (common : n.toNat < 16) : mfcBody d n y.th s.place (s.holding y.passed) =
    .ok (s.holding (y.passed.write d ((s.chip.core s.place.v s.place.c).common.getOr n.toNat 0))) := by
  rw [mfcBody, if_neg (Nat.not_le.2 common), State.common_holding, issues.writeDst]

variable (read : y.passed.read a = .ok (u, z))
include read

theorem mtcBody_of_read : mtcBody a n y.th s.place (s.holding y.passed) =
    if 16 ≤ n.toNat then .error (.trap .eill (tvalWord (wordOf (.mtc a n)))) else .ok ((s.holding z).keepCommon s.place n.toNat u) := by
  rw [mtcBody, issues.read read]
  rfl

theorem topoBody_of_read : topoBody d a y.th s.place (s.holding y.passed) =
    if bits u 11 53 ≠ 0 then .error (.trap .eill (tvalWord (wordOf (.topo d a))))
    else if s.chip.gridV y.th ≤ u.toNat then .error (.trap .ewindow u)
    else .ok (s.holding (z.write d (topoWord (s.chip.gridV y.th) u.toNat))) := by
  rw [topoBody, issues.read read]
  simp only [Except.bind, State.gridV_holding, issues.writeDst]

end

/-! ## The words of SELF and GRADE (R156, R409) -/

theorem Chip.selfWord_sup (h : Chip) {t : Thread} (sup : t.sup = true) (p : At) :
    h.selfWord t p = BitVec.ofNat 64 (8 * p.v + p.c) := if_pos sup

theorem Chip.selfWord_task (h : Chip) {t : Thread} (task : t.sup = false) (p : At) : h.selfWord t p = BitVec.ofNat 64
    (2 ^ 19 * (if (h.part t.pid).bounded then 1 else 0) + 2 ^ 18 * (if t.quiet then 1 else 0) + 8 * t.homeV + t.homeC) := by
  rw [Chip.selfWord, if_neg (by simp [task])]
  simp only [mul_ite, mul_one, mul_zero]

/-- The fields of the current GRADE word, each of its own width, lie side by side. -/
theorem State.bits_gradeWord (s : State) : bits s.gradeWord 0 12 = s.chip.v % 2 ^ 12 ∧ bits s.gradeWord 12 8 = 64 ∧
    bits s.gradeWord 20 8 = (s.chip.v + 63) / 64 % 256 ∧ bits s.gradeWord 28 8 = (if s.chip.gradeB then 0x18 else 0x19) ∧
    bits s.gradeWord 56 1 = (if s.chip.reduced then 1 else 0) ∧ bits s.gradeWord 57 7 = 0 := by
  have reduced : (if s.chip.reduced then 2 ^ 56 else 0) = 2 ^ 56 * (if s.chip.reduced then 1 else 0) := by
    simp only [mul_ite, mul_one, mul_zero]
  have flag : (if s.chip.reduced then 1 else 0) < 2 := by split <;> decide
  have code : s.chip.gradeCode < 2 ^ 8 := by unfold Chip.gradeCode; split <;> decide
  change _ ∧ _ ∧ bits s.gradeWord 20 8 = gridHeight s.chip.v % 256 ∧ bits s.gradeWord 28 8 = s.chip.gradeCode ∧ _
  simp only [State.gradeWord, bits, BitVec.toNat_ofNat, reduced]
  omega

end Sys2Proof.Machine

open Sys2Proof Sys2Proof.Machine

/-- Settles O32: the bodies of MFC, MTC (R157, R158) and TOPO behind their operand, and the words of SELF and GRADE. -/
theorem commonRegistersAndQueries : Obligations.CommonRegistersAndQueries := by
  refine ⟨fun d n s y issues => ⟨fun common => ?mfc, fun beyond => ?mfcIllegal⟩,
    fun a n s y u z issues read => ⟨fun common => ?mtc, fun beyond => ?mtcIllegal⟩,
    fun d s y issues => ⟨fun sup => ?selfSup, fun task => ?selfTask⟩,
    fun d s y issues => ⟨fun sup => ?gradeSup, fun task => ?gradeTask⟩,
    fun d a s y u z issues read => ⟨fun wide => ?topoIllegal, fun fits outside => ?topoOutside, fun fits inside => ?topo⟩, ?lastVcn⟩
  case mfc => exact leavesThread_of_chip (exec_mfc d n s) issues (mfcBody_common issues common)
  case mfcIllegal => exact raises_of_chip (exec_mfc d n s) issues (if_pos beyond)
  case mtc =>
    exact leavesChip_of_chip (exec_mtc a n s) issues ((mtcBody_of_read issues read).trans (if_neg (Nat.not_le.2 common)))
  case mtcIllegal => exact raises_of_chip (exec_mtc a n s) issues ((mtcBody_of_read issues read).trans (if_pos beyond))
  case selfSup =>
    refine leavesThread_of_chip (exec_self d s) issues ?_
    rw [Chip.selfWord_sup _ sup, issues.writeDst]
  case selfTask =>
    refine leavesThread_of_chip (exec_self d s) issues ?_
    rw [Chip.selfWord_task _ task, issues.writeDst]
    rfl
  case gradeSup =>
    refine ⟨s.gradeWord, leavesThread_of_chip (exec_grade d s) issues ?_, s.bits_gradeWord⟩
    rw [State.gradeFor, if_pos sup, issues.writeDst]
  case gradeTask =>
    refine leavesThread_of_chip (exec_grade d s) issues ?_
    rw [State.gradeFor, if_neg (by simp [task]), issues.writeDst]
    rfl
  case lastVcn => decide +kernel
  case topoIllegal =>
    have wide : bits u 11 53 ≠ 0 := fun zero => Nat.not_lt.2 wide ((bits_above_eleven_eq_zero_iff u).1 zero)
    exact raises_of_chip (exec_topo d a s) issues ((topoBody_of_read issues read).trans (if_pos wide))
  case topoOutside =>
    have fits : ¬ bits u 11 53 ≠ 0 := not_not.2 ((bits_above_eleven_eq_zero_iff u).2 fits)
    exact raises_of_chip (exec_topo d a s) issues ((topoBody_of_read issues read).trans ((if_neg fits).trans (if_pos outside)))
  case topo =>
    have fits : ¬ bits u 11 53 ≠ 0 := not_not.2 ((bits_above_eleven_eq_zero_iff u).2 fits)
    exact leavesThread_of_chip (exec_topo d a s) issues
      ((topoBody_of_read issues read).trans ((if_neg fits).trans (if_neg (Nat.not_le.2 inside))))

end

section
/-! PROOFS. The family 08, SPAWN (R146, R147): the operands it refuses, and the task it makes. -/

namespace Sys2Proof.Machine

/-! ## A task made (R140, R372) -/

/-- The chips differ at most in their partitions. -/
structure Chip.SameButParts (h g : Chip) : Prop where
  rest : { g with parts := h.parts } = h

section
variable {h g k : Chip}

theorem Chip.SameButParts.refl (h : Chip) : h.SameButParts h := ⟨rfl⟩

theorem Chip.SameButParts.trans (first : h.SameButParts g) (second : g.SameButParts k) : h.SameButParts k :=
  ⟨by rw [← first.rest, ← second.rest]⟩

theorem Chip.SameButParts.tasks (same : h.SameButParts g) : g.tasks = h.tasks := by rw [← same.rest]

theorem Chip.SameButParts.nextUid (same : h.SameButParts g) : g.nextUid = h.nextUid := by rw [← same.rest]

theorem Chip.SameButParts.nextSeq (same : h.SameButParts g) : g.nextSeq = h.nextSeq := by rw [← same.rest]

theorem Chip.SameButParts.sameCores (same : h.SameButParts g) : h.SameCores g := ⟨fun _ => by rw [← same.rest]; rfl⟩

theorem Chip.SameButParts.modPart (h : Chip) (pid : Nat) (f : Partition → Partition) : h.SameButParts (h.modPart pid f) := ⟨rfl⟩

theorem Chip.SameButParts.joinGroups (h : Chip) (pid uid : Nat) (grps : BitVec 36) : h.SameButParts (h.joinGroups pid uid grps) :=
  List.foldlRecOn (motive := h.SameButParts) _ _ (.refl h) fun _ same _ _ => same.trans (.modPart ..)

theorem Chip.SameButParts.launchLive_up (h : Chip) (pid : Nat) (launch : Option Nat) : h.SameButParts (h.launchLive pid launch true) := by
  cases launch with
  | none => exact .refl h
  | some n => exact ⟨rfl⟩

end

theorem Chip.addChild_eq (h : Chip) (uid child : Nat) : ∃ tasks, h.addChild uid child = { h with tasks := tasks } := by
  unfold Chip.addChild
  split
  · exact ⟨_, rfl⟩
  · exact ⟨_, rfl⟩

section
variable (h : Chip) (src pid : Nat) (k : Packet) (launch : Option Nat)

/-- A task made is entered under its number, and its packet sent to its core; but for that the partitions alone change. -/
theorem Chip.newTask_eq : ∃ g, ({ h with
      nextUid := h.nextUid + 1
      tasks := h.tasks.put h.nextUid { pid := pid, packet := k, launch := launch } } : Chip).SameButParts g ∧
    h.newTask src pid k launch = g.send src k.homeV (.task k.homeV k.homeC h.nextUid) :=
  ⟨_, (Chip.SameButParts.joinGroups ..).trans (.launchLive_up ..), rfl⟩

theorem Chip.SameCores.newTask : h.SameCores (h.newTask src pid k launch) := by
  obtain ⟨g, same, made⟩ := h.newTask_eq src pid k launch
  rw [made]
  exact ⟨same.sameCores.cores⟩

theorem Chip.tasks_newTask : (h.newTask src pid k launch).tasks = h.tasks.put h.nextUid { pid := pid, packet := k, launch := launch } := by
  obtain ⟨g, same, made⟩ := h.newTask_eq src pid k launch
  rw [made]
  exact same.tasks

theorem Chip.nextUid_newTask : (h.newTask src pid k launch).nextUid = h.nextUid + 1 := by
  obtain ⟨g, same, made⟩ := h.newTask_eq src pid k launch
  rw [made]
  exact same.nextUid

theorem Chip.flights_newTask : ∃ f, (h.newTask src pid k launch).flights.get h.nextSeq = some f ∧
    f.body = .task k.homeV k.homeC h.nextUid := by
  obtain ⟨g, same, made⟩ := h.newTask_eq src pid k launch
  have seq : g.nextSeq = h.nextSeq := same.nextSeq
  rw [made, ← seq]
  exact ⟨_, Map.get_put_same .., rfl⟩

end

/-! ## What a result written leaves -/

theorem Chip.here?_writeDst {h : Chip} {p : At} {x : Here} (here : h.here? p = some x) (d : BitVec 7) (v : Word) :
    (h.writeDst p d v).here? p = some (x.write d v) := by
  have holds : (h.slot p).thread?.isSome := by
    obtain ⟨t, thread, -⟩ := Option.map_eq_some_iff.1 here
    rw [← Chip.thread?, thread]
    rfl
  rw [Chip.writeDst, here]
  exact Chip.here?_putHere _ _ _ holds

theorem Chip.SameButCores.writeDst (h : Chip) (p : At) (d : BitVec 7) (v : Word) : h.SameButCores (h.writeDst p d v) := by
  unfold Chip.writeDst
  split
  · exact .putHere ..
  · exact .refl h

theorem Chip.SameButCores.nextUid {h g : Chip} (same : h.SameButCores g) : g.nextUid = h.nextUid := by rw [← same.rest]

/-! ## What SPAWN checks (R146) -/

/-- The control word is one of R146: no bit outside its fields, an allocation, and at most 16 arguments that fit it. -/
def spawnShape (c : Word) : Prop :=
  bits c 20 44 = 0 ∧ bits c 3 1 = 0 ∧ bits c 16 4 ≠ 0 ∧ bits c 11 5 ≤ 16 ∧ 3 + bits c 11 5 ≤ 8 * bits c 16 4

/-- The registers that it takes its arguments from are the thread's. -/
def spawnOwned (t : Thread) (c : Word) : Prop := bits c 11 5 = 0 ∨ bits c 4 7 + bits c 11 5 ≤ t.regLim

/-- The arguments of the child. -/
def spawnArgs (t : Thread) (file : Map Word) (c : Word) : List Word :=
  (List.range (bits c 11 5)).map fun j => readGpr t file (bits c 4 7 + j)

/-- The chip in which SPAWN has made its task (R147). -/
def Chip.withChild (h : Chip) (self : Thread) (p : At) (x y c : Word) : Chip :=
  (h.addChild self.uid h.nextUid).newTask (h.routerOf p.v) self.pid
    (childPacket self x y c (spawnArgs self (h.core p.v p.c).file c)) ((h.task? self.uid).bind (·.launch))

/-- The chip in which it has counted its spawn and written its index too. -/
def Chip.spawned (h : Chip) (self : Thread) (p : At) (d : BitVec 7) (x y c : Word) : Chip :=
  ((h.withChild self p x y c).modThread p fun t => { t with counters := { t.counters with spawn := t.counters.spawn + 1 } }).writeDst p d
    (BitVec.ofNat 64 self.counters.spawn)

section
variable (h : Chip) (self : Thread) (p : At) (d : BitVec 7) (x y c : Word)

theorem Chip.SameCores.withChild : h.SameCores (h.withChild self p x y c) := by
  obtain ⟨tasks, child⟩ := h.addChild_eq self.uid h.nextUid
  rw [Chip.withChild, child]
  exact Chip.SameCores.trans (g := { h with tasks := tasks }) ⟨fun _ => rfl⟩ (.newTask ..)

/-- But for the thread that goes on, the task made is the only change. -/
theorem Chip.SameButCores.spawned : (h.withChild self p x y c).SameButCores (h.spawned self p d x y c) :=
  (Chip.SameButCores.modThread ..).trans (.writeDst ..)

theorem Chip.tasks_spawned : (h.spawned self p d x y c).tasks.get h.nextUid = some {
    pid := self.pid, packet := childPacket self x y c (spawnArgs self (h.core p.v p.c).file c)
    launch := (h.task? self.uid).bind (·.launch) } := by
  obtain ⟨tasks, child⟩ := h.addChild_eq self.uid h.nextUid
  rw [(Chip.SameButCores.spawned ..).sameData.tasks, Chip.withChild, Chip.tasks_newTask, child]
  exact Map.get_put_same ..

theorem Chip.nextUid_spawned : (h.spawned self p d x y c).nextUid = h.nextUid + 1 := by
  obtain ⟨tasks, child⟩ := h.addChild_eq self.uid h.nextUid
  rw [(Chip.SameButCores.spawned ..).nextUid, Chip.withChild, Chip.nextUid_newTask, child]

theorem Chip.flights_spawned : ∃ f, (h.spawned self p d x y c).flights.get h.nextSeq = some f ∧
    f.body = .task self.homeV (bits c 0 3) h.nextUid := by
  obtain ⟨tasks, child⟩ := h.addChild_eq self.uid h.nextUid
  rw [(Chip.SameButCores.spawned ..).sameData.flights, Chip.withChild, child]
  exact Chip.flights_newTask ..

end

/-- What SPAWN does with its operands. -/
def spawnAnswer (d : BitVec 7) (w : Half) (self : Thread) (p : At) (x y c : Word) (h : Chip) : Except Stop Chip :=
  let n := bits c 11 5
  let base := bits c 4 7
  if bits c 20 44 ≠ 0 ∨ bits c 3 1 ≠ 0 ∨ bits c 16 4 = 0 ∨ 16 < n then .error (.trap .eill (tvalWord w))
  else if 8 * bits c 16 4 < 3 + n then .error (.trap .eill (tvalWord w))
  else if 0 < n ∧ self.regLim < base + n then .error (.trap .ereg (BitVec.ofNat 64 (base + n - 1)))
  else if y.ule self.stamp then .error (.trap .estamp y)
  else if bits x 0 2 ≠ 0 then .error (.trap .ealign x)
  else .ok (h.spawned self p d x y c)

/-- What SPAWN does once it has issued. -/
def spawnBody (d a b : BitVec 7) (w : Half) (self : Thread) (p : At) (h : Chip) : Except Stop Chip :=
  if self.sup then .error (.trap .eill (tvalWord w))
  else (h.readAt p a).bind fun r => (r.2.readAt p b).bind fun q => (q.2.readAt p d).bind fun c => spawnAnswer d w self p r.1 q.1 c.1 c.2

theorem exec_spawn (d a b : BitVec 7) (s : State) : exec (.spawn d a b) s =
    issueChip (form (wordOf (.spawn d a b)) [.both d, .src a, .src b]) s (spawnBody d a b (wordOf (.spawn d a b))) := rfl

section
variable {d : BitVec 7} {w : Half} {self : Thread} {p : At} {x y c : Word} {h : Chip}

theorem spawnAnswer_shapeless (bad : ¬ spawnShape c) : spawnAnswer d w self p x y c h = .error (.trap .eill (tvalWord w)) := by
  unfold spawnShape at bad
  unfold spawnAnswer
  dsimp only
  split
  · rfl
  · rename_i fields
    exact if_pos (by omega)

section
variable (shape : spawnShape c)
include shape

theorem spawnAnswer_of_shape : spawnAnswer d w self p x y c h =
    if 0 < bits c 11 5 ∧ self.regLim < bits c 4 7 + bits c 11 5 then
      .error (.trap .ereg (BitVec.ofNat 64 (bits c 4 7 + bits c 11 5 - 1)))
    else if y.ule self.stamp then .error (.trap .estamp y)
    else if bits x 0 2 ≠ 0 then .error (.trap .ealign x)
    else .ok (h.spawned self p d x y c) := by
  obtain ⟨unused, unused3, alloc, few, fits⟩ := shape
  unfold spawnAnswer
  dsimp only
  rw [if_neg (by omega), if_neg (by omega)]

theorem spawnAnswer_ereg (foreign : ¬ spawnOwned self c) :
    spawnAnswer d w self p x y c h = .error (.trap .ereg (BitVec.ofNat 64 (bits c 4 7 + bits c 11 5 - 1))) := by
  unfold spawnOwned at foreign
  rw [spawnAnswer_of_shape shape, if_pos (by omega)]

variable (owned : spawnOwned self c)
include owned

theorem spawnAnswer_estamp (early : y.toNat ≤ self.stamp.toNat) : spawnAnswer d w self p x y c h = .error (.trap .estamp y) := by
  unfold spawnOwned at owned
  rw [spawnAnswer_of_shape shape, if_neg (by omega), if_pos (by rwa [BitVec.ule_eq_decide, decide_eq_true_eq])]

theorem spawnAnswer_of_later (later : self.stamp.toNat < y.toNat) : spawnAnswer d w self p x y c h =
    if x.toNat % 4 ≠ 0 then .error (.trap .ealign x) else .ok (h.spawned self p d x y c) := by
  unfold spawnOwned at owned
  rw [spawnAnswer_of_shape shape, if_neg (by omega), if_neg (by rw [BitVec.ule_eq_decide, decide_eq_true_eq]; omega), bits_low_two]

end

end

/-! ## The operands and the effect, for the thread whose turn it is -/

section
variable {f : Form} {s : State} {y z : Here} {d a b : BitVec 7} {w : Half} {u v c : Word} (issues : Issues s f y)
include issues

theorem spawnBody_of_reads (task : y.th.sup = false) (reads : Reads3 y a b d u v c z) :
    spawnBody d a b w y.th s.place (s.holding y.passed) = spawnAnswer d w y.th s.place u v c (s.holding z) := by
  obtain ⟨h2, ⟨h1, first, second⟩, third⟩ := reads
  rw [spawnBody, if_neg (by simp [task]), issues.read first]
  simp only [Except.bind, issues.read second, issues.read third]

/-- The thread goes on with one more spawn counted and the index written. -/
theorem here?_spawned (t : Thread) : ((s.holding z).spawned t s.place d u v c).here? s.place = some (Here.write { z with th := { z.th with
    counters := { z.th.counters with spawn := z.th.counters.spawn + 1 } } } d (BitVec.ofNat 64 t.counters.spawn)) := by
  have here := ((Chip.SameCores.withChild (s.holding z) t s.place u v c).here?_eq s.place).trans (issues.here z)
  exact Chip.here?_writeDst (Chip.here?_modThread here _) ..

end

end Sys2Proof.Machine

open Sys2Proof Sys2Proof.Machine

/-- Settles O29: the operands in the order in which SPAWN checks them, and the task, the packet and the thread that it leaves. -/
theorem spawnMakesATask : Obligations.SpawnMakesATask := by
  intro d a b s y u v c z issues
  refine ⟨fun sup => raises_of_chip (exec_spawn d a b s) issues (if_pos sup), fun task reads => ?_⟩
  have body := spawnBody_of_reads (w := wordOf (.spawn d a b)) issues task reads
  refine ⟨fun bad => ?shape, fun shape foreign => ?owned, fun shape owned early => ?stamp, fun shape owned later unaligned => ?align,
    fun shape owned later aligned => ?makes⟩
  case shape => exact raises_of_chip (exec_spawn d a b s) issues (body.trans (spawnAnswer_shapeless bad))
  case owned => exact raises_of_chip (exec_spawn d a b s) issues (body.trans (spawnAnswer_ereg shape foreign))
  case stamp => exact raises_of_chip (exec_spawn d a b s) issues (body.trans (spawnAnswer_estamp shape owned early))
  case align =>
    exact raises_of_chip (exec_spawn d a b s) issues (body.trans ((spawnAnswer_of_later shape owned later).trans (if_pos unaligned)))
  case makes =>
    have file : ((s.holding z).core s.place.v s.place.c).file = z.file := Chip.file_putHere_same ..
    obtain ⟨f, sent, packet⟩ := (s.holding z).flights_spawned y.th s.place d u v c
    refine ⟨_, _, f, leavesChip_of_chip (exec_spawn d a b s) issues
      (body.trans ((spawnAnswer_of_later shape owned later).trans (if_neg (not_not.2 aligned)))), here?_spawned issues y.th,
      (s.holding z).tasks_spawned .., (s.holding z).nextUid_spawned .., rfl, rfl, ?_, sent, packet⟩
    rw [file]
    rfl

end

section
/-! PROOFS. The family 08, the end of a task: what it leaves of the tasks, of the commands under way, and of the slots (R151 to R153,
R189, R203, R339, R354). -/

namespace Sys2Proof.Machine

/-! ## Tasks and commands under way -/

/-- The chips have the same tasks, and the same engine commands that are not complete. -/
structure Chip.SameWork (h g : Chip) : Prop where
  tasks : g.tasks = h.tasks
  cmds : g.clusters.flatMap (fun k => k.2.cmds) = h.clusters.flatMap fun k => k.2.cmds

section
variable {h g k : Chip}

theorem Chip.SameWork.refl (h : Chip) : h.SameWork h := ⟨rfl, rfl⟩

theorem Chip.SameWork.trans (first : h.SameWork g) (second : g.SameWork k) : h.SameWork k :=
  ⟨second.tasks.trans first.tasks, second.cmds.trans first.cmds⟩

theorem Chip.SameWork.openCmds (same : h.SameWork g) (uid : Nat) : g.openCmds uid = h.openCmds uid := by
  rw [Chip.openCmds, same.cmds, Chip.openCmds]

theorem Chip.SameWork.task? (same : h.SameWork g) (uid : Nat) : g.task? uid = h.task? uid := by
  rw [Chip.task?, same.tasks, Chip.task?]

theorem Chip.SameWork.modCluster (h : Chip) (v : Nat) {f : Cluster → Cluster} (keeps : ∀ k, (f k).cmds = k.cmds) :
    h.SameWork (h.modCluster v f) :=
  ⟨rfl, Map.flatMap_put_of_eq h.clusters v (f (h.cluster v)) {} (fun k : Cluster => k.cmds) rfl (keeps _)⟩

theorem Chip.SameWork.modCore (h : Chip) (v c : Nat) (f : Core → Core) : h.SameWork (h.modCore v c f) :=
  .modCluster _ _ (by intro; rfl)

theorem Chip.SameWork.setSlot (h : Chip) (p : At) (x : Slot) : h.SameWork (h.setSlot p x) := .modCore ..

theorem Chip.SameWork.setThread (h : Chip) (p : At) (t : Thread) : h.SameWork (h.setThread p t) := .setSlot ..

theorem Chip.SameWork.putHere (h : Chip) (p : At) (x : Here) : h.SameWork (h.putHere p x) :=
  (Chip.SameWork.setThread ..).trans (.modCore ..)

theorem Chip.SameWork.noteAbort (h : Chip) (pid : Nat) (grps : BitVec 36) (stamp : Word) (code : Nat) :
    h.SameWork (h.noteAbort pid grps stamp code) :=
  List.foldlRecOn (motive := h.SameWork) _ _ (.refl h) fun _ same _ _ => same.trans ⟨rfl, rfl⟩

end

/-! ## Claims -/

section
variable {P : Chip → Prop}
  (keeps : ∀ (g : Chip) v (f : Cluster → List Claim), P g → P (g.modCluster v fun k => { k with claims := f k }))
  {h : Chip} (v uid : Nat) (holds : P h)
include keeps holds

/-- What no change of a cluster's claims touches stays when a context is spilled. -/
theorem Chip.spill_keeps : P (h.spill v) := by
  unfold Chip.spill
  dsimp only
  split
  · exact holds
  · exact keeps _ _ _ holds

theorem Chip.takeContext_keeps : P (h.takeContext v uid) := by
  unfold Chip.takeContext
  split
  · exact holds
  split
  · exact holds
  · extract_lets g
    have made : P g := by
      dsimp only [g]
      split
      · exact holds
      · exact Chip.spill_keeps keeps _ holds
    split
    · exact keeps _ _ _ made
    · exact made

theorem Chip.evaluate_keeps : P (h.evaluate v uid) := by
  unfold Chip.evaluate
  split
  · exact holds
  · dsimp only
    refine keeps _ _ _ ?_
    split
    · exact holds
    · exact Chip.takeContext_keeps keeps _ _ holds

/-- Nor does it change when a claim is released and others are served (R203). -/
theorem Chip.releaseClaim_keeps : P (h.releaseClaim v uid) :=
  List.foldlRecOn (motive := P) _ _ (keeps _ _ _ holds) fun _ same _ _ => Chip.evaluate_keeps keeps _ _ same

end

theorem Chip.SameWork.releaseClaim (h : Chip) (v uid : Nat) : h.SameWork (h.releaseClaim v uid) :=
  Chip.releaseClaim_keeps (P := h.SameWork) (fun _ _ _ same => same.trans (.modCluster _ _ (by intro; rfl))) v uid (.refl h)

theorem Chip.SameButClaims.sameMemory {h g : Chip} (same : h.SameButClaims g) : h.SameMemory g where
  scratch u := by obtain ⟨_, cluster⟩ := same.cluster u; rw [cluster]
  hbm := by rw [← same.rest]
  host := by rw [← same.rest]
  flash := by rw [← same.rest]

/-! ## Write-throughs (R186, R339) -/

section
variable (h : Chip) (v : Nat)

theorem Chip.SameWork.touch (pa : Nat) (dirty : Bool) : h.SameWork (h.touch pa dirty) := by
  have entered : ∀ held : Bool, h.SameWork (if held then h else h.touchHome pa false) := fun held => by
    cases held with
    | true => exact .refl h
    | false => exact ⟨rfl, rfl⟩
  unfold Chip.touch
  split
  · exact .refl h
  · extract_lets slice lines home room tiers done
    have same : h.SameWork done := (entered _).trans ⟨rfl, rfl⟩
    split
    · split
      · exact same.trans ⟨rfl, rfl⟩
      · exact same
    · exact same

theorem Chip.SameWork.writePrivate (pa : Nat) (bs : List Byte) : h.SameWork (h.writePrivate pa bs) :=
  Chip.SameWork.trans (g := { h with hbm := h.hbm.writeBytes pa bs }) ⟨rfl, rfl⟩ (.touch ..)

theorem Cluster.cmds_updateCaches (k : Cluster) (ts : List Through) :
    (ts.foldl (fun k u => k.updateCache u.pa u.bytes) k).cmds = k.cmds :=
  List.foldlRecOn (motive := fun j : Cluster => j.cmds = k.cmds) ts _ rfl fun _ same _ _ => same

theorem Chip.SameWork.performThrough : h.SameWork (h.performThrough v) := by
  unfold Chip.performThrough
  split
  · exact .refl h
  · exact ((Chip.SameWork.modCluster _ _ (by intro; rfl)).trans (.writePrivate ..)).trans
      (.modCluster _ _ fun k => k.cmds_updateCaches _)

theorem Chip.SameWork.drainThroughs (uid n : Nat) : h.SameWork (h.drainThroughs v uid n) := by
  induction n generalizing h with
  | zero => exact .refl h
  | succ n ih =>
    rw [Chip.drainThroughs]
    split
    · exact (Chip.SameWork.performThrough h v).trans (ih _)
    · exact .refl h

/-- A thread without write-throughs has none to perform. -/
theorem Chip.drainThroughs_of_none {uid : Nat} (none_ : h.hasThroughs v uid = false) (n : Nat) : h.drainThroughs v uid n = h := by
  cases n with
  | zero => rfl
  | succ n => exact if_neg (Bool.eq_false_iff.1 none_)

end

/-! ## The slot left (R203, R234) -/

section
variable (h : Chip) (p : At) (t : Thread) (aborted : Bool)

theorem Chip.SameWork.leaveSlot : h.SameWork (h.leaveSlot p t aborted) := by
  unfold Chip.leaveSlot
  extract_lets drained left
  have same : h.SameWork left := (Chip.SameWork.drainThroughs ..).trans ((Chip.SameWork.setSlot ..).trans (.releaseClaim ..))
  split
  · exact same.trans ⟨rfl, rfl⟩
  · exact same

theorem Chip.SameMemory.leaveSlot (noThroughs : h.hasThroughs p.v t.uid = false) : h.SameMemory (h.leaveSlot p t aborted) := by
  unfold Chip.leaveSlot
  rw [Chip.drainThroughs_of_none _ _ noThroughs]
  extract_lets drained left
  have same : h.SameMemory left :=
    (Chip.SameButCores.setSlot ..).sameData.toSameMemory.trans (Chip.SameButClaims.releaseClaim ..).sameMemory
  split
  · exact same.trans ⟨fun _ => rfl, rfl, rfl, rfl⟩
  · exact same

end

/-! ## A quiet task is over (R151, R372) -/

section
variable (h : Chip) (pid : Nat)

theorem Chip.tasks_launchDone (n : Nat) : (h.launchDone pid n).tasks = h.tasks := by
  unfold Chip.launchDone
  split
  · rfl
  split
  · dsimp only
    split
    · rfl
    · split <;> rfl
  · rfl

theorem Chip.tasks_launchLive (launch : Option Nat) (up : Bool) : (h.launchLive pid launch up).tasks = h.tasks := by
  unfold Chip.launchLive
  split
  · rfl
  · dsimp only
    split
    · rfl
    · exact Chip.tasks_launchDone ..

end

section
variable {h : Chip} {p : At} {t : Thread}

theorem Chip.task?_endQuiet (complete : h.openCmds t.uid = 0) : (h.endQuiet t).task? t.uid = none := by
  rw [Chip.endQuiet, if_pos complete, Chip.task?]
  dsimp only
  rw [Chip.tasks_launchLive]
  exact Map.get_erase_same ..

theorem Chip.task?_endTask_of_quiet (quiet : t.quiet = true) (complete : h.openCmds t.uid = 0) : (h.endTask p t).task? t.uid = none := by
  rw [Chip.endTask, if_pos quiet]
  exact Chip.task?_endQuiet (((Chip.SameWork.leaveSlot ..).openCmds _).trans complete)

theorem Chip.task?_abortSelf_of_quiet (quiet : t.quiet = true) (complete : h.openCmds t.uid = 0) (code : Nat) :
    (h.abortSelf p t code).task? t.uid = none := by
  rw [Chip.abortSelf, if_pos quiet]
  exact Chip.task?_endQuiet ((((Chip.SameWork.leaveSlot ..).trans (.noteAbort ..)).openCmds _).trans complete)

end

/-! ## A non-quiet task stays until it commits (R151) -/

section
variable (h : Chip) (p : At) {t : Thread} (logs : t.quiet = false)
include logs

theorem Chip.endTask_of_logs : h.endTask p t = (h.leaveSlot p t false).modTask t.uid fun k => { k with stage := .ended } := by
  rw [Chip.endTask, if_neg (by simp [logs])]
  rfl

theorem Chip.task?_endTask_of_logs : (h.endTask p t).task? t.uid = (h.task? t.uid).map fun k => { k with stage := .ended } := by
  rw [h.endTask_of_logs p logs, ← (Chip.SameWork.leaveSlot h p t false).task?, Chip.modTask]
  split
  · rename_i k found
    rw [found, Chip.task?]
    exact Map.get_put_same ..
  · rename_i none_
    rw [none_]
    rfl

theorem Chip.SameMemory.endTask (noThroughs : h.hasThroughs p.v t.uid = false) : h.SameMemory (h.endTask p t) := by
  rw [h.endTask_of_logs p logs]
  refine (Chip.SameMemory.leaveSlot h p t false noThroughs).trans ?_
  unfold Chip.modTask
  split
  · exact ⟨fun _ => rfl, rfl, rfl, rfl⟩
  · exact ⟨fun _ => rfl, rfl, rfl, rfl⟩

end

/-- The slot of a task that ends by TEND is ENDED (R151). -/
theorem Chip.slot_endTask (h : Chip) (p : At) (t : Thread) : (h.endTask p t).slot p = .ended t.regBase t.regLim false false := by
  rw [← h.slot_leaveSlot p t false]
  cases quiet : t.quiet with
  | true =>
    rw [Chip.endTask, if_pos quiet]
    exact (Chip.SameCores.endQuiet ..).slot_eq p
  | false =>
    rw [h.endTask_of_logs p quiet]
    exact (Chip.SameCores.modTask ..).slot_eq p

/-! ## Tasks aborted together leave an ENDED slot as it is (R152, R154, R189, R354) -/

section
variable {h : Chip} {p : At} {base lim : Nat} {requeued aborted : Bool}

theorem Cluster.cores_applyUndo (k : Cluster) (e : LogEntry) : (k.applyUndo e).cores = k.cores := by
  unfold Cluster.applyUndo
  split <;> rfl

theorem Cluster.cores_applyUndos (k : Cluster) (es : List LogEntry) : (es.foldl Cluster.applyUndo k).cores = k.cores :=
  List.foldlRecOn (motive := fun j : Cluster => j.cores = k.cores) es _ rfl fun j same e _ => (j.cores_applyUndo e).trans same

/-- A slot that no thread holds is left alone by the threads dropped from its cluster. -/
theorem Cluster.slot_dropTasks_of_ended {k : Cluster} {v c t : Nat} (us : List Nat)
    (ended : (k.cores.getOr c {}).slot v c t = .ended base lim requeued aborted) :
    ((k.dropTasks us).cores.getOr c {}).slot v c t = .ended base lim requeued aborted := by
  simp only [Cluster.dropTasks, Map.getOr, Map.get_each] at ended ⊢
  cases core : k.cores.get c with
  | none => rwa [core] at ended
  | some x =>
    rw [core] at ended
    simp only [Option.map_some, Option.getD_some, Core.slot, Map.get_each] at ended ⊢
    cases slot : x.slots.get t with
    | none => rwa [slot] at ended
    | some y =>
      rw [slot, Option.getD_some] at ended
      rw [ended]
      rfl

/-- Nor does what the tasks' undo does to the clusters change it. -/
theorem Chip.slot_undone_of_ended (us : List Nat) (undo : Nat → List LogEntry)
    (ended : h.slot p = .ended base lim requeued aborted) :
    ({ h with clusters := h.clusters.each fun v k => ((undo v).foldl Cluster.applyUndo k).dropTasks us } : Chip).slot p =
      .ended base lim requeued aborted := by
  simp only [Chip.slot, Chip.core, Chip.cluster, Map.getOr, Map.get_each] at ended ⊢
  cases cluster : h.clusters.get p.v with
  | none => rwa [cluster] at ended
  | some k =>
    rw [cluster] at ended
    refine Cluster.slot_dropTasks_of_ended us ?_
    rwa [Cluster.cores_applyUndos]

theorem Chip.SameCores.recall (h : Chip) (m : Message) : h.SameCores (h.recall m) := by
  unfold Chip.recall
  split <;> exact ⟨fun _ => rfl⟩

theorem Chip.SameCores.exitIfDone (h : Chip) (pid gid : Nat) : h.SameCores (h.exitIfDone pid gid) := by
  unfold Chip.exitIfDone
  split
  · exact .exitGroup ..
  · exact .refl h

theorem Chip.SameCores.unnameLaunches (h : Chip) (pid : Nat) (rs : List (List Byte)) : h.SameCores (h.unnameLaunches pid rs) :=
  .foldl (fun g _ => .foldl (fun j x => (Chip.SameCores.modGroup j pid x _).trans (.exitIfDone ..)) _ g) _ h

/-- A task queued again, kept or discarded changes no slot. -/
theorem Chip.slot_restart (h : Chip) (uid : Nat) (cancel : Bool) (q : At) : (h.restart uid cancel).slot q = h.slot q := by
  unfold Chip.restart
  split
  · rfl
  split
  · exact ((Chip.SameCores.leaveGroups ..).trans (.launchLive ..)).slot_eq q
  split
  · rfl
  split
  · split <;> rfl
  · exact Chip.slot_enqueue ..

theorem Chip.slot_abortTasks_of_ended (start cancelled : List Nat) (ended : h.slot p = .ended base lim requeued aborted) :
    (h.abortTasks start cancelled).slot p = .ended base lim requeued aborted := by
  unfold Chip.abortTasks
  extract_lets us kids sends launches pid h1 h2 h3 h4
  have undone : h1.slot p = .ended base lim requeued aborted := Chip.slot_undone_of_ended us (h.undoList · us) ended
  have recalled : h2.SameCores h4 := (Chip.SameCores.foldl .recall sends h2).trans (.unnameLaunches ..)
  refine List.foldlRecOn (motive := fun g : Chip => g.slot p = _) us _ ((recalled.slot_eq p).trans undone) fun g same u _ => ?_
  exact (Chip.slot_restart ..).trans same

end

/-- The slot of a task that ends by TABORT is ENDED with ABORTED (R152). -/
theorem Chip.slot_abortSelf_ended (h : Chip) (p : At) (t : Thread) (code : Nat) :
    (h.abortSelf p t code).slot p = .ended t.regBase t.regLim false true := by
  cases quiet : t.quiet with
  | true => exact Chip.slot_abortSelf quiet ..
  | false =>
    have left := h.slot_leaveSlot p t true
    rw [Chip.abortSelf, if_neg (by simp [quiet])]
    dsimp only
    split
    · exact Chip.slot_abortTasks_of_ended _ _ left
    · exact left

end Sys2Proof.Machine

end

section
/-! PROOFS. The family 08, TEND, TABORT and YIELD (R151 to R155). -/

namespace Sys2Proof.Machine

/-! ## An instruction that reports a deferred fault (R120, R121) -/

/-- It takes the trap of the operation that faulted. -/
theorem issueChip_defers {f : Form} {s : State} {y : Here} {body : Thread → At → Chip → Except Stop Chip} {q : Pend} {ldq : Bool}
    (issues : Issues s f y) (defers : body y.th s.place (s.holding y.passed) = .error (.deferred q ldq)) : issueChip f s body =
      .next { s with chip := ((s.holding y).takeTrap s.place (reportOf y.th q ldq)).endStep s.place } := by
  obtain ⟨t, x, live, here, ready⟩ := issues
  simp only [State.holding, Here.passed] at defers ⊢
  simp [issueChip, live, here, ready, defers, Chip.stopped]

/-- A slot that no thread is LIVE in has no debug STEP to end. -/
theorem Chip.endStep_of_ended {h : Chip} {p : At} {base lim : Nat} {requeued aborted : Bool}
    (ended : h.slot p = .ended base lim requeued aborted) : h.endStep p = h := by
  rw [Chip.endStep, ended]

/-! ## TEND (R151) -/

/-- The thread is the supervisor's and no handler of a task: there is no task to end (log 15). -/
def Thread.holdsNone (t : Thread) : Bool := t.sup && t.suspended.isNone

theorem Thread.holdsNone_eq_true {t : Thread} (sup : t.sup = true) (none_ : t.suspended = none) : t.holdsNone = true := by
  simp [Thread.holdsNone, sup, none_]

theorem Thread.holdsNone_eq_false {t : Thread} (some_ : t.sup = true → t.suspended.isSome = true) : t.holdsNone = false := by
  unfold Thread.holdsNone
  cases sup : t.sup with
  | false => rfl
  | true =>
    obtain ⟨u, eq⟩ := Option.isSome_iff_exists.1 (some_ sup)
    rw [eq]
    rfl

/-- What a thread's end does with what its operations have come to: `ends` where nothing is outstanding (R151, R152). -/
def endAnswer (self : Thread) (p : At) (h : Chip) (ends : Except Stop Chip) : Except Stop Chip :=
  if h.endHeld p self then .error .stall
  else
    match self.endFault with
    | some q => .error (.deferred q false)
    | none => ends

/-- What TEND does once it has issued. -/
def tendBody (self : Thread) (p : At) (h : Chip) : Except Stop Chip :=
  if self.holdsNone then .error (.trap .eill (tvalWord (wordOf .tend)))
  else endAnswer self p h ((h.fabricPublish p self).bind fun h => .ok (h.endTask p self))

theorem exec_tend (s : State) : exec .tend s = issueChip (form (wordOf .tend)) s tendBody := rfl

section
variable {self : Thread} {p : At} {h : Chip}

theorem tendBody_illegal (none_ : self.holdsNone = true) : tendBody self p h = .error (.trap .eill (tvalWord (wordOf .tend))) :=
  if_pos none_

variable (some_ : self.holdsNone = false)
include some_

theorem tendBody_waits (held : h.endHeld p self = true) : tendBody self p h = .error .stall := by
  rw [tendBody, if_neg (Bool.eq_false_iff.1 some_), endAnswer, if_pos held]

theorem tendBody_faults {q : Pend} (free : h.endHeld p self = false) (fault : self.endFault = some q) :
    tendBody self p h = .error (.deferred q false) := by
  rw [tendBody, if_neg (Bool.eq_false_iff.1 some_), endAnswer, if_neg (Bool.eq_false_iff.1 free), fault]

theorem tendBody_ends (free : h.endHeld p self = false) (noFault : self.endFault = none) (unlinked : h.linkedShadows self = []) :
    tendBody self p h = .ok (h.endTask p self) := by
  rw [tendBody, if_neg (Bool.eq_false_iff.1 some_), endAnswer, if_neg (Bool.eq_false_iff.1 free), noFault, Chip.fabricPublish, unlinked]
  rfl

end

/-! ## TABORT (R152, R153) -/

/-- What TABORT does once it has issued. -/
def tabortBody (a : BitVec 7) (self : Thread) (p : At) (h : Chip) : Except Stop Chip :=
  if self.holdsNone then .error (.trap .eill (tvalWord (wordOf (.tabort a))))
  else (h.readAt p a).bind fun r => endAnswer self p r.2 (.ok (r.2.abortSelf p self (bits r.1 0 16)))

theorem exec_tabort (a : BitVec 7) (s : State) : exec (.tabort a) s = if tabortWaits a s then .next s
    else issueChip (form (wordOf (.tabort a)) [.src a]) (discardFaults a s) (tabortBody a) := rfl

theorem tabortBody_of_read {f : Form} {s : State} {y z : Here} {a : BitVec 7} {u : Word} (issues : Issues s f y)
    (read : y.passed.read a = .ok (u, z)) (some_ : y.th.holdsNone = false) (free : (s.holding z).endHeld s.place y.th = false)
    (noFault : y.th.endFault = none) :
    tabortBody a y.th s.place (s.holding y.passed) = .ok ((s.holding z).abortSelf s.place y.th (bits u 0 16)) := by
  rw [tabortBody, if_neg (Bool.eq_false_iff.1 some_), issues.read read]
  simp only [Except.bind, endAnswer, free, noFault, Bool.false_eq_true, if_false]

/-- A slot replaced is the only change of its core. -/
theorem Chip.core_setSlot (h : Chip) (p : At) (x : Slot) (v c : Nat) :
    ∃ slots, (h.setSlot p x).core v c = { h.core v c with slots := slots } := by
  rw [Chip.setSlot, Chip.core_modCore]
  split
  · rename_i here; obtain ⟨rfl, rfl⟩ := here; exact ⟨_, rfl⟩
  · exact ⟨_, rfl⟩

/-- Discarded faults are a change of the thread alone (R153). -/
theorem discardFaults_eq (a : BitVec 7) (s : State) : ∃ h, discardFaults a s = { s with chip := h } ∧ s.chip.SameWork h ∧
    ∀ v c, (h.core v c).turn = (s.chip.core v c).turn := by
  unfold discardFaults
  dsimp only
  split
  · exact ⟨s.chip, rfl, .refl _, fun _ _ => rfl⟩
  · split
    · refine ⟨_, rfl, Chip.SameWork.trans (g := s.chip.takeFree.2) ⟨rfl, rfl⟩ (.setThread ..), fun v c => ?_⟩
      obtain ⟨_, core⟩ := Chip.core_setSlot s.chip.takeFree.2 s.place _ v c
      rw [Chip.setThread, core]
      rfl
    · exact ⟨s.chip, rfl, .refl _, fun _ _ => rfl⟩

section
variable {a : BitVec 7} {s : State} {y : Here}

theorem place_discardFaults (a : BitVec 7) (s : State) : (discardFaults a s).place = s.place := by
  obtain ⟨h, discards, -, turn⟩ := discardFaults_eq a s
  rw [discards]
  simp only [State.place, turn]

theorem sameWork_discardFaults (a : BitVec 7) (s : State) : s.chip.SameWork (discardFaults a s).chip := by
  obtain ⟨h, discards, work, -⟩ := discardFaults_eq a s
  rw [discards]
  exact work

theorem exec_tabort_traps {e : Trap} {v : Word} (ready : tabortWaits a s = false)
    (issues : Issues (discardFaults a s) (form (wordOf (.tabort a)) [.src a]) y)
    (traps : tabortBody a y.th (discardFaults a s).place ((discardFaults a s).holding y.passed) = .error (.trap e v)) :
    exec (.tabort a) s =
      .next { s with chip := (((discardFaults a s).holding y).takeTrap s.place (raisedBy y.th e v)).endStep s.place } := by
  obtain ⟨h, discards, -, -⟩ := discardFaults_eq a s
  have place := place_discardFaults a s
  rw [exec_tabort, if_neg (Bool.eq_false_iff.1 ready), issueChip_traps issues traps, place]
  simp only [State.holding, place]
  rw [discards]

theorem exec_tabort_completes {g : Chip} (ready : tabortWaits a s = false)
    (issues : Issues (discardFaults a s) (form (wordOf (.tabort a)) [.src a]) y)
    (completes : tabortBody a y.th (discardFaults a s).place ((discardFaults a s).holding y.passed) = .ok g) :
    exec (.tabort a) s = .next { s with chip := g.endStep s.place } := by
  obtain ⟨h, discards, -, -⟩ := discardFaults_eq a s
  rw [exec_tabort, if_neg (Bool.eq_false_iff.1 ready), issueChip_completes issues completes, place_discardFaults, discards]

end

/-! ## YIELD (R155) -/

/-- What YIELD does once it has issued. -/
def yieldBody (self : Thread) (p : At) (h : Chip) : Except Stop Chip :=
  if p.t ≠ 0 ∧ h.headWantsSlot p.v p.c = true ∧ (!(self.quiet && h.bound self)) = true then
    .ok ((h.modThread p fun t => { t with stepOnce := false }).park p true)
  else .ok h

theorem exec_yield (s : State) : exec .yield s = issueChip (form (wordOf .yield)) s yieldBody := rfl

end Sys2Proof.Machine

open Sys2Proof Sys2Proof.Machine

/-- Settles O31: the outcomes of the common check of TEND and TABORT, and what the end of a task leaves; that a YIELD which parks ends a
debug STEP is log 67. -/
theorem tasksEndAndYield : Obligations.TasksEndAndYield := by
  refine ⟨fun s y issues => ⟨fun sup none_ => ?tendIllegal, fun some_ => ⟨fun held => ?tendWaits, fun free =>
      ⟨fun q fault => ?tendFaults, fun noFault unlinked => ?tend⟩⟩⟩,
    fun a s waits => (exec_tabort a s).trans (if_pos waits),
    fun a s y u z ready issues read => ⟨fun sup none_ => ?tabortIllegal, fun some_ free noFault => ?tabort⟩,
    fun s y issues => ⟨fun stays => ?stays, fun leaves => ?leaves⟩⟩
  case tendIllegal => exact raises_of_chip (exec_tend s) issues (tendBody_illegal (Thread.holdsNone_eq_true sup none_))
  case tendWaits => exact waits_of_chip (exec_tend s) issues (tendBody_waits (Thread.holdsNone_eq_false some_) held)
  case tendFaults =>
    exact (exec_tend s).trans (issueChip_defers issues (tendBody_faults (Thread.holdsNone_eq_false some_) free fault))
  case tend =>
    have kept : s.chip.SameWork (s.passed y) := .putHere ..
    refine ⟨_, leavesChip_of_chip (exec_tend s) issues (tendBody_ends (Thread.holdsNone_eq_false some_) free noFault unlinked),
      Chip.slot_endTask .., fun quiet complete => Chip.task?_endTask_of_quiet quiet ((kept.openCmds _).trans complete),
      fun logs => ⟨?_, fun noThroughs => ?_⟩⟩
    · exact (Chip.task?_endTask_of_logs _ _ logs).trans (by rw [← kept.task?]; rfl)
    · exact ((Chip.SameButCores.putHere ..).sameData.toSameMemory.trans (Chip.SameMemory.endTask _ _ logs noThroughs)).memoryAfter _
  case tabortIllegal => exact exec_tabort_traps ready issues (if_pos (Thread.holdsNone_eq_true sup none_))
  case tabort =>
    have place := place_discardFaults a s
    have kept : s.chip.SameWork ((discardFaults a s).holding z) := (sameWork_discardFaults a s).trans (.putHere ..)
    have body := tabortBody_of_read issues read (Thread.holdsNone_eq_false some_) (by rwa [place]) noFault
    have ended := ((discardFaults a s).holding z).slot_abortSelf_ended s.place y.th (bits u 0 16)
    refine ⟨_, (exec_tabort_completes ready issues body).trans (by rw [place, Chip.endStep_of_ended ended]), ended,
      fun quiet complete => Chip.task?_abortSelf_of_quiet quiet ((kept.openCmds _).trans complete) _⟩
  case stays =>
    exact leavesThread_of_chip (exec_yield s) issues (if_neg (by rwa [Bool.not_eq_true', State.holding]))
  case leaves =>
    exact leavesChip_of_chip (exec_yield s) issues (if_pos (by rwa [Bool.not_eq_true', State.holding]))

end

section
/-! PROOFS. The family 08, the rotation boundary (R137, R158, R167). -/

namespace Sys2Proof.Machine

/-! ## A sorted list -/

section
variable {α : Type} {le : α → α → Bool} (trans : ∀ a b c, le a b = true → le b c = true → le a c = true)
  (total : ∀ a b, le a b = false → le b a = true)
include trans total

theorem pairwise_insertBy {x : α} {ys : List α} (sorted : ys.Pairwise fun a b => le a b = true) :
    (insertBy le x ys).Pairwise fun a b => le a b = true := by
  induction ys with
  | nil => exact List.pairwise_singleton ..
  | cons y ys ih =>
    obtain ⟨first, rest⟩ := List.pairwise_cons.1 sorted
    rw [insertBy]
    split
    · rename_i before
      refine List.pairwise_cons.2 ⟨fun z mem => ?_, sorted⟩
      rcases List.mem_cons.1 mem with rfl | later
      · exact before
      · exact trans _ _ _ before (first z later)
    · rename_i after
      refine List.pairwise_cons.2 ⟨fun z mem => ?_, ih rest⟩
      rcases mem_insertBy.1 mem with rfl | later
      · exact total _ _ (Bool.eq_false_of_not_eq_true after)
      · exact first z later

theorem pairwise_sortBy (xs : List α) : (sortBy le xs).Pairwise fun a b => le a b = true := by
  induction xs with
  | nil => exact List.Pairwise.nil
  | cons x xs ih => exact pairwise_insertBy trans total ih

end

/-! ## MTC writes performed one after another (R158) -/

/-- The MTC writes in the order of their slots. -/
def slotOrder (ws : List (Nat × Nat × Word)) : List (Nat × Nat × Word) :=
  sortBy (fun (a b : Nat × Nat × Word) => decide (a.2.1 ≤ b.2.1)) ws

theorem mem_slotOrder {ws : List (Nat × Nat × Word)} {w : Nat × Nat × Word} : w ∈ slotOrder ws ↔ w ∈ ws := mem_sortBy

theorem pairwise_slotOrder (ws : List (Nat × Nat × Word)) : (slotOrder ws).Pairwise fun a b => a.2.1 ≤ b.2.1 := by
  refine (pairwise_sortBy (fun a b c ab bc => ?_) (fun a b ab => ?_) ws).imp of_decide_eq_true
  · simp only [decide_eq_true_eq] at ab bc ⊢; omega
  · simp only [decide_eq_true_eq, decide_eq_false_iff_not] at ab ⊢; omega

/-- The common registers after such writes. -/
def writeCommon (m : Map Word) (ws : List (Nat × Nat × Word)) : Map Word := ws.foldl (fun m w => m.put w.1 w.2.2) m

/-- A register that no write names keeps its value. -/
theorem getOr_writeCommon_of_unnamed {n : Nat} (m : Map Word) (ws : List (Nat × Nat × Word)) (unnamed : ∀ w ∈ ws, w.1 ≠ n) :
    (writeCommon m ws).getOr n 0 = m.getOr n 0 := by
  induction ws generalizing m with
  | nil => rfl
  | cons w ws ih =>
    obtain ⟨other, others⟩ := List.forall_mem_cons.1 unnamed
    exact (ih _ others).trans (Map.getOr_put_ne _ _ _ (Ne.symm other))

/-- Of the writes of one register, in the order of their slots, the highest slot's remains. -/
theorem getOr_writeCommon_of_highest {n t : Nat} {x : Word} (m : Map Word) {ws : List (Nat × Nat × Word)}
    (sorted : ws.Pairwise fun a b => a.2.1 ≤ b.2.1) (mem : (n, t, x) ∈ ws)
    (highest : ∀ w ∈ ws, w.1 = n → w ≠ (n, t, x) → w.2.1 < t) : (writeCommon m ws).getOr n 0 = x := by
  induction ws generalizing m with
  | nil => simp at mem
  | cons w ws ih =>
    obtain ⟨first, rest⟩ := List.pairwise_cons.1 sorted
    obtain ⟨-, others⟩ := List.forall_mem_cons.1 highest
    by_cases later : (n, t, x) ∈ ws
    · exact ih _ rest later others
    · obtain rfl : (n, t, x) = w := (List.mem_cons.1 mem).resolve_right later
      refine (getOr_writeCommon_of_unnamed _ ws fun w' mem' same => ?_).trans (Map.getOr_put_same ..)
      have lower := others w' mem' same fun eq => later (eq ▸ mem')
      exact Nat.not_lt.2 (first w' mem') lower

theorem Core.boundary_eq (k : Core) : k.boundary = { k with
    common := writeCommon k.common (slotOrder k.pendingCommon), pendingCommon := [], rotation := k.rotation + 1, turn := 0 } := rfl

/-! ## SCREEN takes effect (R167) -/

/-- The trailing dispatcher changes its core in the slots and the register file, and SCREEN is in effect there. -/
theorem Chip.core_trailDispatcher (h : Chip) (v c : Nat) : ∃ slots file,
    (h.trailDispatcher v c).core v c = { h.core v c with slots := slots, file := file, screened := (h.cluster v).screen } := by
  unfold Chip.trailDispatcher
  extract_lets p on g
  have core : g.core v c = { h.core v c with screened := on } := by
    dsimp only [g]
    split
    · rename_i same; rw [← same]
    · exact Chip.core_modCore_same ..
  have unchanged : ∃ slots file, g.core v c = { h.core v c with slots := slots, file := file, screened := on } := ⟨_, _, core⟩
  have slot8 (x : Slot) : (g.setSlot p x).core v c = { h.core v c with slots := (g.core v c).slots.put 8 x, screened := on } := by
    rw [Chip.setSlot, Chip.core_modCore_same]
    dsimp only [p]
    rw [core]
  split
  · split
    · split
      · dsimp only
        rw [Chip.core_modCore_same, slot8]
        exact ⟨_, _, rfl⟩
      · exact unchanged
    · exact unchanged
  · split
    · exact unchanged
    · rw [slot8]
      exact ⟨_, _, rfl⟩
  · exact unchanged

/-! ## The event -/

theorem Chip.core_rotationBoundary (h : Chip) (v c : Nat) : ∃ slots file,
    (h.rotationBoundary v c).core v c = { (h.core v c).boundary with slots := slots, file := file, screened := (h.cluster v).screen } := by
  obtain ⟨slots, file, core⟩ := (h.modCore v c Core.boundary).core_trailDispatcher v c
  have screen : ((h.modCore v c Core.boundary).cluster v).screen = (h.cluster v).screen := by
    rw [Chip.modCore, Chip.cluster_modCluster, if_pos rfl]
  rw [Chip.core_modCore_same, screen] at core
  exact ⟨slots, file, core⟩

section
variable {s : State} {v c : Nat}

theorem rotationBoundary_ignored (busy : (s.chip.core v c).turn < 15 ∨ (∃ t, s.chip.slot ⟨v, c, 15⟩ = .live t) ∨
    ∃ t q, s.chip.slot ⟨v, c, 15⟩ = .trailing t q) : Ignored (.rotationBoundary v c) s := by
  change execRotationBoundary v c s = .next s
  rcases busy with early | ⟨t, live⟩ | ⟨t, q, trailing⟩
  · simp only [execRotationBoundary, early, true_or, if_true]
  · simp [execRotationBoundary, live]
  · simp [execRotationBoundary, trailing]

theorem becomes_rotationBoundary (last : 15 ≤ (s.chip.core v c).turn) (notLive : ∀ t, s.chip.slot ⟨v, c, 15⟩ ≠ .live t)
    (notTrailing : ∀ t q, s.chip.slot ⟨v, c, 15⟩ ≠ .trailing t q) :
    Becomes (.rotationBoundary v c) s (s.chip.rotationBoundary v c) := by
  change execRotationBoundary v c s = _
  unfold execRotationBoundary
  cases slot : s.chip.slot ⟨v, c, 15⟩ with
  | live t => exact absurd slot (notLive t)
  | trailing t q => exact absurd slot (notTrailing t q)
  | free | halted | ended => simp [slot, Nat.not_lt.2 last]

end

end Sys2Proof.Machine

end

section
/-! PROOFS. The family 08, the slots of a core between issues: which thread leaves its slot, the marks of CPRE, and the context cache
(R144, R145, R160, R161). -/

namespace Sys2Proof.Machine

/-! ## The thread of greatest stamp -/

/-- The later of two threads in stamp, the first of equals. -/
def laterStamp (best : Option (Nat × Thread)) (x : Nat × Thread) : Option (Nat × Thread) :=
  match best with
  | none => some x
  | some b => if b.2.stamp.ult x.2.stamp then some x else best

theorem greatestStamp_eq (xs : List (Nat × Thread)) : greatestStamp xs = (xs.foldl laterStamp none).map (·.1) := rfl

theorem laterStamp_of_lower {b x : Nat × Thread} (lower : x.2.stamp.toNat < b.2.stamp.toNat ∨ x = b) :
    laterStamp (some b) x = some b := by
  refine if_neg ?_
  rw [BitVec.ult_eq_decide, decide_eq_true_eq]
  rcases lower with less | rfl
  · omega
  · omega

theorem foldl_laterStamp_of_greatest {b : Nat × Thread} {xs : List (Nat × Thread)}
    (greatest : ∀ x ∈ xs, x ≠ b → x.2.stamp.toNat < b.2.stamp.toNat) : xs.foldl laterStamp (some b) = some b :=
  List.foldlRecOn (motive := (· = some b)) xs laterStamp rfl fun _ same x mem =>
    same ▸ laterStamp_of_lower (or_iff_not_imp_right.2 (greatest x mem))

/-- A thread above all others in stamp takes the place of any of them. -/
theorem laterStamp_of_higher {b : Nat × Thread} {best : Option (Nat × Thread)}
    (lower : ∀ y ∈ best, y ≠ b → y.2.stamp.toNat < b.2.stamp.toNat) : laterStamp best b = some b := by
  cases best with
  | none => rfl
  | some y =>
    by_cases same : y = b
    · exact same ▸ laterStamp_of_lower (.inr rfl)
    · exact if_pos (by rw [BitVec.ult_eq_decide, decide_eq_true_eq]; exact lower y rfl same)

theorem laterStamp_eq_or (best : Option (Nat × Thread)) (x : Nat × Thread) : laterStamp best x = some x ∨ laterStamp best x = best := by
  cases best with
  | none => exact .inl rfl
  | some b => exact ite_eq_or_eq ..

theorem foldl_laterStamp_of_mem {b : Nat × Thread} {xs : List (Nat × Thread)} {best : Option (Nat × Thread)} (mem : b ∈ xs)
    (lower : ∀ y ∈ best, y ≠ b → y.2.stamp.toNat < b.2.stamp.toNat)
    (greatest : ∀ x ∈ xs, x ≠ b → x.2.stamp.toNat < b.2.stamp.toNat) : xs.foldl laterStamp best = some b := by
  induction xs generalizing best with
  | nil => simp at mem
  | cons x xs ih =>
    obtain ⟨first, rest⟩ := List.forall_mem_cons.1 greatest
    rw [List.foldl_cons]
    by_cases same : x = b
    · rw [same, laterStamp_of_higher lower, foldl_laterStamp_of_greatest rest]
    · refine ih ((List.mem_cons.1 mem).resolve_left (Ne.symm same)) ?_ rest
      rcases laterStamp_eq_or best x with eq | eq
      · rw [eq]; rintro y ⟨⟩; exact first
      · rw [eq]; exact lower

/-- The thread above all others in stamp is the one of greatest stamp. -/
theorem greatestStamp_of_greatest {t : Nat} {x : Thread} {xs : List (Nat × Thread)} (mem : (t, x) ∈ xs)
    (greatest : ∀ y ∈ xs, y ≠ (t, x) → y.2.stamp.toNat < x.stamp.toNat) : greatestStamp xs = some t := by
  rw [greatestStamp_eq, foldl_laterStamp_of_mem mem (by simp) greatest]
  rfl

/-! ## The threads of a core that may leave their slots -/

theorem Chip.preemptible_of_live {h : Chip} {p : At} {t : Thread} (notDispatcher : p.t ≠ 0) (live : h.slot p = .live t) :
    h.preemptible p = true := by
  simp [Chip.preemptible, notDispatcher, live]

theorem Chip.mem_threadsOf {h : Chip} {v c t : Nat} {x : Thread} : (t, x) ∈ h.threadsOf v c ↔
    (0 < t ∧ t < 16) ∧ h.preemptible ⟨v, c, t⟩ = true ∧ h.thread? ⟨v, c, t⟩ = some x := by
  have slots : (List.range 16).drop 1 = List.range' 1 15 := rfl
  simp only [Chip.threadsOf, slots, List.mem_filterMap, List.mem_range'_1, Option.ite_none_right_eq_some, Option.map_eq_some_iff,
    Prod.mk.injEq]
  constructor
  · rintro ⟨_, range, preemptible, y, thread, rfl, rfl⟩
    exact ⟨range, preemptible, thread⟩
  · rintro ⟨range, preemptible, thread⟩
    exact ⟨t, range, preemptible, x, thread, rfl, rfl⟩

section
variable {h : Chip} {v c t : Nat} {x : Thread} (member : (t, x) ∈ h.threadsOf v c) {f : Thread → Bool} (chosen : f x = true)
  (only : ∀ u y, (u, y) ∈ h.threadsOf v c → u ≠ t → f y = true → y.stamp.toNat < x.stamp.toNat)
include member chosen only

/-- Of the threads that a test chooses, the one above all others in stamp. -/
theorem Chip.greatestStamp_threadsOf : greatestStamp ((h.threadsOf v c).filter fun y => f y.2) = some t := by
  refine greatestStamp_of_greatest (x := x) (List.mem_filter.2 ⟨member, chosen⟩) ?_
  rintro ⟨u, y⟩ mem other
  obtain ⟨mem, chosen'⟩ := List.mem_filter.1 mem
  refine only u y mem (fun same => other ?_) chosen'
  subst same
  rw [Option.some.inj ((Chip.mem_threadsOf.1 mem).2.2.symm.trans (Chip.mem_threadsOf.1 member).2.2)]

end

/-- A floor task takes the slot of the non-quiet thread of greatest stamp, where no thread is bound to others (R144). -/
theorem Chip.displaced_of_unbound {h : Chip} {v c t : Nat} {x : Thread} (member : (t, x) ∈ h.threadsOf v c) (task : x.quiet = false)
    (unbound : ∀ u y, (u, y) ∈ h.threadsOf v c → h.bound y = false)
    (only : ∀ u y, (u, y) ∈ h.threadsOf v c → u ≠ t → (!y.quiet) = true → y.stamp.toNat < x.stamp.toNat) :
    h.displaced v c = some t := by
  have free : (h.threadsOf v c).filter (fun y => !h.bound y.2) = h.threadsOf v c :=
    List.filter_eq_self.2 fun y mem => by simp [unbound y.1 y.2 mem]
  unfold Chip.displaced
  simp only [free, ite_self]
  rw [Chip.greatestStamp_threadsOf member (f := fun y => !y.quiet) (by simp [task]) only]
  rfl

/-! ## A thread leaves its slot (R161) -/

/-- Freed slots are the only change of their core. -/
theorem Chip.core_freeSlots (h : Chip) (p : At) (v c : Nat) : ∃ slots, (h.freeSlots p).core v c = { h.core v c with slots := slots } := by
  unfold Chip.freeSlots
  split
  · obtain ⟨_, first⟩ := h.core_setSlot p .free v c
    obtain ⟨slots, second⟩ := (h.setSlot p .free).core_setSlot p.trail .free v c
    exact ⟨slots, by rw [second, first]⟩
  · exact h.core_setSlot p .free v c

theorem Chip.SameButCores.freeSlots (h : Chip) (p : At) : h.SameButCores (h.freeSlots p) := by
  unfold Chip.freeSlots
  split
  · exact (Chip.SameButCores.setSlot ..).trans (.setSlot ..)
  · exact .setSlot ..

theorem Chip.SameButCores.nextSeq {h g : Chip} (same : h.SameButCores g) : g.nextSeq = h.nextSeq := by rw [← same.rest]

/-- What enters a core's queues does not look at its slots. -/
theorem Core.enter_slots (k : Core) (slots : Map Slot) (e : Entry) (floor : Bool) :
    Core.enter { k with slots := slots } e floor = { k.enter e floor with slots := slots } := by
  by_cases room : k.queue.length < e.limit floor
  · rw [Core.enter_of_room room, Core.enter_of_room (k := { k with slots := slots }) room]
  · rw [Core.enter_of_full room, Core.enter_of_full (k := { k with slots := slots }) room]

/-- A thread parked for its own core enters that core's queue, or its overflow area, which is the only change of the core's queues and
marks. -/
theorem Chip.core_park {h : Chip} {p : At} {x : Here} (here : h.here? p = some x) : ∃ slots,
    (h.park p true).core p.v p.c = { (h.core p.v p.c).enter (freshEntry h x.th.uid true) false with slots := slots } := by
  obtain ⟨q, f, parks, keeps, -⟩ := Chip.parkTo_eq here p.c true
  obtain ⟨slots, freed⟩ := h.core_freeSlots p p.v p.c
  have seq : freshEntry ((h.freeSlots p).modCluster p.v f) x.th.uid true = freshEntry h x.th.uid true := by
    simp only [freshEntry, Chip.modCluster, (Chip.SameButCores.freeSlots h p).nextSeq]
  rw [Chip.park, parks]
  dsimp only
  rw [if_pos rfl, Chip.core_enqueue_same, Chip.core_modCluster_of_cores _ _ _ _ fun k => (keeps k).1, freed, seq]
  exact ⟨slots, Core.enter_slots ..⟩

theorem Core.vacating_enter (k : Core) (e : Entry) (floor : Bool) : (k.enter e floor).vacating = k.vacating := by
  by_cases room : k.queue.length < e.limit floor
  · rw [Core.enter_of_room room]
  · rw [Core.enter_of_full room]

/-- The chip with the slot at `p` no longer marked to be vacated (R160). -/
def Chip.unmark (h : Chip) (p : At) : Chip := h.modCore p.v p.c fun k => { k with vacating := k.vacating.filter (· ≠ p.t) }

theorem Chip.core_unmark (h : Chip) (p : At) :
    (h.unmark p).core p.v p.c = { h.core p.v p.c with vacating := (h.core p.v p.c).vacating.filter (· ≠ p.t) } :=
  Chip.core_modCore_same ..

theorem Chip.slot_unmark (h : Chip) (p q : At) : (h.unmark p).slot q = h.slot q :=
  h.slot_modCore_of_slots p.v p.c q (f := fun k => { k with vacating := k.vacating.filter (· ≠ p.t) }) fun _ => rfl

theorem Chip.here?_unmark (h : Chip) (p : At) : (h.unmark p).here? p = h.here? p := by
  rw [Chip.here?, Chip.thread?, Chip.slot_unmark, Chip.core_unmark, Chip.here?, Chip.thread?]

section
variable {h : Chip} {p : At} {x : Here} (notDispatcher : p.t ≠ 0) (live : h.slot p = .live x.th)
  (running : (h.core p.v p.c).stopped = false)
include notDispatcher live running

/-- A LIVE thread of a core whose dispatch runs is parked by pre-emption. -/
theorem Chip.preempt_of_live : h.preempt p = (h.unmark p).park p true := by
  have live' := (h.slot_unmark p p).trans live
  have running' : ((h.unmark p).core p.v p.c).stopped = false := by rw [Chip.core_unmark]; exact running
  refine if_pos (?_ : ((h.unmark p).preemptible p && !((h.unmark p).core p.v p.c).stopped) = true)
  rw [Chip.preemptible_of_live notDispatcher live', running']
  rfl

/-- A pre-empted thread has left its slot. -/
theorem leftSlot_preempt (here : h.here? p = some x) : LeftSlot h (h.preempt p) p x := by
  have here' := (h.here?_unmark p).trans here
  obtain ⟨slots, core⟩ := Chip.core_park here'
  rw [Chip.core_unmark] at core
  rw [LeftSlot, Chip.preempt_of_live notDispatcher live running, core]
  refine ⟨Chip.slot_parkTo here' .., Chip.mem_parked_parkTo here' .., ?_, ?_⟩
  · by_cases room : (h.core p.v p.c).queue.length < 40
    · rw [if_pos room, Core.enter_of_room room]
      exact List.mem_append_right _ List.mem_cons_self
    · rw [if_neg room, Core.enter_of_full room]
      exact List.mem_append_right _ List.mem_cons_self
  · dsimp only
    rw [Core.vacating_enter]
    simp

end

/-! ## The events in which a thread leaves its slot (R144, R145, R160, R161) -/

section
variable {s : State} {v c t : Nat}

theorem becomes_displace {k : Ticket} (head : s.chip.head v c = some k) (floor : k.floor = true) (full : s.chip.freeSlot v c = none)
    (unmarked : (s.chip.core v c).vacating = []) (running : (s.chip.core v c).stopped = false)
    (displaced : s.chip.displaced v c = some t) : Becomes (.displace v c) s (s.chip.preempt ⟨v, c, t⟩) := by
  change Host.Outcome.next { s with chip := s.chip.displace v c } = _
  simp [Chip.displace, Chip.vacates, head, floor, full, unmarked, running, displaced]

theorem displace_ignored (empty : s.chip.head v c = none) : Ignored (.displace v c) s := by
  change Host.Outcome.next { s with chip := s.chip.displace v c } = .next s
  rw [Chip.displace, empty]

theorem becomes_barrierYield (wants : s.chip.headWantsSlot v c = true) (running : (s.chip.core v c).stopped = false)
    (greatest : greatestStamp ((s.chip.threadsOf v c).filter fun x => x.2.quiet && s.chip.barrierWaiter x.2 && !s.chip.bound x.2) =
      some t) : Becomes (.barrierYield v c) s (s.chip.preempt ⟨v, c, t⟩) := by
  change Host.Outcome.next { s with chip := s.chip.barrierYield v c } = _
  simp [Chip.barrierYield, wants, running, greatest]

theorem barrierYield_ignored (content : s.chip.headWantsSlot v c = false) : Ignored (.barrierYield v c) s := by
  change Host.Outcome.next { s with chip := s.chip.barrierYield v c } = .next s
  rw [Chip.barrierYield, content]
  rfl

theorem exec_vacateComplete (v c t : Nat) (s : State) : exec (.vacateComplete v c t) s = .next { s with
    chip := if (s.chip.core v c).vacating.contains t && !(s.chip.core v c).stopped then s.chip.preempt ⟨v, c, t⟩ else s.chip } := rfl

theorem vacateComplete_ignored (unmarked : t ∉ (s.chip.core v c).vacating) : Ignored (.vacateComplete v c t) s := by
  rw [Ignored, exec_vacateComplete, if_neg (by simp [unmarked])]

theorem becomes_vacateComplete (marked : t ∈ (s.chip.core v c).vacating) (running : (s.chip.core v c).stopped = false) :
    Becomes (.vacateComplete v c t) s (s.chip.preempt ⟨v, c, t⟩) := by
  rw [Becomes, exec_vacateComplete, if_pos (by simp [marked, running])]

end

/-! ## CPRE marks slots (R160, R167) -/

theorem mem_addOnce_iff {xs : List Nat} {x y : Nat} : y ∈ addOnce xs x ↔ y ∈ xs ∨ y = x := by
  unfold addOnce
  split
  · rename_i listed
    exact ⟨.inl, fun either => either.elim id fun same => same ▸ List.contains_iff_mem.1 listed⟩
  · simp

theorem mem_foldl_addOnce {xs ys : List Nat} {y : Nat} : y ∈ ys.foldl addOnce xs ↔ y ∈ xs ∨ y ∈ ys := by
  induction ys generalizing xs with
  | nil => simp
  | cons x ys ih => rw [List.foldl_cons, ih, mem_addOnce_iff, List.mem_cons, or_assoc]

/-- The slot of the thread, or on a screened core of the pair's leading half, that stands in slot t. -/
def leadingSlot (screened : Bool) (t : Nat) : Nat := if screened = true ∧ 8 ≤ t then t - 8 else t

/-- The slots that a value of CPRE marks. -/
def markedSlots (screened : Bool) (x : Word) : List Nat :=
  (((List.range 16).filter fun t => x.getLsbD t).map (leadingSlot screened)).filter (· ≠ 0)

theorem mem_markedSlots {screened : Bool} {x : Word} {t : Nat} : t ∈ markedSlots screened x ↔
    t ≠ 0 ∧ ∃ j < 16, x.getLsbD j = true ∧ t = leadingSlot screened j := by
  rw [markedSlots, List.mem_filter, List.mem_map, decide_eq_true_eq, and_comm]
  refine and_congr_right fun _ => exists_congr fun j => ?_
  rw [List.mem_filter, List.mem_range, and_assoc, eq_comm (b := t)]

section
variable {h : Chip} {v c : Nat} {x : Word}

theorem Chip.mem_vacating_vacate {ts : List Nat} {t : Nat} :
    t ∈ ((h.vacate v c ts).core v c).vacating ↔ t ∈ (h.core v c).vacating ∨ t ∈ ts := by
  rw [Chip.vacate, Chip.core_modCore_same]
  exact mem_foldl_addOnce

/-- The slot holds no thread. -/
def Slot.vacant : Slot → Bool
  | .free => true
  | .ended .. => true
  | _ => false

theorem Chip.cpre_eq (h : Chip) (v c : Nat) (x : Word) : h.cpre v c x =
    if x.getLsbD 0 ∨ bits x 16 48 ≠ 0 ∨ ((List.range 16).filter fun t => x.getLsbD t).any fun t => (h.slot ⟨v, c, t⟩).vacant then none
    else some (h.vacate v c (markedSlots (h.core v c).screened x)) := rfl

/-- A value with a bit for slot 0, or beyond the 16 slots, is refused. -/
theorem Chip.cpre_refused (bad : x.getLsbD 0 = true ∨ 2 ^ 16 ≤ x.toNat) : h.cpre v c x = none := by
  rw [Chip.cpre_eq, if_pos]
  rcases bad with slot0 | wide
  · exact .inl slot0
  · refine .inr (.inl ?_)
    have := x.isLt
    simp only [bits]
    omega

theorem Chip.cpre_of_held (slot0 : x.getLsbD 0 = false) (narrow : x.toNat < 2 ^ 16)
    (held : ∀ t, x.getLsbD t = true → (h.slot ⟨v, c, t⟩).vacant = false) :
    h.cpre v c x = some (h.vacate v c (markedSlots (h.core v c).screened x)) := by
  rw [Chip.cpre_eq, if_neg]
  rintro (bad | wide | empty)
  · rw [slot0] at bad
    contradiction
  · simp only [bits] at wide
    omega
  · obtain ⟨t, mem, vacant⟩ := List.any_eq_true.1 empty
    rw [held t (List.mem_filter.1 mem).2] at vacant
    contradiction

end

theorem exec_cpreWrite (v c : Nat) (x : BitVec 64) (s : State) :
    exec (.cpreWrite v c x) s = .next { s with chip := (s.chip.cpre v c x).getD s.chip } := rfl

theorem cpreWrite_ignored {s : State} {v c : Nat} {x : BitVec 64} (refused : s.chip.cpre v c x = none) :
    Ignored (.cpreWrite v c x) s := by
  rw [Ignored, exec_cpreWrite, refused]
  rfl

theorem becomes_cpreWrite {s : State} {v c : Nat} {x : BitVec 64} {g : Chip} (taken : s.chip.cpre v c x = some g) :
    Becomes (.cpreWrite v c x) s g := by
  rw [Becomes, exec_cpreWrite, taken]
  rfl

/-! ## The context cache (R161) -/

/-- The saved contexts once those of a task have left the context cache. -/
def writtenBack (ps : List Parked) (uid : Nat) : List Parked :=
  ps.map fun x => if x.thread.uid = uid then { x with cached := false } else x

theorem exec_contextWriteback (v : Nat) (s : State) : exec (.contextWriteback v) s =
    match (s.chip.cluster v).parked.find? (·.cached) with
    | some q =>
      if 64 - cacheUse (s.chip.cluster v).parked < 8 then
        .next { s with chip := s.chip.modCluster v fun k => { k with parked := writtenBack k.parked q.thread.uid } }
      else .next s
    | none => .next s := rfl

section
variable {s : State} {v : Nat}

theorem contextWriteback_ignored (room : cacheUse (s.chip.cluster v).parked ≤ 56) : Ignored (.contextWriteback v) s := by
  rw [Ignored, exec_contextWriteback]
  split
  · exact if_neg (by omega)
  · rfl

theorem becomes_contextWriteback {q : Parked} (oldest : (s.chip.cluster v).parked.find? (·.cached) = some q)
    (full : 56 < cacheUse (s.chip.cluster v).parked) : Becomes (.contextWriteback v) s
      (s.chip.modCluster v fun k => { k with parked := writtenBack k.parked q.thread.uid }) := by
  rw [Becomes, exec_contextWriteback, oldest]
  exact if_pos (by omega)

end

theorem find?_cached_of_first {a b : List Parked} {q : Parked} (none_ : ∀ x ∈ a, x.cached = false) (cached : q.cached = true) :
    (a ++ q :: b).find? (·.cached) = some q := by
  rw [List.find?_append, List.find?_eq_none.2 fun x mem => by simp [none_ x mem], Option.none_or, List.find?_cons_of_pos cached]

theorem writtenBack_of_others {ps : List Parked} {uid : Nat} (others : ∀ x ∈ ps, x.thread.uid ≠ uid) : writtenBack ps uid = ps :=
  (List.map_congr_left fun x mem => if_neg (others x mem)).trans (List.map_id' ps)

theorem writtenBack_of_alone {a b : List Parked} {q : Parked} (others : ∀ x ∈ a ++ b, x.thread.uid ≠ q.thread.uid) :
    writtenBack (a ++ q :: b) q.thread.uid = a ++ { q with cached := false } :: b := by
  obtain ⟨before, after⟩ := List.forall_mem_append.1 others
  rw [writtenBack, List.map_append, List.map_cons, if_pos rfl, ← writtenBack, ← writtenBack, writtenBack_of_others before,
    writtenBack_of_others after]

end Sys2Proof.Machine

open Sys2Proof Sys2Proof.Machine

/-- Settles O44: the fields of a core after its rotation boundary, what pre-emption leaves of a slot, the slots that CPRE marks, and the
context that leaves the cache. -/
theorem slotsBetweenIssues : Obligations.SlotsBetweenIssues := by
  refine ⟨fun s v c t q busy => ?early, fun s v c last notLive notTrailing => ?boundary,
    fun s v c t x notDispatcher inside live here running =>
      have member : (t, x.th) ∈ s.chip.threadsOf v c := Chip.mem_threadsOf.2 ⟨⟨Nat.pos_of_ne_zero notDispatcher, inside⟩,
        Chip.preemptible_of_live notDispatcher live, Chip.thread?_of_live live⟩
      ⟨?displaces, ?yields, fun marked => ?vacates⟩,
    fun s v c => ⟨displace_ignored, barrierYield_ignored, fun t => vacateComplete_ignored⟩,
    fun s v c x => ⟨fun bad => ?refused, fun slot0 narrow held => ?marks⟩,
    fun s v => ⟨contextWriteback_ignored, fun a q b parked uncached cached full alone => ?writesBack⟩⟩
  case early => exact rotationBoundary_ignored (busy.imp_right (Or.imp (⟨t, ·⟩) (⟨t, q, ·⟩)))
  case boundary =>
    obtain ⟨slots, file, core⟩ := s.chip.core_rotationBoundary v c
    refine ⟨_, becomes_rotationBoundary last notLive notTrailing, ?_⟩
    rw [core, Core.boundary_eq]
    exact ⟨rfl, rfl, rfl, rfl, fun n unnamed => getOr_writeCommon_of_unnamed _ _ fun w mem => unnamed w (mem_slotOrder.1 mem),
      fun n t x mem highest => getOr_writeCommon_of_highest _ (pairwise_slotOrder _) (mem_slotOrder.2 mem) fun w mem =>
        highest w (mem_slotOrder.1 mem)⟩
  case displaces =>
    intro k head floor full unmarked task unbound only
    have displaced := Chip.displaced_of_unbound member task unbound only
    exact ⟨_, becomes_displace head floor full unmarked running displaced, leftSlot_preempt notDispatcher live running here⟩
  case yields =>
    intro wants quiet waiter free only
    have greatest := Chip.greatestStamp_threadsOf member (f := fun y => y.quiet && s.chip.barrierWaiter y && !s.chip.bound y)
      (by simp [quiet, waiter, free]) only
    exact ⟨_, becomes_barrierYield wants running greatest, leftSlot_preempt notDispatcher live running here⟩
  case vacates => exact ⟨_, becomes_vacateComplete marked running, leftSlot_preempt notDispatcher live running here⟩
  case refused => exact cpreWrite_ignored (Chip.cpre_refused bad)
  case marks =>
    have held (t : Nat) (bit : x.getLsbD t = true) : (s.chip.slot ⟨v, c, t⟩).vacant = false := by
      obtain ⟨u, q, slot | slot | slot⟩ := held t bit
      all_goals rw [slot]; rfl
    refine ⟨_, becomes_cpreWrite (Chip.cpre_of_held slot0 narrow held), fun t => ?_⟩
    rw [Chip.mem_vacating_vacate, mem_markedSlots]
    rfl
  case writesBack =>
    refine ⟨_, becomes_contextWriteback (parked ▸ find?_cached_of_first uncached cached) full, ?_⟩
    rw [Chip.cluster_modCluster, if_pos rfl]
    dsimp only
    rw [parked, writtenBack_of_alone alone]

end

section
/-! PROOFS. The family 08, the state after reset (R138, R139, R179): nothing is listed, so that everything reads as its default. -/

namespace Sys2Proof.Machine

/-! ## What is not listed -/

theorem State.cluster_reset (v : Nat) : State.reset.chip.cluster v = {} := rfl

theorem State.core_reset (v c : Nat) : State.reset.chip.core v c = {} := rfl

theorem State.part_reset (pid : Nat) : State.reset.chip.part pid = {} := rfl

/-- Slot 0 of every core is the dispatcher's. -/
theorem State.slot_zero_reset (v c : Nat) : State.reset.chip.slot ⟨v, c, 0⟩ = .live (dispatcher v c) := rfl

/-- Every other slot is FREE. -/
theorem State.slot_reset (v c : Nat) {t : Nat} (other : t ≠ 0) : State.reset.chip.slot ⟨v, c, t⟩ = .free := by
  rw [Chip.slot, State.core_reset]
  exact if_neg other

/-- A bank that is not listed is SCRATCH. -/
theorem Cluster.mode_default (b : Nat) : Cluster.mode {} b = .scratch := rfl

/-- A memory that lists nothing reads as zero. -/
theorem Mem.read_nil (k : Nat) : Mem.read [] k = 0 := rfl

/-- Memories that list nothing are in canonical form. -/
theorem State.canonical_reset : State.reset.chip.Canonical where
  hbm := rfl
  flash := rfl
  host := rfl
  clusters := fun _ mem => nomatch mem
  parts := fun _ mem => nomatch mem
  images := fun _ mem => nomatch mem
  older := fun _ mem => nomatch mem
  atPoints := fun _ mem => nomatch mem

end Sys2Proof.Machine

open Sys2Proof Sys2Proof.Machine

/-- Settles O28: the registers are read one by one; slots, banks, partitions and memories are read where nothing is listed (logs 4 and
6). -/
theorem resetState : Obligations.ResetState := by
  refine ⟨?registers, fun v c => ⟨dispatcher v c, State.slot_zero_reset v c, rfl, rfl, rfl⟩, fun v c t => State.slot_reset v c,
    fun v b j => ⟨?mode, ?zero⟩, fun p => ?inactive, State.canonical_reset⟩
  case registers => decide +kernel
  case mode => rw [State.cluster_reset, Cluster.mode_default]
  case zero => rw [State.cluster_reset, Mem.read_nil]
  case inactive => rw [State.part_reset]

end

section
/-! PROOFS. The family 09, the takeover of the master die (R309): a task number that is listed for two homes goes to the first only. -/

namespace Sys2Proof.Machine

/-- A task of launch 0 of partition 0, queued, whose packet names core 0 of cluster v as its home. -/
def queuedAt (v : Nat) : Task :=
  { pid := 0, launch := some 0
    packet := { origin := .launch, pc := 0, stamp := 0, regn := 1, args := [], fmtA := 0, fmtB := 0, fmtC := 0, grps := 0, quiet := false
                cores := false, tvec := 0, priority := 0, homeV := v, homeC := 0 } }

/-- Die 0, the master, is fenced. Task number 16384 is listed twice, with its home at clusters 0 and 1 of die 1, and the mask of its
launch says that it has not committed. -/
def twoHomes : State :=
  { chip :=
      { tasks := [(16384, queuedAt 0), (16384, queuedAt 1)]
        parts := [(0, { jobs := [{ lnum := 0, slot := none, record := [], block := [], tvec := 0, count := 1, unplaced := []
                                   masks := [(0, 1)] }] })]
        vmap := [(0, { valid := true, pcn := 128 }), (1, { valid := true, pcn := 129 })]
        fences := [0] } }

/-- The chip once die d is master: the lost packets of every cluster that runs are sent again. -/
def Chip.takenOver (h : Chip) (d : Nat) : Chip :=
  ((List.range 2048).filter fun v => (h.vmap.getOr v {}).valid && !(h.cluster v).stopped).foldl Chip.reissue { h with master := d }

theorem becomes_masterTakeover {s : State} {d : Nat} (fenced : s.chip.fences.contains s.chip.master = true)
    (lowest : (List.range 16).find? (fun d => !s.chip.fences.contains d) = some d) :
    Becomes .masterTakeover s (s.chip.takenOver d) := by
  change execMasterTakeover s = _
  simp only [execMasterTakeover, fenced, if_true, lowest]
  rfl

/-- A state in which an event has one outcome. -/
theorem Becomes.chip_eq {i : Instr} {s : State} {g h : Chip} (one : Becomes i s g) (other : Becomes i s h) : g = h := by
  have same : (Host.Outcome.next { s with chip := g } : Host.Outcome State Fault Refusal) = .next { s with chip := h } := one.symm.trans other
  injection same with same
  exact congrArg State.chip same

/-- The task's packet goes to cluster 0; at cluster 1, which comes after, the number has a packet under way. -/
theorem flights_takenOver_twoHomes :
    (twoHomes.chip.takenOver 1).flights = [(0, { body := .task 0 0 16384, pcn := 128 })] := by decide +kernel

end Sys2Proof.Machine

open Sys2Proof Sys2Proof.Machine

/-- Refutes O56, by its clause about MASTER_TAKEOVER: it asks for a packet to the home of every listed task, and takes the list of tasks as
it comes. In `twoHomes` one task number is listed for two homes; its packet goes to the first, so that the second finds a packet of that
number under way and is left out. The clause lacks the hypothesis that the task numbers are distinct. -/
theorem not_errorsAndRestores : ¬ Obligations.ErrorsAndRestores := by
  intro ⟨_, _, _, _, takeover⟩
  obtain ⟨g, becomes, -, -, -, reissued⟩ := (takeover twoHomes).2 1 (by decide) (by decide) (by decide) (by decide)
  obtain ⟨n, f, found, body⟩ := reissued 16384 (queuedAt 1) (by decide) (by decide) (by decide) (by decide) (by decide) (by decide)
    (by decide) (by decide) (fun _ _ _ _ listed => nomatch listed)
  have listed := Map.mem_of_get found
  rw [becomes.chip_eq (becomes_masterTakeover (d := 1) (by decide) (by decide)), flights_takenOver_twoHomes, List.mem_singleton] at listed
  obtain ⟨rfl, rfl⟩ := Prod.mk.inj listed
  exact absurd body (by decide)

end

section
/-! PROOFS. The family 09, sweeps over the clusters of a partition, and pre-emption (R161, R385, R388). -/

namespace Sys2Proof.Machine

/-! ## A sweep -/

/-- A fold over distinct entries, of which one brings about `B` from what the others keep, ends with `B`. -/
theorem foldl_reaches {σ β : Type} {f : σ → β → σ} {A B : σ → Prop} {x : β} (before : ∀ g y, y ≠ x → A g → A (f g y))
    (turn : ∀ g, A g → B (f g x)) (after : ∀ g y, y ≠ x → B g → B (f g y)) {ys : List β} (distinct : ys.Nodup) (mem : x ∈ ys)
    {g : σ} (start : A g) : B (ys.foldl f g) := by
  obtain ⟨as, bs, rfl⟩ := List.append_of_mem mem
  have apart : ∀ y ∈ as ++ bs, y ≠ x := fun y listed same => (List.nodup_middle.1 distinct).notMem (same ▸ listed)
  rw [List.foldl_append, List.foldl_cons]
  have reached : A (as.foldl f g) :=
    List.foldlRecOn (motive := A) as f start fun g holds y listed => before g y (apart y (List.mem_append_left _ listed)) holds
  exact List.foldlRecOn (motive := B) bs f (turn _ reached) fun g holds y listed => after g y (apart y (List.mem_append_right _ listed)) holds

theorem Partition.mem_vcns {q : Partition} {v : Nat} : v ∈ q.vcns ↔ v < 2048 ∧ q.holds v = true := by
  simp [Partition.vcns, Partition.holds]

theorem Partition.nodup_vcns (q : Partition) : q.vcns.Nodup := List.nodup_range.filter _

@[simp] theorem Chip.part_modPart_same (h : Chip) (pid : Nat) (f : Partition → Partition) : (h.modPart pid f).part pid = f (h.part pid) := by
  simp [Chip.part, Chip.modPart]

@[simp] theorem Chip.cluster_modPart (h : Chip) (pid : Nat) (f : Partition → Partition) (v : Nat) :
    (h.modPart pid f).cluster v = h.cluster v := rfl

section
variable {h g : Chip}

theorem Chip.slot_of_cluster {p : At} (same : g.cluster p.v = h.cluster p.v) : g.slot p = h.slot p := by
  simp only [Chip.slot, Chip.core, same]

theorem Chip.present_of_cluster {pid v : Nat} (same : g.cluster v = h.cluster v) : g.present pid v = h.present pid v := by
  simp only [Chip.present, same]

theorem Chip.part_of_parts (same : g.parts = h.parts) (pid : Nat) : g.part pid = h.part pid := by simp only [Chip.part, same]

end

/-! ## What pre-emption of a slot leaves of the others (R161) -/

/-- The chips differ at most in the cluster of `p`; there the slots other than `p` and the trailing halves of pairs, the dispatch of the
cores and the saved contexts are kept. -/
structure Chip.KeepsOthers (p : At) (h g : Chip) : Prop where
  parts : g.parts = h.parts
  cluster : ∀ u, u ≠ p.v → g.cluster u = h.cluster u
  slot : ∀ q, q ≠ p → (∀ t y, h.slot q ≠ .trailing t y) → g.slot q = h.slot q
  stopped : ∀ v c, (g.core v c).stopped = (h.core v c).stopped
  parked : ∀ v, ∀ k ∈ (h.cluster v).parked, k ∈ (g.cluster v).parked

section
variable {h g k : Chip} {p : At}

theorem Chip.KeepsOthers.refl (p : At) (h : Chip) : h.KeepsOthers p h := ⟨rfl, fun _ _ => rfl, fun _ _ _ => rfl, fun _ _ => rfl, fun _ _ => id⟩

theorem Chip.KeepsOthers.trans (first : h.KeepsOthers p g) (second : g.KeepsOthers p k) : h.KeepsOthers p k where
  parts := second.parts.trans first.parts
  cluster u other := (second.cluster u other).trans (first.cluster u other)
  slot q other alone :=
    have kept := first.slot q other alone
    (second.slot q other fun t y => kept ▸ alone t y).trans kept
  stopped v c := (second.stopped v c).trans (first.stopped v c)
  parked v x listed := second.parked v x (first.parked v x listed)

theorem Chip.KeepsOthers.modCluster (h : Chip) {f : Cluster → Cluster} (cores : ∀ k, (f k).cores = k.cores)
    (parked : ∀ k, ∀ x ∈ k.parked, x ∈ (f k).parked) : h.KeepsOthers p (h.modCluster p.v f) where
  parts := rfl
  cluster u other := by rw [Chip.cluster_modCluster, if_neg other]
  slot q _ _ := by rw [Chip.slot, Chip.core_modCluster_of_cores _ _ _ _ cores, Chip.slot]
  stopped v c := by rw [Chip.core_modCluster_of_cores _ _ _ _ cores]
  parked v x listed := by
    rw [Chip.cluster_modCluster]
    split
    · subst v; exact parked _ x listed
    · exact listed

theorem Chip.KeepsOthers.modCore (h : Chip) (c : Nat) {f : Core → Core} (slots : ∀ k, (f k).slots = k.slots)
    (stopped : ∀ k, (f k).stopped = k.stopped) : h.KeepsOthers p (h.modCore p.v c f) where
  parts := rfl
  cluster u other := by rw [Chip.modCore, Chip.cluster_modCluster, if_neg other]
  slot q _ _ := h.slot_modCore_of_slots p.v c q slots
  stopped v d := by
    rw [Chip.core_modCore]
    split
    · rename_i same; obtain ⟨rfl, rfl⟩ := same; exact stopped _
    · rfl
  parked v x listed := by
    obtain ⟨_, cluster⟩ := (Chip.SameButCores.modCore h p.v c f).cluster v
    rwa [cluster]

/-- Where the slot `q` is freed with the slot of `p` itself, it is the trailing half of the pair that leads at `p`. -/
theorem Chip.slot_freeSlots_ne (h : Chip) {q : At} (other : q ≠ p) (alone : ∀ t y, h.slot q ≠ .trailing t y) :
    (h.freeSlots p).slot q = h.slot q := by
  unfold Chip.freeSlots
  split
  · rename_i pair
    have apart : q ≠ p.trail := by
      rintro rfl
      unfold Chip.pairAt at pair
      split at pair
      · contradiction
      split at pair
      · exact alone _ _ ‹_›
      · contradiction
    rw [Chip.slot_setSlot, if_neg apart, Chip.slot_setSlot, if_neg other]
  · rw [Chip.slot_setSlot, if_neg other]

theorem Chip.cluster_setSlot_ne (h : Chip) {u : Nat} (other : u ≠ p.v) (x : Slot) : (h.setSlot p x).cluster u = h.cluster u := by
  rw [Chip.setSlot, Chip.modCore, Chip.cluster_modCluster, if_neg other]

theorem Chip.KeepsOthers.freeSlots (h : Chip) (p : At) : h.KeepsOthers p (h.freeSlots p) where
  parts := (Chip.SameButCores.freeSlots h p).parts
  cluster u other := by
    unfold Chip.freeSlots
    split
    · rw [Chip.cluster_setSlot_ne _ (by exact other), Chip.cluster_setSlot_ne _ other]
    · exact Chip.cluster_setSlot_ne _ other _
  slot q := Chip.slot_freeSlots_ne h
  stopped v c := by obtain ⟨_, core⟩ := h.core_freeSlots p v c; rw [core]
  parked v x listed := by
    obtain ⟨_, cluster⟩ := (Chip.SameButCores.freeSlots h p).cluster v
    rwa [cluster]

theorem Core.stopped_enter (k : Core) (e : Entry) (floor : Bool) : (k.enter e floor).stopped = k.stopped := by
  by_cases room : k.queue.length < e.limit floor
  · rw [Core.enter_of_room room]
  · rw [Core.enter_of_full room]

theorem Chip.KeepsOthers.tick (p : At) (h : Chip) : h.KeepsOthers p h.tick :=
  ⟨rfl, fun _ _ => rfl, fun _ _ _ => rfl, fun _ _ => rfl, fun _ _ => id⟩

theorem Chip.KeepsOthers.park (h : Chip) (p : At) (queued : Bool) : h.KeepsOthers p (h.park p queued) := by
  cases here : h.here? p with
  | none => simp only [Chip.park, Chip.parkTo, here]; exact .refl p h
  | some x =>
    obtain ⟨q, f, parks, keeps, -⟩ := Chip.parkTo_eq here p.c queued
    have saved : h.KeepsOthers p ((h.freeSlots p).modCluster p.v f) := (Chip.KeepsOthers.freeSlots h p).trans <|
      .modCluster _ (fun k => (keeps k).1) fun k x listed => by rw [(keeps k).2]; exact List.mem_append_left _ listed
    rw [Chip.park, parks]
    cases queued with
    | true => exact saved.trans ((Chip.KeepsOthers.modCore _ p.c (fun k => k.slots_enter ..) fun k => k.stopped_enter ..).trans (.tick ..))
    | false => exact saved.trans (.tick ..)

/-- A slot pre-empted changes its own cluster alone, and there no other LIVE or FREE slot. -/
theorem Chip.KeepsOthers.preempt (h : Chip) (p : At) : h.KeepsOthers p (h.preempt p) := by
  have unmarked : h.KeepsOthers p (h.unmark p) := .modCore h p.c (fun _ => rfl) fun _ => rfl
  change h.KeepsOthers p (if (h.unmark p).preemptible p && !((h.unmark p).core p.v p.c).stopped then (h.unmark p).park p true else h.unmark p)
  split
  · exact unmarked.trans (.park ..)
  · exact unmarked

end

/-! ## A cluster vacated (R161, R385) -/

/-- The thread has left its slot, and stands among the saved contexts of its cluster. -/
def Chip.SavedFrom (g : Chip) (p : At) (x : Thread) : Prop :=
  g.slot p = .free ∧ ∃ k ∈ (g.cluster p.v).parked, k.thread = x ∧ k.core = p.c

/-- The thread is LIVE in its slot, on a core whose dispatch runs. -/
def Chip.RunsAt (g : Chip) (p : At) (x : Thread) : Prop := g.slot p = .live x ∧ (g.core p.v p.c).stopped = false

section
variable {h g : Chip} {p q : At} {x : Thread}

theorem Chip.RunsAt.of_keepsOthers (runs : h.RunsAt p x) (keeps : h.KeepsOthers q g) (other : p ≠ q) : g.RunsAt p x := by
  obtain ⟨live, running⟩ := runs
  exact ⟨(keeps.slot p other fun _ _ => by rw [live]; simp).trans live, (keeps.stopped ..).trans running⟩

theorem Chip.SavedFrom.of_keepsOthers (saved : h.SavedFrom p x) (keeps : h.KeepsOthers q g) (other : p ≠ q) : g.SavedFrom p x := by
  obtain ⟨free, k, listed, thread⟩ := saved
  exact ⟨(keeps.slot p other fun _ _ => by rw [free]; simp).trans free, k, keeps.parked _ k listed, thread⟩

theorem Chip.SavedFrom.of_cluster (saved : h.SavedFrom p x) (same : g.cluster p.v = h.cluster p.v) : g.SavedFrom p x := by
  rwa [Chip.SavedFrom, Chip.slot_of_cluster same, same]

theorem Chip.RunsAt.savedFrom_preempt (runs : h.RunsAt p x) (notDispatcher : p.t ≠ 0) : (h.preempt p).SavedFrom p x := by
  obtain ⟨live, running⟩ := runs
  have here : h.here? p = some ⟨x, (h.core p.v p.c).file⟩ := by rw [Chip.here?, Chip.thread?, live]; rfl
  obtain ⟨free, ⟨k, listed, thread, -, core⟩, -⟩ := leftSlot_preempt notDispatcher live running here
  exact ⟨free, k, listed, thread, core⟩

end

section
variable (h : Chip) (v : Nat)

/-- A core vacated: what a pre-emption of any of its slots keeps. -/
theorem Chip.vacateCluster_keeps {P : Chip → Prop} (holds : P h) (keeps : ∀ (g : Chip) c t, P g → P (g.preempt ⟨v, c, t⟩)) :
    P (h.vacateCluster v) :=
  List.foldlRecOn (motive := P) _ _ holds fun _ before c _ =>
    List.foldlRecOn (motive := P) _ _ before fun g before t _ => keeps g c t before

theorem Chip.cluster_vacateCluster_ne {u : Nat} (other : u ≠ v) : (h.vacateCluster v).cluster u = h.cluster u :=
  h.vacateCluster_keeps v (P := fun g => g.cluster u = h.cluster u) rfl fun g c t same =>
    ((Chip.KeepsOthers.preempt g ⟨v, c, t⟩).cluster u other).trans same

variable {h v}

/-- Every thread that runs in slots 1 to 15 of a vacated cluster is saved. -/
theorem Chip.RunsAt.savedFrom_vacateCluster {p : At} {x : Thread} (runs : h.RunsAt p x) (core : p.c < 8) (slot : 0 < p.t ∧ p.t < 16) :
    (h.vacateCluster p.v).SavedFrom p x := by
  have ne_of_t {c t : Nat} (other : t ≠ p.t) : p ≠ ⟨p.v, c, t⟩ := fun same => other (congrArg At.t same).symm
  have ne_of_c {c t : Nat} (other : c ≠ p.c) : p ≠ ⟨p.v, c, t⟩ := fun same => other (congrArg At.c same).symm
  refine foldl_reaches (A := (Chip.RunsAt · p x)) (B := (Chip.SavedFrom · p x)) (x := p.c) (fun g c other runs => ?otherCore)
    (fun g runs => ?core) (fun g c other saved => ?afterCore) List.nodup_range (List.mem_range.2 core) runs
  case otherCore =>
    exact List.foldlRecOn (motive := (Chip.RunsAt · p x)) _ _ runs fun g runs t _ => runs.of_keepsOthers (.preempt ..) (ne_of_c other)
  case afterCore =>
    exact List.foldlRecOn (motive := (Chip.SavedFrom · p x)) _ _ saved fun g saved t _ => saved.of_keepsOthers (.preempt ..) (ne_of_c other)
  case core =>
    have listed : p.t ∈ (List.range 16).drop 1 := by
      rw [show (List.range 16).drop 1 = List.range' 1 15 from rfl, List.mem_range'_1]
      omega
    exact foldl_reaches (A := (Chip.RunsAt · p x)) (B := (Chip.SavedFrom · p x))
      (fun g t other runs => runs.of_keepsOthers (.preempt ..) (ne_of_t other)) (fun g runs => runs.savedFrom_preempt (by omega))
      (fun g t other saved => saved.of_keepsOthers (.preempt ..) (ne_of_t other)) (List.nodup_range.sublist (List.drop_sublist ..)) listed runs

end

end Sys2Proof.Machine
end

section
/-! PROOFS. The family 09, the controls of clusters and partitions (R166, R347, R385, R388, R413, R428). -/

namespace Sys2Proof.Machine

/-! ## SCRCFG, HNDCFG and FRDAT (R166, R347, R428) -/

section
variable {s : State} {v pid : Nat} {x : BitVec 64}

theorem exec_scrcfgWrite (v : Nat) (x : BitVec 64) (s : State) : exec (.scrcfgWrite v x) s =
    .next { s with chip := if x &&& 0x101#64 = x then (s.chip.scrcfg v x).getD s.chip else s.chip } := rfl

theorem scrcfgWrite_ignored (bad : x &&& 0x101#64 ≠ x ∨ (x ≠ (s.chip.cluster v).scrWord ∧ s.chip.scrBusy v = true) ∨
    (x.getLsbD 0 = true ∧ s.chip.spread v = true)) : Ignored (.scrcfgWrite v x) s := by
  rw [Ignored, exec_scrcfgWrite]
  split
  · rename_i fits
    rw [Chip.scrcfg, if_pos (bad.resolve_left fun wide => wide fits)]
    rfl
  · rfl

theorem becomes_scrcfgWrite (good : ¬ (x &&& 0x101#64 ≠ x ∨ (x ≠ (s.chip.cluster v).scrWord ∧ s.chip.scrBusy v = true) ∨
    (x.getLsbD 0 = true ∧ s.chip.spread v = true))) : Becomes (.scrcfgWrite v x) s
      (s.chip.modCluster v fun k => { k with screen := x.getLsbD 0, checked := x.getLsbD 8 }) := by
  obtain ⟨fits, taken⟩ := not_or.1 good
  rw [Becomes, exec_scrcfgWrite, if_pos (not_not.1 fits), Chip.scrcfg, if_neg taken]
  rfl

theorem exec_hndcfgWrite (v : Nat) (x : BitVec 64) (s : State) :
    exec (.hndcfgWrite v x) s = .next { s with chip := (s.chip.hndcfg v x).getD s.chip } := rfl

theorem hndcfgWrite_ignored (bad : x &&& hndMask ≠ x ∨
    (x.getLsbD 31 = true ∧ (bits x 0 4 = 0 ∨ 6 < bits x 12 3 ∨ 256 < bits x 16 8 + 2 ^ bits x 12 3))) :
    Ignored (.hndcfgWrite v x) s := by
  rw [Ignored, exec_hndcfgWrite, Chip.hndcfg]
  split
  · rfl
  · rename_i fits
    rw [if_pos (bad.resolve_left fits)]
    rfl

theorem becomes_hndcfgWrite (good : ¬ (x &&& hndMask ≠ x ∨
    (x.getLsbD 31 = true ∧ (bits x 0 4 = 0 ∨ 6 < bits x 12 3 ∨ 256 < bits x 16 8 + 2 ^ bits x 12 3)))) :
    Becomes (.hndcfgWrite v x) s (s.chip.modCluster v fun k =>
      { k with handlers := k.handlers.put k.hndIdx.toNat { pc := k.hndPc, tvec := k.hndTvec, cfg := fld x 0 32 } }) := by
  obtain ⟨fits, taken⟩ := not_or.1 good
  rw [Becomes, exec_hndcfgWrite, Chip.hndcfg, if_neg fits, if_neg taken]
  rfl

theorem exec_frdatWrite (pid : Nat) (x : BitVec 64) (s : State) :
    exec (.frdatWrite pid x) s = .next { s with chip := (s.chip.frdat pid x).getD s.chip } := rfl

/-- A route entry as FRDAT holds it (R428). -/
def routeEntry (x : BitVec 64) : BitVec 9 := (if x.getLsbD 63 then 1#1 else 0#1) ++ fld x 0 8

theorem frdatWrite_ignored (bad : x &&& 0x80000000000000FF#64 ≠ x ∨ (s.chip.part pid).count < bits x 0 8) :
    Ignored (.frdatWrite pid x) s := by
  rw [Ignored, exec_frdatWrite, Chip.frdat, if_pos bad]
  rfl

theorem becomes_frdatWrite (good : ¬ (x &&& 0x80000000000000FF#64 ≠ x ∨ (s.chip.part pid).count < bits x 0 8)) :
    Becomes (.frdatWrite pid x) s
      (s.chip.modPart pid fun q => { q with routes := q.routes.put (s.chip.part pid).fridx.toNat (routeEntry x) }) := by
  rw [Becomes, exec_frdatWrite, Chip.frdat, if_neg good]
  rfl

/-- FRDAT reads back what was written to it. -/
theorem frdatWord_routeEntry (q : Partition) (n : Nat) (fits : x &&& 0x80000000000000FF#64 = x) :
    Partition.frdatWord { q with routes := q.routes.put n (routeEntry x) } n = x := by
  obtain ⟨top, low⟩ := (append_eq_iff (n := 1) (m := 8) (routeEntry x) (if x.getLsbD 63 then 1#1 else 0#1) (fld x 0 8)).1 rfl
  have dest : bits (routeEntry x) 0 8 = bits x 0 8 := by rw [← toNat_fld, low, toNat_fld]
  have valid : (routeEntry x).getLsbD 8 = decide (2 ^ 63 ≤ x.toNat) := by
    have bit : (fld (routeEntry x) 8 1).getLsbD 0 = (routeEntry x).getLsbD 8 := getLsbD_fld ..
    have sign : x.getLsbD 63 = decide (2 ^ 63 ≤ x.toNat) := x.msb_eq_getLsbD_last.symm.trans x.msb_eq_decide
    rw [← bit, top, sign]
    split <;> simp_all
  have unused : bits x 8 55 = 0 := by
    rw [← toNat_fld, show fld x 8 55 = 0 from BitVec.eq_of_getLsbD_eq fun i inside => ?_]
    · rfl
    have clear : (0x80000000000000FF#64).getLsbD (8 + i) = false := by
      revert i; decide
    rw [getLsbD_fld, ← fits, BitVec.getLsbD_and, clear]
    simp
  have bound := x.isLt
  simp only [Partition.frdatWord, Map.getOr_put_same, dest, valid, flag, decide_eq_true_eq]
  refine BitVec.eq_of_toNat_eq ?_
  rw [BitVec.toNat_ofNat]
  simp only [bits] at unused ⊢
  split <;> omega

end

/-! ## PCAIRN (R413) -/

/-- The mode of a bank under a value of PCAIRN (R413). -/
def cairnMode (x : Word) (b : Nat) (m : BankMode) : BankMode :=
  if b ∈ cairnCover x then .cairn else if m = .cairn then .scratch else m

/-- One bank as a value of PCAIRN sets it. -/
def Cluster.cairnBank (x : Word) (k : Cluster) (b : Nat) : Cluster :=
  if (cairnCover x).contains b then (if k.mode b = .cairn then k else k.switchBank b .cairn)
  else if k.mode b = .cairn then k.switchBank b .scratch else k

theorem Cluster.cairnSwitch_eq (k : Cluster) (x : Word) : k.cairnSwitch x = (List.range 32).foldl (Cluster.cairnBank x) k := rfl

theorem Cluster.mode_switchBank (k : Cluster) (b c : Nat) (m : BankMode) : (k.switchBank b m).mode c = if c = b then m else k.mode c := by
  simp only [Cluster.mode, Cluster.switchBank, Map.getOr_put]
  split <;> rfl

theorem Cluster.mode_cairnBank (x : Word) (k : Cluster) (b c : Nat) :
    (k.cairnBank x b).mode c = if c = b then cairnMode x b (k.mode b) else k.mode c := by
  unfold Cluster.cairnBank cairnMode
  simp only [List.contains_iff_mem]
  by_cases cover : b ∈ cairnCover x
  · rw [if_pos cover, if_pos cover]
    split
    · rename_i cairn
      split
      · rename_i same; rw [same, cairn]
      · rfl
    · exact k.mode_switchBank b c .cairn
  · rw [if_neg cover, if_neg cover]
    split
    · exact k.mode_switchBank b c .scratch
    · split
      · rename_i same; rw [same]
      · rfl

theorem Cluster.mode_cairnSwitch (x : Word) (k : Cluster) {b : Nat} (bank : b < 32) :
    (k.cairnSwitch x).mode b = cairnMode x b (k.mode b) := by
  rw [Cluster.cairnSwitch_eq]
  exact foldl_reaches (A := fun j : Cluster => j.mode b = k.mode b) (B := fun j : Cluster => j.mode b = cairnMode x b (k.mode b))
    (fun j c other same => by rw [Cluster.mode_cairnBank, if_neg (Ne.symm other), same])
    (fun j same => by rw [Cluster.mode_cairnBank, if_pos rfl, same])
    (fun j c other same => by rw [Cluster.mode_cairnBank, if_neg (Ne.symm other), same]) List.nodup_range (List.mem_range.2 bank) rfl

theorem mem_cairnCover {x : Word} {b : Nat} (bank : b < 32) : b ∈ cairnCover x ↔ bits x 0 40 ≠ 0 ∧ 32 - bits x 40 4 ≤ b := by
  unfold cairnCover
  split <;> simp_all [cairnInterval, cairnBanks]

/-- What PCAIRN refuses of a partition's own registers: a roped partition without an interval or an F, and an S without a store (log 69). -/
def Partition.cairnWrong (q : Partition) (store x : Word) : Prop :=
  (q.roped = true ∧ (bits x 0 40 = 0 ∨ bits x 44 12 = 0)) ∨ (bits x 56 8 ≠ 0 ∧ store = 0)

/-- A cluster as the partition has it, where another holds it now. -/
def Chip.ownCluster (h : Chip) (pid v : Nat) : Chip :=
  if h.present pid v then h else { h with clusters := h.clusters.put v ((h.part pid).saved.getOr v {}) }

/-- A bank that a PCAIRN value takes holds live state. -/
def Chip.cairnLive (h : Chip) (pid : Nat) (x : Word) : Bool :=
  (h.part pid).vcns.any fun v => ((List.range 32).filter fun b => decide (32 - cairnBanks x ≤ b)).any fun b =>
    ((h.ownCluster pid v).cluster v).mode b != .cairn && (h.ownCluster pid v).bankLive v b

/-- A cluster with the banks of a PCAIRN value and no cairn yet. -/
def Cluster.freshCairn (x : Word) (k : Cluster) : Cluster :=
  { k.cairnSwitch x with cairn := none, cairnNext := none, inputs := [], inputsNext := [] }

/-- One cluster of the partition takes a value of PCAIRN over. -/
def Chip.freshCluster (pid : Nat) (x : Word) (h : Chip) (v : Nat) : Chip :=
  if h.present pid v then h.modCluster v (Cluster.freshCairn x) else h

/-- The partition takes the value over, its clusters not yet. -/
def Chip.cairnSet (h : Chip) (pid : Nat) (x : Word) : Chip :=
  (h.modPart pid fun q => { q with cairn := x, cairnRefused := false, saved := q.saved.each fun _ => Cluster.freshCairn x }).assignPartners
    pid (h.part pid).vcns

/-- A value of PCAIRN taken over by a partition and its clusters. -/
def Chip.takeCairn (h : Chip) (pid : Nat) (x : Word) : Chip :=
  (h.part pid).vcns.foldl (Chip.freshCluster pid x) (h.cairnSet pid x)

theorem Chip.pcairn_eq (h : Chip) (pid : Nat) (x : Word) : h.pcairn pid x =
    if !(h.part pid).active ∨ h.anyTask pid ∨ 8 < cairnBanks x ∨ h.cairnLive pid x ∨
      (((h.part pid).roped && decide (cairnInterval x = 0 ∨ cairnF x = 0)) || decide (cairnS x ≠ 0 ∧ h.reg 0x4C4 = 0))
    then h.modPart pid fun q => { q with cairnRefused := true } else h.takeCairn pid x := rfl

/-- Partners are a matter of the partition's record alone. -/
theorem Chip.assignPartners_eq (h : Chip) (pid : Nat) (vs : List Nat) : (h.assignPartners pid vs).clusters = h.clusters ∧
    ∃ partners, (h.assignPartners pid vs).part pid = { h.part pid with partners := partners } := by
  refine List.foldlRecOn
    (motive := fun g : Chip => g.clusters = h.clusters ∧ ∃ partners, g.part pid = { h.part pid with partners := partners }) vs _ ⟨rfl, _, rfl⟩ fun g ⟨clusters, partners, part⟩ v _ => ?_
  split
  · exact ⟨clusters, _, by rw [Chip.part_modPart_same, part]⟩
  · exact ⟨clusters, _, by rw [Chip.part_modPart_same, part]⟩

section
variable {h : Chip} {pid v : Nat} {x : Word}

theorem Chip.cluster_cairnSet : (h.cairnSet pid x).cluster v = h.cluster v := by
  simp only [Chip.cluster, Chip.cairnSet, (Chip.assignPartners_eq ..).1, Chip.modPart]

theorem Chip.part_cairnSet : ((h.cairnSet pid x).part pid).cairn = x ∧ ((h.cairnSet pid x).part pid).cairnRefused = false := by
  obtain ⟨-, partners, part⟩ := Chip.assignPartners_eq
    (h.modPart pid fun q => { q with cairn := x, cairnRefused := false, saved := q.saved.each fun _ => Cluster.freshCairn x }) pid (h.part pid).vcns
  rw [Chip.cairnSet, part, Chip.part_modPart_same]
  exact ⟨rfl, rfl⟩

theorem Chip.parts_freshCluster : (h.freshCluster pid x v).parts = h.parts := by
  unfold Chip.freshCluster
  split <;> rfl

theorem Chip.cluster_freshCluster_ne {u : Nat} (other : u ≠ v) : (h.freshCluster pid x v).cluster u = h.cluster u := by
  unfold Chip.freshCluster
  split
  · rw [Chip.cluster_modCluster, if_neg other]
  · rfl

theorem Chip.part_takeCairn : ((h.takeCairn pid x).part pid).cairn = x ∧ ((h.takeCairn pid x).part pid).cairnRefused = false := by
  have parts : (h.takeCairn pid x).parts = (h.cairnSet pid x).parts :=
    List.foldlRecOn (motive := fun g : Chip => g.parts = (h.cairnSet pid x).parts) _ _ rfl fun _ same _ _ => Chip.parts_freshCluster.trans same
  rw [Chip.part_of_parts parts]
  exact Chip.part_cairnSet

theorem Chip.cluster_takeCairn (member : v ∈ (h.part pid).vcns) (present : h.present pid v = true) :
    (h.takeCairn pid x).cluster v = (h.cluster v).freshCairn x := by
  refine foldl_reaches (A := fun g : Chip => g.cluster v = h.cluster v) (B := fun g : Chip => g.cluster v = (h.cluster v).freshCairn x)
    (fun g u other same => (Chip.cluster_freshCluster_ne (Ne.symm other)).trans same) (fun g same => ?_)
    (fun g u other same => (Chip.cluster_freshCluster_ne (Ne.symm other)).trans same) (h.part pid).nodup_vcns member Chip.cluster_cairnSet
  rw [Chip.freshCluster, if_pos ((Chip.present_of_cluster same).trans present), Chip.cluster_modCluster, if_pos rfl, same]

theorem Chip.cairnLive_eq_false (present : ∀ v, (h.part pid).holds v = true → h.present pid v = true)
    (dead : ∀ v b, h.bankLive v b = false) : h.cairnLive pid x = false := by
  refine List.any_eq_false.2 fun v member => ?_
  rw [Chip.ownCluster, if_pos (present v (Partition.mem_vcns.1 member).2)]
  simp [dead]

end
/-! ## Creation and destruction (R388) -/

section
variable {h g : Chip} {pid v : Nat}

/-- Slots set one after another on a core each. -/
theorem Chip.SameButCores.enterDispatcher (h : Chip) (pid v c : Nat) : h.SameButCores (h.enterDispatcher pid v c) := by
  unfold Chip.enterDispatcher
  dsimp only
  split
  · exact .refl h
  · exact .setSlot ..

theorem Chip.SameButCores.leaveDispatcher (h : Chip) (own : Bool) (v : Nat) : h.SameButCores (h.leaveDispatcher own v) := by
  unfold Chip.leaveDispatcher
  split
  · exact List.foldlRecOn (motive := h.SameButCores) _ _ (.refl h) fun _ same _ _ => same.trans (.setSlot ..)
  · exact .refl h

/-- The thread of a partition's own dispatcher (R139, R421). -/
def ownDispatcherOf (pid v c : Nat) (pc : Word) : Thread := { dispatcher v c with pc := pc, pid := pid }

theorem Chip.enterDispatcher_of_own (own : (h.part pid).disp ≠ 0) (c : Nat) :
    h.enterDispatcher pid v c = h.setSlot ⟨v, c, 0⟩ (.live (ownDispatcherOf pid v c (h.part pid).disp)) := if_neg own

/-- The cluster with the partition's screening and no handler, its dispatchers not yet entered. -/
def Chip.granted (h : Chip) (pid v : Nat) : Chip :=
  h.modCluster v fun k => { k with pid := some pid, screen := (h.part pid).screen, checked := (h.part pid).checked, handlers := [] }

theorem Chip.giveCluster_eq (h : Chip) (pid v : Nat) :
    h.giveCluster pid v = (List.range 8).foldl (fun g c => g.enterDispatcher pid v c) (h.granted pid v) := rfl

theorem Chip.SameButCores.giveCluster (h : Chip) (pid v : Nat) : (h.granted pid v).SameButCores (h.giveCluster pid v) :=
  List.foldlRecOn (motive := (h.granted pid v).SameButCores) _ _ (.refl _) fun _ same _ _ => same.trans (.enterDispatcher ..)

theorem Chip.parts_giveCluster : (h.giveCluster pid v).parts = h.parts := (Chip.SameButCores.giveCluster h pid v).parts

theorem Chip.cluster_giveCluster_ne {u : Nat} (other : u ≠ v) : (h.giveCluster pid v).cluster u = h.cluster u := by
  have granted : (h.granted pid v).cluster u = h.cluster u := by rw [Chip.granted, Chip.cluster_modCluster, if_neg other]
  refine List.foldlRecOn (motive := fun g : Chip => g.cluster u = h.cluster u) _ _ granted fun g same c _ => ?_
  unfold Chip.enterDispatcher
  dsimp only
  split
  · exact same
  · exact (Chip.cluster_setSlot_ne _ (by exact other) _).trans same

/-- What a created partition has of a cluster: its own screening, no handler, and its own dispatcher where it has one (R388). -/
structure Chip.GivenTo (g : Chip) (pid : Nat) (q : Partition) (v : Nat) : Prop where
  holder : (g.cluster v).pid = some pid
  screen : (g.cluster v).screen = q.screen
  checked : (g.cluster v).checked = q.checked
  handlers : (g.cluster v).handlers = []
  dispatcher : q.disp ≠ 0 → ∀ c, c < 8 → g.slot ⟨v, c, 0⟩ = .live (ownDispatcherOf pid v c q.disp)

theorem Chip.GivenTo.of_cluster {q : Partition} (given : h.GivenTo pid q v) (same : g.cluster v = h.cluster v) : g.GivenTo pid q v where
  holder := same ▸ given.holder
  screen := same ▸ given.screen
  checked := same ▸ given.checked
  handlers := same ▸ given.handlers
  dispatcher own c core := (Chip.slot_of_cluster (p := ⟨v, c, 0⟩) same).trans (given.dispatcher own c core)

theorem Chip.slot_giveCluster (own : (h.part pid).disp ≠ 0) {c : Nat} (core : c < 8) :
    (h.giveCluster pid v).slot ⟨v, c, 0⟩ = .live (ownDispatcherOf pid v c (h.part pid).disp) := by
  have apart {d : Nat} (other : d ≠ c) : (⟨v, c, 0⟩ : At) ≠ ⟨v, d, 0⟩ := fun same => other (congrArg At.c same).symm
  have parts (g : Chip) (d : Nat) (same : g.parts = h.parts) : (g.enterDispatcher pid v d).parts = h.parts :=
    (Chip.SameButCores.enterDispatcher ..).parts.trans same
  have enters (g : Chip) (d : Nat) (same : g.parts = h.parts) :
      g.enterDispatcher pid v d = g.setSlot ⟨v, d, 0⟩ (.live (ownDispatcherOf pid v d (h.part pid).disp)) := by
    have part := Chip.part_of_parts same pid
    rw [Chip.enterDispatcher_of_own (part ▸ own), part]
  rw [Chip.giveCluster_eq]
  refine (foldl_reaches (f := fun g c => g.enterDispatcher pid v c) (A := fun g : Chip => g.parts = h.parts)
    (B := fun g : Chip => g.parts = h.parts ∧ g.slot ⟨v, c, 0⟩ = .live (ownDispatcherOf pid v c (h.part pid).disp))
    (fun g d _ same => parts g d same) (fun g same => ⟨parts g c same, ?_⟩) (fun g d other ⟨same, slot⟩ => ⟨parts g d same, ?_⟩)
    List.nodup_range (List.mem_range.2 core) (show (h.granted pid v).parts = h.parts from rfl)).2
  · rw [enters g c same, Chip.slot_setSlot_same]
  · rw [enters g d same, Chip.slot_setSlot, if_neg (apart other), slot]

theorem Chip.givenTo_giveCluster : (h.giveCluster pid v).GivenTo pid (h.part pid) v := by
  obtain ⟨_, cluster⟩ := (Chip.SameButCores.giveCluster h pid v).cluster v
  rw [Chip.granted, Chip.cluster_modCluster, if_pos rfl] at cluster
  exact ⟨by rw [cluster], by rw [cluster], by rw [cluster], by rw [cluster], fun own _ core => Chip.slot_giveCluster own core⟩

/-- The clusters of a list given to a partition. -/
def Chip.giveClusters (h : Chip) (pid : Nat) (vs : List Nat) : Chip := vs.foldl (fun h v => h.giveCluster pid v) h

theorem Chip.parts_giveClusters (vs : List Nat) : (h.giveClusters pid vs).parts = h.parts :=
  List.foldlRecOn (motive := fun g : Chip => g.parts = h.parts) vs _ rfl fun _ same _ _ => Chip.parts_giveCluster.trans same

theorem Chip.givenTo_giveClusters {vs : List Nat} (distinct : vs.Nodup) (member : v ∈ vs) :
    (h.giveClusters pid vs).GivenTo pid (h.part pid) v :=
  foldl_reaches (A := fun g : Chip => g.parts = h.parts) (B := fun g : Chip => g.GivenTo pid (h.part pid) v)
    (fun _ _ _ same => Chip.parts_giveCluster.trans same)
    (fun _ same => Chip.part_of_parts same pid ▸ Chip.givenTo_giveCluster)
    (fun _ _ other given => given.of_cluster (Chip.cluster_giveCluster_ne (Ne.symm other))) distinct member rfl

end

section
variable {s : State} {pid : Nat}

theorem exec_partitionCreate (pid : Nat) (s : State) : exec (.partitionCreate pid) s = .next (s.createPartition pid) := rfl

theorem becomes_partitionCreate_refused (refused : s.chip.mayCreate pid = false) :
    Becomes (.partitionCreate pid) s (s.chip.modPart pid fun q => { q with refused := true }) := by
  rw [Becomes, exec_partitionCreate, State.createPartition]
  simp [refused]

/-- A partition with clusters of its own takes them at its creation. -/
theorem becomes_partitionCreate (created : s.chip.mayCreate pid = true) (alone : s.chip.sharers pid = []) :
    Becomes (.partitionCreate pid) s ((s.chip.modPart pid fun q => q.created s.gradeWord false).giveClusters pid (s.chip.part pid).vcns) := by
  rw [Becomes, exec_partitionCreate, State.createPartition]
  simp [created, alone, Partition.created, Partition.vcns, Chip.giveClusters]

end

section
variable {h : Chip} {pid v : Nat}

/-- A cluster taken from its partition (R388). -/
def Chip.takeAway (pid : Nat) (own : Bool) (h : Chip) (v : Nat) : Chip :=
  if h.present pid v then (h.modCluster v fun k => { k.cairnSwitch 0 with pid := none }).leaveDispatcher own v else h

theorem Chip.cluster_takeAway_ne {own : Bool} {u : Nat} (other : u ≠ v) : (h.takeAway pid own v).cluster u = h.cluster u := by
  unfold Chip.takeAway
  split
  · have cleared : (h.modCluster v fun k => { k.cairnSwitch 0 with pid := none }).cluster u = h.cluster u := by
      rw [Chip.cluster_modCluster, if_neg other]
    unfold Chip.leaveDispatcher
    split
    · exact List.foldlRecOn (motive := fun g : Chip => g.cluster u = h.cluster u) _ _ cleared fun g same c _ =>
        (Chip.cluster_setSlot_ne _ (by exact other) _).trans same
    · exact cleared
  · rfl

theorem Chip.pid_takeAway {own : Bool} (present : h.present pid v = true) : ((h.takeAway pid own v).cluster v).pid = none := by
  obtain ⟨_, cluster⟩ := (Chip.SameButCores.leaveDispatcher (h.modCluster v fun k => { k.cairnSwitch 0 with pid := none }) own v).cluster v
  rw [Chip.takeAway, if_pos present, cluster, Chip.cluster_modCluster, if_pos rfl]

/-- The lines, images and dispatch points of a destroyed partition are no longer kept (R388). -/
def Chip.forgets (h : Chip) (pid : Nat) : Chip :=
  { h with
    upper := h.upper.map fun e => if e.pid = pid then { e with pinned := false } else e
    images := (h.images.erase (2 * pid)).erase (2 * pid + 1), older := h.older.erase pid, atPoints := h.atPoints.erase pid }

theorem Chip.cluster_forgets : (h.forgets pid).cluster v = h.cluster v := rfl

/-- The chip once a partition is destroyed (R388). -/
def Chip.destroyed (h : Chip) (pid : Nat) : Chip :=
  (((h.part pid).vcns.foldl (Chip.takeAway pid (decide ((h.part pid).disp ≠ 0))) h).forgets pid).modPart pid
    fun q => { q with active := false, refused := false, saved := [], halted := false, off := false }

theorem Chip.destroyPartition_eq (h : Chip) (pid : Nat) : h.destroyPartition pid =
    if !h.mayDestroy pid then h.modPart pid fun q => { q with refused := true } else h.destroyed pid := rfl

theorem Chip.cluster_destroyed : (h.destroyed pid).cluster v =
    ((h.part pid).vcns.foldl (Chip.takeAway pid (decide ((h.part pid).disp ≠ 0))) h).cluster v := by
  rw [Chip.destroyed, Chip.cluster_modPart, Chip.cluster_forgets]

theorem Chip.pid_destroyed (member : v ∈ (h.part pid).vcns) (present : h.present pid v = true) :
    ((h.destroyed pid).cluster v).pid = none := by
  rw [Chip.cluster_destroyed]
  exact foldl_reaches (f := Chip.takeAway pid (decide ((h.part pid).disp ≠ 0))) (A := fun g : Chip => g.cluster v = h.cluster v)
    (B := fun g : Chip => (g.cluster v).pid = none)
    (fun g u other same => (Chip.cluster_takeAway_ne (Ne.symm other)).trans same)
    (fun g same => Chip.pid_takeAway ((Chip.present_of_cluster same).trans present))
    (fun g u other none_ => by rwa [Chip.cluster_takeAway_ne (Ne.symm other)]) (h.part pid).nodup_vcns member rfl

end

/-! ## Pre-emption and resume (R385, R413) -/

section
variable {h : Chip} {pid v : Nat}

/-- A cluster of a partition vacated, where the partition holds it. -/
def Chip.vacateHeld (pid : Nat) (h : Chip) (v : Nat) : Chip := if h.present pid v then h.vacateCluster v else h

theorem Chip.cluster_vacateHeld_ne {u : Nat} (other : u ≠ v) : (h.vacateHeld pid v).cluster u = h.cluster u := by
  unfold Chip.vacateHeld
  split
  · exact Chip.cluster_vacateCluster_ne _ _ other
  · rfl

/-- The chip once a partition is vacated. -/
def Chip.preempted (h : Chip) (pid : Nat) : Chip :=
  ((h.part pid).vcns.foldl (Chip.vacateHeld pid) h).modPart pid fun q => { q with off := true }

theorem Chip.partitionPreempt_eq (h : Chip) (pid : Nat) : h.partitionPreempt pid =
    if !(h.part pid).active ∨ (h.part pid).off then h else h.preempted pid := rfl

theorem Chip.RunsAt.of_cluster {g : Chip} {p : At} {x : Thread} (runs : h.RunsAt p x) (same : g.cluster p.v = h.cluster p.v) : g.RunsAt p x := by
  obtain ⟨live, running⟩ := runs
  exact ⟨(Chip.slot_of_cluster same).trans live, by rwa [Chip.core, same]⟩

/-- Every thread that runs in slots 1 to 15 of a cluster that the partition holds is saved. -/
theorem Chip.RunsAt.savedFrom_preempted {p : At} {x : Thread} (runs : h.RunsAt p x) (member : p.v ∈ (h.part pid).vcns)
    (present : h.present pid p.v = true) (core : p.c < 8) (slot : 0 < p.t ∧ p.t < 16) : (h.preempted pid).SavedFrom p x := by
  refine Chip.SavedFrom.of_cluster (h := (h.part pid).vcns.foldl (Chip.vacateHeld pid) h) ?_ (Chip.cluster_modPart ..)
  refine foldl_reaches (f := Chip.vacateHeld pid) (A := fun g : Chip => g.cluster p.v = h.cluster p.v) (B := (Chip.SavedFrom · p x))
    (fun g u other same => (Chip.cluster_vacateHeld_ne (Ne.symm other)).trans same) (fun g same => ?_)
    (fun g u other saved => saved.of_cluster (Chip.cluster_vacateHeld_ne (Ne.symm other))) (h.part pid).nodup_vcns member rfl
  rw [Chip.vacateHeld, if_pos ((Chip.present_of_cluster same).trans present)]
  exact (runs.of_cluster same).savedFrom_vacateCluster core slot

/-- A cluster that the partition holds stays as it is when the partition's other clusters are swapped in. -/
theorem Chip.cluster_swapIn_of_held (held : (h.cluster v).pid = some pid) (u : Nat) : (h.swapIn pid u).cluster v = h.cluster v := by
  by_cases same : u = v
  · subst u
    unfold Chip.swapIn
    dsimp only
    rw [held]
    dsimp only
    rw [if_pos rfl]
  · have put (g : Chip) (k : Cluster) : Chip.cluster { g with clusters := g.clusters.put u k } v = g.cluster v := by
      simp only [Chip.cluster, Map.getOr_put, if_neg (Ne.symm same)]
    unfold Chip.swapIn
    dsimp only
    split
    · split
      · rfl
      · split
        · exact put _ _
        · exact (Chip.cluster_giveCluster_ne (Ne.symm same)).trans (put _ _)
    · split
      · exact put _ _
      · exact Chip.cluster_giveCluster_ne (Ne.symm same)

/-- The chip once a vacated partition is resumed. -/
def Chip.resumed (h : Chip) (pid : Nat) : Chip :=
  ((h.part pid).vcns.foldl (fun h v => h.swapIn pid v) h).modPart pid fun q => { q with off := false }

theorem Chip.partitionResume_eq (h : Chip) (pid : Nat) : h.partitionResume pid = if !h.mayResume pid then h else h.resumed pid := rfl

theorem Chip.cluster_resumed_of_held (held : (h.cluster v).pid = some pid) : (h.resumed pid).cluster v = h.cluster v := by
  rw [Chip.resumed, Chip.cluster_modPart]
  exact List.foldlRecOn (motive := fun g : Chip => g.cluster v = h.cluster v) (h.part pid).vcns (fun h v => h.swapIn pid v) rfl fun g same u _ =>
    (Chip.cluster_swapIn_of_held (same ▸ held) u).trans same

end
section
variable {s : State} {pid : Nat} {x : Word}

theorem exec_pcairnWrite (pid : Nat) (x : BitVec 64) (s : State) :
    exec (.pcairnWrite pid x) s = .next { s with chip := s.chip.pcairn pid x } := rfl

theorem exec_partitionDestroy (pid : Nat) (s : State) :
    exec (.partitionDestroy pid) s = .next { s with chip := s.chip.destroyPartition pid } := rfl

theorem exec_partitionPreempt (pid : Nat) (s : State) :
    exec (.partitionPreempt pid) s = .next { s with chip := s.chip.partitionPreempt pid } := rfl

theorem exec_partitionResume (pid : Nat) (s : State) :
    exec (.partitionResume pid) s = .next { s with chip := s.chip.partitionResume pid } := rfl

/-! ## The commands by their conditions -/

theorem Partition.cairnWrong_iff {q : Partition} {store : Word} : q.cairnWrong store x ↔
    ((q.roped && decide (cairnInterval x = 0 ∨ cairnF x = 0)) || decide (cairnS x ≠ 0 ∧ store = 0)) = true := by
  rw [Bool.or_eq_true, Bool.and_eq_true, decide_eq_true_eq, decide_eq_true_eq]
  rfl

theorem becomes_pcairnWrite_refused (refused : (s.chip.part pid).active = false ∨ s.chip.anyTask pid = true ∨ 8 < bits x 40 4 ∨
    (s.chip.part pid).cairnWrong (s.chip.reg 0x4C4) x) :
    Becomes (.pcairnWrite pid x) s (s.chip.modPart pid fun q => { q with cairnRefused := true }) := by
  rw [Becomes, exec_pcairnWrite, Chip.pcairn_eq, if_pos]
  obtain inactive | task | wide | wrong := refused
  · simp [inactive]
  · simp [task]
  · simp [cairnBanks, wide]
  · exact .inr (.inr (.inr (.inr (Partition.cairnWrong_iff.1 wrong))))

theorem becomes_pcairnWrite (active : (s.chip.part pid).active = true) (idle : s.chip.anyTask pid = false) (narrow : bits x 40 4 ≤ 8)
    (right : ¬ (s.chip.part pid).cairnWrong (s.chip.reg 0x4C4) x) (dead : s.chip.cairnLive pid x = false) :
    Becomes (.pcairnWrite pid x) s (s.chip.takeCairn pid x) := by
  rw [Becomes, exec_pcairnWrite, Chip.pcairn_eq, if_neg]
  have banks : ¬ 8 < cairnBanks x := Nat.not_lt.2 narrow
  rintro (off | task | wide | live | wrong)
  · simp [active] at off
  · simp [idle] at task
  · exact banks wide
  · simp [dead] at live
  · exact right (Partition.cairnWrong_iff.2 wrong)

theorem becomes_partitionDestroy_refused (refused : s.chip.mayDestroy pid = false) :
    Becomes (.partitionDestroy pid) s (s.chip.modPart pid fun q => { q with refused := true }) := by
  simp [Becomes, exec_partitionDestroy, Chip.destroyPartition_eq, refused]

theorem becomes_partitionDestroy (granted : s.chip.mayDestroy pid = true) : Becomes (.partitionDestroy pid) s (s.chip.destroyed pid) := by
  simp [Becomes, exec_partitionDestroy, Chip.destroyPartition_eq, granted]

theorem partitionPreempt_ignored (absent : (s.chip.part pid).active = false ∨ (s.chip.part pid).off = true) :
    Ignored (.partitionPreempt pid) s := by
  rw [Ignored, exec_partitionPreempt, Chip.partitionPreempt_eq, if_pos (by simpa using absent)]

theorem becomes_partitionPreempt (active : (s.chip.part pid).active = true) (runs : (s.chip.part pid).off = false) :
    Becomes (.partitionPreempt pid) s (s.chip.preempted pid) := by
  rw [Becomes, exec_partitionPreempt, Chip.partitionPreempt_eq, if_neg (by simp [active, runs])]

theorem partitionResume_ignored (barred : s.chip.mayResume pid = false) : Ignored (.partitionResume pid) s := by
  rw [Ignored, exec_partitionResume, Chip.partitionResume_eq, if_pos (by simp [barred])]

theorem becomes_partitionResume (free : s.chip.mayResume pid = true) : Becomes (.partitionResume pid) s (s.chip.resumed pid) := by
  rw [Becomes, exec_partitionResume, Chip.partitionResume_eq, if_neg (by simp [free])]

/-! ## What the commands leave -/

theorem fld_zero_32 (x : Word) : fld x 0 32 = BitVec.ofNat 32 x.toNat := by
  refine BitVec.eq_of_toNat_eq ?_
  rw [toNat_fld, BitVec.toNat_ofNat, bits]
  simp

theorem Cluster.handler_put (k : Cluster) (n m : Nat) (entry : Handler) :
    Cluster.handler { k with handlers := k.handlers.put n entry } m = if m = n then entry else k.handler m := by
  simp only [Cluster.handler, Map.getOr_put]

theorem Chip.part_giveClusters_created (h : Chip) (grade : Word) (vs : List Nat) :
    ((h.modPart pid fun q => q.created grade false).giveClusters pid vs).part pid = (h.part pid).created grade false := by
  rw [Chip.part_of_parts (Chip.parts_giveClusters vs), Chip.part_modPart_same]

theorem Chip.givenTo_created (h : Chip) (grade : Word) {v : Nat} (member : v ∈ (h.part pid).vcns) :
    ((h.modPart pid fun q => q.created grade false).giveClusters pid (h.part pid).vcns).GivenTo pid ((h.part pid).created grade false) v := by
  have given := Chip.givenTo_giveClusters (h := h.modPart pid fun q => q.created grade false) (pid := pid) (h.part pid).nodup_vcns member
  rwa [Chip.part_modPart_same] at given

theorem Chip.mode_takeCairn {h : Chip} {v b : Nat} (member : v ∈ (h.part pid).vcns) (present : h.present pid v = true) (bank : b < 32) :
    ((h.takeCairn pid x).cluster v).mode b = if bits x 0 40 ≠ 0 ∧ 32 - bits x 40 4 ≤ b then .cairn
      else if (h.cluster v).mode b = .cairn then .scratch else (h.cluster v).mode b := by
  rw [Chip.cluster_takeCairn member present]
  change ((h.cluster v).cairnSwitch x).mode b = _
  rw [Cluster.mode_cairnSwitch x _ bank, cairnMode]
  simp only [mem_cairnCover bank]

end

end Sys2Proof.Machine

open Sys2Proof Sys2Proof.Machine

/-- Settles O52: each command by its conditions (`becomes_…`, `…_ignored`), and what the sweep over the partition's distinct clusters brings
about in the cluster of its turn (`foldl_reaches`). -/
theorem partitionControls : Obligations.PartitionControls := by
  unfold Obligations.PartitionControls
  refine ⟨fun s v x => ⟨scrcfgWrite_ignored, fun good => ?scrcfg⟩, fun s v x => ⟨hndcfgWrite_ignored, fun good => ?hndcfg⟩,
    fun s pid x => ⟨fun refused => ?pcairnRefused, fun _ wrong => ?pcairnWrong, fun active idle narrow right present dead => ?pcairn⟩,
    fun s pid x => ⟨frdatWrite_ignored, fun good => ?frdat⟩,
    fun s pid => ⟨becomes_partitionCreate_refused, fun created alone => ?create⟩,
    fun s pid => ⟨becomes_partitionDestroy_refused, fun granted => ?destroy⟩,
    fun s pid => ⟨partitionPreempt_ignored, fun active runs => ?preempt, partitionResume_ignored, fun free => ?resume⟩⟩
  case scrcfg => exact ⟨_, becomes_scrcfgWrite good, by rw [Chip.cluster_modCluster, if_pos rfl]⟩
  case hndcfg =>
    refine ⟨_, becomes_hndcfgWrite good, ?_, fun n other => ?_⟩ <;> rw [Chip.cluster_modCluster, if_pos rfl, Cluster.handler_put]
    · rw [if_pos rfl, fld_zero_32]
    · rw [if_neg other]
  case pcairnRefused =>
    refine ⟨_, becomes_pcairnWrite_refused ?_, Chip.part_modPart_same .., fun v => rfl⟩
    exact refused.imp_right (Or.imp_right .inl)
  case pcairnWrong =>
    refine ⟨_, becomes_pcairnWrite_refused (.inr (.inr (.inr wrong))), ?_⟩
    rw [Chip.part_modPart_same]
    exact ⟨rfl, rfl⟩
  case pcairn =>
    obtain ⟨value, accepted⟩ := Chip.part_takeCairn (h := s.chip) (pid := pid) (x := x)
    refine ⟨_, becomes_pcairnWrite active idle narrow right (Chip.cairnLive_eq_false present dead), value, accepted,
      fun v b vcn holds here bank => ?_⟩
    exact Chip.mode_takeCairn (Partition.mem_vcns.2 ⟨vcn, holds⟩) here bank
  case frdat =>
    refine ⟨_, becomes_frdatWrite good, ?_⟩
    rw [Chip.part_modPart_same]
    exact frdatWord_routeEntry _ _ (not_not.1 (not_or.1 good).1)
  case create =>
    refine ⟨_, becomes_partitionCreate created alone, ?_, fun v vcn holds => ?_⟩
    · rw [Chip.part_giveClusters_created]
      exact ⟨rfl, rfl, rfl, rfl, rfl, rfl, rfl, rfl, rfl⟩
    · obtain ⟨holder, screen, checked, handlers, dispatcher⟩ := s.chip.givenTo_created s.gradeWord (Partition.mem_vcns.2 ⟨vcn, holds⟩)
      exact ⟨holder, screen, checked, handlers, fun own c core => ⟨_, dispatcher own c core, rfl, rfl, rfl⟩⟩
  case destroy =>
    refine ⟨_, becomes_partitionDestroy granted, ?_, fun v vcn holds present =>
      Chip.pid_destroyed (Partition.mem_vcns.2 ⟨vcn, holds⟩) present⟩
    rw [Chip.destroyed, Chip.part_modPart_same]
  case preempt =>
    refine ⟨_, becomes_partitionPreempt active runs, ?_, fun v c t x vcn core first last holds present running live => ?_⟩
    · rw [Chip.preempted, Chip.part_modPart_same]
    · have runs : s.chip.RunsAt ⟨v, c, t⟩ x := ⟨live, running⟩
      exact runs.savedFrom_preempted (Partition.mem_vcns.2 ⟨vcn, holds⟩) present core ⟨first, last⟩
  case resume =>
    refine ⟨_, becomes_partitionResume free, ?_, fun v held => Chip.cluster_resumed_of_held held⟩
    rw [Chip.resumed, Chip.part_modPart_same]

end

section
/-! PROOFS. The family 09, vector commands: the elements of a context, and what the run of each form gives (R208, R210). -/

namespace Sys2Proof.Machine

/-! ## The elements of a context (R198) -/

section
variable (v : Map Half) (n : Nat) (f : Nat → Option Half)

/-- One element of vN written where `f` gives it a value. -/
def vput (v : Map Half) (y : Nat) : Map Half :=
  match f y with
  | some x => v.put (64 * n + y) x
  | none => v

theorem vget_vput_same (e : Nat) : vget (vput n f v e) n e = (f e).getD (vget v n e) := by
  unfold vput
  cases f e <;> simp [vget]

theorem vget_vput_ne {m e y : Nat} (other : 64 * m + e ≠ 64 * n + y) : vget (vput n f v y) m e = vget v m e := by
  unfold vput
  cases f y with
  | none => rfl
  | some x => exact Map.getOr_put_ne _ _ _ other

/-- A register written element by element: each element reads its value, the other registers stay. -/
theorem vget_vset (m : Nat) {e : Nat} (element : e < 64) :
    vget (vset v n f) m e = if m = n then (f e).getD (vget v n e) else vget v m e := by
  split
  · subst m
    exact foldl_reaches (f := vput n f) (A := fun u => vget u n e = vget v n e) (B := fun u => vget u n e = (f e).getD (vget v n e))
      (fun u y other same => (vget_vput_ne u n f (by omega)).trans same) (fun u same => same ▸ vget_vput_same u n f e)
      (fun u y other same => (vget_vput_ne u n f (by omega)).trans same) List.nodup_range (List.mem_range.2 element) rfl
  · exact List.foldlRecOn (motive := fun u => vget u m e = vget v m e) (List.range 64) (vput n f) rfl fun u same y listed =>
      (vget_vput_ne u n f (by have := List.mem_range.1 listed; omega)).trans same

/-- The same where the elements without a value are those outside the mask. -/
theorem vget_vset_masked (mask : Word) (x : Nat → Half) {e : Nat} (element : e < 64) :
    vget (vset v n fun e => if mask.getLsbD e then some (x e) else none) n e = if mask.getLsbD e then x e else vget v n e := by
  rw [vget_vset _ _ _ _ element, if_pos rfl]
  split <;> rfl

theorem vget_vectorMap (mask : Word) (op : Nat → Nat × BitVec 5) (m : Nat) {e : Nat} (element : e < 64) :
    vget (vectorMap v mask n op).1 m e =
      if m = n ∧ mask.getLsbD e = true then BitVec.ofNat 32 (op e).1 else vget v m e := by
  rw [vectorMap, vget_vset _ _ _ _ element]
  by_cases same : m = n
  · have listed : (List.range 64)[e]? = some e := by simp [element]
    rw [if_pos same, List.getD_eq_getElem?_getD, List.getElem?_map, listed]
    simp only [Option.map_some, Option.getD_some, same, true_and]
    split <;> rfl
  · simp [same]

theorem vreg_getD {e : Nat} (element : e < 64) (d : Half) : (vreg v n).getD e d = vget v n e := by
  simp [vreg, element]

end

/-! ## The fields of a vector word (R34) -/

section
variable {w : Half} {op vfn : BitVec 6} {vd va vb gp fn : BitVec 5} {d : BitVec 7} {ahead : BitVec 4}

/-- A word holds these fields of the V format. -/
structure VFields (w : Half) (op vfn : BitVec 6) (vd va vb : BitVec 5) : Prop where
  major : major w = op.toNat
  fn : vFn w = vfn.toNat
  d : vD w = vd.toNat
  a : vA w = va.toNat
  b : vB w = vb.toNat

/-- A word holds these fields of the VS format. -/
structure VsFields (w : Half) (op : BitVec 6) (fn va vb : BitVec 5) : Prop where
  major : major w = op.toNat
  fn : vsFn w = fn.toNat
  a : vsA w = va.toNat
  b : vsB w = vb.toNat

theorem VFields.of_wordV (word : w = wordV op vfn vd va vb gp) : VFields w op vfn vd va vb := by
  obtain ⟨op, fn, d, a, b, -⟩ := wordV_eq_iff.1 word.symm
  exact ⟨congrArg BitVec.toNat op, by rw [vFn, ← toNat_fld, fn], by rw [vD, ← toNat_fld, d], by rw [vA, ← toNat_fld, a],
    by rw [vB, ← toNat_fld, b]⟩

theorem VsFields.of_wordVS (word : w = wordVS op d va vb fn ahead) : VsFields w op fn va vb := by
  obtain ⟨op, -, a, b, fn, -⟩ := wordVS_eq_iff.1 word.symm
  exact ⟨congrArg BitVec.toNat op, by rw [vsFn, ← toNat_fld, fn], by rw [vsA, ← toNat_fld, a], by rw [vsB, ← toNat_fld, b]⟩

end

/-! ## The run of a form (R208) -/

section
variable {h : Chip} {t : Thread} {v : Nat} {regs : Map Half} {q : VCmd} {vfn : BitVec 6} {vd va vb fn : BitVec 5}

theorem vectorRun_vf (fields : VFields q.op.word 40#6 vfn vd va vb) : ∃ fl, h.vectorRun t v regs q =
    .ok (⟨(vectorMap regs q.mask vd.toNat fun e => vfElem vfn.toNat (rndOf q.op.frm) (vget regs va.toNat e).toNat
      (vget regs vb.toNat e).toNat (vget regs vd.toNat e).toNat).1, 0, fl⟩, h) := by
  have major : Machine.major q.op.word = 0x28 := fields.major
  exact ⟨_, by simp only [Chip.vectorRun, major, fields.fn, fields.d, fields.a, fields.b]; rfl⟩

/-- What a form of VI makes of a context (R216). -/
def integerResult (regs : Map Half) (mask : Word) (n d a b : Nat) : Map Half :=
  vset regs d fun e => if mask.getLsbD e then some (viElem n (vget regs a e) (vget regs b e)) else none

theorem vget_integerResult (mask : Word) (n d a b m : Nat) {e : Nat} (element : e < 64) : vget (integerResult regs mask n d a b) m e =
    if m = d ∧ mask.getLsbD e = true then viElem n (vget regs a e) (vget regs b e) else vget regs m e := by
  rw [integerResult, vget_vset _ _ _ _ element]
  by_cases same : m = d
  · simp only [same, if_true, true_and]
    split <;> rfl
  · simp only [same, if_false, false_and]

theorem vectorRun_vi (fields : VFields q.op.word 41#6 vfn vd va vb) : h.vectorRun t v regs q =
    .ok (⟨integerResult regs q.mask vfn.toNat vd.toNat va.toNat vb.toNat, 0, 0⟩, h) := by
  have major : Machine.major q.op.word = 0x29 := fields.major
  simp only [Chip.vectorRun, major, fields.fn, fields.d, fields.a, fields.b]
  rfl

theorem vectorRun_vp (fields : VFields q.op.word 43#6 vfn vd va vb) (moves : vfn.toNat < 16) : h.vectorRun t v regs q =
    .ok (⟨vpRun vfn.toNat regs q.mask q.scalar vd.toNat va.toNat vb.toNat, 0, 0⟩, h) := by
  have major : Machine.major q.op.word = 0x2B := fields.major
  simp only [Chip.vectorRun, major, fields.fn, fields.d, fields.a, fields.b, if_pos moves]

theorem vectorRun_vs (fields : VsFields q.op.word 44#6 fn va vb) (other : fn.toNat ≠ 12) : h.vectorRun t v regs q =
    .ok (⟨regs, (vsRun fn.toNat regs va.toNat vb.toNat).1, (vsRun fn.toNat regs va.toNat vb.toNat).2⟩, h) := by
  have major : Machine.major q.op.word = 0x2C := fields.major
  simp only [Chip.vectorRun, major, fields.fn, fields.a, fields.b, if_neg other]

theorem vectorRun_vibres_ok (fields : VsFields q.op.word 44#6 12#5 va vb) {r : Nat × BitVec 5}
    (result : ibResidual (vreg regs va.toNat) (vreg regs vb.toNat) = .ok r) :
    h.vectorRun t v regs q = .ok (⟨regs, BitVec.ofNat 64 r.1, r.2⟩, h) := by
  have major : Machine.major q.op.word = 0x2C := fields.major
  have form : vsFn q.op.word = 12 := fields.fn
  simp only [Chip.vectorRun, major, form, fields.a, fields.b, if_true, result]

theorem vectorRun_vibres_error (fields : VsFields q.op.word 44#6 12#5 va vb) {e : Trap × Word}
    (result : ibResidual (vreg regs va.toNat) (vreg regs vb.toNat) = .error e) :
    h.vectorRun t v regs q = .error (.fault e.1 e.2) := by
  have major : Machine.major q.op.word = 0x2C := fields.major
  have form : vsFn q.op.word = 12 := fields.fn
  simp only [Chip.vectorRun, major, form, fields.a, fields.b, if_true, result]

end

/-! ## Element by element (R210, R214, R216) -/

section
variable {i : Instr} {vfn : BitVec 6} {vd va vb gp : BitVec 5} {f : Rnd → Half → Half → Half → Half}

theorem Elementwise.of_vf (word : wordOf i = wordV 40#6 vfn vd va vb gp)
    (value : ∀ r (x y z : Half), BitVec.ofNat 32 (vfElem vfn.toNat r x.toNat y.toNat z.toNat).1 = f r x y z) : Elementwise i vd va vb f := by
  intro h t v regs q holds
  obtain ⟨fl, run⟩ := vectorRun_vf (h := h) (t := t) (v := v) (regs := regs) (.of_wordV (holds.trans word))
  refine ⟨_, run, fun n e element => ?_⟩
  rw [vget_vectorMap _ _ _ _ _ element, value]

theorem Elementwise.of_vi (word : wordOf i = wordV 41#6 vfn vd va vb gp)
    (value : ∀ r (x y z : Half), viElem vfn.toNat x y = f r x y z) : Elementwise i vd va vb f := by
  intro h t v regs q holds
  refine ⟨_, vectorRun_vi (.of_wordV (holds.trans word)), fun n e element => ?_⟩
  rw [← value, vget_integerResult _ _ _ _ _ _ element]

theorem bits_low_five (y : Half) : bits y 0 5 = y.toNat % 32 := by simp [bits]

/-- A shift right that keeps the sign divides and rounds down. -/
theorem ofInt_toInt_div (x : Half) (s : Nat) : BitVec.ofInt 32 (x.toInt / 2 ^ s) = x.sshiftRight s := by
  rw [BitVec.sshiftRight, Int.shiftRight_eq_div_pow]
  norm_cast

end

end Sys2Proof.Machine
end

section
/-! PROOFS. The family 09, vector commands: FP32 patterns by their classes, and the data movement of VP (R87, R220, R221). -/

namespace Sys2Proof.Machine

/-! ## The classes of FP32 patterns (R87, R88) -/

section
variable {x : Half}

/-- The pattern of a zero, and of an infinity. -/
def zeroHalf (neg : Bool) : Half := if neg then 0x80000000#32 else 0#32
def infHalf (neg : Bool) : Half := if neg then 0xFF800000#32 else 0x7F800000#32

theorem toNat_zeroHalf (neg : Bool) : (zeroHalf neg).toNat = if neg then 2 ^ 31 else 0 := by cases neg <;> rfl

theorem toNat_infHalf (neg : Bool) : (infHalf neg).toNat = if neg then 2 ^ 31 + 0x7F800000 else 0x7F800000 := by cases neg <;> rfl

theorem fp32_decode_eq (n : Nat) : fp32.decode n =
    if n / 8388608 % 256 = 255 then
      if n % 8388608 = 0 then .inf (n / 2147483648 % 2 == 1) else .nan (decide (n % 8388608 / 4194304 = 0))
    else if n / 8388608 % 256 = 0 then .fin (n / 2147483648 % 2 == 1) (n % 8388608) (-149)
    else .fin (n / 2147483648 % 2 == 1) (8388608 + n % 8388608) ((n / 8388608 % 256 : Nat) - 127 - 23) := by
  simp only [Fmt.decode, fp32, true_and]
  norm_num

/-- What an FP32 pattern decodes to, by its exponent field. -/
theorem fp32_decode_cases (x : Half) :
    (nanPattern x ∧ ∃ s, fp32.decode x.toNat = .nan s) ∨
    (∃ s, x = infHalf s ∧ fp32.decode x.toNat = .inf s) ∨
    (finitePat x ∧ ∃ s m e, fp32.decode x.toNat = .fin s m e ∧ (m = 0 ↔ x = zeroHalf s)) := by
  have bound := x.isLt
  unfold nanPattern finitePat
  simp only [← BitVec.toNat_inj, toNat_zeroHalf, toNat_infHalf, fp32_decode_eq]
  generalize x.toNat = n at *
  by_cases special : n / 8388608 % 256 = 255
  · by_cases fraction : n % 8388608 = 0
    · refine .inr (.inl ⟨n / 2147483648 % 2 == 1, ?_, by rw [if_pos special, if_pos fraction]⟩)
      simp only [beq_iff_eq]
      split <;> omega
    · exact .inl ⟨by omega, _, by rw [if_pos special, if_neg fraction]⟩
  · refine .inr (.inr ⟨by omega, ?_⟩)
    rw [if_neg special]
    by_cases subnormal : n / 8388608 % 256 = 0
    · refine ⟨_, _, _, if_pos subnormal, ?_⟩
      simp only [beq_iff_eq]
      split <;> omega
    · refine ⟨_, _, _, if_neg subnormal, ?_⟩
      simp only [beq_iff_eq]
      split <;> omega

theorem not_nanPattern_infHalf (s : Bool) : ¬ nanPattern (infHalf s) := by
  cases s <;> (unfold nanPattern; decide)

theorem not_finitePat_infHalf (s : Bool) : ¬ finitePat (infHalf s) := by
  cases s <;> (unfold finitePat; decide)

theorem finitePat.not_nanPattern (finite : finitePat x) : ¬ nanPattern x := by
  unfold nanPattern finitePat at *
  omega

theorem fp32_isNan_iff : (fp32.decode x.toNat).isNan = true ↔ nanPattern x := by
  rcases fp32_decode_cases x with ⟨nan, s, value⟩ | ⟨s, rfl, value⟩ | ⟨finite, s, m, e, value, -⟩ <;> rw [value]
  · simp [Num.isNan, nan]
  · simp [Num.isNan, not_nanPattern_infHalf]
  · simp [Num.isNan, finite.not_nanPattern]

theorem fp32_decode_finite (finite : finitePat x) : ∃ s m e, fp32.decode x.toNat = .fin s m e ∧ (m = 0 ↔ x = zeroHalf s) := by
  rcases fp32_decode_cases x with ⟨nan, -⟩ | ⟨s, rfl, -⟩ | ⟨-, value⟩
  · exact absurd nan finite.not_nanPattern
  · exact absurd finite (not_finitePat_infHalf s)
  · exact value

theorem fp32_decode_infHalf (s : Bool) : fp32.decode (infHalf s).toNat = .inf s := by cases s <;> rfl

theorem fp32_decode_zeroHalf (s : Bool) : fp32.decode (zeroHalf s).toNat = .fin s 0 (-149) := by cases s <;> rfl

end

/-! ## The two that a group of four keeps (R221) -/

section
variable {xs : List Half} {e : Nat}

/-- Two of four numbers have a property. -/
theorem two_le_countP_range (n : Nat) (p : Nat → Bool) :
    2 ≤ (List.range n).countP p ↔ ∃ i < n, ∃ j < n, i ≠ j ∧ p i = true ∧ p j = true := by
  have card := Nat.count_eq_card_filter_range (fun i => p i = true) n
  simp only [Nat.count, Bool.decide_eq_true] at card
  rw [card, Nat.succ_le_iff, Finset.one_lt_card]
  simp only [Finset.mem_filter, Finset.mem_range]
  constructor
  · rintro ⟨i, ⟨a, b⟩, j, ⟨c, d⟩, other⟩; exact ⟨i, a, j, c, other, b, d⟩
  · rintro ⟨i, a, j, c, other, b, d⟩; exact ⟨i, ⟨a, b⟩, j, ⟨c, d⟩, other⟩

theorem ranksBefore_self (x : Half) (i : Nat) : ¬ ranksBefore x x i i := by simp [ranksBefore]

theorem ranksBefore_add (x y : Half) (k i j : Nat) : ranksBefore x y (k + i) (k + j) ↔ ranksBefore x y i j := by
  simp [ranksBefore]

theorem sparseBefore_iff {ns : List Nat} {x y : Half} {i j : Nat} (first : ns.getD i 0 = x.toNat) (second : ns.getD j 0 = y.toNat) :
    sparseBefore ns i j = true ↔ ranksBefore x y i j := by
  have numbers : ((fp32.decode x.toNat).isNan || (fp32.decode y.toNat).isNan) = true ↔ nanPattern x ∨ nanPattern y := by
    rw [Bool.or_eq_true, fp32_isNan_iff, fp32_isNan_iff]
  simp only [sparseBefore, first, second, ranksBefore]
  split
  · rename_i nan
    have := numbers.1 nan
    simp only [Bool.and_eq_true, Bool.or_eq_true, Bool.not_eq_true', decide_eq_true_eq, ← Bool.not_eq_true, fp32_isNan_iff]
    tauto
  · rename_i number
    have := mt numbers.2 number
    simp only [Bool.and_eq_true, Bool.or_eq_true, decide_eq_true_eq]
    tauto

/-- An element is kept where no two of its group rank before it. -/
theorem sparseKeeps_iff (regs : Map Half) (a : Nat) (element : e < 64) :
    let before := fun j => ranksBefore (vget regs a (e / 4 * 4 + j)) (vget regs a e) (e / 4 * 4 + j) e
    sparseKeeps ((vreg regs a).map (·.toNat)) e = true ↔ ¬ ∃ i < 4, ∃ j < 4, i ≠ j ∧ before i ∧ before j := by
  intro before
  have inGroup {j : Nat} (small : j < 4) : ((((vreg regs a).map (·.toNat)).drop (e / 4 * 4)).take 4).getD j 0 =
      (vget regs a (e / 4 * 4 + j)).toNat := by
    have place : e / 4 * 4 + j < 64 := by omega
    simp [List.getD_eq_getElem?_getD, small, vreg, place]
  have whole : e / 4 * 4 + e % 4 = e := by omega
  have ranks {j : Nat} (small : j < 4) : (decide (j ≠ e % 4) &&
      sparseBefore ((((vreg regs a).map (·.toNat)).drop (e / 4 * 4)).take 4) j (e % 4)) = true ↔ before j := by
    have shifted : before j ↔ ranksBefore (vget regs a (e / 4 * 4 + j)) (vget regs a e) j (e % 4) := by
      have := ranksBefore_add (vget regs a (e / 4 * 4 + j)) (vget regs a e) (e / 4 * 4) j (e % 4)
      rwa [whole] at this
    rw [Bool.and_eq_true, decide_eq_true_eq, sparseBefore_iff (inGroup small) (by rw [inGroup (Nat.mod_lt _ (by decide)), whole]), shifted]
    refine and_iff_right_of_imp fun rank same => ?_
    subst same
    rw [whole] at rank
    exact ranksBefore_self _ _ rank
  rw [sparseKeeps, decide_eq_true_eq, ← not_le, two_le_countP_range]
  refine not_congr ⟨?_, ?_⟩
  · rintro ⟨i, hi, j, hj, other, first, second⟩
    exact ⟨i, hi, j, hj, other, (ranks hi).1 first, (ranks hj).1 second⟩
  · rintro ⟨i, hi, j, hj, other, first, second⟩
    exact ⟨i, hi, j, hj, other, (ranks hi).2 first, (ranks hj).2 second⟩

end

theorem Half.bits_low_six (y : Half) : bits y 0 6 = y.toNat % 64 := by simp [bits]

theorem fld_low_half (x : Word) : fld x 0 32 = x.truncate 32 := by
  refine BitVec.eq_of_toNat_eq ?_
  rw [toNat_fld]
  simp [bits]

end Sys2Proof.Machine
end

section
/-! PROOFS. The family 09, vector commands: what the elementwise and the data-movement forms give (R210, R214, R216, R220, R221). -/

namespace Sys2Proof.Machine

section
variable {h : Chip} {t : Thread} {v : Nat} {regs : Map Half} {q : VCmd} {vd va vb gp : BitVec 5}

/-- A form of VP run on a word that holds it. -/
theorem vectorRun_vp_of {w : Half} {vfn : BitVec 6} {n : Nat} (holds : q.op.word = w) (word : w = wordV 43#6 vfn vd va vb gp)
    (form : vfn.toNat = n) (moves : n < 16) : h.vectorRun t v regs q =
      .ok (⟨vpRun n regs q.mask q.scalar vd.toNat va.toNat vb.toNat, 0, 0⟩, h) := by
  subst form
  exact vectorRun_vp (.of_wordV (holds.trans word)) moves

theorem vperm_gives (holds : q.op.word = wordOf (.vperm vd va vb gp)) : ∃ r, h.vectorRun t v regs q = .ok (r, h) ∧
    ∀ e < 64, vget r.regs vd.toNat e =
      if q.mask.getLsbD e then vget regs va.toNat ((vget regs vb.toNat e).toNat % 64) else vget regs vd.toNat e := by
  refine ⟨_, vectorRun_vp_of (n := 0) holds rfl rfl (by decide), fun e element => ?_⟩
  simp only [vpRun]
  rw [vget_vset_masked _ _ _ _ element, Half.bits_low_six]

theorem vsel_gives (holds : q.op.word = wordOf (.vsel vd va vb gp)) : ∃ r, h.vectorRun t v regs q = .ok (r, h) ∧
    ∀ e < 64, vget r.regs vd.toNat e = if q.mask.getLsbD e then vget regs va.toNat e else vget regs vb.toNat e := by
  refine ⟨_, vectorRun_vp_of (n := 2) holds rfl rfl (by decide), fun e element => ?_⟩
  simp only [vpRun]
  rw [vget_vset _ _ _ _ element, if_pos rfl, Option.getD_some]

theorem vbcast_gives (holds : q.op.word = wordOf (.vbcast vd gp)) : ∃ r, h.vectorRun t v regs q = .ok (r, h) ∧
    ∀ e < 64, vget r.regs vd.toNat e = if q.mask.getLsbD e then q.scalar.truncate 32 else vget regs vd.toNat e := by
  refine ⟨_, vectorRun_vp_of (n := 3) holds rfl rfl (by decide), fun e element => ?_⟩
  simp only [vpRun]
  rw [vget_vset_masked _ _ _ _ element, fld_low_half]

theorem vslide_gives (holds : q.op.word = wordOf (.vslide vd va vb gp)) : ∃ r, h.vectorRun t v regs q = .ok (r, h) ∧
    ∀ e : Nat, e < 64 →
      let j := (e : Int) + q.scalar.toInt
      vget r.regs vd.toNat e = if q.mask.getLsbD e = false then vget regs vd.toNat e
        else if j < 0 then vget regs vb.toNat (j + 64).toNat
        else if j < 64 then vget regs va.toNat j.toNat else vget regs vb.toNat (j - 64).toNat := by
  refine ⟨_, vectorRun_vp_of (n := 1) holds rfl rfl (by decide), fun e element => ?_⟩
  simp only [vpRun]
  rw [vget_vset_masked _ _ _ _ element]
  cases q.mask.getLsbD e <;> rfl

theorem vcomp_gives (holds : q.op.word = wordOf (.vcomp vd va gp)) : ∃ r, h.vectorRun t v regs q = .ok (r, h) ∧
    ∀ e < 64, vget r.regs vd.toNat e = match ((List.range 64).filter fun n => q.mask.getLsbD n)[e]? with
      | some n => vget regs va.toNat n
      | none => vget regs vd.toNat e := by
  refine ⟨_, vectorRun_vp_of (n := 4) holds rfl rfl (by decide), fun e element => ?_⟩
  simp only [vpRun]
  rw [vget_vset _ _ _ _ element, if_pos rfl, actives]
  cases ((List.range 64).filter fun n => q.mask.getLsbD n)[e]? <;> rfl

theorem vsprs_gives (holds : q.op.word = wordOf (.vsprs vd va gp)) : ∃ r, h.vectorRun t v regs q = .ok (r, h) ∧ ∀ e < 64,
    let x := fun i => vget regs va.toNat i
    let before := fun j => ranksBefore (x (e / 4 * 4 + j)) (x e) (e / 4 * 4 + j) e
    (q.mask.getLsbD e = false → vget r.regs vd.toNat e = vget regs vd.toNat e) ∧
    (q.mask.getLsbD e = true → (∃ i < 4, ∃ j < 4, i ≠ j ∧ before i ∧ before j) → vget r.regs vd.toNat e = 0) ∧
    (q.mask.getLsbD e = true → (¬ ∃ i < 4, ∃ j < 4, i ≠ j ∧ before i ∧ before j) → vget r.regs vd.toNat e = x e) := by
  refine ⟨_, vectorRun_vp_of (n := 5) holds rfl rfl (by decide), fun e element => ?_⟩
  have keeps := sparseKeeps_iff regs va.toNat element
  simp only [vpRun]
  rw [vget_vset_masked _ _ _ _ element]
  refine ⟨fun off => ?off, fun on two => ?dropped, fun on few => ?kept⟩
  case off => rw [off, if_neg (by decide)]
  case dropped => rw [if_pos on, if_neg fun kept => keeps.1 kept two]
  case kept => rw [if_pos on, if_pos (keeps.2 few)]

end

end Sys2Proof.Machine
end

section
/-! PROOFS. The family 09, vector commands: exact sums, and the order of values, as rationals (R8, R102, R111). -/

namespace Sys2Proof.Machine

/-! ## Values as rationals -/

section
variable {neg s t : Bool} {m n : Nat} {e g q : Int}

theorem two_zpow_toNat (le : q ≤ e) : (2 : ℚ) ^ (e - q).toNat * 2 ^ q = 2 ^ e := by
  rw [← zpow_natCast, Int.toNat_of_nonneg (by omega), ← zpow_add₀ (by norm_num), Int.sub_add_cancel]

theorem unitsAt_rat (le : q ≤ e) : (unitsAt neg m e q : ℚ) * 2 ^ q = (Num.fin neg m e).rat := by
  have scale := two_zpow_toNat le
  cases neg <;> simp [unitsAt, Num.rat, mul_assoc, scale]

theorem numOf_rat (k : Int) (q : Int) (z : Bool) : (numOf k q z).rat = k * 2 ^ q := by
  unfold numOf
  split
  · rename_i zero
    simp [Num.rat, zero]
  · have sign : (if decide (k < 0) = true then (-1 : ℚ) else 1) * (k.natAbs : ℚ) = k := by
      have abs : ((k.natAbs : Int) : ℚ) = |(k : ℚ)| := by rw [Int.natCast_natAbs]; push_cast; rfl
      rw [← Int.cast_natCast, abs]
      by_cases below : k < 0
      · have : (k : ℚ) < 0 := by exact_mod_cast below
        simp [below, abs_of_neg this]
      · have : (0 : ℚ) ≤ k := by exact_mod_cast not_lt.1 below
        simp [below, abs_of_nonneg this]
    rw [Num.rat, sign]

theorem numOf_eq_fin (k q : Int) (z : Bool) : ∃ s m e, numOf k q z = .fin s m e := by
  unfold numOf
  split
  · exact ⟨_, _, _, rfl⟩
  · exact ⟨_, _, _, rfl⟩

theorem negNum_rat (v : Num) : (negNum v).rat = -v.rat := by
  cases v with
  | fin s m e => cases s <;> simp [negNum, Num.rat]
  | nan | inf => simp [negNum, Num.rat]

theorem Num.rat_fin_abs : (Num.fin false m e).rat = |(Num.fin s m e).rat| := by
  cases s <;> simp [Num.rat, abs_mul]

theorem Num.rat_eq_zero : (Num.fin s m e).rat = 0 ↔ m = 0 := by
  have unit : (2 : ℚ) ^ e ≠ 0 := by positivity
  cases s <;> simp [Num.rat, unit]

/-- The sum of two finite values is exact. -/
theorem addNum_fin (r : Rnd) : ∃ u k p, addNum r (.fin s m e) (.fin t n g) = some (.fin u k p) ∧
    (Num.fin u k p).rat = (Num.fin s m e).rat + (Num.fin t n g).rat := by
  obtain ⟨u, k, p, sum⟩ := numOf_eq_fin (unitsAt s m e (min e g) + unitsAt t n g (min e g)) (min e g) (if s = t then s else decide (r = .rdn))
  refine ⟨u, k, p, congrArg some sum, ?_⟩
  rw [← sum, numOf_rat, ← unitsAt_rat (min_le_left e g), ← unitsAt_rat (min_le_right e g)]
  push_cast
  ring

/-- The comparison of two finite values is that of their rationals. -/
theorem cmpNum_fin : cmpNum (.fin s m e) (.fin t n g) = compare (Num.fin s m e).rat (Num.fin t n g).rat := by
  have unit : (0 : ℚ) < 2 ^ min e g := by positivity
  rw [← unitsAt_rat (min_le_left e g), ← unitsAt_rat (min_le_right e g)]
  simp only [cmpNum]
  generalize unitsAt s m e (min e g) = a
  generalize unitsAt t n g (min e g) = b
  rcases lt_trichotomy a b with below | rfl | above
  · rw [compare_lt_iff_lt.2 below, compare_lt_iff_lt.2 (mul_lt_mul_of_pos_right (by exact_mod_cast below) unit)]
  · simp
  · rw [compare_gt_iff_gt.2 above, compare_gt_iff_gt.2 (mul_lt_mul_of_pos_right (by exact_mod_cast above) unit)]

end

/-! ## The exact sum of a list (R102) -/

/-- A value is a negative zero. -/
def Num.isNegZero : Num → Bool
  | .fin true 0 _ => true
  | _ => false

/-- What an exact sum has to say of the values summed. -/
structure ExactSum.Of (s : ExactSum) (vs : List Num) : Prop where
  nan : s.nan = vs.any Num.isNan
  posInf : s.posInf = vs.contains (.inf false)
  negInf : s.negInf = vs.contains (.inf true)
  total : (s.total : ℚ) * 2 ^ s.unit = (vs.map Num.rat).sum
  allNegZero : s.allNegZero = vs.all Num.isNegZero
  empty : s.empty = vs.isEmpty
  clear : s.empty = true → s.total = 0

/-- A finite term adds its value, whatever unit the sum takes. -/
theorem ExactSum.total_term_fin (s : ExactSum) (clear : s.empty = true → s.total = 0) (neg : Bool) (m : Nat) (e : Int) :
    ((s.term (.fin neg m e)).total : ℚ) * 2 ^ (s.term (.fin neg m e)).unit = s.total * 2 ^ s.unit + (Num.fin neg m e).rat := by
  simp only [ExactSum.term]
  cases empty : s.empty
  · rw [if_neg (by decide), ← unitsAt_rat (min_le_left e s.unit), ← two_zpow_toNat (min_le_right e s.unit)]
    push_cast
    ring
  · rw [if_pos rfl, clear empty, ← unitsAt_rat (le_refl e)]
    simp

theorem ExactSum.Of.term {s : ExactSum} {vs : List Num} (of : s.Of vs) (v : Num) : (s.term v).Of (vs ++ [v]) := by
  obtain ⟨nan, posInf, negInf, total, allNegZero, empty, clear⟩ := of
  cases v with
  | nan b => constructor <;> simp [ExactSum.term, posInf, negInf, total, Num.isNan, Num.isNegZero, Num.rat]
  | inf b => cases b <;> constructor <;> simp [ExactSum.term, nan, posInf, negInf, total, Num.isNan, Num.isNegZero, Num.rat]
  | fin neg m e =>
    have negZero : (neg && decide (m = 0)) = (Num.fin neg m e).isNegZero := by
      cases neg <;> cases m <;> rfl
    constructor
    case nan | posInf | negInf => simp [ExactSum.term, nan, posInf, negInf, Num.isNan]
    case total => exact ((s.total_term_fin clear neg m e).trans (by simp [total]))
    case allNegZero => simp [ExactSum.term, allNegZero, Bool.and_assoc, negZero]
    case empty | clear => simp [ExactSum.term]

theorem exactSum_of (vs : List Num) : (exactSum vs).Of vs := by
  induction vs using List.reverseRecOn with
  | nil => constructor <;> simp [exactSum]
  | append_singleton vs v of =>
    rw [exactSum, List.foldl_append]
    exact of.term v

end Sys2Proof.Machine
end

section
/-! PROOFS. The family 09, vector commands: the sum of a register (R225). -/

namespace Sys2Proof.Machine

/-! ## The special values of a register -/

section
variable {x : Half}

theorem fp32_decode_eq_inf {s : Bool} : fp32.decode x.toNat = .inf s ↔ x = infHalf s := by
  refine ⟨fun value => ?_, fun same => same ▸ fp32_decode_infHalf s⟩
  rcases fp32_decode_cases x with ⟨-, b, nan⟩ | ⟨b, rfl, inf⟩ | ⟨-, b, m, e, fin, -⟩
  · cases nan.symm.trans value
  · cases inf.symm.trans value; rfl
  · cases fin.symm.trans value

theorem fp32_isNegZero_iff : (fp32.decode x.toNat).isNegZero = true ↔ x = 0x80000000#32 := by
  refine ⟨fun value => ?_, fun same => by subst same; rfl⟩
  rcases fp32_decode_cases x with ⟨-, b, nan⟩ | ⟨b, rfl, inf⟩ | ⟨-, b, m, e, fin, zero⟩
  · simp [nan, Num.isNegZero] at value
  · simp [inf, Num.isNegZero] at value
  · rw [fin] at value
    unfold Num.isNegZero at value
    split at value
    · rename_i same
      cases same
      exact zero.1 rfl
    · cases value

end

section
variable (x : Nat → Half)

/-- The values of 64 elements. -/
def elementValues : List Num := (List.range 64).map fun e => fp32.decode (x e).toNat

theorem any_isNan_elementValues : (elementValues x).any Num.isNan = true ↔ ∃ e < 64, nanPattern (x e) := by
  simp [elementValues, fp32_isNan_iff]

theorem contains_inf_elementValues (s : Bool) : (elementValues x).contains (.inf s) = true ↔ ∃ e < 64, x e = infHalf s := by
  simp [elementValues, fp32_decode_eq_inf]

theorem all_isNegZero_elementValues : (elementValues x).all Num.isNegZero = true ↔ ∀ e < 64, x e = 0x80000000#32 := by
  simp [elementValues, fp32_isNegZero_iff]

theorem sum_elementValues : ((elementValues x).map Num.rat).sum = ((List.range 64).map fun e => ratOf (x e)).sum := by
  rw [elementValues, List.map_map]
  rfl

/-! ## The rounded sum (R102) -/

theorem fp32_round_zero (neg : Bool) (e : Int) : fp32.round .rne (.fin neg 0 e) = (fp32.signPat neg, 0) := by
  simp [Fmt.round, Fmt.roundMag]

/-- A sum of finite values is rounded once; it is -0 where every term is -0. -/
theorem roundFp32_finite (finite : ∀ e < 64, finitePat (x e)) : (exactSum (elementValues x)).roundFp32 =
    fp32.round .rne (numOf (exactSum (elementValues x)).total (exactSum (elementValues x)).unit ((elementValues x).all Num.isNegZero)) := by
  obtain ⟨nan, posInf, negInf, -, allNegZero, empty, -⟩ := exactSum_of (elementValues x)
  have number : (exactSum (elementValues x)).nan = false := by
    rw [nan, Bool.eq_false_iff, Ne, any_isNan_elementValues]
    rintro ⟨e, element, isNan⟩
    exact (finite e element).not_nanPattern isNan
  have noInf (s : Bool) : (elementValues x).contains (.inf s) = false := by
    rw [Bool.eq_false_iff, Ne, contains_inf_elementValues]
    rintro ⟨e, element, inf⟩
    exact not_finitePat_infHalf s (inf ▸ finite e element)
  have filled : (elementValues x).isEmpty = false := rfl
  rw [ExactSum.roundFp32, number, posInf, negInf, noInf, noInf, allNegZero, empty, filled]
  simp

/-- The sum of finite values that cancel is a zero, negative where every term is a negative zero. -/
theorem roundFp32_zero (finite : ∀ e < 64, finitePat (x e)) (none_ : ((List.range 64).map fun e => ratOf (x e)).sum = 0) :
    (exactSum (elementValues x)).roundFp32 = (fp32.signPat ((elementValues x).all Num.isNegZero), 0) := by
  have total := (exactSum_of (elementValues x)).total
  have unit : (2 : ℚ) ^ (exactSum (elementValues x)).unit ≠ 0 := by positivity
  rw [sum_elementValues, none_, mul_eq_zero, or_iff_left unit] at total
  rw [roundFp32_finite x finite, Int.cast_eq_zero.1 total, numOf, if_pos rfl, fp32_round_zero]

/-- What VRSUM gives of 64 elements (R225). -/
theorem sum_of_elements : let r := (exactSum (elementValues x)).roundFp32
    let w := BitVec.ofNat 64 r.1
    let sum := ((List.range 64).map fun e => ratOf (x e)).sum
    ((∃ e < 64, nanPattern (x e)) → w = 0x7FC00000 ∧ r.2 = flNV) ∧
    ((∀ e < 64, finitePat (x e)) → sum ≠ 0 → ∃ neg m k, (Num.fin neg m k).rat = sum ∧
      w = BitVec.ofNat 64 (fp32.round .rne (.fin neg m k)).1 ∧ r.2 = (fp32.round .rne (.fin neg m k)).2) ∧
    ((∀ e < 64, x e = 0x80000000#32) → r.2 = 0 ∧ w = 0x80000000) ∧
    ((∀ e < 64, finitePat (x e)) → sum = 0 → (∃ e < 64, x e ≠ 0x80000000#32) → r.2 = 0 ∧ w = 0) ∧
    ((∃ e < 64, x e = 0x7F800000#32) → (∃ e < 64, x e = 0xFF800000#32) → w = 0x7FC00000 ∧ r.2 = flNV) ∧
    ((∀ e < 64, ¬ nanPattern (x e)) → (∃ e < 64, x e = 0x7F800000#32) → (∀ e < 64, x e ≠ 0xFF800000#32) →
      w = 0x7F800000 ∧ r.2 = 0) := by
  intro r w sum
  obtain ⟨nan, posInf, negInf, total, -⟩ := exactSum_of (elementValues x)
  rw [sum_elementValues] at total
  have gives {n : Nat} {fl : BitVec 5} (value : r = (n, fl)) : w = BitVec.ofNat 64 n ∧ r.2 = fl :=
    ⟨congrArg (BitVec.ofNat 64 ·.1) value, congrArg Prod.snd value⟩
  refine ⟨fun some_ => gives ?nan, fun finite nonzero => ?finite, fun negZero => (gives ?negZero).symm,
    fun finite none_ ⟨e, element, other⟩ => (gives ?zero).symm, fun pos neg => gives ?opposite, fun number pos neg => gives ?inf⟩
  case nan =>
    exact if_pos (Bool.or_eq_true_iff.2 (.inl (nan.trans ((any_isNan_elementValues x).2 some_))))
  case finite =>
    obtain ⟨s, m, k, value⟩ := numOf_eq_fin (exactSum (elementValues x)).total (exactSum (elementValues x)).unit
      ((elementValues x).all Num.isNegZero)
    have rounded : r = fp32.round .rne (.fin s m k) := by rw [← value, ← roundFp32_finite x finite]
    exact ⟨s, m, k, by rw [← value, numOf_rat, total], gives rounded⟩
  case negZero =>
    have finite : ∀ e < 64, finitePat (x e) := fun e element => by rw [negZero e element]; unfold finitePat; decide
    have none_ : sum = 0 := by
      refine List.sum_eq_zero fun y listed => ?_
      obtain ⟨e, element, rfl⟩ := List.mem_map.1 listed
      rw [negZero e (List.mem_range.1 element)]
      exact Num.rat_eq_zero.2 rfl
    exact (roundFp32_zero x finite none_).trans (by rw [(all_isNegZero_elementValues x).2 negZero]; rfl)
  case zero =>
    have all : (elementValues x).all Num.isNegZero = false := by
      rw [Bool.eq_false_iff, Ne, all_isNegZero_elementValues]
      exact fun same => other (same e element)
    exact (roundFp32_zero x finite none_).trans (by rw [all]; rfl)
  case opposite =>
    have up := posInf.trans ((contains_inf_elementValues x false).2 pos)
    have down := negInf.trans ((contains_inf_elementValues x true).2 neg)
    exact if_pos (by rw [up, down, Bool.and_self, Bool.or_true])
  case inf =>
    have clean : (exactSum (elementValues x)).nan = false := by
      rw [nan, Bool.eq_false_iff, Ne, any_isNan_elementValues]
      exact fun ⟨e, element, isNan⟩ => number e element isNan
    have up := posInf.trans ((contains_inf_elementValues x false).2 pos)
    have down : (exactSum (elementValues x)).negInf = false := by
      rw [negInf, Bool.eq_false_iff, Ne, contains_inf_elementValues]
      exact fun ⟨e, element, inf⟩ => neg e element inf
    exact (if_neg (by rw [clean, down, Bool.and_false]; decide)).trans (if_pos up)

end

end Sys2Proof.Machine
end

section
/-! PROOFS. The family 09, vector commands: the extremes of a register (R110, R225). -/

namespace Sys2Proof.Machine

/-! ## The order of the numbers, -0 below +0 (R110, R111) -/

/-- A number among the rationals and the two infinities. -/
def Num.ext : Num → WithBot (WithTop ℚ)
  | .inf true => ⊥
  | .inf false => ((⊤ : WithTop ℚ) : WithBot (WithTop ℚ))
  | v => ((v.rat : WithTop ℚ) : WithBot (WithTop ℚ))

/-- A number's rank for the minimum and the maximum: its value, then whether it is a negative zero. -/
def Num.rank (v : Num) : WithBot (WithTop ℚ) ×ₗ ℕ := toLex (v.ext, if v.isNegZero then 0 else 1)

theorem compare_ext_rat (x y : ℚ) :
    compare ((x : WithTop ℚ) : WithBot (WithTop ℚ)) ((y : WithTop ℚ) : WithBot (WithTop ℚ)) = compare x y := by
  rcases lt_trichotomy x y with below | rfl | above
  · rw [compare_lt_iff_lt.2 below, compare_lt_iff_lt.2 (by exact_mod_cast below)]
  · simp
  · rw [compare_gt_iff_gt.2 above, compare_gt_iff_gt.2 (by exact_mod_cast above)]

section
variable {a b : Num}

theorem cmpNum_eq_compare (first : a.isNan = false) (second : b.isNan = false) : cmpNum a b = compare a.ext b.ext := by
  match a, b with
  | .inf true, .inf true | .inf false, .inf false => simp [cmpNum]
  | .inf true, .inf false => exact (compare_lt_iff_lt.2 (WithBot.bot_lt_coe _)).symm
  | .inf false, .inf true => exact (compare_gt_iff_gt.2 (WithBot.bot_lt_coe _)).symm
  | .inf true, .fin s m e => exact (compare_lt_iff_lt.2 (WithBot.bot_lt_coe _)).symm
  | .fin s m e, .inf true => exact (compare_gt_iff_gt.2 (WithBot.bot_lt_coe _)).symm
  | .inf false, .fin s m e => exact (compare_gt_iff_gt.2 (WithBot.coe_lt_coe.2 (WithTop.coe_lt_top _))).symm
  | .fin s m e, .inf false => exact (compare_lt_iff_lt.2 (WithBot.coe_lt_coe.2 (WithTop.coe_lt_top _))).symm
  | .fin s m e, .fin t n g => rw [cmpNum_fin]; exact (compare_ext_rat _ _).symm

/-- A value is a zero. -/
def Num.IsZero (v : Num) : Prop := ∃ s e, v = .fin s 0 e

theorem Num.isNegZero_of_not_isZero (other : ¬ a.IsZero) : a.isNegZero = false := by
  unfold Num.isNegZero
  split
  · exact absurd ⟨_, _, rfl⟩ other
  · rfl

/-- Of two numbers in the same place both are zeros or neither is. -/
theorem isZero_iff_of_ext_eq (first : a.isNan = false) (second : b.isNan = false) (same : a.ext = b.ext) : a.IsZero ↔ b.IsZero := by
  have top (x : ℚ) : ((x : WithTop ℚ) : WithBot (WithTop ℚ)) ≠ ((⊤ : WithTop ℚ) : WithBot (WithTop ℚ)) := fun same =>
    WithTop.coe_ne_top (WithBot.coe_inj.1 same)
  match a, b with
  | .inf _, .inf _ => simp [Num.IsZero]
  | .inf true, .fin .. => exact absurd same.symm (WithBot.coe_ne_bot)
  | .inf false, .fin .. => exact absurd same.symm (top _)
  | .fin .., .inf true => exact absurd same (WithBot.coe_ne_bot)
  | .fin .., .inf false => exact absurd same (top _)
  | .fin s m e, .fin t n g =>
    have equal : (Num.fin s m e).rat = (Num.fin t n g).rat := WithTop.coe_inj.1 (WithBot.coe_inj.1 same)
    have zeros : m = 0 ↔ n = 0 := by rw [← Num.rat_eq_zero (s := s) (e := e), equal, Num.rat_eq_zero]
    simp [Num.IsZero, zeros]

theorem leqMin_zeros (s t : Bool) (e g : Int) : leqMin (.fin s 0 e) (.fin t 0 g) = (s || !t) := by
  have same : cmpNum (.fin s 0 e) (.fin t 0 g) = .eq := by simp [cmpNum_fin, Num.rat]
  simp only [leqMin, same]

theorem leqMin_of_eq (same : cmpNum a b = .eq) (other : ¬ a.IsZero) : leqMin a b = true := by
  simp only [leqMin, same]
  split
  · exact absurd ⟨_, _, rfl⟩ other
  · rfl

theorem leqMin_iff (first : a.isNan = false) (second : b.isNan = false) : leqMin a b = true ↔ a.rank ≤ b.rank := by
  have order := cmpNum_eq_compare first second
  rw [Num.rank, Num.rank, Prod.Lex.toLex_le_toLex]
  rcases lt_trichotomy a.ext b.ext with below | same | above
  · rw [compare_lt_iff_lt.2 below] at order
    simp [leqMin, order, below]
  · by_cases zero : a.IsZero
    · obtain ⟨t, g, rfl⟩ := (isZero_iff_of_ext_eq first second same).1 zero
      obtain ⟨s, e, rfl⟩ := zero
      rw [leqMin_zeros]
      cases s <;> cases t <;> simp [Num.isNegZero, same]
    · have other := mt (isZero_iff_of_ext_eq first second same).2 zero
      rw [compare_eq_iff_eq.2 same] at order
      simp [leqMin_of_eq order zero, Num.isNegZero_of_not_isZero zero, Num.isNegZero_of_not_isZero other, same]
  · rw [compare_gt_iff_gt.2 above] at order
    simp [leqMin, order, above.not_gt, above.ne']

end

/-! ## The extreme of a list (R225) -/

/-- A pattern is not a NaN. -/
def IsNumber (x : Nat) : Prop := (fp32.decode x).isNan = false

/-- The first pattern is at least as far out as the second. -/
def AtLeast (max : Bool) (x y : Nat) : Prop :=
  if max then (fp32.decode y).rank ≤ (fp32.decode x).rank else (fp32.decode x).rank ≤ (fp32.decode y).rank

section
variable {max : Bool} {x y z : Nat}

theorem AtLeast.refl (max : Bool) (x : Nat) : AtLeast max x x := by
  unfold AtLeast
  split <;> exact le_rfl

theorem AtLeast.trans (first : AtLeast max x y) (second : AtLeast max y z) : AtLeast max x z := by
  unfold AtLeast at *
  split at first
  · rename_i up; rw [if_pos up] at *; exact second.trans first
  · rename_i down; rw [if_neg down] at *; exact first.trans second

theorem AtLeast.total (max : Bool) (x y : Nat) : AtLeast max x y ∨ AtLeast max y x := by
  unfold AtLeast
  split
  · exact le_total _ _
  · exact le_total _ _

/-- Of two numbers FMIN and FMAX give one that is at least as far out as both. -/
theorem minMax_cases (first : IsNumber x) (second : IsNumber y) :
    (fp32.minMax max x y).1 = x ∧ AtLeast max x y ∨ (fp32.minMax max x y).1 = y ∧ AtLeast max y x := by
  have total := AtLeast.total max x y
  have order := leqMin_iff first second
  have converse := leqMin_iff second first
  unfold IsNumber at first second
  unfold AtLeast at *
  simp only [Fmt.minMax, first, second, Bool.and_self, Bool.false_eq_true, if_false]
  cases max
  · simp only [Bool.false_eq_true, if_false, order] at *
    split
    · exact .inl ⟨rfl, ‹_›⟩
    · exact .inr ⟨rfl, total.resolve_left ‹_›⟩
  · simp only [if_true, converse] at *
    split
    · exact .inl ⟨rfl, ‹_›⟩
    · exact .inr ⟨rfl, total.resolve_left ‹_›⟩

/-- One pattern of a register taken into the extreme of those before it. -/
def extremeStep (max : Bool) (b : Option Nat) (x : Nat) : Option Nat :=
  if (fp32.decode x).isNan then b
  else
    match b with
    | none => some x
    | some y => some (fp32.minMax max y x).1

theorem vsExtreme_eq (max : Bool) (xs : List Nat) : vsExtreme max xs = (xs.foldl (extremeStep max) none).getD fp32.nanPat := rfl

/-- The extreme of patterns: none where they are all NaN, otherwise a number of theirs at least as far out as each of their numbers. -/
def ExtremeOf (max : Bool) (xs : List Nat) : Option Nat → Prop
  | none => ∀ x ∈ xs, ¬ IsNumber x
  | some y => y ∈ xs ∧ IsNumber y ∧ ∀ x ∈ xs, IsNumber x → AtLeast max y x

theorem ExtremeOf.step {xs : List Nat} {b : Option Nat} (of : ExtremeOf max xs b) (x : Nat) :
    ExtremeOf max (xs ++ [x]) (extremeStep max b x) := by
  have last {P : Nat → Prop} (before : ∀ z ∈ xs, P z) (new : P x) : ∀ z ∈ xs ++ [x], P z := by
    intro z listed
    rcases List.mem_append.1 listed with old | one
    · exact before z old
    · rwa [List.mem_singleton.1 one]
  unfold extremeStep
  split
  case isTrue nan =>
    have dropped : ¬ IsNumber x := by simp [IsNumber, nan]
    cases b with
    | none => exact last of dropped
    | some y =>
      obtain ⟨listed, number, least⟩ := of
      exact ⟨List.mem_append_left _ listed, number, last least fun isNumber => absurd isNumber dropped⟩
  case isFalse other =>
    have number : IsNumber x := Bool.eq_false_iff.2 other
    cases b with
    | none => exact ⟨by simp, number, last (fun z old isNumber => absurd isNumber (of z old)) fun _ => .refl max x⟩
    | some y =>
      obtain ⟨listed, first, least⟩ := of
      dsimp only
      rcases minMax_cases (max := max) first number with ⟨same, out⟩ | ⟨same, out⟩ <;> rw [same]
      · exact ⟨List.mem_append_left _ listed, first, last least fun _ => out⟩
      · exact ⟨by simp, number, last (fun z old isNumber => out.trans (least z old isNumber)) fun _ => .refl max x⟩

theorem extremeOf_foldl (max : Bool) (xs : List Nat) : ExtremeOf max xs (xs.foldl (extremeStep max) none) := by
  induction xs using List.reverseRecOn with
  | nil => exact fun x listed => absurd listed List.not_mem_nil
  | append_singleton xs x of =>
    rw [List.foldl_append]
    exact of.step x

/-- A number that no other is below in rank: none is below it in value, and it is no +0 beside a -0. -/
theorem Num.rank_le_iff_ext {a b : Num} (le : a.rank ≤ b.rank) :
    ¬ b.ext < a.ext ∧ ¬ (a.isNegZero = false ∧ b.isNegZero = true ∧ a.ext = b.ext) := by
  rw [Num.rank, Num.rank, Prod.Lex.toLex_le_toLex] at le
  rcases le with below | ⟨same, sign⟩
  · exact ⟨below.not_gt, fun ⟨_, _, same⟩ => below.ne same⟩
  · refine ⟨same.not_gt, fun ⟨pos, neg, _⟩ => ?_⟩
    simp [pos, neg] at sign

end

section
variable {x y : Half}

theorem not_lt_of_rank (first : ¬ nanPattern x) (second : ¬ nanPattern y)
    (le : (fp32.decode y.toNat).rank ≤ (fp32.decode x.toNat).rank) :
    (fp32.lt x.toNat y.toNat).1 = false ∧ ¬ (x = 0x80000000#32 ∧ y = 0) := by
  obtain ⟨value, sign⟩ := Num.rank_le_iff_ext le
  have a : (fp32.decode x.toNat).isNan = false := Bool.eq_false_iff.2 (mt fp32_isNan_iff.1 first)
  have b : (fp32.decode y.toNat).isNan = false := Bool.eq_false_iff.2 (mt fp32_isNan_iff.1 second)
  refine ⟨?_, ?_⟩
  · simp only [Fmt.lt, a, b, Bool.or_self, Bool.false_eq_true, if_false, cmpNum_eq_compare a b, beq_eq_false_iff_ne, ne_eq, compare_lt_iff_lt]
    exact value
  · rintro ⟨rfl, rfl⟩
    have pos : fp32.decode (0 : Half).toNat = .fin false 0 (-149) := fp32_decode_zeroHalf false
    have neg : fp32.decode (0x80000000#32).toNat = .fin true 0 (-149) := fp32_decode_zeroHalf true
    rw [pos, neg] at sign
    exact sign ⟨rfl, rfl, by simp [Num.ext, Num.rat]⟩

/-- What VRMAX and VRMIN give of 64 elements (R225). -/
theorem extreme_of_elements (max : Bool) (x : Nat → Half) :
    let w := BitVec.ofNat 64 (vsExtreme max ((List.range 64).map fun e => (x e).toNat))
    ((∀ e < 64, nanPattern (x e)) → w = 0x7FC00000) ∧
    ((∃ e < 64, ¬ nanPattern (x e)) → isExtreme max x (w.truncate 32) ∧ w.toNat < 2 ^ 32) := by
  have number {y : Half} : IsNumber y.toNat ↔ ¬ nanPattern y := by rw [← fp32_isNan_iff, IsNumber, Bool.not_eq_true]
  have of := extremeOf_foldl max ((List.range 64).map fun e => (x e).toNat)
  intro w
  simp only [w, vsExtreme_eq]
  cases found : ((List.range 64).map fun e => (x e).toNat).foldl (extremeStep max) none with
  | none =>
    rw [found] at of
    refine ⟨fun _ => rfl, fun ⟨e, element, isNumber⟩ => ?_⟩
    exact absurd (number.2 isNumber) (of _ (List.mem_map.2 ⟨e, List.mem_range.2 element, rfl⟩))
  | some y =>
    rw [found] at of
    obtain ⟨listed, isNumber, least⟩ := of
    obtain ⟨e, element, rfl⟩ := List.mem_map.1 listed
    rw [List.mem_range] at element
    have bound := (x e).isLt
    have low : (BitVec.ofNat 64 (x e).toNat).truncate 32 = x e := BitVec.eq_of_toNat_eq (by simp)
    rw [Option.getD_some, low, BitVec.toNat_ofNat]
    refine ⟨fun nan => absurd (nan e element) (number.1 isNumber), fun _ => ⟨⟨⟨e, element, rfl⟩, number.1 isNumber, ?_⟩, by omega⟩⟩
    intro k other isNumber'
    have out := least _ (List.mem_map.2 ⟨k, List.mem_range.2 other, rfl⟩) (number.2 isNumber')
    cases max
    · exact (not_lt_of_rank isNumber' (number.1 isNumber) out).imp id fun kept both => kept ⟨both.2, both.1⟩
    · exact not_lt_of_rank (number.1 isNumber) isNumber' out

end

end Sys2Proof.Machine
end

section
/-! PROOFS. The family 09, vector commands: compares and residuals (R224, R292). -/

namespace Sys2Proof.Machine

/-! ## Compares (R224) -/

theorem testBit_maskOf (bs : List Bool) (i : Nat) :
    (bs.foldr (fun (b : Bool) n => (if b then 1 else 0) + 2 * n) 0).testBit i = bs.getD i false := by
  induction bs generalizing i with
  | nil => simp
  | cons b bs ih =>
    rw [List.foldr_cons, Nat.add_comm]
    cases i with
    | zero => cases b <;> simp [Nat.testBit_zero]
    | succ i =>
      rw [List.getD_cons_succ, ← ih i, Nat.testBit_succ]
      congr 1
      split <;> omega

theorem getLsbD_maskOf (bs : List Bool) {i : Nat} (bit : i < 64) : (maskOf bs).getLsbD i = bs.getD i false := by
  rw [maskOf, BitVec.getLsbD_ofNat, testBit_maskOf, decide_eq_true bit, Bool.true_and]

section
variable {h : Chip} {t : Thread} {v : Nat} {regs : Map Half} {q : VCmd} {va vb fn : BitVec 5} {d : BitVec 7} {ahead : BitVec 4} {w : Half}
  {n : Nat}

/-- A form of VS run on a word that holds it. -/
theorem vectorRun_vs_of (holds : q.op.word = w) (word : w = wordVS 44#6 d va vb fn ahead) (form : fn.toNat = n) (other : n ≠ 12) :
    h.vectorRun t v regs q = .ok (⟨regs, (vsRun n regs va.toNat vb.toNat).1, (vsRun n regs va.toNat vb.toNat).2⟩, h) := by
  subst form
  exact vectorRun_vs (.of_wordVS (holds.trans word)) other

/-- A compare of VS gives the truth value of each element. -/
theorem compare_gives (holds : q.op.word = w) (word : w = wordVS 44#6 d va vb fn ahead) (form : fn.toNat = n) (compares : n < 8)
    {f : Half → Half → Bool} (value : ∀ x y, (vsCompare n x y).1 = f x y) :
    ∃ r, h.vectorRun t v regs q = .ok (r, h) ∧ r.regs = regs ∧
      ∀ e < 64, r.value.getLsbD e = f (vget regs va.toNat e) (vget regs vb.toNat e) := by
  refine ⟨_, vectorRun_vs_of holds word form (by omega), rfl, fun e element => ?_⟩
  simp only [vsRun, if_pos compares]
  rw [getLsbD_maskOf _ element, ← value]
  simp [element]

theorem vmovs_gives (holds : q.op.word = wordOf (.vmovs d va ahead)) : ∃ r, h.vectorRun t v regs q = .ok (r, h) ∧ r.regs = regs ∧
    r.value = vget regs va.toNat 1 ++ vget regs va.toNat 0 :=
  ⟨_, vectorRun_vs_of (n := 11) holds rfl rfl (by decide), rfl, rfl⟩

end

/-! ## Residuals (R292) -/

theorem negNum_isNan (v : Num) : (negNum v).isNan = v.isNan := by cases v <;> rfl

/-- A sum with a NaN is a NaN. -/
theorem addNum_nan (r : Rnd) {x y : Num} (nan : x.isNan = true ∨ y.isNan = true) : ∃ s, addNum r x y = some (.nan s) := by
  match x, y with
  | .nan s, .nan t | .nan s, .inf _ | .nan s, .fin .. | .inf _, .nan t | .fin .., .nan t => exact ⟨_, rfl⟩
  | .inf _, .inf _ | .inf _, .fin .. | .fin .., .inf _ | .fin .., .fin .. => simp [Num.isNan] at nan

/-- The difference of two finite patterns. -/
def residRat (p : Nat × Nat) : ℚ := |(fp32.decode p.1).rat - (fp32.decode p.2).rat|

section
variable {a b : Nat}

theorem residElem_nan (other : a ≠ b) (nan : (fp32.decode a).isNan = true ∨ (fp32.decode b).isNan = true) : residElem a b = none := by
  obtain ⟨s, sum⟩ := addNum_nan .rne (nan.imp_right fun second => (negNum_isNan _).trans second)
  simp only [residElem, if_neg other, sum]

theorem residElem_fin {s t : Bool} {m n : Nat} {e g : Int} (other : a ≠ b) (first : fp32.decode a = .fin s m e)
    (second : fp32.decode b = .fin t n g) : ∃ k p, residElem a b = some (.fin false k p) ∧ (Num.fin false k p).rat = residRat (a, b) := by
  obtain ⟨u, k, p, sum, value⟩ := addNum_fin (s := s) (m := m) (e := e) (t := !t) (n := n) (g := g) .rne
  refine ⟨k, p, ?_, ?_⟩
  · simp only [residElem, if_neg other, first, second, negNum, sum]
  · rw [residRat, first, second, Num.rat_fin_abs (s := u), value, ← negNum, negNum_rat, sub_eq_add_neg]

end

/-- A finite residual taken into the greatest of those before it. -/
def residStep (b : Num) (p : Nat × Nat) : Num :=
  match residElem p.1 p.2 with
  | some v => if cmpNum b v == .lt then v else b
  | none => b

/-- The greatest of finite residuals: zero, or one of theirs. -/
def GreatestResid (ps : List (Nat × Nat)) (b : Num) : Prop :=
  ∃ m k, b = .fin false m k ∧ (∀ p ∈ ps, residRat p ≤ b.rat) ∧ (b.rat = 0 ∨ ∃ p ∈ ps, b.rat = residRat p)

theorem GreatestResid.step {ps : List (Nat × Nat)} {b : Num} (of : GreatestResid ps b) {p : Nat × Nat} {m : Nat} {k : Int}
    (value : residElem p.1 p.2 = some (.fin false m k)) (exact_ : (Num.fin false m k).rat = residRat p) :
    GreatestResid (ps ++ [p]) (residStep b p) := by
  obtain ⟨n, g, rfl, above, reached⟩ := of
  have step : residStep (.fin false n g) p = if (Num.fin false n g).rat < residRat p then .fin false m k else .fin false n g := by
    simp only [residStep, value, cmpNum_fin, exact_, beq_iff_eq, compare_lt_iff_lt]
  rw [step]
  split
  · rename_i below
    refine ⟨m, k, rfl, fun o listed => ?_, .inr ⟨p, by simp, exact_⟩⟩
    rw [exact_]
    rcases List.mem_append.1 listed with old | one
    · exact (above o old).trans below.le
    · rw [List.mem_singleton.1 one]
  · rename_i most
    refine ⟨n, g, rfl, fun o listed => ?_, reached.imp_right fun ⟨o, old, same⟩ => ⟨o, List.mem_append_left _ old, same⟩⟩
    rcases List.mem_append.1 listed with old | one
    · exact above o old
    · rw [List.mem_singleton.1 one]; exact not_lt.1 most

theorem greatestResid_foldl (ps : List (Nat × Nat))
    (finite : ∀ p ∈ ps, ∃ m k, residElem p.1 p.2 = some (.fin false m k) ∧ (Num.fin false m k).rat = residRat p) :
    GreatestResid ps (ps.foldl residStep (.fin false 0 0)) := by
  induction ps using List.reverseRecOn with
  | nil => exact ⟨0, 0, rfl, fun p listed => absurd listed List.not_mem_nil, .inl (Num.rat_eq_zero.2 rfl)⟩
  | append_singleton ps p of =>
    obtain ⟨m, k, value, exact_⟩ := finite p (by simp)
    rw [List.foldl_append]
    exact (of fun o old => finite o (List.mem_append_left _ old)).step value exact_

/-! ## Two blocks (R283, R284) -/

theorem lt_of_mem_ibLayout {d e : Nat} (small : d ≤ 8) (listed : e ∈ ibLayout d) : e < 64 := by
  have square : d * (d + 1) ≤ 8 * 9 := Nat.mul_le_mul small (by omega)
  simp only [ibLayout, List.mem_append, List.mem_range, List.mem_map] at listed
  rcases listed with triangle | ⟨i, vector, rfl⟩ <;> omega

/-- The elements of two blocks of a dimension that differ. -/
def residPairs (d : Nat) (x y : Nat → Half) : List (Nat × Nat) :=
  ((ibLayout d).map fun e => ((x e).toNat, (y e).toNat)).filter fun p => decide (p.1 ≠ p.2)

theorem mem_residPairs {d : Nat} {x y : Nat → Half} {p : Nat × Nat} :
    p ∈ residPairs d x y ↔ ∃ e ∈ ibLayout d, x e ≠ y e ∧ p = ((x e).toNat, (y e).toNat) := by
  simp only [residPairs, List.mem_filter, List.mem_map, decide_eq_true_eq]
  constructor
  · rintro ⟨⟨e, listed, rfl⟩, other⟩
    exact ⟨e, listed, fun same => other (congrArg BitVec.toNat same), rfl⟩
  · rintro ⟨e, listed, other, rfl⟩
    exact ⟨⟨e, listed, rfl⟩, fun same => other (BitVec.eq_of_toNat_eq same)⟩

/-- The greatest residual of the elements that differ. -/
def residResult (ps : List (Nat × Nat)) : Nat × BitVec 5 :=
  if ps.any fun p => (residElem p.1 p.2).isNone then
    (fp32.nanPat, flagIf (ps.any fun p => (fp32.decode p.1).isSnan || (fp32.decode p.2).isSnan) flNV)
  else fp32.round .rne (ps.foldl residStep (.fin false 0 0))

theorem ibResidual_eq {a b : List Half} : ibResidual a b = if ibOk a = true ∧ ibOk b = true ∧ ibDim a = ibDim b then
    .ok (residResult (residPairs (ibDim a) (a.getD · 0) (b.getD · 0))) else .error (edim a (ibDim b)) := by
  simp only [ibResidual, Bool.and_eq_true, decide_eq_true_eq, and_assoc]
  split
  · split
    · rename_i nan; exact congrArg Except.ok (if_pos nan).symm
    · rename_i finite; exact congrArg Except.ok (if_neg finite).symm
  · rfl

theorem residRat_elements (x y : Half) : residRat (x.toNat, y.toNat) = |ratOf x - ratOf y| := rfl

section
variable (d : Nat) (x y : Nat → Half)

/-- What VIBRES gives of two blocks of a dimension (R292). -/
theorem residual_of_blocks : let r := residResult (residPairs d x y)
    let w := BitVec.ofNat 64 r.1
    ((∀ e ∈ ibLayout d, x e = y e) → w = 0 ∧ r.2 = 0) ∧
    ((∃ e ∈ ibLayout d, x e ≠ y e ∧ (nanPattern (x e) ∨ nanPattern (y e))) → w = 0x7FC00000) ∧
    ((∀ e ∈ ibLayout d, x e = y e ∨ (finitePat (x e) ∧ finitePat (y e))) → ∃ m k,
      let top := (Num.fin false m k).rat
      (∀ e ∈ ibLayout d, x e ≠ y e → |ratOf (x e) - ratOf (y e)| ≤ top) ∧
      (top = 0 ∨ ∃ e ∈ ibLayout d, x e ≠ y e ∧ top = |ratOf (x e) - ratOf (y e)|) ∧
      w = BitVec.ofNat 64 (fp32.round .rne (.fin false m k)).1 ∧ r.2 = (fp32.round .rne (.fin false m k)).2) := by
  intro r w
  refine ⟨fun same => ?same, fun ⟨e, listed, other, nan⟩ => ?nan, fun finite => ?finite⟩
  case same =>
    have none_ : residPairs d x y = [] := List.eq_nil_iff_forall_not_mem.2 fun p listed =>
      have ⟨e, inside, other, _⟩ := mem_residPairs.1 listed
      other (same e inside)
    have value : r = (0, 0) := by
      simp only [r, none_]
      exact fp32_round_zero false 0
    exact ⟨congrArg (BitVec.ofNat 64 ·.1) value, congrArg Prod.snd value⟩
  case nan =>
    have none_ : residElem (x e).toNat (y e).toNat = none :=
      residElem_nan (fun same => other (BitVec.eq_of_toNat_eq same)) (nan.imp fp32_isNan_iff.2 fp32_isNan_iff.2)
    have found : (residPairs d x y).any (fun p => (residElem p.1 p.2).isNone) = true :=
      List.any_eq_true.2 ⟨_, mem_residPairs.2 ⟨e, listed, other, rfl⟩, by rw [none_]; rfl⟩
    exact congrArg (fun r : Nat × BitVec 5 => BitVec.ofNat 64 r.1) (if_pos found)
  case finite =>
    have values : ∀ p ∈ residPairs d x y, ∃ m k, residElem p.1 p.2 = some (.fin false m k) ∧ (Num.fin false m k).rat = residRat p := by
      intro p listed
      obtain ⟨e, inside, other, rfl⟩ := mem_residPairs.1 listed
      obtain ⟨first, second⟩ := (finite e inside).resolve_left other
      obtain ⟨_, _, _, a, -⟩ := fp32_decode_finite first
      obtain ⟨_, _, _, b, -⟩ := fp32_decode_finite second
      exact residElem_fin (fun same => other (BitVec.eq_of_toNat_eq same)) a b
    have all : (residPairs d x y).any (fun p => (residElem p.1 p.2).isNone) = false := by
      rw [List.any_eq_false]
      intro p listed
      obtain ⟨m, k, value, -⟩ := values p listed
      simp [value]
    obtain ⟨m, k, top, above, reached⟩ := greatestResid_foldl _ values
    rw [top] at above reached
    refine ⟨m, k, fun e inside other => ?_, reached.imp_right ?_, ?_⟩
    · rw [← residRat_elements]
      exact above _ (mem_residPairs.2 ⟨e, inside, other, rfl⟩)
    · rintro ⟨p, listed, same⟩
      obtain ⟨e, inside, other, rfl⟩ := mem_residPairs.1 listed
      rw [residRat_elements] at same
      exact ⟨e, inside, other, same⟩
    · have value : r = fp32.round .rne (.fin false m k) := by simp only [r, residResult, all, Bool.false_eq_true, if_false, top]
      exact ⟨congrArg (BitVec.ofNat 64 ·.1) value, congrArg Prod.snd value⟩

end

end Sys2Proof.Machine
end

section
/-! PROOFS. The family 09, vector commands: the end of a command (R172, R175, R208). -/

namespace Sys2Proof.Machine

/-! ## A listed thread -/

section
variable {h : Chip} {p : At} {x : Slot} {uid : Nat} {f : Thread → Thread}

theorem Chip.slot_of_listed (listed : h.listed p x) : h.slot p = x := by
  obtain ⟨k, c, cluster, core, slot⟩ := listed
  simp [Chip.slot, Chip.core, Chip.cluster, Map.getOr, cluster, core, Core.slot, slot]

theorem Chip.listed.modCluster (listed : h.listed p x) (v : Nat) {f : Cluster → Cluster} (cores : ∀ k, (f k).cores = k.cores) :
    (h.modCluster v f).listed p x := by
  obtain ⟨k, c, cluster, core, slot⟩ := listed
  by_cases same : p.v = v
  · have current : h.cluster v = k := by simp [Chip.cluster, Map.getOr, ← same, cluster]
    exact ⟨_, c, (Map.get_put ..).trans (if_pos same), by rw [cores, current, core], slot⟩
  · exact ⟨k, c, ((Map.get_put ..).trans (if_neg same)).trans cluster, core, slot⟩

theorem Chip.listed.modClaim (listed : h.listed p x) (v uid : Nat) (f : Claim → Claim) : (h.modClaim v uid f).listed p x :=
  listed.modCluster v (f := fun k => { k with claims := k.claims.map fun c => if c.uid = uid then f c else c }) fun _ => rfl

theorem Chip.cluster_mapThread (h : Chip) (uid : Nat) (f : Thread → Thread) (v : Nat) :
    (h.mapThread uid f).cluster v = (h.cluster v).mapThread uid f := by
  have each : (h.mapThread uid f).clusters.get v = (h.clusters.get v).map fun k => k.mapThread uid f :=
    Map.get_each h.clusters (fun _ k => k.mapThread uid f) v
  simp only [Chip.cluster, Map.getOr, each]
  cases h.clusters.get v <;> rfl

/-- A listed LIVE thread of this task becomes what the function makes of it. -/
theorem Chip.slot_mapThread {t : Thread} (listed : h.listed p (.live t)) (task : t.uid = uid) :
    (h.mapThread uid f).slot p = .live (f t) := by
  obtain ⟨k, c, cluster, core, slot⟩ := listed
  have mapped : (h.mapThread uid f).listed p ((Slot.live t).mapThread uid f) := by
    refine ⟨k.mapThread uid f, { c with slots := c.slots.each fun _ s => s.mapThread uid f }, ?_, ?_, ?_⟩
    · rw [Chip.mapThread, Map.get_each, cluster, Option.map_some]
    · rw [Cluster.mapThread, Map.get_each, core, Option.map_some]
    · rw [Map.get_each, slot, Option.map_some]
  rw [Chip.slot_of_listed mapped]
  exact if_pos task

theorem Chip.thread_of_placeOf (place : h.placeOf uid = some p) : ∃ t, h.thread? p = some t ∧ t.uid = uid := by
  have found := List.find?_some (Eq.trans rfl place)
  split at found
  · rename_i t thread
    exact ⟨t, thread, by simpa using (Bool.and_eq_true_iff.1 found).1⟩
  · cases found

theorem Chip.uid_of_placeOf {t : Thread} (place : h.placeOf uid = some p) (listed : h.listed p (.live t)) : t.uid = uid := by
  obtain ⟨u, thread, task⟩ := Chip.thread_of_placeOf place
  rw [Chip.thread?, Chip.slot_of_listed listed] at thread
  obtain rfl := Option.some.inj thread
  exact task

theorem Chip.findThread_of_placeOf {t : Thread} (place : h.placeOf uid = some p) (listed : h.listed p (.live t)) :
    h.findThread uid = some t := by
  simp only [Chip.findThread, place, Chip.thread?, Chip.slot_of_listed listed]
  rfl

end

/-! ## A thread's claim (R199) -/

section
variable {h : Chip} {v uid : Nat} {c : Claim}

theorem Chip.claimOf_modClaim (claim : (h.cluster v).claimOf uid = some c) {f : Claim → Claim} (keeps : ∀ c, (f c).uid = c.uid) :
    ((h.modClaim v uid f).cluster v).claimOf uid = some (f c) := by
  have task : c.uid = uid := by simpa using List.find?_some claim
  have same : (fun c : Claim => decide (c.uid = uid)) ∘ (fun c => if c.uid = uid then f c else c) = fun c => decide (c.uid = uid) := by
    funext d
    dsimp only [Function.comp]
    split <;> simp [keeps]
  rw [Chip.modClaim, Chip.cluster_modCluster, if_pos rfl, Cluster.claimOf, List.find?_map, same]
  rw [Cluster.claimOf] at claim
  simp [claim, task]

@[simp] theorem Chip.claimOf_mapThread (f : Thread → Thread) (u : Nat) :
    ((h.mapThread u f).cluster v).claimOf uid = ((h.cluster v).claimOf uid) := by
  rw [Chip.cluster_mapThread]
  rfl

end

/-! ## The head of a context's queue (R208) -/

/-- The listed LIVE thread of a task has a resident context with granted lanes, whose queue begins with the command. -/
structure Chip.VectorHead (h : Chip) (v uid : Nat) (p : At) (t : Thread) (c : Claim) (q : VCmd) (qs : List VCmd) : Prop where
  place : h.placeOf uid = some p
  listed : h.listed p (.live t)
  claim : (h.cluster v).claimOf uid = some c
  queue : c.queue = q :: qs
  resident : c.resident = true
  grant : c.grant ≠ 0

/-- What a thread keeps of a command that has ended (R208, R227). -/
def Thread.vectorDone (q : VCmd) (d : VDone) (t : Thread) : Thread :=
  if givesScalar q.op.word then t.arrive q.op.seq (.value d.value d.flags)
  else { t.settle q.op.seq with fflags := t.fflags ||| d.flags }

/-- What a claim keeps of a command that has ended, before its queue moves on. -/
def Claim.vectorDone (h : Chip) (t : Thread) (v : Nat) (q : VCmd) (d : VDone) (c : Claim) : Claim :=
  { c with v := d.regs, second := h.secondAfter t v c q }

section
variable {h g : Chip} {v uid : Nat} {p : At} {t : Thread} {c : Claim} {q : VCmd} {qs : List VCmd} {d : VDone}

theorem Thread.vectorDone_of_scalar (scalar : givesScalar q.op.word = true) :
    Thread.vectorDone q d = fun t => t.arrive q.op.seq (.value d.value d.flags) := by
  funext t
  exact if_pos scalar

theorem Thread.vectorDone_of_vector (vector : givesScalar q.op.word = false) :
    Thread.vectorDone q d = fun t => { t.settle q.op.seq with fflags := t.fflags ||| d.flags } := by
  funext t
  exact if_neg (by rw [vector]; decide)

theorem Chip.VectorHead.readyContext (head : h.VectorHead v uid p t c q qs) : h.readyContext v uid = h := by
  simp [Chip.readyContext, head.claim, head.resident, head.grant]

theorem Chip.VectorHead.completeVector_mismatch (head : h.VectorHead v uid p t c q qs)
    (differs : h.copyAgrees t v c q (h.runCommand t v c.v q) = false) : h.completeVector v uid = h.mismatched uid 1 := by
  simp [Chip.completeVector, head.readyContext, head.claim, Chip.findThread_of_placeOf head.place head.listed, head.queue, head.resident,
    head.grant, differs]

theorem Chip.VectorHead.completeVector (head : h.VectorHead v uid p t c q qs) (run : h.runCommand t v c.v q = .ok (d, g))
    (agrees : h.copyAgrees t v c q (.ok (d, g)) = true) : h.completeVector v uid =
      ((g.modClaim v uid (Claim.vectorDone h t v q d)).popVector v uid).mapThread uid (Thread.vectorDone q d) := by
  simp only [Chip.completeVector, head.readyContext, head.claim, Chip.findThread_of_placeOf head.place head.listed, head.queue, head.resident,
    head.grant, run, agrees]
  cases scalar : givesScalar q.op.word
  · rw [Thread.vectorDone_of_vector scalar]
    rfl
  · rw [Thread.vectorDone_of_scalar scalar]
    rfl

/-- The queue moves on; a thread with a slot keeps its lanes. -/
theorem Chip.popVector_of_no_parked (running : ∀ x ∈ (h.cluster v).parked, x.thread.uid ≠ uid) :
    h.popVector v uid = h.modClaim v uid fun c => { c with queue := c.queue.drop 1 } := by
  have parked := (Chip.SameButClaims.modClaim h v uid fun c => { c with queue := c.queue.drop 1 }).parked v
  unfold Chip.popVector
  dsimp only
  rw [if_neg]
  rw [parked, List.any_eq_true]
  rintro ⟨x, listed, same⟩
  exact running x listed (of_decide_eq_true same)

/-- A command that has ended and left the chip alone: the context, the queue and the thread take what it gives. -/
theorem Chip.VectorHead.after_completeVector (head : h.VectorHead v uid p t c q qs)
    (running : ∀ x ∈ (h.cluster v).parked, x.thread.uid ≠ uid)
    (run : h.runCommand t v c.v q = .ok (d, h)) (agrees : h.copyAgrees t v c q (.ok (d, h)) = true) :
    ((h.completeVector v uid).cluster v).claimOf uid = some { c with v := d.regs, second := h.secondAfter t v c q, queue := qs } ∧
      (h.completeVector v uid).slot p = .live (t.vectorDone q d) := by
  have parked := (Chip.SameButClaims.modClaim h v uid (Claim.vectorDone h t v q d)).parked v
  rw [head.completeVector run agrees, Chip.popVector_of_no_parked (by rwa [parked])]
  constructor
  · have context := Chip.claimOf_modClaim (f := Claim.vectorDone h t v q d) head.claim fun _ => rfl
    rw [Chip.claimOf_mapThread, Chip.claimOf_modClaim (f := fun c => { c with queue := c.queue.drop 1 }) context fun _ => rfl]
    simp only [Claim.vectorDone, head.queue, List.drop_one, List.tail_cons]
  · exact Chip.slot_mapThread ((head.listed.modClaim v uid _).modClaim v uid _)
      (Chip.uid_of_placeOf head.place head.listed)

/-- Copies whose flags differ do not agree. -/
theorem Chip.copyAgrees_of_flags {w : Map Half} {e : VDone} {f : Chip} (second : c.second = some w)
    (copy : h.runCommand t v w q = .ok (e, f)) (differ : d.flags ≠ e.flags) : h.copyAgrees t v c q (.ok (d, g)) = false := by
  simp [Chip.copyAgrees, second, copy, differ]

theorem Chip.copyAgrees_alone (alone : c.second = none) (r : Except Blocked (VDone × Chip)) : h.copyAgrees t v c q r = true := by
  simp [Chip.copyAgrees, alone]

/-- Only MBUPD looks at the SDQ where it ends. -/
theorem Chip.runCommand_of_major (other : major q.op.word ≠ 0x2E) (regs : Map Half) : h.runCommand t v regs q = h.vectorRun t v regs q := by
  simp only [Chip.runCommand, other, false_and, if_false]
  cases h.vectorRun t v regs q <;> rfl

end

section
variable {s : State} {v tid : Nat}

theorem exec_vectorCommandComplete (v tid : Nat) (s : State) : exec (.vectorCommandComplete v tid) s =
    unitEvent s v fun h => if h.limited v then h else h.completeVector v tid := rfl

theorem becomes_vectorCommandComplete (running : s.chip.running v = true) (free : s.chip.limited v = false) :
    Becomes (.vectorCommandComplete v tid) s (s.chip.completeVector v tid) := by
  simp [Becomes, exec_vectorCommandComplete, unitEvent, running, free]

end

end Sys2Proof.Machine
end

section
/-! PROOFS. The family 09, vector commands: the scalars of VS, and O35 (R224 to R226, R292). -/

namespace Sys2Proof.Machine

section
variable {h : Chip} {t : Thread} {v : Nat} {regs : Map Half} {q : VCmd} {va vb : BitVec 5} {d : BitVec 7} {ahead : BitVec 4}

theorem vreg_map_toNat (regs : Map Half) (a : Nat) : (vreg regs a).map (·.toNat) = (List.range 64).map fun e => (vget regs a e).toNat := by
  rw [vreg, List.map_map]
  rfl

theorem sumFp32_vreg (regs : Map Half) (a : Nat) :
    sumFp32 ((vreg regs a).map (·.toNat)) = (exactSum (elementValues (vget regs a))).roundFp32 := by
  rw [vreg_map_toNat, sumFp32, List.map_map]
  rfl

theorem vectorRun_vrsum (holds : q.op.word = wordOf (.vrsum d va ahead)) : h.vectorRun t v regs q =
    .ok (⟨regs, BitVec.ofNat 64 (exactSum (elementValues (vget regs va.toNat))).roundFp32.1,
      (exactSum (elementValues (vget regs va.toNat))).roundFp32.2⟩, h) := by
  rw [vectorRun_vs_of (n := 8) holds rfl rfl (by decide), vsRun, if_neg (by decide)]
  simp only [sumFp32_vreg]

/-- The flags of a VRMAX or a VRMIN: NV where an element is a signalling NaN. -/
def extremeFlags (x : Nat → Half) : BitVec 5 :=
  flagIf (((List.range 64).map fun e => (x e).toNat).any fun n => (fp32.decode n).isSnan) flNV

theorem extremeFlags_cases (x : Nat → Half) : ((∃ e < 64, (fp32.decode (x e).toNat).isSnan = true) → extremeFlags x = flNV) ∧
    (¬ (∃ e < 64, (fp32.decode (x e).toNat).isSnan = true) → extremeFlags x = 0) := by
  have any : (((List.range 64).map fun e => (x e).toNat).any fun n => (fp32.decode n).isSnan) = true ↔
      ∃ e < 64, (fp32.decode (x e).toNat).isSnan = true := by
    simp
  rw [extremeFlags, flagIf]
  exact ⟨fun signals => if_pos (any.2 signals), fun quiet => if_neg (mt any.1 quiet)⟩

theorem vectorRun_extreme {i : Instr} {max : Bool} (form : (i, max) ∈ [(Instr.vrmax d va ahead, true), (.vrmin d va ahead, false)])
    (holds : q.op.word = wordOf i) : h.vectorRun t v regs q =
      .ok (⟨regs, BitVec.ofNat 64 (vsExtreme max ((List.range 64).map fun e => (vget regs va.toNat e).toNat)),
        extremeFlags (vget regs va.toNat)⟩, h) := by
  simp only [List.mem_cons, Prod.mk.injEq, List.not_mem_nil, or_false] at form
  obtain ⟨rfl, rfl⟩ | ⟨rfl, rfl⟩ := form
  · rw [vectorRun_vs_of (n := 9) holds rfl rfl (by decide), vsRun, if_neg (by decide)]
    simp only [vreg_map_toNat, extremeFlags]
  · rw [vectorRun_vs_of (n := 10) holds rfl rfl (by decide), vsRun, if_neg (by decide)]
    simp only [vreg_map_toNat, extremeFlags]

theorem residPairs_congr {k : Nat} {x y x' y' : Nat → Half} (first : ∀ e ∈ ibLayout k, x e = x' e)
    (second : ∀ e ∈ ibLayout k, y e = y' e) :
    residPairs k x y = residPairs k x' y' := by
  rw [residPairs, List.map_congr_left fun e listed => by rw [first e listed, second e listed], residPairs]

/-- VIBRES of well-formed blocks of one dimension, by their elements. -/
theorem ibResidual_vreg {a b : Nat}
    (good : ibOk (vreg regs a) = true ∧ ibOk (vreg regs b) = true ∧ ibDim (vreg regs a) = ibDim (vreg regs b)) :
    ibResidual (vreg regs a) (vreg regs b) = .ok (residResult (residPairs (ibDim (vreg regs a)) (vget regs a) (vget regs b))) := by
  have small : ibDim (vreg regs a) ≤ 8 := (of_decide_eq_true good.1).2
  rw [ibResidual_eq, if_pos good, residPairs_congr (fun e listed => vreg_getD _ _ (lt_of_mem_ibLayout small listed) _)
    (fun e listed => vreg_getD _ _ (lt_of_mem_ibLayout small listed) _)]

theorem vibres_refuses (holds : q.op.word = wordOf (.vibres d va vb ahead))
    (bad : ¬ (ibOk (vreg regs va.toNat) = true ∧ ibOk (vreg regs vb.toNat) = true ∧ ibDim (vreg regs va.toNat) = ibDim (vreg regs vb.toNat))) :
    ∃ n, h.vectorRun t v regs q = .error (.fault .edim n) :=
  ⟨_, vectorRun_vibres_error (.of_wordVS holds) (ibResidual_eq.trans (if_neg bad))⟩

theorem vectorRun_vibres_of_good (holds : q.op.word = wordOf (.vibres d va vb ahead))
    (good : ibOk (vreg regs va.toNat) = true ∧ ibOk (vreg regs vb.toNat) = true ∧ ibDim (vreg regs va.toNat) = ibDim (vreg regs vb.toNat)) :
    h.vectorRun t v regs q =
      .ok (⟨regs, BitVec.ofNat 64 (residResult (residPairs (ibDim (vreg regs va.toNat)) (vget regs va.toNat) (vget regs vb.toNat))).1,
        (residResult (residPairs (ibDim (vreg regs va.toNat)) (vget regs va.toNat) (vget regs vb.toNat))).2⟩, h) :=
  vectorRun_vibres_ok (.of_wordVS holds) (ibResidual_vreg good)

end

theorem vsCompare_ne (x y : Half) : (vsCompare 5 x y).1 = decide (x ≠ y) := by
  simp only [vsCompare, bne, beq_eq_decide, decide_not]

/-! ## Integer commands (R216) -/

section
variable {h : Chip} {t : Thread} {v : Nat} {regs : Map Half} {q : VCmd} {vd va vb gp : BitVec 5}

/-- Each of the integer commands is a form of VI with this function of the elements. -/
theorem integer_form {k : Instr × (Half → Half → Half)}
    (form : k ∈ [(Instr.viadd vd va vb gp, fun x y : Half => x + y), (.visub vd va vb gp, fun x y => x - y),
      (.vimul vd va vb gp, fun x y => x * y), (.vand vd va vb gp, fun x y => x &&& y), (.vor vd va vb gp, fun x y => x ||| y),
      (.vxor vd va vb gp, fun x y => x ^^^ y)]) : ∃ fn, wordOf k.1 = wordV 41#6 fn vd va vb gp ∧ ∀ x y, viElem fn.toNat x y = k.2 x y := by
  simp only [List.mem_cons, List.not_mem_nil, or_false] at form
  rcases form with rfl | rfl | rfl | rfl | rfl | rfl
  · exact ⟨0#6, rfl, fun _ _ => rfl⟩
  · exact ⟨1#6, rfl, fun _ _ => rfl⟩
  · exact ⟨2#6, rfl, fun _ _ => rfl⟩
  · exact ⟨3#6, rfl, fun _ _ => rfl⟩
  · exact ⟨4#6, rfl, fun _ _ => rfl⟩
  · exact ⟨5#6, rfl, fun _ _ => rfl⟩

theorem Thread.vectorDone_quiet (vector : givesScalar q.op.word = false) (regs : Map Half) (x : Word) :
    t.vectorDone q ⟨regs, x, 0⟩ = t.settle q.op.seq := by
  rw [Thread.vectorDone_of_vector vector]
  simp [Thread.settle]

end

end Sys2Proof.Machine

open Sys2Proof Sys2Proof.Machine

/-- Settles O35: each form by its run, exact sums and extremes by an invariant of their folds over the elements, and the end of a command by
what its pop and its thread keep. -/
theorem vectorCommandsCompute : Obligations.VectorCommandsCompute := by
  unfold Obligations.VectorCommandsCompute
  refine ⟨fun vd va vb gp => ?elements,
    fun d va vb ahead h t v regs q => ⟨fun holds => ?sum, fun i max form holds => ?extreme, fun holds => ?residual⟩,
    fun d va vb ahead h t v regs q => ?compares, ?ends, ?integers, ?mismatch⟩
  case elements =>
    refine ⟨?_, ?_, ?_, ?_, ?_, ?_, ?_, ?_, ?_, ?_, ?_, ?_, ?_, ?_, ?_, ?_, fun h t v regs q => vperm_gives, fun h t v regs q => vsel_gives,
      fun h t v regs q => vbcast_gives, fun h t v regs q holds _ _ => vslide_gives holds, fun h t v regs q => vcomp_gives,
      fun h t v regs q => vsprs_gives⟩
    · exact .of_vf (vfn := 0#6) rfl fun _ _ _ _ => rfl
    · exact .of_vf (vfn := 1#6) rfl fun _ _ _ _ => rfl
    · exact .of_vf (vfn := 2#6) rfl fun _ _ _ _ => rfl
    · exact .of_vf (vfn := 3#6) rfl fun _ _ _ _ => rfl
    · exact .of_vf (vfn := 4#6) rfl fun _ _ _ _ => rfl
    · exact .of_vf (vfn := 5#6) rfl fun _ _ _ _ => rfl
    · exact .of_vf (vfn := 6#6) rfl fun _ _ _ _ => rfl
    · exact .of_vi (vfn := 0#6) rfl fun _ _ _ _ => rfl
    · exact .of_vi (vfn := 1#6) rfl fun _ _ _ _ => rfl
    · exact .of_vi (vfn := 2#6) rfl fun _ _ _ _ => rfl
    · exact .of_vi (vfn := 3#6) rfl fun _ _ _ _ => rfl
    · exact .of_vi (vfn := 4#6) rfl fun _ _ _ _ => rfl
    · exact .of_vi (vfn := 5#6) rfl fun _ _ _ _ => rfl
    · exact .of_vi (vfn := 6#6) rfl fun _ x y _ => congrArg (x <<< ·) (bits_low_five y)
    · exact .of_vi (vfn := 7#6) rfl fun _ x y _ => congrArg (x >>> ·) (bits_low_five y)
    · exact .of_vi (vfn := 8#6) rfl fun _ x y _ => (ofInt_toInt_div x _).trans (congrArg x.sshiftRight (bits_low_five y))
  case sum => exact ⟨_, vectorRun_vrsum holds, rfl, sum_of_elements (vget regs va.toNat)⟩
  case extreme =>
    obtain ⟨nan, number⟩ := extreme_of_elements max (vget regs va.toNat)
    obtain ⟨signals, quiet⟩ := extremeFlags_cases (vget regs va.toNat)
    exact ⟨_, vectorRun_extreme form holds, rfl, nan, number, signals, quiet⟩
  case residual =>
    exact ⟨vibres_refuses holds, fun good => ⟨_, vectorRun_vibres_of_good holds good, rfl,
      residual_of_blocks (ibDim (vreg regs va.toNat)) (vget regs va.toNat) (vget regs vb.toNat)⟩⟩
  case compares =>
    refine ⟨fun holds => ?_, fun holds => ?_, fun holds => ?_, fun holds => ?_, fun holds => ?_, fun holds => ?_, fun holds => ?_, fun holds => ?_,
      vmovs_gives⟩
    · exact compare_gives (n := 0) holds rfl rfl (by decide) fun _ _ => rfl
    · exact compare_gives (n := 1) holds rfl rfl (by decide) fun _ _ => rfl
    · exact compare_gives (n := 2) holds rfl rfl (by decide) fun _ _ => rfl
    · exact compare_gives (n := 3) holds rfl rfl (by decide) fun _ _ => rfl
    · exact compare_gives (n := 4) holds rfl rfl (by decide) fun _ _ => rfl
    · exact compare_gives (n := 5) holds rfl rfl (by decide) vsCompare_ne
    · exact compare_gives (n := 6) holds rfl rfl (by decide) fun _ _ => rfl
    · exact compare_gives (n := 7) holds rfl rfl (by decide) fun _ _ => rfl
  case ends =>
    intro s v tid p t c q qs d running free place listed claim queue resident grant slots run agrees
    have head : s.chip.VectorHead v tid p t c q qs := ⟨place, listed, claim, queue, resident, grant⟩
    obtain ⟨context, thread⟩ := head.after_completeVector slots run agrees
    exact ⟨_, becomes_vectorCommandComplete running free, context, thread⟩
  case integers =>
    intro s v tid p t c q qs vd va vb gp running free place listed claim queue resident grant slots alone k form holds
    have head : s.chip.VectorHead v tid p t c q qs := ⟨place, listed, claim, queue, resident, grant⟩
    obtain ⟨fn, word, value⟩ := integer_form form
    have fields : VFields q.op.word 41#6 fn vd va vb := .of_wordV (holds.trans word)
    have major : Machine.major q.op.word = 0x29 := fields.major
    have vector : givesScalar q.op.word = false := by simp [givesScalar, major]
    have run : s.chip.runCommand t v c.v q = .ok (⟨integerResult c.v q.mask fn.toNat vd.toNat va.toNat vb.toNat, 0, 0⟩, s.chip) :=
      (Chip.runCommand_of_major (by rw [major]; decide) c.v).trans (vectorRun_vi fields)
    obtain ⟨context, thread⟩ := head.after_completeVector slots run (Chip.copyAgrees_alone alone _)
    refine ⟨_, integerResult c.v q.mask fn.toNat vd.toNat va.toNat vb.toNat, becomes_vectorCommandComplete running free,
      context.trans ?_, thread.trans ?_, fun e element => ?_⟩
    · rw [Chip.secondAfter, alone, Option.map_none]
    · rw [Thread.vectorDone_quiet vector]
    · simp only [vget_integerResult _ _ _ _ _ _ element, true_and, value]
  case mismatch =>
    intro s v tid p t c w q d e g f running free place listed claim filled first resident grant second run copy differ
    obtain ⟨qs, queue⟩ : ∃ qs, c.queue = q :: qs := by
      cases found : c.queue with
      | nil => exact absurd found filled
      | cons x xs => rw [found] at first; exact ⟨xs, by rw [Option.some.inj first]⟩
    have head : s.chip.VectorHead v tid p t c q qs := ⟨place, listed, claim, queue, resident, grant⟩
    have ends := becomes_vectorCommandComplete (tid := tid) running free
    rwa [head.completeVector_mismatch (by rw [run]; exact Chip.copyAgrees_of_flags second copy differ)] at ends

end

section
/-! PROOFS. The family 10, bank modes (R178 to R181). -/

namespace Sys2Proof.Machine

/-! ## The banks of a mask -/

theorem mem_maskBanks {x : Word} {b : Nat} : b ∈ maskBanks x ↔ b < 32 ∧ x.getLsbD b = true := by
  simp [maskBanks]

theorem maskBanks_any {x : Word} {p : Nat → Bool} : (maskBanks x).any p = true ↔ ∃ b < 32, x.getLsbD b = true ∧ p b = true := by
  simp [mem_maskBanks, and_assoc]

/-- A word of 32 bits at most holds nothing above them. -/
theorem bits_above_eq_zero {x : Word} : bits x 32 32 = 0 ↔ x.toNat < 2 ^ 32 := by
  have bound := x.isLt
  rw [bits]
  omega

theorem sortedLT_filter_range (n : Nat) (p : Nat → Bool) : ((List.range n).filter p).SortedLT :=
  List.sortedLT_iff_pairwise.2 (List.pairwise_lt_range.filter _)

/-- The word that BMODE answers for busy banks has their bits. -/
theorem getLsbD_sum_two_pow {bs : List Nat} (sorted : bs.SortedLT) {n : Nat} (bit : n < 64) :
    (BitVec.ofNat 64 (bs.map fun b => 2 ^ b).sum).getLsbD n = decide (n ∈ bs) := by
  rw [BitVec.getLsbD_ofNat, decide_eq_true bit, Bool.true_and, Bool.eq_iff_iff, ← Nat.mem_bitIndices,
    Nat.bitIndices_sum_map_two_pow sorted, decide_eq_true_iff]

/-! ## What a switch changes -/

/-- The banks put into a mode one after another. -/
def Cluster.switchBanks (k : Cluster) (m : BankMode) (bs : List Nat) : Cluster := bs.foldl (fun k b => k.switchBank b m) k

theorem Cluster.mode_switchBanks (k : Cluster) (m : BankMode) (bs : List Nat) (n : Nat) :
    (k.switchBanks m bs).mode n = if n ∈ bs then m else k.mode n := by
  induction bs generalizing k with
  | nil => simp [Cluster.switchBanks]
  | cons b bs ih =>
    refine (ih (k.switchBank b m)).trans ?_
    rw [Cluster.mode_switchBank]
    by_cases later : n ∈ bs <;> simp [later]

theorem Cluster.cores_switchBanks (k : Cluster) (m : BankMode) (bs : List Nat) : (k.switchBanks m bs).cores = k.cores :=
  List.foldlRecOn (motive := fun j : Cluster => j.cores = k.cores) bs _ rfl fun _ same _ _ => same

/-- A filter by address reads as zero where it drops, and as before elsewhere. -/
theorem Mem.read_filter {m : Mem} (p : Nat → Bool) (canonical : Memory.wf m = true) (j : Nat) :
    Mem.read (m.filter fun c => p c.1) j = if p j then m.read j else 0 := by
  suffices ∀ a, Mem.wfFrom a m = true → Mem.read (m.filter fun c => p c.1) j = if p j then m.read j else 0 from this 0 canonical
  clear canonical
  induction m with
  | nil => intro a _; simp [Mem.read]
  | cons c m ih =>
    obtain ⟨i, x⟩ := c
    intro a canonical
    simp only [Mem.wfFrom, Bool.and_eq_true] at canonical
    obtain ⟨-, rest⟩ := canonical
    have above : j ≤ i → Mem.read m j = 0 := fun le => Mem.read_below rest (by omega)
    rw [List.filter_cons]
    split
    · rename_i kept
      simp only [Mem.read, ih _ rest]
      split
      · subst i; rw [if_pos kept]
      · split
        · rfl
        · split <;> rfl
    · rename_i dropped
      rw [ih _ rest]
      simp only [Mem.read]
      split
      · rename_i here
        split
        · subst i; exact absurd here dropped
        · split
          · rfl
          · exact above (by omega)
      · rfl

theorem Cluster.wf_switchBank {k : Cluster} (canonical : Memory.wf k.scratch = true) (b : Nat) (m : BankMode) :
    Memory.wf (k.switchBank b m).scratch = true := Mem.wf_filter _ canonical

theorem Cluster.read_switchBanks {k : Cluster} (canonical : Memory.wf k.scratch = true) (m : BankMode) (bs : List Nat) (j : Nat) :
    (k.switchBanks m bs).scratch.read j = if j / 65536 ∈ bs then 0 else k.scratch.read j := by
  induction bs generalizing k with
  | nil => simp [Cluster.switchBanks]
  | cons b bs ih =>
    refine (ih (Cluster.wf_switchBank canonical b m)).trans ?_
    have first : (k.switchBank b m).scratch.read j = if j / 65536 = b then 0 else k.scratch.read j := by
      rw [Cluster.switchBank]
      simpa using Mem.read_filter (fun a => decide (a / 65536 ≠ b)) canonical j
    by_cases later : j / 65536 ∈ bs <;> simp [later, first]

/-- The chips differ at most in the pending sets of their clusters. -/
structure Chip.SameButPending (h g : Chip) : Prop where
  cluster : ∀ u, ∃ pending, g.cluster u = { h.cluster u with pending := pending }
  data : h.SameData g

/-- Messages that enter the pending set change nothing else (R353). -/
theorem Chip.SameButPending.enterPending (h : Chip) (v : Nat) (xs : List Header) : h.SameButPending (h.enterPending v xs) := by
  induction xs generalizing h with
  | nil => exact ⟨fun u => ⟨_, rfl⟩, .refl h⟩
  | cons x xs ih =>
    unfold Chip.enterPending
    dsimp only
    split
    · obtain ⟨cluster, data⟩ := ih (h.modCluster v _)
      refine ⟨fun u => ?_, (Chip.SameData.modCluster h v (by intro; rfl)).trans data⟩
      obtain ⟨pending, later⟩ := cluster u
      rw [later, Chip.cluster_modCluster]
      split
      · subst u; exact ⟨_, rfl⟩
      · exact ⟨_, rfl⟩
    · exact ⟨fun u => ⟨_, rfl⟩, .refl h⟩

section
variable {h g : Chip}

theorem Chip.SameButPending.sameCores (same : h.SameButPending g) : h.SameCores g :=
  ⟨fun u => by obtain ⟨_, cluster⟩ := same.cluster u; rw [cluster]⟩

theorem Chip.SameButPending.mode (same : h.SameButPending g) (u b : Nat) : (g.cluster u).mode b = (h.cluster u).mode b := by
  obtain ⟨_, cluster⟩ := same.cluster u
  rw [cluster]
  rfl

end

/-- The chip with banks of a cluster put into a mode; messages enter the pending set as FIFO banks have room for them (R180, R353). -/
def Chip.switchBanks (h : Chip) (v : Nat) (m : BankMode) (bs : List Nat) : Chip :=
  (h.modCluster v fun k => k.switchBanks m bs).fillPending v

section
variable (h : Chip) (v : Nat) (m : BankMode) (bs : List Nat)

theorem Chip.switchBanks_sameButPending : (h.modCluster v fun k => k.switchBanks m bs).SameButPending (h.switchBanks v m bs) :=
  .enterPending ..

theorem Chip.SameCores.switchBanks : h.SameCores (h.switchBanks v m bs) :=
  (Chip.SameCores.modCluster h v fun k => k.cores_switchBanks m bs).trans (h.switchBanks_sameButPending v m bs).sameCores

theorem Chip.mode_switchBanks (n : Nat) : ((h.switchBanks v m bs).cluster v).mode n = if n ∈ bs then m else (h.cluster v).mode n := by
  rw [(h.switchBanks_sameButPending v m bs).mode, Chip.cluster_modCluster, if_pos rfl, Cluster.mode_switchBanks]

theorem Chip.memoryAfter_switchBanks (canonical : Memory.wf (h.cluster v).scratch = true) :
    MemoryAfter h (h.switchBanks v m bs) v fun j => if j / 65536 ∈ bs then 0 else (h.cluster v).scratch.read j := by
  have switched : MemoryAfter h (h.modCluster v fun k => k.switchBanks m bs) v fun j =>
      if j / 65536 ∈ bs then 0 else (h.cluster v).scratch.read j := by
    refine ⟨fun j => ?_, fun u other => ?_, rfl, rfl, rfl⟩
    · rw [Chip.cluster_modCluster, if_pos rfl, Cluster.read_switchBanks canonical]
    · rw [Chip.cluster_modCluster, if_neg other]
  exact switched.within (Chip.SameData.refl h).toSameMemory (h.switchBanks_sameButPending v m bs).data.toSameMemory

end

/-! ## BMODE (R180) -/

section
variable {h : Chip} {v : Nat} {w : Half} {x y : Word}

theorem Chip.bmode_illegal (bad : x = 0 ∨ 2 ^ 32 ≤ x.toNat ∨ 5 < y.toNat) : h.bmode v w x y = .error (.trap .eill (tvalWord w)) := by
  refine if_pos (bad.imp_right (Or.imp_left fun wide => ?_))
  rw [ne_eq, bits_above_eq_zero]
  omega

variable (some_ : x ≠ 0) (banks : x.toNat < 2 ^ 32) (mode : y.toNat ≤ 5)
include some_ banks mode

/-- What a mask and a mode within their ranges come to. -/
theorem Chip.bmode_eq : h.bmode v w x y =
    if y = 5 ∨ (maskBanks x).any (fun b => (h.cluster v).mode b == .cairn) then .error (.trap .eperm x)
    else
      let busy := (maskBanks x).filter (h.bankLive v)
      if busy ≠ [] then .ok (BitVec.ofNat 64 (busy.map fun b => 2 ^ b).sum, h)
      else if (maskBanks x).any (h.bankInUse v) then .error .stall
      else .ok (0, h.switchBanks v (bankModeOf y.toNat) (maskBanks x)) :=
  if_neg (not_or.2 ⟨some_, not_or.2 ⟨not_not.2 (bits_above_eq_zero.2 banks), not_lt.2 mode⟩⟩)

theorem Chip.bmode_eperm (cairn : y = 5 ∨ ∃ n < 32, x.getLsbD n = true ∧ (h.cluster v).mode n = .cairn) :
    h.bmode v w x y = .error (.trap .eperm x) :=
  (Chip.bmode_eq some_ banks mode).trans (if_pos (cairn.imp_right fun held => maskBanks_any.2 (by simpa using held)))

variable (noCairn : y ≠ 5) (open_ : ∀ n < 32, x.getLsbD n = true → (h.cluster v).mode n ≠ .cairn)
include noCairn open_

theorem Chip.bmode_open : h.bmode v w x y =
    let busy := (maskBanks x).filter (h.bankLive v)
    if busy ≠ [] then .ok (BitVec.ofNat 64 (busy.map fun b => 2 ^ b).sum, h)
    else if (maskBanks x).any (h.bankInUse v) then .error .stall
    else .ok (0, h.switchBanks v (bankModeOf y.toNat) (maskBanks x)) := by
  refine (Chip.bmode_eq some_ banks mode).trans (if_neg ?_)
  rintro (cairn | cairn)
  · exact noCairn cairn
  · obtain ⟨n, bank, named, cairn⟩ := maskBanks_any.1 cairn
    exact open_ n bank named (by simpa using cairn)

theorem Chip.bmode_live (live : ∃ n < 32, x.getLsbD n = true ∧ h.bankLive v n = true) :
    ∃ m : Word, h.bmode v w x y = .ok (m, h) ∧ ∀ n < 64, m.getLsbD n = (decide (n < 32) && x.getLsbD n && h.bankLive v n) := by
  obtain ⟨b, bank, named, live⟩ := live
  have busy : (maskBanks x).filter (h.bankLive v) ≠ [] :=
    List.ne_nil_of_mem (List.mem_filter.2 ⟨mem_maskBanks.2 ⟨bank, named⟩, live⟩)
  refine ⟨_, (Chip.bmode_open some_ banks mode noCairn open_).trans (if_pos busy), fun n bit => ?_⟩
  have sorted : ((maskBanks x).filter (h.bankLive v)).SortedLT :=
    List.sortedLT_iff_pairwise.2 ((sortedLT_filter_range 32 _).pairwise.filter _)
  rw [getLsbD_sum_two_pow sorted bit, Bool.eq_iff_iff]
  simp [mem_maskBanks]

theorem Chip.bmode_idle (idle : ∀ n < 32, x.getLsbD n = true → h.bankLive v n = false ∧ h.bankInUse v n = false) :
    h.bmode v w x y = .ok (0, h.switchBanks v (bankModeOf y.toNat) (maskBanks x)) := by
  have noLive : (maskBanks x).filter (h.bankLive v) = [] := by
    refine List.filter_eq_nil_iff.2 fun b named => ?_
    obtain ⟨bank, bit⟩ := mem_maskBanks.1 named
    simp [(idle b bank bit).1]
  have noUse : ¬ (maskBanks x).any (h.bankInUse v) = true := fun used => by
    obtain ⟨b, bank, bit, used⟩ := maskBanks_any.1 used
    simp [(idle b bank bit).2] at used
  exact (Chip.bmode_open some_ banks mode noCairn open_).trans ((if_neg (not_not.2 noLive)).trans (if_neg noUse))

end

/-- What BMODE does once it has issued. -/
def bmodeBody (d a b : BitVec 7) (w : Half) (p : At) (h : Chip) : Except Stop Chip := do
  let (x, h) ← h.readAt p a
  let (y, h) ← h.readAt p b
  let (r, h) ← h.bmode p.v w x y
  .ok (h.writeDst p d r)

theorem exec_bmode (d a b : BitVec 7) (s : State) : exec (.bmode d a b) s =
    issueChip (form (wordOf (.bmode d a b)) [.dst d, .src a, .src b] true) s fun _ => bmodeBody d a b (wordOf (.bmode d a b)) := rfl

section
variable {s : State} {f : Form} {y z : Here} {d a b : BitVec 7} {u v : Word} {w : Half}

theorem bmodeBody_of_read (issues : Issues s f y) (operands : Reads2 y a b u v z) : bmodeBody d a b w s.place (s.holding y.passed) =
    ((s.holding z).bmode s.place.v w u v).bind fun r => .ok (r.2.writeDst s.place d r.1) := by
  obtain ⟨x, first, second⟩ := operands
  simp only [bmodeBody, bind, Except.bind, issues.read first, issues.read second]

end

end Sys2Proof.Machine

open Sys2Proof Sys2Proof.Machine

/-- Settles O25: the outcomes of BMODE, and the memory and the modes that a switch leaves. -/
theorem bankModesSwitch : Obligations.BankModesSwitch := by
  intro d a b s y u w z issues operands
  have body {r} (is : (s.holding z).bmode s.place.v (wordOf (.bmode d a b)) u w = r) :=
    (bmodeBody_of_read (d := d) issues operands).trans (congrArg (Except.bind · _) is)
  refine ⟨fun bad => ?illegal, fun some_ banks mode => ⟨fun cairn => ?refused, fun noCairn open_ => ⟨fun live => ?live, fun idle => ?idle⟩⟩⟩
  case illegal => exact raises_of_chip (exec_bmode d a b s) issues (body (Chip.bmode_illegal bad))
  case refused =>
    refine raises_of_chip (exec_bmode d a b s) issues (body (Chip.bmode_eperm some_ banks mode (cairn.imp_left fun same => ?_)))
    exact same
  case live =>
    obtain ⟨m, is, word⟩ := Chip.bmode_live (w := wordOf (.bmode d a b)) some_ banks mode noCairn open_ live
    refine ⟨m, leavesThread_of_chip (exec_bmode d a b s) issues ((body is).trans ?_), word⟩
    exact congrArg Except.ok (issues.writeDst z d m)
  case idle =>
    have switched := Chip.bmode_idle (w := wordOf (.bmode d a b)) some_ banks mode noCairn open_ idle
    have stands : ((s.holding z).switchBanks s.place.v (bankModeOf w.toNat) (maskBanks u)).here? s.place = some z :=
      ((Chip.SameCores.switchBanks ..).here?_eq _).trans (issues.here z)
    have written := Chip.SameButCores.writeDst ((s.holding z).switchBanks s.place.v (bankModeOf w.toNat) (maskBanks u)) s.place d 0
    refine ⟨_, leavesChip_of_chip (exec_bmode d a b s) issues (body switched), Chip.here?_writeDst stands d 0, fun n bank => ?mode,
      fun canonical => ?memory⟩
    case mode =>
      obtain ⟨_, cluster⟩ := written.cluster s.place.v
      refine (congrArg (Cluster.mode · n) cluster).trans ((Chip.mode_switchBanks ..).trans ?_)
      simp only [mem_maskBanks, bank, true_and]
    case memory =>
      have changed := ((s.holding z).memoryAfter_switchBanks s.place.v (bankModeOf w.toNat) (maskBanks u) canonical).within
        (s.sameButCores_holding z).sameData.toSameMemory written.sameData.toSameMemory
      have selects (n : Nat) : n ∈ maskBanks u ↔ u.getLsbD n = true :=
        mem_maskBanks.trans (and_iff_right_of_imp fun named => by
          by_contra above
          rw [BitVec.getLsbD, Nat.testBit_lt_two_pow (banks.trans_le (Nat.pow_le_pow_right (by decide) (not_lt.1 above)))] at named
          contradiction)
      simpa only [selects] using changed

end

section
/-! PROOFS. The family 10, the cluster cache and HOME (R185, R186, R194, R196). -/

namespace Sys2Proof.Machine

/-! ## CFLUSH and CINV (R185, R186) -/

/-- What CFLUSH does once it has issued. -/
def cflushBody (self : Thread) (p : At) (h : Chip) : Except Stop Chip :=
  if h.hasThroughs p.v self.uid then .error .stall else .ok h

theorem exec_cflush (s : State) : exec .cflush s = issueChip (form (wordOf .cflush)) s cflushBody := rfl

/-- The cluster without the lines that CINV of `n` bytes at `x` drops, as the chip `h` knows their addresses (R185). -/
def Cluster.invalidate (k : Cluster) (h : Chip) (pid x n : Nat) : Cluster :=
  { k with cache := k.cache.filter fun c => !h.invalidates pid x n c.pa }

/-- What CINV does once it has issued. -/
def cinvBody (a b : BitVec 7) (self : Thread) (p : At) (h : Chip) : Except Stop Chip := do
  let (x, h) ← h.readAt p a
  let (y, h) ← h.readAt p b
  if y = 0 ∨ 2 ^ 32 < y.toNat ∨ windowOf x.toNat ≠ .global ∨ windowOf (x.toNat + y.toNat - 1) ≠ .global then .ok h
  else .ok (h.modCluster p.v fun k => k.invalidate h self.pid x.toNat y.toNat)

theorem exec_cinv (a b : BitVec 7) (s : State) :
    exec (.cinv a b) s = issueChip (form (wordOf (.cinv a b)) [.src a, .src b]) s (cinvBody a b) := rfl

section
variable {s : State} {f : Form} {y z : Here} {a b : BitVec 7} {u w : Word}

theorem cinvBody_of_read (issues : Issues s f y) (operands : Reads2 y a b u w z) (self : Thread) :
    cinvBody a b self s.place (s.holding y.passed) =
      if w = 0 ∨ 2 ^ 32 < w.toNat ∨ windowOf u.toNat ≠ .global ∨ windowOf (u.toNat + w.toNat - 1) ≠ .global then .ok (s.holding z)
      else .ok ((s.holding z).modCluster s.place.v fun k => k.invalidate (s.holding z) self.pid u.toNat w.toNat) := by
  obtain ⟨x, first, second⟩ := operands
  simp only [cinvBody, bind, Except.bind, issues.read first, issues.read second]

end

/-! ## HOME (R194, R196) -/

/-- What HOME does once it has issued. -/
def homeBody (self : Thread) (p : At) (h : Chip) : Except Stop Chip :=
  if !self.away then .ok h
  else if !h.mayLeave p self then .error .stall
  else .ok (h.migrate p self.homeV self.homeC none)

theorem exec_home (s : State) : exec .home s = issueChip (form (wordOf .home)) s homeBody := rfl

theorem Chip.slot_send (h : Chip) (src d : Nat) (b : Packetry) (q : At) : (h.send src d b).slot q = h.slot q := rfl

section
variable {h : Chip} {p : At} {x : Here} (here : h.here? p = some x) (u core : Nat) (access : Option Pend)
include here

/-- A thread that migrates leaves its slot free and is a packet to its new cluster: its registers are those that it carries, and a debug
STEP is over (R194; log 67). -/
theorem Chip.migrate_leaves : ∃ f q, (h.migrate p u core access).slot p = .free ∧
    (h.migrate p u core access).flights.get h.nextSeq = some f ∧ f.body = .migration u q ∧
      q.thread = { x.th with stepOnce := false } ∧ q.core = core ∧ q.access = access ∧ q.regs = carried x.th x.file := by
  have seq : (h.freeSlots p).nextSeq = h.nextSeq := (congrArg Chip.nextSeq (Chip.SameButCores.freeSlots h p).rest :)
  simp only [Chip.migrate, here]
  refine ⟨_, _, ?free, (congrArg (Map.get _) seq.symm).trans (Map.get_put_same ..), rfl, rfl, rfl, rfl, rfl⟩
  case free =>
    rw [Chip.slot_send]
    exact ((Chip.SameCores.modCluster _ _ (by intro; rfl)).slot_eq p).trans (h.slot_freeSlots p)

end

/-- Past its instruction a thread carries the same registers. -/
theorem carried_past (t : Thread) (file : Map Word) : carried t.past file = carried t file := by
  obtain ⟨frame, pc, past⟩ := t.past_eq
  rw [past]
  rfl

end Sys2Proof.Machine

open Sys2Proof Sys2Proof.Machine

/-- Settles O26: the bodies of CFLUSH, CINV and HOME, and the packet that a migration leaves. -/
theorem cacheAndHome : Obligations.CacheAndHome := by
  refine ⟨fun s y issues => ⟨fun done => ?passes, fun busy => ?waits⟩,
    fun a b s y u w z issues operands => ⟨fun outside => ?nothing, fun ⟨nonzero, short, first, last⟩ => ?drops⟩,
    fun s y issues => ⟨fun atHome => ?stays, fun away held => ?held, fun away free => ?goes⟩⟩
  case passes => exact leavesThread_of_chip (exec_cflush s) issues (if_neg (Bool.eq_false_iff.1 done))
  case waits => exact waits_of_chip (exec_cflush s) issues (if_pos busy)
  case nothing =>
    refine leavesThread_of_chip (exec_cinv a b s) issues ((cinvBody_of_read issues operands y.th).trans (if_pos ?_))
    have zero : w = 0 ↔ w.toNat = 0 := BitVec.toNat_inj.symm
    rw [zero]
    by_contra all
    simp only [not_or, not_not, not_lt] at all
    obtain ⟨nonzero, short, windows⟩ := all
    exact outside ⟨Nat.pos_of_ne_zero nonzero, short, windows⟩
  case drops =>
    refine leavesChip_of_chip (exec_cinv a b s) issues ((cinvBody_of_read issues operands y.th).trans (if_neg ?_))
    rintro (rfl | long | other | other)
    · exact absurd nonzero (by decide)
    · omega
    · exact other first
    · exact other last
  case stays => exact leavesThread_of_chip (exec_home s) issues (if_pos (by simp [atHome]))
  case held =>
    exact waits_of_chip (exec_home s) issues
      ((if_neg (by simp [away])).trans (if_pos (by rw [show (s.holding y.passed).mayLeave s.place y.th = false from held]; rfl)))
  case goes =>
    have leaves := leavesChip_of_chip (exec_home s) issues
      ((if_neg (by simp [away])).trans (if_neg (by rw [show (s.holding y.passed).mayLeave s.place y.th = true from free]; decide)))
    obtain ⟨f, q, slot, found, body, thread, core, access, regs⟩ :=
      Chip.migrate_leaves (issues.here y.passed) y.th.homeV y.th.homeC none
    exact ⟨_, f, q, leaves, slot, found, body, thread, core, access, regs.trans (carried_past ..)⟩

end

section
/-! PROOFS. The family 10, memories in canonical form (log 6): what keeps the form, for maps, for clusters and for the chip, and how
the outcome of an operation that may stop is spoken of. The blocks of this development are elaborated one theorem after another: side
by side, theorems that wait for the equations of the same definition take a thread each, and together more memory than the check has. -/

namespace Sys2Proof.Machine

set_option Elab.async false

/-! ## Outcomes -/

/-- A computation that may fail gives, where it succeeds, a value of which `P` holds. -/
structure Gives {ε α : Type} (P : α → Prop) (r : Except ε α) : Prop where
  of_ok : ∀ {x}, r = .ok x → P x

/-- The same of a value that may be missing. -/
structure GivesSome {α : Type} (P : α → Prop) (r : Option α) : Prop where
  of_some : ∀ {x}, r = some x → P x

/-- A step that answers a next state answers one of which `P` holds. -/
structure Answers (P : State → Prop) (r : Host.Outcome State Fault Refusal) : Prop where
  of_next : ∀ {s}, r = .next s → P s

section
variable {ε α β : Type} {P : α → Prop} {Q : β → Prop}

theorem Gives.ok {x : α} (holds : P x) : Gives P (.ok x : Except ε α) := ⟨fun is => Except.ok.inj is ▸ holds⟩

theorem Gives.error {e : ε} : Gives P (.error e) := ⟨nofun⟩

theorem Gives.ite {p : Prop} [Decidable p] {r q : Except ε α} (yes : Gives P r) (no : Gives P q) : Gives P (if p then r else q) := by
  split
  · exact yes
  · exact no

theorem Gives.bind {r : Except ε α} {f : α → Except ε β} (gives : Gives P r) (next : ∀ x, P x → Gives Q (f x)) :
    Gives Q (r >>= f) := by
  cases r with
  | ok x => exact next x (gives.of_ok rfl)
  | error e => exact .error

theorem Gives.bind_any {r : Except ε α} {f : α → Except ε β} (next : ∀ x, Gives Q (f x)) : Gives Q (r >>= f) :=
  Gives.bind (P := fun _ => True) ⟨fun _ => trivial⟩ fun x _ => next x

theorem Gives.foldlM {f : α → β → Except ε α} (step : ∀ x y, P x → Gives P (f x y)) {x : α} (holds : P x) (ys : List β) :
    Gives P (ys.foldlM f x) := by
  induction ys generalizing x with
  | nil => exact .ok holds
  | cons y ys ih => exact (step x y holds).bind fun z held => ih held

theorem GivesSome.present {x : α} (holds : P x) : GivesSome P (some x) := ⟨fun is => Option.some.inj is ▸ holds⟩

theorem GivesSome.absent : GivesSome P none := ⟨nofun⟩

theorem GivesSome.ite {p : Prop} [Decidable p] {r q : Option α} (yes : GivesSome P r) (no : GivesSome P q) :
    GivesSome P (if p then r else q) := by
  split
  · exact yes
  · exact no

theorem GivesSome.map {r : Option β} {f : β → α} (each : ∀ x, P (f x)) : GivesSome P (r.map f) := by
  cases r with
  | none => exact .absent
  | some x => exact .present (each x)

theorem GivesSome.getD {r : Option α} {x : α} (gives : GivesSome P r) (other : P x) : P (r.getD x) := by
  cases r with
  | none => exact other
  | some y => exact gives.of_some rfl

theorem Answers.next {P : State → Prop} {s : State} (holds : P s) : Answers P (.next s) :=
  ⟨fun is => Host.Outcome.next.inj is ▸ holds⟩

theorem Answers.fault {P : State → Prop} {e : Fault} : Answers P (.fault e) := ⟨nofun⟩

theorem Answers.refused {P : State → Prop} {e : Refusal} : Answers P (.refused e) := ⟨nofun⟩

theorem Answers.ite {P : State → Prop} {p : Prop} [Decidable p] {r q : Host.Outcome State Fault Refusal} (yes : Answers P r)
    (no : Answers P q) : Answers P (if p then r else q) := by
  split
  · exact yes
  · exact no

end

/-! ## Clusters listed -/

section
variable {α : Type} {P : α → Prop} {m : Map α} {v : Nat} {x : α}

theorem Map.forall_get (each : ∀ p ∈ m, P p.2) (found : m.get v = some x) : P x := each _ (Map.mem_of_get found)

theorem Map.forall_getOr (each : ∀ p ∈ m, P p.2) (own : P x) (v : Nat) : P (m.getOr v x) := by
  unfold Map.getOr
  cases found : m.get v with
  | none => exact own
  | some y => exact Map.forall_get each found

theorem Map.forall_put (each : ∀ p ∈ m, P p.2) (own : P x) : ∀ p ∈ m.put v x, P p.2 := by
  intro p mem
  rcases Map.mem_put mem with rfl | mem
  · exact own
  · exact each p mem

theorem Map.forall_erase (each : ∀ p ∈ m, P p.2) : ∀ p ∈ m.erase v, P p.2 := fun p mem => each p (Map.mem_erase mem)

end

section
variable {m : Map Cluster} {k : Cluster} {v : Nat}

/-- A cluster that is not listed holds nothing. -/
theorem canonicalClusters.getOr (each : canonicalClusters m) (v : Nat) : (m.getOr v {}).canonical :=
  Map.forall_getOr (P := Cluster.canonical) (x := {}) each rfl v

theorem canonicalClusters.put (each : canonicalClusters m) (own : k.canonical) : canonicalClusters (m.put v k) := Map.forall_put each own

theorem canonicalClusters.erase (each : canonicalClusters m) : canonicalClusters (m.erase v) := Map.forall_erase each

theorem canonicalClusters.filter (each : canonicalClusters m) (f : Nat × Cluster → Bool) : canonicalClusters (m.filter f) :=
  fun p mem => each p (List.mem_of_mem_filter mem)

theorem canonicalClusters.append {n : Map Cluster} (each : canonicalClusters m) (other : canonicalClusters n) :
    canonicalClusters (m ++ n) :=
  List.forall_mem_append.2 ⟨each, other⟩

theorem canonicalClusters.nil : canonicalClusters [] := fun _ mem => nomatch mem

theorem canonicalClusters.each (all : canonicalClusters m) {f : Nat → Cluster → Cluster}
    (keeps : ∀ v k, k.canonical → (f v k).canonical := by exact fun _ _ own => own) : canonicalClusters (m.each f) := by
  intro p mem
  obtain ⟨q, listed, rfl⟩ := List.mem_map.1 mem
  exact keeps _ _ (all q listed)

/-- Clusters put one after another. -/
theorem canonicalClusters.puts {α : Type} {key : α → Nat} {value : α → Cluster} (xs : List α)
    (values : ∀ x ∈ xs, (value x).canonical) (each : canonicalClusters m) : canonicalClusters (xs.foldl (fun m x => m.put (key x) (value x)) m) :=
  List.foldlRecOn (motive := canonicalClusters) xs _ each fun _ all x mem => all.put (values x mem)

end

/-! ## The chip -/

section
variable {h g : Chip} {v pid : Nat}

/-- A change that touches neither clusters, partitions, images nor memories. -/
theorem Chip.Canonical.elsewhere (c : h.Canonical) (hbm : g.hbm = h.hbm := by rfl) (flash : g.flash = h.flash := by rfl)
    (host : g.host = h.host := by rfl) (clusters : g.clusters = h.clusters := by rfl) (parts : g.parts = h.parts := by rfl)
    (images : g.images = h.images := by rfl) (older : g.older = h.older := by rfl) (atPoints : g.atPoints = h.atPoints := by rfl) :
    g.Canonical where
  hbm := hbm ▸ c.hbm
  flash := flash ▸ c.flash
  host := host ▸ c.host
  clusters := clusters ▸ c.clusters
  parts := parts ▸ c.parts
  images := images ▸ c.images
  older := older ▸ c.older
  atPoints := atPoints ▸ c.atPoints

theorem Chip.Canonical.cluster (c : h.Canonical) (v : Nat) : (h.cluster v).canonical := c.clusters.getOr v

/-- A partition that is not listed has set nothing aside. -/
theorem Chip.Canonical.part (c : h.Canonical) (pid : Nat) : canonicalClusters (h.part pid).saved :=
  Map.forall_getOr (P := fun q : Partition => canonicalClusters q.saved) c.parts canonicalClusters.nil pid

/-- Other clusters. -/
theorem Chip.Canonical.withClusters (c : h.Canonical) {m : Map Cluster} (clusters : canonicalClusters m) :
    Chip.Canonical { h with clusters := m } :=
  { c with clusters }

/-- Every cluster changed. -/
theorem Chip.Canonical.eachCluster (c : h.Canonical) {f : Nat → Cluster → Cluster}
    (keeps : ∀ v k, k.canonical → (f v k).canonical := by exact fun _ _ own => own) :
    Chip.Canonical { h with clusters := h.clusters.each f } :=
  c.withClusters (c.clusters.each keeps)

section
variable (c : h.Canonical)
include c

theorem Chip.Canonical.withTasks {m : Map Task} : Chip.Canonical { h with tasks := m } := c.elsewhere

theorem Chip.Canonical.withFlights {m : Map Flight} : Chip.Canonical { h with flights := m } := c.elsewhere

theorem Chip.Canonical.withWalks {l : List Walk} : Chip.Canonical { h with walks := l } := c.elsewhere

theorem Chip.Canonical.withTiers {t : Tiers} : Chip.Canonical { h with tiers := t } := c.elsewhere

theorem Chip.Canonical.withDirectory {l : List DirEntry} : Chip.Canonical { h with directory := l } := c.elsewhere

theorem Chip.Canonical.withRegs {m : Map Word} : Chip.Canonical { h with regs := m } := c.elsewhere

theorem Chip.Canonical.withShadows {l : List Shadow} : Chip.Canonical { h with shadows := l } := c.elsewhere

end

/-- Other device memory. -/
theorem Chip.Canonical.withHbm (c : h.Canonical) {m : Mem} (hbm : Memory.wf m = true) : Chip.Canonical { h with hbm := m } :=
  { c with hbm }

/-- Other host memory. -/
theorem Chip.Canonical.withHost (c : h.Canonical) {m : Mem} (host : Memory.wf m = true) : Chip.Canonical { h with host := m } :=
  { c with host }

/-- Other partitions. -/
theorem Chip.Canonical.withParts (c : h.Canonical) {m : Map Partition} (parts : ∀ p ∈ m, canonicalClusters p.2.saved) :
    Chip.Canonical { h with parts := m } :=
  { c with parts }

/-- Every partition changed. -/
theorem Chip.Canonical.eachPart (c : h.Canonical) {f : Nat → Partition → Partition}
    (keeps : ∀ pid q, canonicalClusters q.saved → canonicalClusters (f pid q).saved := by exact fun _ _ own => own) :
    Chip.Canonical { h with parts := h.parts.each f } := by
  refine c.withParts fun p mem => ?_
  obtain ⟨q, listed, rfl⟩ := List.mem_map.1 mem
  exact keeps _ _ (c.parts q listed)

theorem Chip.Canonical.putPart (c : h.Canonical) {q : Partition} (own : canonicalClusters q.saved) :
    Chip.Canonical { h with parts := h.parts.put pid q } :=
  c.withParts (Map.forall_put (P := fun q : Partition => canonicalClusters q.saved) c.parts own)

/-- Other images. -/
theorem Chip.Canonical.withImages (c : h.Canonical) {m : Map FlashImage} (images : ∀ p ∈ m, p.2.canonical) :
    Chip.Canonical { h with images := m } :=
  { c with images }

/-- Other points that a partition may go back to. -/
theorem Chip.Canonical.withAtPoints (c : h.Canonical) {m : Map (List FlashImage)} (atPoints : ∀ p ∈ m, ∀ i ∈ p.2, i.canonical) :
    Chip.Canonical { h with atPoints := m } :=
  { c with atPoints }

/-- One cluster replaced. -/
theorem Chip.Canonical.putCluster (c : h.Canonical) {k : Cluster} (own : k.canonical) :
    Chip.Canonical { h with clusters := h.clusters.put v k } :=
  c.withClusters (c.clusters.put own)

/-- One cluster changed. -/
theorem Chip.Canonical.modCluster (c : h.Canonical) {f : Cluster → Cluster}
    (keeps : ∀ k : Cluster, k.canonical → (f k).canonical := by exact fun _ own => own) : (h.modCluster v f).Canonical :=
  c.putCluster (keeps _ (c.cluster v))

/-- One partition changed. -/
theorem Chip.Canonical.modPart (c : h.Canonical) {f : Partition → Partition}
    (keeps : ∀ q : Partition, canonicalClusters q.saved → canonicalClusters (f q).saved := by exact fun _ own => own) :
    (h.modPart pid f).Canonical :=
  c.putPart (keeps _ (c.part pid))

/-- A fold keeps the form if each of its steps does. -/
theorem Chip.Canonical.foldl {α : Type} {f : Chip → α → Chip} {xs : List α} (c : h.Canonical)
    (step : ∀ g : Chip, g.Canonical → ∀ x, (f g x).Canonical) : (xs.foldl f h).Canonical :=
  List.foldlRecOn (motive := Chip.Canonical) xs f c fun g held x _ => step g held x

end

/-! ## Branches and outcomes -/

/-- What comes with a chip whose memories are in canonical form. -/
abbrev CanonicalSnd {α : Type} (x : α × Chip) : Prop := x.2.Canonical

theorem Gives.snd {ε α : Type} {g : Chip} {x : α} (c : g.Canonical) : Gives CanonicalSnd (.ok (x, g) : Except ε (α × Chip)) := .ok c

theorem Gives.fst {ε α : Type} {g : Chip} {x : α} (c : g.Canonical) :
    Gives (fun r => r.1.Canonical) (.ok (g, x) : Except ε (Chip × α)) :=
  .ok c

theorem Chip.Canonical.ite {p : Prop} [Decidable p] {h g : Chip} (yes : h.Canonical) (no : g.Canonical) :
    (if p then h else g).Canonical := by
  split
  · exact yes
  · exact no

/-! ## Cores, slots and threads -/

section
variable {h : Chip} {p : At}

theorem Chip.Canonical.modCore (c : h.Canonical) {v n : Nat} {f : Core → Core} : (h.modCore v n f).Canonical := c.modCluster

theorem Chip.Canonical.setSlot (c : h.Canonical) {x : Slot} : (h.setSlot p x).Canonical := c.modCore

theorem Chip.Canonical.setThread (c : h.Canonical) {t : Thread} : (h.setThread p t).Canonical := c.setSlot

theorem Chip.Canonical.putHere (c : h.Canonical) {x : Here} : (h.putHere p x).Canonical := c.setThread.modCore

theorem Chip.Canonical.mapThread (c : h.Canonical) {uid : Nat} {f : Thread → Thread} : (h.mapThread uid f).Canonical :=
  (c.eachCluster (f := fun _ k => k.mapThread uid f)).elsewhere

theorem Chip.Canonical.tick (c : h.Canonical) : h.tick.Canonical := c.elsewhere

theorem Chip.Canonical.arrive (c : h.Canonical) {v n uid : Nat} : (h.arrive v n uid).Canonical := c.modCore.tick

theorem Chip.Canonical.enqueue (c : h.Canonical) {v n uid : Nat} {arrival floor : Bool} : (h.enqueue v n uid arrival floor).Canonical :=
  c.modCore.tick

theorem Chip.Canonical.freeSlots (c : h.Canonical) : (h.freeSlots p).Canonical := by
  unfold Chip.freeSlots
  split
  · exact c.setSlot.setSlot
  · exact c.setSlot

theorem Chip.Canonical.parkTo (c : h.Canonical) {n : Nat} {queued : Bool} : (h.parkTo p n queued).Canonical := by
  unfold Chip.parkTo
  split
  · exact c
  · dsimp only
    split
    · exact c.freeSlots.modCluster.arrive
    · exact c.freeSlots.modCluster.tick

theorem Chip.Canonical.park (c : h.Canonical) {queued : Bool} : (h.park p queued).Canonical := c.parkTo

/-! ## Records for the host, and traps -/

theorem Chip.Canonical.record (c : h.Canonical) {ring : Nat} {bs : List Byte} : (h.record ring bs).Canonical := c.elsewhere

theorem Chip.Canonical.raise (c : h.Canonical) {n : Nat} : (h.raise n).Canonical := c.elsewhere

theorem Chip.Canonical.partitionError (c : h.Canonical) {kind pid v core code : Nat} {stamp addr : Word} :
    (h.partitionError kind pid v core code stamp addr).Canonical := c.elsewhere

theorem Chip.Canonical.notify (c : h.Canonical) {n : Word} : (h.notify p n).Canonical := c.modCore

theorem Chip.Canonical.haltAt (c : h.Canonical) {t : Thread} : (h.haltAt p t).Canonical := c.setSlot.modCluster

theorem Chip.Canonical.takeTrap (c : h.Canonical) {r : Raised} {held : Bool} : (h.takeTrap p r held).Canonical := by
  unfold Chip.takeTrap
  split
  · exact c
  dsimp only
  split
  · exact c.setSlot.modCore.notify.partitionError.raise
  split
  · exact c.haltAt.notify
  split
  · exact c.haltAt
  split
  · exact c.setThread.park
  split
  · exact c.setThread
  · exact c.haltAt.notify

/-! ## How an instruction ends -/

theorem Chip.Canonical.endStep (c : h.Canonical) : (h.endStep p).Canonical := by
  unfold Chip.endStep
  split
  · split
    · exact c.setSlot
    · exact c
  · exact c

theorem Chip.Canonical.stopped (c : h.Canonical) {t : Thread} {e : Stop} : (h.stopped p t e).Canonical := by
  cases e with
  | stall => exact c
  | trap code tval => exact c.takeTrap.endStep
  | deferred q ldq => exact c.takeTrap.endStep

theorem Chip.Canonical.writeDst (c : h.Canonical) {d : BitVec 7} {x : Word} : (h.writeDst p d x).Canonical := by
  unfold Chip.writeDst
  split
  · exact c.putHere
  · exact c

theorem Chip.Canonical.readAt (c : h.Canonical) {r : BitVec 7} : Gives CanonicalSnd (h.readAt p r) := by
  unfold Chip.readAt
  split
  · exact .error
  · exact .bind_any fun x => .snd c.putHere

theorem Chip.Canonical.readDataAt (c : h.Canonical) {r : BitVec 7} : Gives CanonicalSnd (h.readDataAt p r) := by
  unfold Chip.readDataAt
  split
  · exact .error
  · exact .bind_any fun x => .snd c.putHere

theorem Chip.Canonical.modThread (c : h.Canonical) {f : Thread → Thread} : (h.modThread p f).Canonical := by
  unfold Chip.modThread
  split
  · exact c.setThread
  · exact c

end

/-- What a step leaves of a state whose memories are in canonical form. -/
abbrev KeepsCanonical : Host.Outcome State Fault Refusal → Prop := Answers fun t => t.chip.Canonical

/-- A chip that comes with something. -/
theorem Chip.Canonical.inPair {α : Type} {h : Chip} {x : α} (c : h.Canonical) : (Prod.snd (x, h)).Canonical := c

section
variable {agenda : List Agenda} {v n : Nat} {h : Chip} {pool : Pool}

/-- A chip put into a state. -/
theorem Chip.Canonical.inState (c : h.Canonical) : (State.chip ⟨agenda, v, n, h, pool⟩).Canonical := c

/-- A step to a state with this chip. -/
theorem Answers.chip (c : h.Canonical) : KeepsCanonical (.next ⟨agenda, v, n, h, pool⟩) := .next c

theorem Chip.Canonical.iteState {p : Prop} [Decidable p] {s t : State} (yes : s.chip.Canonical) (no : t.chip.Canonical) :
    (if p then s else t).chip.Canonical := by
  split
  · exact yes
  · exact no

/-- A fold over states keeps the form if each of its steps does. -/
theorem Chip.Canonical.foldlState {α : Type} {f : State → α → State} {s : State} {xs : List α} (c : s.chip.Canonical)
    (step : ∀ t : State, t.chip.Canonical → ∀ x, (f t x).chip.Canonical) : (xs.foldl f s).chip.Canonical :=
  List.foldlRecOn (motive := fun t : State => t.chip.Canonical) xs f c fun t held x _ => step t held x

end

section
variable {s : State} {f : Form}

/-- An instruction of the thread alone reaches no memory. -/
theorem Chip.Canonical.issueHere (c : s.chip.Canonical) {body : Thread → Here → Except Stop Here} :
    KeepsCanonical (issueHere f s body) := by
  unfold Machine.issueHere
  dsimp only
  split
  · split
    · exact .next c
    · exact .next c.putHere.stopped
    · split
      · exact .next c.putHere.endStep
      · exact .next c
      · exact .next c.putHere.stopped
  · exact .next c

/-- An instruction keeps the form if its body does. -/
theorem Chip.Canonical.issueChip (c : s.chip.Canonical) {body : Thread → At → Chip → Except Stop Chip}
    (keeps : ∀ (self : Thread) (p : At) (h : Chip), h.Canonical → Gives Chip.Canonical (body self p h)) :
    KeepsCanonical (issueChip f s body) := by
  unfold Machine.issueChip
  dsimp only
  split
  · split
    · exact .next c
    · exact .next c.putHere.stopped
    · split
      · rename_i done
        exact .next ((keeps _ _ _ c.putHere).of_ok done).endStep
      · exact .next c
      · exact .next c.putHere.stopped
  · exact .next c

end

end Sys2Proof.Machine
end

section
/-! PROOFS. The family 10, memories in canonical form: tasks, groups, launches and aborts (R154, R189, R192, R354, R371). -/

namespace Sys2Proof.Machine

set_option Elab.async false

section
variable {h : Chip} {v uid pid gid : Nat}

/-! ## Tasks, records and groups -/

theorem Chip.Canonical.modTask (c : h.Canonical) {f : Task → Task} : (h.modTask uid f).Canonical := by
  unfold Chip.modTask
  split
  · exact c.elsewhere
  · exact c

theorem Chip.Canonical.addRecord (c : h.Canonical) {r : LogRec} : (h.addRecord v uid r).Canonical := c.modCluster.tick

theorem Chip.Canonical.modSig (c : h.Canonical) {f : Signature → Signature} : (h.modSig v uid f).Canonical :=
  c.modCluster fun _ own => by split <;> exact own

theorem Chip.Canonical.dupStamp (c : h.Canonical) {stamp addr : Word} : (h.dupStamp pid v stamp addr).Canonical :=
  c.modPart.partitionError

theorem Chip.Canonical.haltPartition (c : h.Canonical) {kind : Nat} : (h.haltPartition kind pid v).Canonical :=
  c.modPart.partitionError

theorem Chip.Canonical.modGroup (c : h.Canonical) {f : Group → Group} : (h.modGroup pid gid f).Canonical := c.modPart

theorem Chip.Canonical.exitGroup (c : h.Canonical) : (h.exitGroup pid gid).Canonical := (c.modGroup (f := _)).eachCluster

theorem Chip.Canonical.exitIfDone (c : h.Canonical) : (h.exitIfDone pid gid).Canonical := by
  unfold Chip.exitIfDone
  split
  · exact c.exitGroup
  · exact c

theorem Chip.Canonical.joinGroups (c : h.Canonical) {grps : BitVec 36} : (h.joinGroups pid uid grps).Canonical :=
  c.foldl fun _ c _ => c.modGroup

theorem Chip.Canonical.leaveGroup (c : h.Canonical) : (h.leaveGroup pid uid gid).Canonical := c.modGroup.exitIfDone

theorem Chip.Canonical.leaveGroups (c : h.Canonical) {grps : BitVec 36} : (h.leaveGroups pid uid grps).Canonical :=
  c.foldl fun _ c _ => c.leaveGroup

theorem Chip.Canonical.noteAbort (c : h.Canonical) {grps : BitVec 36} {stamp : Word} {code : Nat} :
    (h.noteAbort pid grps stamp code).Canonical :=
  c.foldl fun _ c _ => c.modGroup

/-! ## Launches -/

theorem Chip.Canonical.launchDone (c : h.Canonical) {n : Nat} : (h.launchDone pid n).Canonical := by
  unfold Chip.launchDone
  split
  · exact c
  split
  · have freed := (c.modPart (pid := pid) (f := fun q => { q with jobs := q.jobs.filter fun j => decide (j.lnum ≠ n) })).eachCluster
      (f := fun _ k => { k with reserve := k.reserve.erase (pid * 2 ^ 32 + n) })
    dsimp only
    split
    · exact freed
    split
    · exact (Chip.Canonical.elsewhere freed).raise
    · exact freed
  · exact c

theorem Chip.Canonical.launchLive (c : h.Canonical) {l : Option Nat} {up : Bool} : (h.launchLive pid l up).Canonical := by
  unfold Chip.launchLive
  split
  · exact c
  dsimp only
  split
  · exact c.modPart
  · exact c.modPart.launchDone

/-! ## Packets and frames -/

theorem Chip.Canonical.send (c : h.Canonical) {src d : Nat} {b : Packetry} : (h.send src d b).Canonical := c.elsewhere

theorem Chip.Canonical.sendFrame (c : h.Canonical) {kind d : Nat} {body : List Word} : (h.sendFrame kind pid d body).Canonical :=
  c.elsewhere

theorem Chip.Canonical.recall (c : h.Canonical) {m : Message} : (h.recall m).Canonical := by
  unfold Chip.recall
  split
  · exact c.sendFrame
  · exact c.send

/-! ## Aborts (R154, R189, R354) -/

/-- An undo record writes bytes, at most. -/
theorem Cluster.canonical_applyUndo {k : Cluster} (own : k.canonical) (e : LogEntry) : (k.applyUndo e).canonical := by
  unfold Cluster.applyUndo
  split
  · exact Mem.wf_writeBytes _ _ own
  · exact own

theorem Chip.Canonical.restart (c : h.Canonical) {cancel : Bool} : (h.restart uid cancel).Canonical := by
  unfold Chip.restart
  split
  · exact c
  split
  · exact c.leaveGroups.launchLive.elsewhere
  split
  · exact c.elsewhere
  split
  · split
    · exact (c.elsewhere (g := { h with tasks := h.tasks.erase uid })).send
    · exact c
  · exact Chip.Canonical.enqueue c.elsewhere

theorem Chip.Canonical.unnameLaunches (c : h.Canonical) {rs : List (List Byte)} : (h.unnameLaunches pid rs).Canonical :=
  c.foldl fun _ c _ => c.foldl fun _ c _ => c.modGroup.exitIfDone

theorem Chip.Canonical.abortTasks (c : h.Canonical) {start cancelled : List Nat} : (h.abortTasks start cancelled).Canonical := by
  unfold Chip.abortTasks
  dsimp only
  refine Chip.Canonical.foldl (Chip.Canonical.unnameLaunches (Chip.Canonical.foldl ?undone fun g c m => c.recall)) fun g c u => c.restart
  case undone =>
    refine Chip.Canonical.elsewhere (c.eachCluster (f := fun v k => ((h.undoList v _).foldl Cluster.applyUndo k).dropTasks _) ?_)
    exact fun v k own => List.foldlRecOn (motive := Cluster.canonical) _ _ own fun _ own e _ => Cluster.canonical_applyUndo own e

theorem Chip.Canonical.abort (c : h.Canonical) : (h.abort uid).Canonical := c.abortTasks

theorem Chip.Canonical.cancel (c : h.Canonical) : (h.cancel uid).Canonical := c.abortTasks

/-- Room is made by aborting tasks (R192). -/
theorem Chip.Canonical.makeRoom {n : Nat} {sig : Bool} {ea : Word} {fuel : Nat} (c : h.Canonical) :
    Gives Chip.Canonical (h.makeRoom v uid n sig ea fuel) := by
  induction fuel generalizing h with
  | zero => exact .error
  | succ fuel ih =>
    unfold Chip.makeRoom
    split
    · exact .ok c
    · exact .error
    · exact .error
    · exact ih c.abort

theorem Chip.Canonical.need (c : h.Canonical) {n : Nat} {sig : Bool} {ea : Word} : Gives Chip.Canonical (h.need v uid n sig ea) :=
  c.makeRoom

end

end Sys2Proof.Machine
end

section
/-! PROOFS. The family 10, memories in canonical form: translation, scratch banks and global pages (R73 to R84, R184 to R192). -/

namespace Sys2Proof.Machine

set_option Elab.async false

theorem Gives.stopOf {α : Type} {P : α → Prop} {r : Except Stop α} (gives : Gives P r) : Gives P (stopOf r) := by
  cases r with
  | ok x => exact .ok (gives.of_ok rfl)
  | error e => exact .error

section
variable {h : Chip} {w : Who} {v pid line : Nat} {ea : Word}

/-! ## Translation (R320) -/

theorem Chip.Canonical.enterUpper (c : h.Canonical) {e : WalkEntry} : (h.enterUpper e).Canonical := c.elsewhere

theorem Chip.Canonical.enterPage (c : h.Canonical) {region level : Nat} {leaf : Word} : (h.enterPage pid region leaf level).Canonical :=
  Chip.Canonical.elsewhere (c.foldl fun _ c x => c.enterUpper (e := _) : Chip.Canonical _)

theorem Chip.Canonical.warm (c : h.Canonical) {va : Nat} : (h.warm pid va).Canonical := by
  unfold Chip.warm
  dsimp only
  split
  · exact c
  split
  · exact c.enterPage
  · exact c

/-! ## Tracked lines (R187, R188) -/

theorem Chip.Canonical.clearWriters (c : h.Canonical) {t : Word} {fuel : Nat} : (h.clearWriters v line t fuel).Canonical := by
  induction fuel generalizing h with
  | zero => exact c
  | succ fuel ih =>
    unfold Chip.clearWriters
    exact .ite (ih c.abort) c

theorem Chip.Canonical.modTag (c : h.Canonical) {f : LineTag → LineTag} : (h.modTag v line f).Canonical := c.modCluster

theorem Chip.Canonical.trackRead (c : h.Canonical) : Gives Chip.Canonical (h.trackRead w v line ea) := by
  unfold Chip.trackRead
  refine c.need.stopOf.bind fun g c => ?_
  exact .ok (Chip.Canonical.ite c.clearWriters.dupStamp c.clearWriters).modTag.modSig

theorem Chip.Canonical.makeUndo (c : h.Canonical) : Gives Chip.Canonical (h.makeUndo w v line ea) := by
  unfold Chip.makeUndo
  exact .ite (.ok c) (c.need.stopOf.bind fun g c => .ok c.addRecord)

theorem Chip.Canonical.trackWrite (c : h.Canonical) : Gives (fun x => x.1.Canonical) (h.trackWrite w v line ea) := by
  unfold Chip.trackWrite
  refine .ite (.fst c.clearWriters.dupStamp) ?_
  exact (Chip.Canonical.ite c.clearWriters.abortTasks c.clearWriters).makeUndo.bind fun g c => .fst c.modTag

/-! ## Scratch banks (R73) -/

/-- Bytes written into a scratch bank keep the form. -/
theorem Chip.Canonical.putScratch (c : h.Canonical) {off : Nat} {bs : List Byte} : (h.putScratch v off bs).Canonical :=
  c.modCluster fun _ => Mem.wf_writeBytes _ _

theorem Chip.Canonical.readScratch (c : h.Canonical) {off n : Nat} : Gives CanonicalSnd (h.readScratch w v off n ea) := by
  unfold Chip.readScratch
  split
  · exact .snd c
  · split
    · exact .snd c
    · exact .error
    · exact .ite .error (c.trackRead.bind fun g c => .snd c)
  · exact .error

theorem Chip.Canonical.writeScratch (c : h.Canonical) {off : Nat} {bs : List Byte} :
    Gives Chip.Canonical (h.writeScratch w v off bs ea) := by
  unfold Chip.writeScratch
  split
  · split
    · exact c.makeUndo.bind fun g c => .ok c.putScratch
    · exact .ok c.putScratch
  · split
    · exact .ok c.putScratch
    · exact .error
    · exact .ite .error (c.trackWrite.bind fun x c => .ok (.ite (Chip.Canonical.putScratch c) c))
  · exact .error

/-! ## The cluster cache, tiers and write-throughs (R184, R186, R312, R315) -/

theorem Cluster.canonical_fill {k : Cluster} (own : k.canonical) (x : CacheLine) : (k.fill x).canonical := by
  unfold Cluster.fill
  dsimp only
  split <;> exact own

theorem Chip.Canonical.dropPrivate (c : h.Canonical) : (h.dropPrivate v).Canonical := c.modCluster

theorem Chip.Canonical.touchHome (c : h.Canonical) {pa : Nat} {dirty : Bool} : (h.touchHome pa dirty).Canonical := c.elsewhere

theorem Chip.Canonical.touch (c : h.Canonical) {pa : Nat} {dirty : Bool} : (h.touch pa dirty).Canonical := by
  unfold Chip.touch
  refine .ite c ?_
  dsimp only
  split
  · exact .ite (Chip.Canonical.ite c c.touchHome).withTiers.touchHome (Chip.Canonical.ite c c.touchHome).withTiers
  · exact (Chip.Canonical.ite c c.touchHome).withTiers

theorem Chip.Canonical.writeHbm (c : h.Canonical) {pa : Nat} {bs : List Byte} :
    Chip.Canonical { h with hbm := h.hbm.writeBytes pa bs } :=
  c.withHbm (Mem.wf_writeBytes _ _ c.hbm)

theorem Chip.Canonical.writePrivate (c : h.Canonical) {pa : Nat} {bs : List Byte} : (h.writePrivate pa bs).Canonical := c.writeHbm.touch

theorem Chip.Canonical.writeHome (c : h.Canonical) {pa : Nat} {bs : List Byte} : (h.writeHome pa bs).Canonical := c.writeHbm.touchHome

theorem Chip.Canonical.performThrough (c : h.Canonical) : (h.performThrough v).Canonical := by
  unfold Chip.performThrough
  split
  · exact c
  · refine (Chip.Canonical.writePrivate c.modCluster).modCluster fun _ own => ?_
    exact List.foldlRecOn (motive := Cluster.canonical) _ _ own fun _ own _ _ => own

theorem Chip.Canonical.drainThroughs (c : h.Canonical) {uid fuel : Nat} : (h.drainThroughs v uid fuel).Canonical := by
  induction fuel generalizing h with
  | zero => exact c
  | succ fuel ih =>
    unfold Chip.drainThroughs
    exact .ite (ih c.performThrough) c

/-! ## Leases, notices and the directory (R331 to R334) -/

theorem Chip.Canonical.dirEnsure (c : h.Canonical) : (h.dirEnsure line).Canonical := by
  unfold Chip.dirEnsure
  refine .ite c (Chip.Canonical.withDirectory (.ite ?_ c))
  split
  · exact c.elsewhere
  · exact c

theorem Chip.Canonical.modDir (c : h.Canonical) {f : DirEntry → DirEntry} : (h.modDir line f).Canonical := c.dirEnsure.withDirectory

theorem Chip.Canonical.grantLease (c : h.Canonical) {t : Word} : (h.grantLease pid v line t).Canonical := by
  unfold Chip.grantLease
  exact c.modDir.modCluster

theorem Chip.Canonical.raiseDir (c : h.Canonical) {x : Word} : (h.raiseDir line x).Canonical := c.modDir

theorem Chip.Canonical.performNotice (c : h.Canonical) {x : Option Word} {buffer : Bool} :
    (h.performNotice v line x buffer).Canonical := by
  have fell {us : List Nat} : (if us = [] then h else h.abortTasks us []).Canonical := .ite c c.abortTasks
  unfold Chip.performNotice
  refine .ite fell (fell.modCluster fun _ own => ?_)
  split
  · split <;> exact own
  · exact own

/-! ## Global pages (R73, R74) -/

theorem Chip.Canonical.cachedRead (c : h.Canonical) {l : Leaf} {n : Nat} {fresh : Bool} : (h.cachedRead v l n fresh).2.Canonical := by
  unfold Chip.cachedRead
  dsimp only
  split
  · exact .inPair c.modCluster
  · exact .ite c.touch (c.touch.modCluster fun _ own => Cluster.canonical_fill own _)

theorem Chip.Canonical.readGlobal (c : h.Canonical) {va n : Nat} : Gives CanonicalSnd (h.readGlobal w v va n ea) := by
  unfold Chip.readGlobal
  refine .bind_any fun l => ?_
  split
  · split
    · exact .error
    · exact .snd c.warm
    · refine c.warm.need.stopOf.bind fun g c => ?_
      exact .snd (Chip.Canonical.modSig c.elsewhere)
  · split
    · exact .error
    · exact .ok c.warm.cachedRead
    · dsimp only
      split <;> exact .ok c.warm.cachedRead
    · split
      · exact .error
      · exact .snd c.warm
      · refine .ite .error (c.warm.need.stopOf.bind fun g c => ?_)
        exact .ok (Chip.Canonical.cachedRead (.ite c c.grantLease)).modSig

theorem Chip.Canonical.redoWrite (c : h.Canonical) {pa va : Nat} {coherent : Bool} {bs : List Byte} :
    Gives Chip.Canonical (h.redoWrite w v pa coherent va bs ea) := by
  unfold Chip.redoWrite
  exact .ite (.ok c.eachCluster) (c.need.stopOf.bind fun g c => .ok c.addRecord)

theorem Chip.Canonical.superCoherent (c : h.Canonical) {pa : Nat} {bs : List Byte} : (h.superCoherent pid v pa bs).Canonical := by
  unfold Chip.superCoherent
  have written := c.writeHome (pa := pa) (bs := bs) |>.modCluster (v := v) (f := fun k => k.updateCache pa bs)
  dsimp only
  split
  · exact written.dirEnsure
  · exact written.raiseDir.foldl fun g c t => c.send

theorem Chip.Canonical.writeGlobal (c : h.Canonical) {va : Nat} {bs : List Byte} : Gives Chip.Canonical (h.writeGlobal w v va bs ea) := by
  unfold Chip.writeGlobal
  refine .bind_any fun l => ?_
  split
  · exact .error
  · split
    · exact .error
    · exact .error
    · split
      · exact c.warm.redoWrite
      · exact .ok c.warm.modCluster
    · split
      · exact .error
      · exact .ok c.warm.superCoherent
      · exact .ite .error c.warm.redoWrite

/-! ## Atomics and reductions (R77 to R84) -/

theorem Chip.Canonical.raiseFlags (c : h.Canonical) {uid : Nat} {f : BitVec 5} : (h.raiseFlags uid f).Canonical := by
  unfold Chip.raiseFlags
  exact .ite c c.mapThread

theorem Chip.Canonical.amoScratch (c : h.Canonical) {off : Nat} {k : AmoKind} {y x : Word} :
    Gives CanonicalSnd (h.amoScratch w v off k y x ea) := by
  unfold Chip.amoScratch
  refine c.readScratch.bind fun ⟨bs, g⟩ c => ?_
  dsimp only
  split
  · exact .snd c
  · exact (Chip.Canonical.writeScratch c).bind fun g c => .snd c

theorem Chip.Canonical.amoGlobal (c : h.Canonical) {va : Nat} {k : AmoKind} {y x : Word} :
    Gives CanonicalSnd (h.amoGlobal w v va k y x ea) := by
  unfold Chip.amoGlobal
  refine .bind_any fun l => .ite .error (.ite .error (.ite ?spec (.ite .error ?direct)))
  case spec =>
    refine c.warm.readGlobal.bind fun ⟨bs, g⟩ c => ?_
    dsimp only
    split
    · exact .snd c
    · exact (Chip.Canonical.writeGlobal c).bind fun g c => .snd c
  case direct =>
    dsimp only
    split
    · exact .snd c.warm.drainThroughs
    · exact .ite (.snd c.warm.drainThroughs.superCoherent) (.snd c.warm.drainThroughs.writePrivate.modCluster)

theorem Chip.Canonical.redScratch (c : h.Canonical) {off : Nat} {k : RedKind} {y : Word} :
    Gives Chip.Canonical (h.redScratch w v off k y ea) := by
  unfold Chip.redScratch
  split
  · exact .error
  · split
    · exact .error
    · exact .ok c.putScratch.raiseFlags
    · exact c.need.stopOf.bind fun g c => .ok c.addRecord
  · exact .error

theorem Chip.Canonical.redGlobal (c : h.Canonical) {va : Nat} {k : RedKind} {y : Word} :
    Gives Chip.Canonical (h.redGlobal w v va k y ea) := by
  unfold Chip.redGlobal
  refine .bind_any fun l => .ite .error (.ite .error ?_)
  split
  · exact .error
  · exact .ok c.warm.superCoherent.raiseFlags
  · exact c.warm.need.stopOf.bind fun g c => .ok c.addRecord

/-! ## Accesses that may span lines -/

theorem Chip.Canonical.readBytes (c : h.Canonical) {a n : Nat} : Gives CanonicalSnd (h.readBytes w v a n) := by
  unfold Chip.readBytes
  refine Gives.foldlM (fun acc part c => ?_) (by exact c) _
  dsimp only
  split
  · exact (Chip.Canonical.readScratch c).bind fun x c => .ok c
  · exact (Chip.Canonical.readGlobal c).bind fun x c => .ok c
  · exact .error

theorem Chip.Canonical.writeBytes (c : h.Canonical) {a : Nat} {bs : List Byte} : Gives Chip.Canonical (h.writeBytes w v a bs) := by
  unfold Chip.writeBytes
  refine Gives.foldlM (fun g part c => ?_) c _
  dsimp only
  split
  · exact c.writeScratch
  · exact c.writeGlobal
  · exact .error

end

end Sys2Proof.Machine
end

section
/-! PROOFS. The family 10, memories in canonical form: scalar accesses, migration, fetching and the vector pool (R68, R193 to R218, R293 to
R297). -/

namespace Sys2Proof.Machine

set_option Elab.async false

section
variable {h : Chip} {w : Who} {v : Nat} {p : At} {op : Op} {a : Access}

/-! ## Performing an access (R73, R78, R81) -/

theorem Chip.Canonical.atScratch (c : h.Canonical) {off : Nat} : Gives CanonicalSnd (h.atScratch w v off a op) := by
  cases a with
  | load n signed => exact c.readScratch.bind fun x c => .snd c
  | store n => exact c.writeScratch.bind fun g c => .snd c
  | amo k => exact c.amoScratch
  | red k => exact c.redScratch.bind fun g c => .snd c

theorem Chip.Canonical.atGlobal (c : h.Canonical) {va : Nat} : Gives CanonicalSnd (h.atGlobal w v va a op) := by
  cases a with
  | load n signed => exact c.readGlobal.bind fun x c => .snd c
  | store n => exact c.writeGlobal.bind fun g c => .snd c
  | amo k => exact c.amoGlobal
  | red k => exact c.redGlobal.bind fun g c => .snd c

theorem Chip.Canonical.performAs (c : h.Canonical) : Gives CanonicalSnd (h.performAs w v a op) := by
  unfold Chip.performAs
  split
  · exact .error
  · exact c.atScratch
  · exact c.atScratch
  · exact c.atGlobal

theorem Chip.Canonical.perform (c : h.Canonical) : Gives CanonicalSnd (h.perform w v op) := by
  unfold Chip.perform
  split
  · exact .error
  · exact c.performAs

/-! ## Results and migration (R193, R194, R320) -/

theorem Chip.Canonical.joinWalk (c : h.Canonical) {pid region kind : Nat} {f : Walk → Walk} :
    (h.joinWalk pid region kind f).Canonical := by
  unfold Chip.joinWalk
  exact .ite c (Chip.Canonical.ite c c.withWalks).withWalks

theorem Chip.Canonical.addWalk (c : h.Canonical) {pid region kind seq : Nat} : (h.addWalk pid region kind seq).Canonical := c.joinWalk

theorem Chip.Canonical.launchAccess (c : h.Canonical) {due : Due} {dest : Dest} :
    Gives Chip.Canonical (h.launchAccess w p a op due dest) := by
  unfold Chip.launchAccess
  dsimp only
  split
  · rename_i done
    exact .ok ((c.perform.of_ok done).modThread)
  · exact .ok c.modThread
  · exact .ok c.addWalk.modThread
  · exact .error

theorem Chip.Canonical.waitWalk (c : h.Canonical) {self : Thread} {pid region kind : Nat} :
    (h.waitWalk self p pid region kind).Canonical :=
  c.joinWalk.setThread

theorem Chip.Canonical.migrate (c : h.Canonical) {u core : Nat} {access : Option Pend} : (h.migrate p u core access).Canonical := by
  unfold Chip.migrate
  split
  · exact c
  · exact Chip.Canonical.send (Chip.Canonical.modCluster (f := fun _ => _) c.freeSlots)

theorem Chip.Canonical.access (c : h.Canonical) {self : Thread} {due : Due} {dest : Dest} :
    Gives Chip.Canonical (h.access self p a op due dest) := by
  unfold Chip.access
  dsimp only
  split
  · exact .error
  refine .ite .error ?_
  split
  · exact .ite .error (.ite .error c.launchAccess)
  · exact .ite .error c.launchAccess
  · exact .ite .error (.ite .error (.ite c.launchAccess (.ite .error (.ok c.migrate))))

/-! ## Fetching (R48, R68) -/

theorem Chip.Canonical.fetchAt (c : h.Canonical) {x : Word} : Gives CanonicalSnd (h.fetchAt w x) := by
  unfold Chip.fetchAt
  exact .ite .error (.bind_any fun l => .ite .error (.snd c.warm))

theorem Chip.Canonical.capture {self : Thread} {rep : Half} {n : Nat} {x : Word} (c : h.Canonical) :
    Gives CanonicalSnd (h.capture self rep n x) := by
  induction n generalizing h x with
  | zero => exact .snd c
  | succ n ih => exact c.fetchAt.bind fun y c => .ite .error ((ih c).bind fun z c => .snd c)

theorem Chip.Canonical.fetchNext (c : h.Canonical) {t : Thread} : Gives CanonicalSnd (h.fetchNext t) := by
  unfold Chip.fetchNext
  split
  · exact c.fetchAt
  · exact .snd c

end

/-! ## Accesses as instructions (R71, R77, R80) -/

section
variable {s : State} {w : Half} {d a b : BitVec 7} {off : Word}

theorem Chip.Canonical.loadForm (c : s.chip.Canonical) {ahead : BitVec 4} {size : Nat} {signed : Bool} :
    KeepsCanonical (loadForm w d a ahead size signed off s) :=
  c.issueChip fun _ _ _ c => c.readAt.bind fun _ c => c.tick.access

theorem Chip.Canonical.storeForm (c : s.chip.Canonical) {size : Nat} : KeepsCanonical (storeForm w d a size off s) :=
  c.issueChip fun _ _ _ c => c.readAt.bind fun _ c => c.readDataAt.bind fun _ c =>
    c.tick.access

theorem Chip.Canonical.amoForm (c : s.chip.Canonical) {k : AmoKind} : KeepsCanonical (amoForm w d a b k s) := by
  unfold Machine.amoForm
  refine c.issueChip fun self p h c => c.readAt.bind fun x c => c.readAt.bind fun y c => ?_
  dsimp only
  split
  · exact c.readAt.bind fun z c => c.tick.access
  · exact c.tick.access

theorem Chip.Canonical.redForm (c : s.chip.Canonical) {k : RedKind} : KeepsCanonical (redForm w a b k s) :=
  c.issueChip fun _ _ _ c => c.readAt.bind fun _ c => c.readAt.bind fun _ c =>
    c.tick.access

end

/-! ## Lanes and contexts of the vector pool (R198 to R205) -/

section
variable {h : Chip} {v uid : Nat}

theorem Chip.Canonical.modClaim (c : h.Canonical) {f : Claim → Claim} : (h.modClaim v uid f).Canonical := c.modCluster

theorem Chip.Canonical.spill (c : h.Canonical) : (h.spill v).Canonical := by
  unfold Chip.spill
  dsimp only
  split
  · exact c
  · exact c.modClaim

theorem Chip.Canonical.takeContext (c : h.Canonical) : (h.takeContext v uid).Canonical := by
  unfold Chip.takeContext
  split
  · exact c
  · exact .ite c (.ite (Chip.Canonical.ite c c.spill).modClaim (.ite c c.spill))

theorem Chip.Canonical.evaluate (c : h.Canonical) : (h.evaluate v uid).Canonical := by
  unfold Chip.evaluate
  split
  · exact c
  · exact (Chip.Canonical.ite c c.takeContext).modClaim

theorem Chip.Canonical.serveClaims (c : h.Canonical) : (h.serveClaims v).Canonical := c.foldl fun _ c _ => c.evaluate

theorem Chip.Canonical.renegotiate (c : h.Canonical) : (h.renegotiate v uid).Canonical := by
  unfold Chip.renegotiate
  split
  · exact c
  · exact c.serveClaims.evaluate.serveClaims

theorem Chip.Canonical.renegotiateZero (c : h.Canonical) : (h.renegotiateZero v).Canonical :=
  Chip.Canonical.serveClaims (c.foldl fun _ c _ => c.renegotiate)

theorem Chip.Canonical.releaseClaim (c : h.Canonical) : (h.releaseClaim v uid).Canonical :=
  Chip.Canonical.serveClaims (Chip.Canonical.modCluster (f := fun _ => _) c)

theorem Chip.Canonical.arrivalContext (c : h.Canonical) {claim : Option Claim} :
    GivesSome Chip.Canonical (h.arrivalContext v claim) := by
  unfold Chip.arrivalContext
  split
  · exact .present c
  · dsimp only
    split
    · exact .present c
    · split
      · exact .present c.spill
      · exact .absent

end

/-! ## Vector memory and mailbox commands (R218, R293 to R297) -/

section
variable {h : Chip} {w : Who} {v : Nat} {regs : Map Half} {q : VCmd}

theorem Chip.Canonical.vmElem (c : h.Canonical) {store : Bool} {x : Word} {op : Op} :
    Gives CanonicalSnd (h.vmElem w v store x op) := by
  unfold Chip.vmElem
  exact .ite .error (.ite .error c.performAs)

theorem Chip.Canonical.vmRun (c : h.Canonical) : Gives CanonicalSnd (h.vmRun w v regs q) := by
  unfold Chip.vmRun
  refine Gives.bind (P := CanonicalSnd) ?elements fun x c => .ite (.snd c) (.snd c)
  exact Gives.foldlM (P := CanonicalSnd) (fun acc e c => (Chip.Canonical.vmElem c).bind fun x c => .snd c) (by exact c) _

theorem Chip.Canonical.readRecord (c : h.Canonical) {off n : Nat} {x : Word} :
    Gives CanonicalSnd (h.readRecord w v off n x) :=
  Gives.foldlM (P := CanonicalSnd) (fun _ _ c => (Chip.Canonical.readScratch c).bind fun _ c => .snd c) (by exact c) _

theorem Chip.Canonical.writeRecord (c : h.Canonical) {off : Nat} {bs : List Byte} {x : Word} :
    Gives Chip.Canonical (h.writeRecord w v off bs x) :=
  Gives.foldlM (fun _ _ c => c.writeScratch) c _

theorem Chip.Canonical.mbldRun (c : h.Canonical) : Gives CanonicalSnd (h.mbldRun w v regs q) :=
  .bind_any fun _ => c.readRecord.bind fun _ c => .ite .error (.ite .error (.snd c))

theorem Chip.Canonical.mbupdRun (c : h.Canonical) : Gives CanonicalSnd (h.mbupdRun w v regs q) := by
  refine .bind_any fun place => c.readRecord.bind fun r c => .ite .error ?_
  split
  · exact .error
  · split
    · exact .error
    · exact (Chip.Canonical.writeRecord c).bind fun g c => .snd c

/-! ## Running a command (R208 to R213) -/

theorem Chip.Canonical.vectorRun (c : h.Canonical) {t : Thread} : Gives CanonicalSnd (h.vectorRun t v regs q) := by
  unfold Chip.vectorRun
  dsimp only
  split
  · exact .snd c
  · exact .snd c
  · exact c.vmRun
  · exact .ite (.snd c) (.ite (.snd c) (.snd c))
  · refine .ite ?_ (.snd c)
    split
    · exact .snd c
    · exact .error
  · split
    · exact .snd c
    · exact .error
  · exact .ite c.mbldRun c.mbupdRun

theorem Chip.Canonical.runCommand (c : h.Canonical) {t : Thread} : Gives CanonicalSnd (h.runCommand t v regs q) :=
  c.vectorRun.bind fun _ c => .ite .error (.ok c)

variable {uid : Nat}

theorem Chip.Canonical.popVector (c : h.Canonical) : (h.popVector v uid).Canonical := by
  unfold Chip.popVector
  exact .ite (Chip.Canonical.serveClaims (Chip.Canonical.modCluster (f := fun _ => _) c.modClaim)) c.modClaim

theorem Chip.Canonical.readyContext (c : h.Canonical) : (h.readyContext v uid).Canonical := by
  unfold Chip.readyContext
  split
  · exact .ite c c.serveClaims.takeContext
  · exact c

theorem Chip.Canonical.mismatched (c : h.Canonical) {kind : Nat} : (h.mismatched uid kind).Canonical := by
  unfold Chip.mismatched
  split
  · exact c.modCluster
  · exact c.eachCluster fun _ k own => by split <;> exact own

theorem Chip.Canonical.completeVector (c : h.Canonical) : (h.completeVector v uid).Canonical := by
  unfold Chip.completeVector
  have c := c.readyContext (v := v) (uid := uid)
  dsimp only
  split
  · split
    · exact c
    · refine .ite c (.ite c.mismatched ?_)
      split
      · rename_i done
        have ran := c.runCommand.of_ok done
        exact .ite ran.modClaim.popVector.mapThread ran.modClaim.popVector.mapThread
      · exact c.popVector.mapThread
      · exact c.popVector.mapThread
      · exact c.addWalk
      · exact c
  · exact c

/-! ## Issue (R207) -/

theorem Chip.Canonical.pushVector (c : h.Canonical) {p : At} {keep : Option (Due × Dest)} :
    Gives Chip.Canonical (h.pushVector p uid q keep) := by
  refine .bind_any fun claim => .ite .error ?_
  split
  · exact .ok c.modClaim
  · exact .ok c.modClaim.modThread

theorem Chip.Canonical.pushAt (c : h.Canonical) {self : Thread} {p : At} {x : Word} {keep : Due × Dest} :
    Gives Chip.Canonical (h.pushAt self p q x keep) := by
  unfold Chip.pushAt
  split
  · exact .error
  · exact .ite .error (.ite c.pushVector (.ite .error (.ok c.migrate)))
  · exact c.pushVector

end

section
variable {s : State} {w : Half} {gp : BitVec 5}

theorem Chip.Canonical.vectorForm (c : s.chip.Canonical) {refuses : Word → Bool} {draws : Nat} {faults : Bool} :
    KeepsCanonical (vectorForm w gp refuses draws faults s) :=
  c.issueChip fun _ _ _ c => .bind_any fun _ => .ite .error (c.tick.pushVector.bind fun _ c => .ite (.ok c.modThread) (.ok c))

theorem Chip.Canonical.vsForm (c : s.chip.Canonical) {d : BitVec 7} {ahead : BitVec 4} : KeepsCanonical (vsForm w d ahead s) :=
  c.issueChip fun _ _ _ c => c.tick.pushVector

theorem Chip.Canonical.vmForm (c : s.chip.Canonical) : KeepsCanonical (vmForm w gp s) :=
  c.issueChip fun _ _ _ c => .bind_any fun _ => .ite .error (.ite .error (.ite .error c.tick.pushAt))

end

end Sys2Proof.Machine
end

section
/-! PROOFS. The family 10, memories in canonical form: the copy engines (R258 to R280). -/

namespace Sys2Proof.Machine

set_option Elab.async false

section
variable {h : Chip} {w : Who} {v : Nat}

/-! ## Reads and writes (R262, R277) -/

theorem Chip.Canonical.engRead (c : h.Canonical) {first a n : Nat} : Gives CanonicalSnd (h.engRead w v first a n) := by
  unfold Chip.engRead
  refine .ite .error ?_
  split
  · exact .error
  · exact c.readScratch
  · exact .bind_any fun _ => c.readScratch
  · exact .bind_any fun l => .ite c.warm.readGlobal (.ite (.ite (.snd c.warm) .error) (.snd c.warm.touch))

theorem Chip.Canonical.engPut (c : h.Canonical) {off : Nat} {bs : List Byte} {ea : Word} :
    Gives Chip.Canonical (h.engPut w v off bs ea) := by
  unfold Chip.engPut
  split
  · exact .error
  · exact .error
  · exact .ok c.putScratch
  · exact .error
  · exact .ok c.putScratch
  · exact .error

theorem Chip.Canonical.writeHost (c : h.Canonical) {a : Nat} {bs : List Byte} :
    Chip.Canonical { h with host := h.host.writeBytes a bs } :=
  c.withHost (Mem.wf_writeBytes _ _ c.host)

theorem Chip.Canonical.engWrite (c : h.Canonical) {first a : Nat} {bs : List Byte} :
    Gives Chip.Canonical (h.engWrite w v first a bs) := by
  unfold Chip.engWrite
  refine .ite .error ?_
  split
  · exact .error
  · exact c.engPut
  · exact .bind_any fun _ => c.engPut
  · refine .bind_any fun l => ?_
    split
    · split
      · exact .ok c.warm.writeHbm
      · exact .error
    · exact .error
    · exact .error
    · exact .error
    · split
      · exact .error
      · exact .ite .error (.ok c.warm.superCoherent)
      · exact .ite (.ok c.warm.writeHost) .error
      · exact .ok c.warm.writePrivate.modCluster

theorem Chip.Canonical.engReadAll (c : h.Canonical) {first a n : Nat} : Gives CanonicalSnd (h.engReadAll w v first a n) :=
  Gives.foldlM (P := CanonicalSnd) (fun _ _ c => c.engRead.bind fun _ c => .snd c) (by exact c) _

theorem Chip.Canonical.engWriteAll (c : h.Canonical) {first a : Nat} {bs : List Byte} :
    Gives Chip.Canonical (h.engWriteAll w v first a bs) :=
  Gives.foldlM (fun _ _ c => c.engWrite) c _

theorem Chip.Canonical.engIndex (c : h.Canonical) {d : Desc} : Gives CanonicalSnd (h.engIndex w v d) := by
  refine .ite (.snd c) (Gives.bind (P := CanonicalSnd) ?_ fun x c => .snd c)
  exact Gives.foldlM (P := CanonicalSnd) (fun _ _ c => c.engRead.bind fun _ c => .snd c) (by exact c) _

theorem Chip.Canonical.engRun (c : h.Canonical) {d : Desc} : Gives Chip.Canonical (h.engRun w v d) := by
  refine c.engIndex.bind fun idx c => Gives.bind (P := CanonicalSnd) ?sources fun data c => ?targets
  case sources => exact Gives.foldlM (P := CanonicalSnd) (fun _ _ c => c.engReadAll.bind fun _ c => .snd c) (by exact c) _
  case targets => exact Gives.foldlM (P := Chip.Canonical) (fun _ _ c => c.engWriteAll) c _

/-! ## Completion (R264, R270, R272) -/

theorem Chip.Canonical.modCmd (c : h.Canonical) {seq : Nat} {f : EngCmd → EngCmd} : (h.modCmd seq f).Canonical := c.eachCluster

theorem Chip.Canonical.dropCmd (c : h.Canonical) {e : EngCmd} : (h.dropCmd e).Canonical :=
  Chip.Canonical.foldl (c.eachCluster (f := fun _ k => { k with cmds := _ })) fun _ c _ => c.exitIfDone

theorem Chip.Canonical.engAdvance (c : h.Canonical) {seq : Nat} : (h.engAdvance seq).Canonical := by
  unfold Chip.engAdvance
  split
  · exact c
  · exact .ite c.dropCmd c.modCmd

theorem Chip.Canonical.engFail (c : h.Canonical) {e : EngCmd} {t : Trap} {x : Word} : (h.engFail e t x).Canonical := c.dropCmd.mapThread

theorem Chip.Canonical.engBlocked (c : h.Canonical) {e : EngCmd} {write : Bool} {b : Blocked} : (h.engBlocked e write b).Canonical := by
  unfold Chip.engBlocked
  split
  · exact c.engFail
  · exact c.engFail
  · exact c.addWalk
  · exact c

theorem Chip.Canonical.engFill (c : h.Canonical) {e : EngCmd} : Gives Chip.Canonical (h.engFill e v) := by
  unfold Chip.engFill
  split
  · exact .ok c
  · refine .ite (c.readGlobal.bind fun x c => ?_) (.ok c.writeHbm)
    exact .ok (Chip.Canonical.writeHbm c)

theorem Chip.Canonical.engPassed (c : h.Canonical) {e : EngCmd} : (h.engPassed e).Canonical := c.modCmd.mapThread

theorem Chip.Canonical.engCarry (c : h.Canonical) {e : EngCmd} : (h.engCarry v e).Canonical := by
  unfold Chip.engCarry
  split
  · exact c.dropCmd
  · split
    · exact c.engBlocked
    · rename_i done
      have ran := c.engRun.of_ok done
      split
      · exact ran.engAdvance
      · exact ran.modCmd.foldl fun _ c _ => c.send

theorem Chip.Canonical.engStep (c : h.Canonical) {k : Nat} {chain : Bool} : (h.engStep v k chain).Canonical := by
  unfold Chip.engStep
  split
  · exact c
  · refine .ite c (.ite c.drainThroughs.engCarry (.ite ?fill ?data))
    case fill =>
      split
      · exact c.drainThroughs.engBlocked
      · rename_i done
        exact (c.drainThroughs.engFill.of_ok done).engPassed.engCarry
    case data =>
      split
      · exact c.drainThroughs.engBlocked
      · exact c.drainThroughs.engPassed.engCarry

theorem Chip.Canonical.countAdd (c : h.Canonical) {k : Nat} : (h.countAdd k).Canonical := by
  unfold Chip.countAdd
  split
  · exact .ite c.withFlights.putScratch c.withFlights.putScratch.engAdvance
  · exact c

/-! ## Issue (R258, R266 to R269, R276) -/

variable {self : Thread} {p : At} {d : BitVec 7} {word : Half} {x y : Word}

theorem Chip.Canonical.engAccept (c : h.Canonical) {e : EngCmd} : Gives Chip.Canonical (h.engAccept self p d e) := by
  unfold Chip.engAccept
  split
  · exact .error
  · exact .ok (Chip.Canonical.modThread (Chip.Canonical.tick (Chip.Canonical.modCluster (f := fun _ => _) c))).writeDst

theorem Chip.Canonical.chainIssue (c : h.Canonical) : Gives Chip.Canonical (h.chainIssue self p word d x y) := by
  unfold Chip.chainIssue
  refine .ite .error (.ite .error (.ite .error ?_))
  split
  · exact .error
  · exact .ite .error c.engAccept

theorem Chip.Canonical.ewaitIssue (c : h.Canonical) : Gives Chip.Canonical (h.ewaitIssue self word x y) := by
  unfold Chip.ewaitIssue
  exact .ite .error (.ite .error (.ok c))

theorem Chip.Canonical.evictOwners {record fuel : Nat} (c : h.Canonical) : (h.evictOwners record fuel).Canonical := by
  induction fuel generalizing h with
  | zero => exact c
  | succ fuel ih =>
    unfold Chip.evictOwners
    split
    · exact c
    · split
      · exact ih c.abort
      · exact c

theorem Chip.Canonical.shopenIssue (c : h.Canonical) : Gives Chip.Canonical (h.shopenIssue self p word d x y) := by
  unfold Chip.shopenIssue
  refine .ite .error (.ite .error (.ite .error (.ite .error ?_)))
  dsimp only
  split
  · exact .error
  · exact .ok c.warm.waitWalk
  · exact .error
  · split
    · exact .error
    · split
      · exact .error
      split
      · exact .error
      split
      · exact .error
      split
      · exact .error
      · exact Chip.Canonical.engAccept (Chip.Canonical.withShadows (.ite c.warm.evictOwners c.warm))

end

theorem Chip.Canonical.dataForm {s : State} (c : s.chip.Canonical) {w : Half} {fn : Nat} {d a b : BitVec 7} :
    KeepsCanonical (dataForm w fn d a b s) := by
  refine c.issueChip fun self p h c => c.readAt.bind fun x c => c.readAt.bind fun y c => c.readAt.bind fun c0 c =>
    c.readAt.bind fun c1 c => ?_
  refine .ite .error ?_
  split
  · exact .error
  · exact .ite .error c.engAccept

end Sys2Proof.Machine
end

section
/-! PROOFS. The family 10, memories in canonical form: bank modes, core queues, sending and the end of a thread (R26, R144 to R153, R178 to
R182, R352, R372 to R380). -/

namespace Sys2Proof.Machine

set_option Elab.async false

section
variable {h : Chip} {v : Nat} {p : At} {t : Thread} {self : Thread}

/-! ## Bank modes (R180, R353) -/

theorem Chip.Canonical.enterPending (c : h.Canonical) {xs : List Header} : (h.enterPending v xs).Canonical := by
  induction xs generalizing h with
  | nil => exact c
  | cons x xs ih =>
    unfold Chip.enterPending
    exact .ite (ih c.modCluster) c

theorem Chip.Canonical.fillPending (c : h.Canonical) : (h.fillPending v).Canonical := c.enterPending

/-- Zero-filled banks leave the other bytes of their memory as they were. -/
theorem Cluster.canonical_switchBank {k : Cluster} (own : k.canonical) (b : Nat) (m : BankMode) : (k.switchBank b m).canonical :=
  Mem.wf_filter _ own

theorem Chip.Canonical.bmode (c : h.Canonical) {w : Half} {x y : Word} : Gives CanonicalSnd (h.bmode v w x y) := by
  refine .ite .error (.ite .error (.ite (.snd c) (.ite .error (.snd (Chip.Canonical.fillPending (c.modCluster fun _ own => ?_))))))
  exact List.foldlRecOn (motive := Cluster.canonical) _ _ own fun _ own _ _ => Cluster.canonical_switchBank own _ _

/-! ## Starting a thread (R26, R148) -/

theorem Chip.Canonical.place (c : h.Canonical) {bases : Nat × Option Nat} {regs : List Word} : (h.place p t bases regs).Canonical := by
  unfold Chip.place
  dsimp only
  split
  · exact c.setSlot.modCore
  · exact c.setSlot.modCore.setSlot.modCore

theorem Chip.Canonical.placeTrail (c : h.Canonical) {q : Parked} : (h.placeTrail p q).Canonical := by
  unfold Chip.placeTrail
  split
  · exact c.setSlot.modCore
  · exact c

theorem Chip.Canonical.dequeue (c : h.Canonical) {n uid : Nat} : (h.dequeue v n uid).Canonical := c.modCore

theorem Chip.Canonical.deliverHeld (c : h.Canonical) : (h.deliverHeld p).Canonical := by
  unfold Chip.deliverHeld
  split
  · exact c
  · split
    · exact c
    · exact .ite c.setThread c.haltAt.notify

theorem Chip.Canonical.resume (c : h.Canonical) {q : Parked} {bases : Nat × Option Nat} : (h.resume p q bases).Canonical := by
  have parked := c.modCluster (v := p.v) (f := fun k => { k with parked := k.parked.filter fun x => decide (x.thread.uid ≠ q.thread.uid) })
  exact parked.place.placeTrail.renegotiate.deliverHeld

theorem Chip.Canonical.start (c : h.Canonical) {uid : Nat} {k : Task} {bases : Nat × Option Nat} : (h.start p uid k bases).Canonical := by
  have placed := c.place (p := p) (t := newThread uid k bases.1) (bases := bases) (regs := startRegs h k.packet)
  have begun := fun m => (Chip.Canonical.ite (p := k.packet.origin = .launch) (placed.dropPrivate (v := p.v)) placed).withTasks (m := m)
  unfold Chip.start
  dsimp only
  split
  · exact begun _
  · exact .ite (begun _).putScratch (begun _).takeTrap

theorem Chip.Canonical.takeHead (c : h.Canonical) {n : Nat} : GivesSome (fun r => r.1.Canonical) (h.takeHead v n) := by
  unfold Chip.takeHead
  split
  · exact .absent
  · exact .ite (.map fun q => c.dequeue.resume) (.map fun t => c.dequeue.start)

/-! ## Messages, publications and launches (R352, R379, R430) -/

theorem Chip.Canonical.post (c : h.Canonical) {m : Message} : (h.post m).Canonical := by
  unfold Chip.post
  split
  · exact c.sendFrame
  · exact c.send

theorem Chip.Canonical.fabricPublish (c : h.Canonical) : Gives Chip.Canonical (h.fabricPublish p t) :=
  Gives.foldlM (fun _ _ c => c.need.bind fun _ c => .ok c.addRecord.sendFrame) c _

theorem Chip.Canonical.handLaunches (c : h.Canonical) {pid uid : Nat} : (h.handLaunches pid uid).Canonical :=
  Chip.Canonical.modTask (Chip.Canonical.eachCluster (f := fun _ k => { k with log := _ }) (Chip.Canonical.modPart (f := fun _ => _) c))

/-! ## Groups (R376 to R379) -/

theorem Chip.Canonical.barrierStep (c : h.Canonical) {w : Half} {gid : Nat} {op : Option Nat} {x : Word}
    {finish : Chip → Word → BitVec 5 → Chip} (keeps : ∀ g r f, g.Canonical → (finish g r f).Canonical) :
    Gives Chip.Canonical (h.barrierStep self p w gid op x finish) := by
  unfold Chip.barrierStep
  refine .ite .error ?_
  split
  · exact .ite (.ok c.setThread.takeTrap) (.ok (keeps _ _ _ c.modThread))
  · exact .error
  · exact .ok c.setThread

theorem Chip.Canonical.readNow (c : h.Canonical) {x : Word} {n : Nat} {go : List Byte → Chip → Except Stop Chip}
    (keeps : ∀ bs g, g.Canonical → Gives Chip.Canonical (go bs g)) : Gives Chip.Canonical (h.readNow self p x n go) := by
  unfold Chip.readNow
  split
  · rename_i done
    exact keeps _ _ (c.readBytes.of_ok done)
  · exact .error
  · exact .ok c.waitWalk
  · exact .error

theorem Gives.map {ε α β : Type} {P : α → Prop} {Q : β → Prop} {r : Except ε α} {f : α → β} (gives : Gives P r)
    (next : ∀ x, P x → Q (f x)) : Gives Q (r.map f) := by
  cases r with
  | ok x => exact .ok (next x (gives.of_ok rfl))
  | error e => exact .error

theorem Chip.Canonical.keepLaunch (c : h.Canonical) {r b : List Byte} : Gives Chip.Canonical (h.keepLaunch self p r b) :=
  .ite (.ok c.modTask) (c.need.map fun _ c => c.addRecord)

theorem Chip.Canonical.launchIssue (c : h.Canonical) {w : Half} {d : BitVec 7} {r b : List Byte} :
    Gives Chip.Canonical (h.launchIssue self p w d r b) := by
  refine .ite .error (.ite .error (.ite .error (.ite .error (c.keepLaunch.bind fun g c => .ok ?_))))
  exact (c.foldl fun _ c _ => c.modGroup).modThread.writeDst

/-! ## The end of a thread (R151, R152, R234, R339, R372) -/

theorem Chip.Canonical.leaveSlot (c : h.Canonical) {aborted : Bool} : (h.leaveSlot p t aborted).Canonical := by
  unfold Chip.leaveSlot
  dsimp only
  split
  · exact c.drainThroughs.setSlot.releaseClaim.modGroup
  · exact c.drainThroughs.setSlot.releaseClaim

theorem Chip.Canonical.finishQuiet (c : h.Canonical) {pid uid : Nat} : (h.finishQuiet pid uid).Canonical :=
  c.handLaunches.withTasks.launchLive

theorem Chip.Canonical.endQuiet (c : h.Canonical) : (h.endQuiet t).Canonical :=
  .ite c.handLaunches.leaveGroups.withTasks.launchLive c.modTask.leaveGroups

theorem Chip.Canonical.settleQuiet (c : h.Canonical) : h.settleQuiet.Canonical := c.foldl fun _ c _ => c.finishQuiet

theorem Chip.Canonical.endTask (c : h.Canonical) : (h.endTask p t).Canonical := by
  unfold Chip.endTask
  refine .ite c.leaveSlot.endQuiet ?_
  split
  · exact c.leaveSlot.withTasks
  · exact c.leaveSlot

theorem Chip.Canonical.abortSelf (c : h.Canonical) {code : Nat} : (h.abortSelf p t code).Canonical := by
  unfold Chip.abortSelf
  refine .ite c.leaveSlot.noteAbort.endQuiet ?_
  split
  · exact c.leaveSlot.withTasks.abortTasks
  · exact c.leaveSlot

/-! ## Tasks made (R146, R354) -/

theorem Chip.Canonical.newTask (c : h.Canonical) {src pid : Nat} {k : Packet} {l : Option Nat} : (h.newTask src pid k l).Canonical := by
  have made : Chip.Canonical { h with nextUid := h.nextUid + 1, tasks := h.tasks.put h.nextUid { pid := pid, packet := k, launch := l } } :=
    c.elsewhere
  exact made.joinGroups.launchLive.send

theorem Chip.Canonical.addChild (c : h.Canonical) {uid child : Nat} : (h.addChild uid child).Canonical := by
  unfold Chip.addChild
  split
  · exact c.withTasks
  · exact c

/-! ## Pre-emption (R144, R145, R161) -/

theorem Chip.Canonical.preempt (c : h.Canonical) : (h.preempt p).Canonical := .ite c.modCore.park c.modCore

theorem Chip.Canonical.vacate (c : h.Canonical) {n : Nat} {ts : List Nat} : (h.vacate v n ts).Canonical := c.modCore

theorem Chip.Canonical.displace (c : h.Canonical) {n : Nat} : (h.displace v n).Canonical := by
  unfold Chip.displace
  split
  · exact c
  · refine .ite ?_ c
    split
    · exact c.preempt
    · exact c

theorem Chip.Canonical.barrierYield (c : h.Canonical) {n : Nat} : (h.barrierYield v n).Canonical := by
  unfold Chip.barrierYield
  refine .ite ?_ c
  split
  · exact c.preempt
  · exact c

/-! ## Claims and mailboxes (R199 to R203, R294, R295) -/

theorem Chip.Canonical.requestLanes (c : h.Canonical) {uid : Nat} {x : Word} : (h.requestLanes v uid x).Canonical :=
  c.modClaim.renegotiate

theorem Chip.Canonical.finishClaim (c : h.Canonical) {uid : Nat} : (h.finishClaim p uid).Canonical := c.modClaim.modThread

theorem Chip.Canonical.claimStep (c : h.Canonical) : (h.claimStep self p).Canonical := by
  unfold Chip.claimStep
  dsimp only
  split
  · exact .ite c.serveClaims.finishClaim c.serveClaims.setThread
  · exact c.serveClaims

theorem Chip.Canonical.newClaim (c : h.Canonical) {uid : Nat} {x : Word} : (h.newClaim v uid x).Canonical :=
  Chip.Canonical.tick c.modCluster

theorem Chip.Canonical.mbsetRun (c : h.Canonical) {w : Who} {op : Op} : Gives Chip.Canonical (h.mbsetRun w v op) :=
  .bind_any fun _ => c.writeRecord.bind fun _ c => .ok c.modCluster

theorem Chip.Canonical.performAny (c : h.Canonical) {w : Who} {op : Op} : Gives CanonicalSnd (h.performAny w v op) :=
  .ite (c.mbsetRun.map fun _ c => c) c.perform

end

/-! ## Instructions of the GRP, THR, ENG, LANE and MBX majors -/

section
variable {s : State} (c : s.chip.Canonical) {d a b n : BitVec 7}
include c

theorem Chip.Canonical.execBmode : KeepsCanonical (execBmode d a b s) := by
  unfold Machine.execBmode
  exact c.issueChip fun _ _ _ c => c.readAt.bind fun _ c => c.readAt.bind fun _ c => c.bmode.bind fun _ c => .ok c.writeDst

theorem Chip.Canonical.execCflush : KeepsCanonical (execCflush s) := by
  unfold Machine.execCflush
  exact c.issueChip fun _ _ _ c => .ite .error (.ok c)

theorem Chip.Canonical.execBar : KeepsCanonical (execBar n s) := by
  unfold Machine.execBar
  exact c.issueChip fun _ _ _ c => .bind_any fun _ => c.barrierStep fun _ _ _ c => c

theorem Chip.Canonical.execBarv {op : BitVec 3} {n : BitVec 2} : KeepsCanonical (execBarv d a op n s) := by
  unfold Machine.execBarv
  exact c.issueChip fun _ _ _ c => c.readAt.bind fun _ c => .bind_any fun _ =>
      .ite .error (c.barrierStep fun _ _ _ c => c.modThread.writeDst)

theorem Chip.Canonical.execGred : KeepsCanonical (execGred a n s) := by
  unfold Machine.execGred
  exact c.issueChip fun _ _ _ c => c.readAt.bind fun _ c => .bind_any fun _ => .ite (.ok c.modGroup) (c.need.bind fun _ c => .ok c.addRecord)

theorem Chip.Canonical.execGleave : KeepsCanonical (execGleave n s) := by
  unfold Machine.execGleave
  exact c.issueChip fun _ _ _ c => .bind_any fun _ => .ite .error (.ok (.ite c.modThread.leaveGroup c.modThread))

theorem Chip.Canonical.execLaunch : KeepsCanonical (execLaunch d a s) := by
  unfold Machine.execLaunch
  exact c.issueChip fun _ _ _ c => c.readAt.bind fun _ c => .ite .error (.ite .error (.ite .error (.ite .error
    (c.readNow fun _ _ c => .ite .error (.ite .error (.ite .error (c.readNow fun _ _ c => c.launchIssue)))))))

theorem Chip.Canonical.execGqry : KeepsCanonical (execGqry d a s) := by
  unfold Machine.execGqry
  exact c.issueChip fun _ _ _ c => c.readAt.bind fun _ c => .bind_any fun _ => .ite .error (.ite .error (.ok c.raiseFlags.writeDst))

theorem Chip.Canonical.execSpawn : KeepsCanonical (execSpawn d a b s) := by
  unfold Machine.execSpawn
  exact c.issueChip fun _ _ _ c => .ite .error (c.readAt.bind fun _ c => c.readAt.bind fun _ c => c.readAt.bind fun _ c =>
    .ite .error (.ite .error (.ite .error (.ite .error (.ite .error (.ok c.addChild.newTask.modThread.writeDst))))))

theorem Chip.Canonical.execTake : KeepsCanonical (execTake d a s) := by
  unfold Machine.execTake
  refine c.issueChip fun _ p h c => c.readAt.bind fun x c => .bind_any fun _ => ?_
  have freed : ∀ {u : Option Nat} {g : Chip}, g.Canonical → Chip.Canonical (match u with | some u => g.abort u | none => g) := by
    intro u g c
    cases u with
    | none => exact c
    | some u => exact c.abort
  dsimp only
  split
  · rename_i taken
    exact .ok (Chip.Canonical.writeDst ((freed c).takeHead.of_some taken))
  · exact .ite (.ok (freed c).writeDst) .error

theorem Chip.Canonical.execReap : KeepsCanonical (execReap d a s) := by
  unfold Machine.execReap
  refine c.issueChip fun _ p h c => c.readAt.bind fun x c => .bind_any fun _ => ?_
  dsimp only
  split
  · exact .ok c.setSlot.writeDst
  · exact .ite (.ok c.writeDst) .error

theorem Chip.Canonical.execTend : KeepsCanonical (execTend s) := by
  unfold Machine.execTend
  refine c.issueChip fun _ p h c => .ite .error (.ite .error ?_)
  split
  · exact .error
  · exact c.fabricPublish.bind fun _ c => .ok c.endTask

omit c in
theorem Chip.Canonical.discardFaults (c : s.chip.Canonical) : (discardFaults a s).chip.Canonical := by
  unfold Machine.discardFaults
  dsimp only
  split
  · exact c
  · split
    · exact Chip.Canonical.setThread c.elsewhere
    · exact c

theorem Chip.Canonical.execTabort : KeepsCanonical (execTabort a s) := by
  unfold Machine.execTabort
  refine .ite (.next c) (c.discardFaults.issueChip fun _ p h c => .ite .error (c.readAt.bind fun _ c => .ite .error ?_))
  split
  · exact .error
  · exact .ok c.abortSelf

theorem Chip.Canonical.execYield : KeepsCanonical (execYield s) := by
  unfold Machine.execYield
  exact c.issueChip fun _ _ _ c => .ite (.ok c.modThread.park) (.ok c)

theorem Chip.Canonical.execMfc : KeepsCanonical (execMfc d n s) := by
  unfold Machine.execMfc
  exact c.issueChip fun _ _ _ c => .ite .error (.ok c.writeDst)

theorem Chip.Canonical.execMtc : KeepsCanonical (execMtc a n s) := by
  unfold Machine.execMtc
  exact c.issueChip fun _ _ _ c => c.readAt.bind fun _ c => .ite .error (.ok c.modCore)

theorem Chip.Canonical.execSelf : KeepsCanonical (execSelf d s) := by
  unfold Machine.execSelf
  exact c.issueChip fun _ _ _ c => .ok c.writeDst

theorem Chip.Canonical.execGrade : KeepsCanonical (execGrade d s) := by
  unfold Machine.execGrade
  exact c.issueChip fun _ _ _ c => .ok c.writeDst

theorem Chip.Canonical.execTopo : KeepsCanonical (execTopo d a s) := by
  unfold Machine.execTopo
  exact c.issueChip fun _ _ _ c => c.readAt.bind fun _ c => .ite .error (.ite .error (.ok c.writeDst))

theorem Chip.Canonical.execChain : KeepsCanonical (execChain d a b s) := by
  unfold Machine.execChain
  exact c.issueChip fun _ _ _ c => c.readAt.bind fun _ c => c.readAt.bind fun _ c => c.chainIssue

theorem Chip.Canonical.execEwait : KeepsCanonical (execEwait a b s) := by
  unfold Machine.execEwait
  exact c.issueChip fun _ _ _ c => c.readAt.bind fun _ c => c.readAt.bind fun _ c => c.ewaitIssue

theorem Chip.Canonical.execShopen : KeepsCanonical (execShopen d a b s) := by
  unfold Machine.execShopen
  exact c.issueChip fun _ _ _ c => c.readAt.bind fun _ c => c.readAt.bind fun _ c => c.shopenIssue

theorem Chip.Canonical.execPubl : KeepsCanonical (execPubl a s) := by
  unfold Machine.execPubl
  exact c.issueChip fun _ _ _ c => c.readAt.bind fun _ c => .ite .error (.ok c.withShadows.tick)

theorem Chip.Canonical.execBcarm : KeepsCanonical (execBcarm a b s) := by
  unfold Machine.execBcarm
  exact c.issueChip fun _ _ _ c => c.readAt.bind fun _ c => c.readAt.bind fun _ c => .ite .error (.bind_any fun _ =>
      .ite .error (.ok c.putScratch))

theorem Chip.Canonical.execBcwait : KeepsCanonical (execBcwait a s) := by
  unfold Machine.execBcwait
  exact c.issueChip fun _ _ _ c => c.readAt.bind fun _ c => .bind_any fun _ => .ite .error (.ok c.dropPrivate)

theorem Chip.Canonical.execClaim : KeepsCanonical (execClaim a s) := by
  unfold Machine.execClaim
  refine c.issueChip fun _ p h c => c.readAt.bind fun _ c => .ite .error ?_
  split
  · exact .ok c.newClaim.claimStep
  · exact .ite (.ok c.modClaim.claimStep) (.ite .error (.ok c.requestLanes))

theorem Chip.Canonical.execVrel : KeepsCanonical (execVrel s) := by
  unfold Machine.execVrel
  exact c.issueChip fun _ _ _ c => .bind_any fun _ => .ok c.releaseClaim

theorem Chip.Canonical.execReneg : KeepsCanonical (execReneg a s) := by
  unfold Machine.execReneg
  exact c.issueChip fun _ _ _ c => c.readAt.bind fun _ c => .ite .error (.bind_any fun _ => .ok (.ite c c.requestLanes))

theorem Chip.Canonical.execMbset : KeepsCanonical (execMbset a b s) := by
  unfold Machine.execMbset
  refine c.issueChip fun self p h c => c.readAt.bind fun x c => c.readAt.bind fun y c => .bind_any fun place => .bind_any fun _ =>
    .ite .error (.ite .error ?_)
  have ticked := Chip.Canonical.tick c
  dsimp only
  split
  · refine .ite ?_ (.ite .error (.ok ticked.migrate))
    split
    · rename_i done
      exact .ok (ticked.mbsetRun.of_ok done)
    · exact .ok ticked.modThread
    · exact .error
    · exact .error
  · split
    · rename_i done
      exact .ok (ticked.mbsetRun.of_ok done)
    · exact .ok ticked.modThread
    · exact .error
    · exact .error

theorem Chip.Canonical.mailboxForm {w : Half} {uses : List Use} {keep : Due × Dest} : KeepsCanonical (mailboxForm w uses a keep s) := by
  unfold Machine.mailboxForm
  exact c.issueChip fun _ _ _ c => .bind_any fun _ => c.readAt.bind fun _ c => .bind_any fun _ => .bind_any fun _ => .ite .error c.tick.pushAt

end

end Sys2Proof.Machine
end

section
/-! PROOFS. The family 10, memories in canonical form: the matrix engine, page walks and the tiers (R230 to R254, R312 to R324). -/

namespace Sys2Proof.Machine

set_option Elab.async false

section
variable {h : Chip} {v pid gid k : Nat} {p : At} {t self : Thread} {w : Who} {x y : Word} {word : Half}

/-! ## Gangs (R230 to R234) -/

theorem Chip.Canonical.modGang (c : h.Canonical) {f : Gang → Gang} : (h.modGang v pid gid f).Canonical := c.modCluster

theorem Chip.Canonical.engage (c : h.Canonical) : GivesSome Chip.Canonical (h.engage v pid gid) :=
  .ite (.present c) (.ite (.present c.modCluster) .absent)

theorem Chip.Canonical.standAt (c : h.Canonical) {r : Wait} : (h.standAt p self r).Canonical := c.setThread

theorem Chip.Canonical.moveOn (c : h.Canonical) : (h.moveOn p).Canonical := c.modThread

theorem Chip.Canonical.gangStep (c : h.Canonical) : Gives Chip.Canonical (h.gangStep self p word x) := by
  refine .bind_any fun gid => ?_
  have trap := fun t y => (c.modGang (v := p.v) (pid := self.pid) (gid := gid) (f := fun g =>
    { g with arrived := g.arrived.filter fun a => decide (a.2.1 ≠ self.uid) })).setThread (p := p) (t := { self with wait := .none })
    |>.takeTrap (p := p) (r := raisedBy self t y) (held := false)
  dsimp only
  split
  · exact .ok c.modThread
  · exact .ok (trap _ _)
  · refine .ite (.ok (trap _ _)) (.ite .error ?_)
    split
    · exact .ok c.standAt
    · rename_i engaged
      exact .ok (c.engage.of_some engaged).tick.modGang.standAt

theorem Chip.Canonical.gangDone (c : h.Canonical) {g : Gang} {r : Op → Option (Trap × Word)} : (h.gangDone v pid gid g r).Canonical :=
  c.modGang.foldl fun _ c _ => c.mapThread

theorem Chip.Canonical.gangEffect (c : h.Canonical) : (h.gangEffect v pid gid).Canonical := by
  unfold Chip.gangEffect
  split
  · exact c
  · split
    · exact c
    · refine .ite c (.ite c.gangDone (.ite ?multiply ?slots))
      case multiply =>
        split
        · exact c.gangDone
        · exact .ite c c.tick.modGang.gangDone
      case slots =>
        exact .ite c.gangDone (.ite (.ite c.gangDone (.ite c.gangDone (.ite c.gangDone (.ite c c.modGang.gangDone))))
          (.ite c.gangDone (.ite c c.modGang.gangDone)))

/-! ## Operations of a queue (R239 to R251) -/

theorem Chip.Canonical.bindAcc (c : h.Canonical) {name : Nat} : GivesSome Chip.Canonical (h.bindAcc v pid gid name) := by
  unfold Chip.bindAcc
  split
  · exact .absent
  · refine .ite (.present c) ?_
    split
    · exact .absent
    · exact .present c.modGang

theorem Chip.Canonical.mmaStart (c : h.Canonical) : (h.mmaStart v pid gid k).Canonical := by
  unfold Chip.mmaStart
  split
  · exact c
  · split
    · exact c
    · refine .ite c ?_
      split
      · exact c
      · rename_i bound
        exact (c.bindAcc.of_some bound).modGang

theorem Chip.Canonical.mmaComplete (c : h.Canonical) : (h.mmaComplete v pid gid k).Canonical := by
  unfold Chip.mmaComplete
  split
  · exact c
  · split
    · exact c
    · refine .ite c ?_
      split
      · exact c.modGang
      · exact c

/-- What comes third with a chip whose memories are in canonical form. -/
abbrev CanonicalThird {α β : Type} (x : α × β × Chip) : Prop := x.2.2.Canonical

theorem Gives.third {ε α β : Type} {g : Chip} {x : α} {y : β} (c : g.Canonical) :
    Gives CanonicalThird (.ok (x, y, g) : Except ε (α × β × Chip)) := .ok c

theorem Chip.Canonical.f4bSide (c : h.Canonical) {index a n : Nat} : Gives CanonicalThird (h.f4bSide w v index a n) :=
  .ite .error (c.readBytes.bind fun _ c => .ite .error (c.readBytes.bind fun _ c => c.readBytes.bind fun _ c => .third c))

theorem Chip.Canonical.oldRead (c : h.Canonical) {q : OpSlot} {i : Nat} : Gives CanonicalSnd (h.oldRead w v q x y i) :=
  .ite .error (c.readBytes.bind fun _ c => .ite (c.f4bSide.bind fun _ c => .snd c) (.snd c))

theorem Chip.Canonical.oldRun (c : h.Canonical) {q : OpSlot} : Gives CanonicalSnd (h.oldRun w v q x y) :=
  Gives.foldlM (P := CanonicalSnd) (fun _ _ c => c.oldRead.bind fun _ c => .snd c) (by exact c) _

theorem Chip.Canonical.ardRun (c : h.Canonical) {u : Nat → Half} {elems : Map Half} : Gives CanonicalSnd (h.ardRun w v u elems k x y) :=
  Gives.foldlM (P := CanonicalSnd) (fun _ _ c => c.writeBytes.bind fun _ c => .snd c) (by exact c) _

theorem Chip.Canonical.awrRun (c : h.Canonical) {elems : Map Half} : Gives CanonicalSnd (h.awrRun w v elems k x y) :=
  Gives.foldlM (P := CanonicalSnd) (fun _ _ c => c.readBytes.bind fun _ c => .snd c) (by exact c) _

theorem Chip.Canonical.memberRun (c : h.Canonical) {g : Gang} {q : GangOp} : Gives CanonicalThird (h.memberRun t v g q) := by
  unfold Chip.memberRun
  dsimp only
  split
  · split
    · exact .third c
    · exact c.oldRun.bind fun _ c => .third c
  · split
    · exact .third c
    · split
      · exact c.ardRun.bind fun _ c => .third c
      · exact c.awrRun.bind fun _ c => .third c
      · exact .third c

theorem Chip.Canonical.memberComplete (c : h.Canonical) {old : Bool} : (h.memberComplete v pid gid k old).Canonical := by
  unfold Chip.memberComplete
  split
  · exact c
  · split
    · exact c
    · refine .ite c ?_
      dsimp only
      split
      · rename_i done
        exact .ite (Chip.Canonical.modGang (c.memberRun.of_ok done)).modGang.mapThread c.modGang.mapThread
      · exact c.modGang.mapThread
      · exact c.modGang.mapThread
      · exact c.addWalk
      · exact c

/-! ## Member instructions at issue (R238, R241 to R245) -/

theorem Chip.Canonical.memberStart (c : h.Canonical) : Gives (fun r => GivesSome Chip.Canonical r.2) (h.memberStart self p word) :=
  .bind_any fun _ => .ok c.engage

theorem Chip.Canonical.queueOp (c : h.Canonical) {q : GangOp} {keep : Bool} : Gives Chip.Canonical (h.queueOp self p gid q keep) := by
  unfold Chip.queueOp
  split
  · exact .error
  · exact .ite .error (.ok (.ite c.modGang.modThread c.modGang))

theorem Chip.Canonical.oldIssue (c : h.Canonical) {d : BitVec 7} : Gives Chip.Canonical (h.oldIssue self p word d x y) := by
  refine c.memberStart.bind fun r started => ?_
  split
  · exact .ok c.standAt
  · refine .ite .error ?_
    split
    · exact .error
    · exact .ite .error (.ite .error (.ite .error ((started.of_some rfl).tick.queueOp.bind fun _ c => .ok c.moveOn.modThread.writeDst)))

theorem Chip.Canonical.accIssue (c : h.Canonical) : Gives Chip.Canonical (h.accIssue self p word x y) := by
  refine c.memberStart.bind fun r started => ?_
  split
  · exact .ok c.standAt
  · rename_i gid g
    refine .ite .error (.ite .error (.ite .error (.ite .error ?_)))
    dsimp only
    refine .ite (.bind_any fun _ => .ite .error ?_) (.ite .error ?_)
    all_goals
      split
      · exact .error
      · rename_i bound
        exact ((started.of_some rfl).bindAcc.of_some bound).tick.queueOp.bind fun _ c =>
          .ok (Chip.Canonical.ite c.modGang c).moveOn.modThread

theorem Chip.Canonical.mwaitIssue (c : h.Canonical) : Gives Chip.Canonical (h.mwaitIssue self p word x y) := by
  refine c.memberStart.bind fun r started => ?_
  split
  · exact .ok c.standAt
  · exact .ite .error (.ite .error (.ok (started.of_some rfl).moveOn))

/-! ## Orphans and parking (R253, R254) -/

theorem Chip.Canonical.gangPark (c : h.Canonical) : (h.gangPark v pid gid).Canonical := by
  unfold Chip.gangPark
  split
  · exact .ite c.modGang c
  · exact c

theorem Chip.Canonical.gangReclaim (c : h.Canonical) : (h.gangReclaim v pid gid).Canonical := by
  unfold Chip.gangReclaim
  split
  · exact .ite c (.ite c.modGang (.ite c.modGang c))
  · exact c

/-! ## Threads that wait (R141, R323, R324) -/

variable {uid region : Nat}

theorem Chip.Canonical.requeue (c : h.Canonical) : (h.requeue uid).Canonical := by
  unfold Chip.requeue
  split
  · exact c
  · exact .ite c c.arrive

theorem Chip.Canonical.parkWaiter (c : h.Canonical) : (h.parkWaiter uid).Canonical := by
  unfold Chip.parkWaiter
  split
  · exact .ite c c.park
  · exact c

theorem Chip.Canonical.parkWaiters (c : h.Canonical) : h.parkWaiters.Canonical := c.foldl fun _ c _ => c.parkWaiter

theorem Chip.Canonical.retryAccess (c : h.Canonical) {op : Op} : (h.retryAccess v t op).Canonical := by
  unfold Chip.retryAccess
  dsimp only
  split
  · rename_i done
    exact Chip.Canonical.mapThread (c.performAny.of_ok done)
  · exact c.mapThread
  · exact c.mapThread
  · exact c.addWalk
  · exact c

theorem Chip.Canonical.wake (c : h.Canonical) {seqs uids : List Nat} : (h.wake seqs uids).Canonical := by
  refine Chip.Canonical.foldl (c.foldl fun g c q => ?_) fun _ c _ => c.requeue
  split
  · exact c.retryAccess.requeue
  · exact c

theorem Chip.Canonical.loadComplete (c : h.Canonical) : (h.loadComplete uid).Canonical := by
  unfold Chip.loadComplete
  split
  · exact c
  · split
    · exact c.mapThread
    · split
      · exact .ite c c.retryAccess
      · exact c

/-! ## Walks (R320 to R324) -/

theorem Chip.Canonical.modWalk (c : h.Canonical) {f : Walk → Walk} : (h.modWalk pid region f).Canonical := c.elsewhere

theorem Chip.Canonical.dropWalk (c : h.Canonical) : (h.dropWalk pid region).Canonical := c.elsewhere

theorem Chip.Canonical.withRings (c : h.Canonical) {regs : Map Word} {rings : List RingRec} :
    Chip.Canonical { h with regs := regs, rings := rings } := c.elsewhere

theorem Chip.Canonical.walkComplete (c : h.Canonical) : (h.walkComplete pid region).Canonical := by
  unfold Chip.walkComplete
  split
  · exact c
  · refine .ite c ?_
    split
    · exact c.dropWalk.enterPage.wake
    · exact c.withRings.modWalk.parkWaiters

theorem Chip.Canonical.frespRetry (c : h.Canonical) : (h.frespRetry x).Canonical := c.withRegs.modWalk

theorem Chip.Canonical.rejectOne (c : h.Canonical) {seq : Nat} : (h.rejectOne pid region seq).Canonical := by
  unfold Chip.rejectOne
  extract_lets marked
  have under : ∀ {uid : Nat} {act : Chip → Chip}, (∀ g, g.Canonical → (act g).Canonical) → (marked uid h act).Canonical :=
    fun keeps => (keeps _ c.mapThread).mapThread
  clear_value marked
  refine .ite (c.modPart fun _ own => ?_) ?_
  · split <;> exact own
  split
  · refine (under fun g c => ?_).requeue
    split
    · exact c.retryAccess
    · exact c
  · split
    · exact under fun g c => c.completeVector
    · split
      · exact under fun g c => c.modCmd.engStep
      · split
        · exact under fun g c => c.memberComplete
        · split
          · exact c.mapThread
          · exact c

theorem Chip.Canonical.frespReject (c : h.Canonical) : (h.frespReject x).Canonical := by
  unfold Chip.frespReject
  dsimp only
  split
  · exact c.withRegs
  · refine .ite c.withRegs (Chip.Canonical.foldl ?_ fun _ c _ => c.mapThread.requeue)
    exact c.withRegs.dropWalk.foldl fun _ c _ => c.rejectOne

theorem Chip.Canonical.fresp (c : h.Canonical) : (h.fresp x).Canonical := .ite c.frespReject c.frespRetry

theorem Chip.Canonical.xlinv (c : h.Canonical) : (h.xlinv x).Canonical := c.elsewhere

theorem Chip.Canonical.sliceHash (c : h.Canonical) : (h.sliceHash x).Canonical := .ite c.withRegs c.withRegs

end

/-! ## Instructions and events -/

section
variable {s : State} (c : s.chip.Canonical) {a b : BitVec 7}
include c

theorem Chip.Canonical.execCinv : KeepsCanonical (execCinv a b s) := by
  unfold Machine.execCinv
  exact c.issueChip fun _ _ _ c => c.readAt.bind fun _ c => c.readAt.bind fun _ c => .ite (.ok c) (.ok c.modCluster)

theorem Chip.Canonical.execHome : KeepsCanonical (execHome s) := by
  unfold Machine.execHome
  exact c.issueChip fun _ _ _ c => .ite (.ok c) (.ite .error (.ok c.migrate))

theorem Chip.Canonical.execXlinvDone : KeepsCanonical (execXlinvDone s) := .ite (.next c) (.next c.elsewhere)

theorem Chip.Canonical.execSliceRehashComplete : KeepsCanonical (execSliceRehashComplete s) := by
  refine .ite (.next (Chip.Canonical.withTiers (c.withRegs.foldl fun _ c _ => c.touchHome))) (.next c)

theorem Chip.Canonical.execLineEviction {tier line : Nat} : KeepsCanonical (execLineEviction tier line s) :=
  .ite (.next (Chip.Canonical.withTiers (.ite c.touchHome c))) (.next c.withTiers)

end

end Sys2Proof.Machine
end

section
/-! PROOFS. The family 10, memories in canonical form: partitions and flash images (R166, R347, R385, R388, R403, R413, R436). -/

namespace Sys2Proof.Machine

set_option Elab.async false

section
variable {h : Chip} {v pid : Nat} {x : Word}

/-! ## Configuration (R166, R347, R413, R428) -/

theorem Chip.Canonical.scrcfg (c : h.Canonical) : GivesSome Chip.Canonical (h.scrcfg v x) := .ite .absent (.present c.modCluster)

theorem Chip.Canonical.hndcfg (c : h.Canonical) : GivesSome Chip.Canonical (h.hndcfg v x) :=
  .ite .absent (.ite .absent (.present c.modCluster))

theorem Cluster.canonical_cairnSwitch {k : Cluster} (own : k.canonical) (x : Word) : (k.cairnSwitch x).canonical := by
  refine List.foldlRecOn (motive := Cluster.canonical) _ _ own fun k own b _ => ?_
  split
  · split
    · exact own
    · exact Cluster.canonical_switchBank own _ _
  · split
    · exact Cluster.canonical_switchBank own _ _
    · exact own

theorem Chip.Canonical.assignPartners (c : h.Canonical) {vs : List Nat} : (h.assignPartners pid vs).Canonical := by
  refine c.foldl fun g c v => ?_
  split
  · exact c.modPart
  · exact c.modPart

theorem Chip.Canonical.pcairn (c : h.Canonical) : (h.pcairn pid x).Canonical := by
  have fresh : ∀ k : Cluster, k.canonical →
      Cluster.canonical { k.cairnSwitch x with cairn := none, cairnNext := none, inputs := [], inputsNext := [] } :=
    fun k own => Cluster.canonical_cairnSwitch own x
  unfold Chip.pcairn
  refine .ite c.modPart (Chip.Canonical.foldl ?_ fun g c v => .ite (c.modCluster fresh) c)
  exact Chip.Canonical.assignPartners (c.modPart fun _ own => canonicalClusters.each own fun _ k => fresh k)

theorem Chip.Canonical.frdat (c : h.Canonical) : GivesSome Chip.Canonical (h.frdat pid x) := .ite .absent (.present c.modPart)

/-! ## Creation and destruction (R388) -/

theorem Chip.Canonical.enterDispatcher (c : h.Canonical) {n : Nat} : (h.enterDispatcher pid v n).Canonical := .ite c c.setSlot

theorem Chip.Canonical.giveCluster (c : h.Canonical) : (h.giveCluster pid v).Canonical :=
  Chip.Canonical.foldl (Chip.Canonical.modCluster (f := fun _ => _) c) fun _ c _ => c.enterDispatcher

theorem Chip.Canonical.createPartition {s : State} (c : s.chip.Canonical) : (s.createPartition pid).chip.Canonical := by
  have created := c.modPart (pid := pid) (f := fun q => q.created s.gradeWord !(s.chip.sharers pid).isEmpty)
    fun _ _ => canonicalClusters.nil
  unfold State.createPartition
  dsimp only
  split
  · exact .inState c.modPart
  · exact .inState (.ite created (created.foldl fun _ c _ => c.giveCluster))

theorem Chip.Canonical.leaveDispatcher (c : h.Canonical) {own : Bool} : (h.leaveDispatcher own v).Canonical :=
  .ite (c.foldl fun _ c _ => c.setSlot) c

/-- The images of a partition forgotten. -/
theorem Chip.Canonical.dropImages (c : h.Canonical) {upper : List WalkEntry} :
    Chip.Canonical { h with
      upper := upper, images := (h.images.erase (2 * pid)).erase (2 * pid + 1), older := h.older.erase pid
      atPoints := h.atPoints.erase pid } :=
  { c with
    images := Map.forall_erase (P := FlashImage.canonical) (Map.forall_erase (P := FlashImage.canonical) c.images)
    older := Map.forall_erase (P := fun is : List FlashImage => ∀ i ∈ is, i.canonical) c.older
    atPoints := Map.forall_erase (P := fun is : List FlashImage => ∀ i ∈ is, i.canonical) c.atPoints }

theorem Chip.Canonical.destroyPartition (c : h.Canonical) : (h.destroyPartition pid).Canonical := by
  have freed : ∀ (x : Word) (k : Cluster), k.canonical → Cluster.canonical { k.cairnSwitch x with pid := none } :=
    fun x k own => Cluster.canonical_cairnSwitch own x
  unfold Chip.destroyPartition
  split
  · exact c.modPart
  · extract_lets own g
    have left : g.Canonical := c.foldl fun g c v => .ite (Chip.Canonical.leaveDispatcher (c.modCluster (freed 0))) c
    clear_value g
    exact left.dropImages.modPart fun _ _ => canonicalClusters.nil

/-! ## Pre-emption and resume (R385, R413) -/

theorem Chip.Canonical.vacateCluster (c : h.Canonical) : (h.vacateCluster v).Canonical :=
  c.foldl fun _ c _ => c.foldl fun _ c _ => c.preempt

theorem Chip.Canonical.partitionPreempt (c : h.Canonical) : (h.partitionPreempt pid).Canonical :=
  .ite c (Chip.Canonical.modPart (c.foldl fun _ c _ => .ite c.vacateCluster c))

theorem Chip.Canonical.swapIn (c : h.Canonical) : (h.swapIn pid v).Canonical := by
  have comeBack : ∀ {g : Chip} {own : Cluster}, g.Canonical → (g.part pid).saved.get v = some own →
      (({ g with clusters := g.clusters.put v own } : Chip).modPart pid fun q => { q with saved := q.saved.erase v }).Canonical :=
    fun c found => (c.withClusters (c.clusters.put (Map.forall_get (P := Cluster.canonical) (c.part pid) found))).modPart
      fun _ own => own.erase
  unfold Chip.swapIn
  dsimp only
  split
  · refine .ite c ?_
    have saved := fun p => c.modPart (pid := p) (f := fun q => { q with saved := q.saved.put v (h.cluster v) })
      fun _ own => own.put (c.cluster v)
    split
    · rename_i found
      exact comeBack (saved _) found
    · exact ((saved _).withClusters ((saved _).clusters.put (k := {}) rfl)).giveCluster
  · split
    · rename_i found
      exact comeBack c found
    · exact c.giveCluster

theorem Chip.Canonical.partitionResume (c : h.Canonical) : (h.partitionResume pid).Canonical :=
  .ite c (Chip.Canonical.modPart (c.foldl fun _ c _ => c.swapIn))

theorem Chip.Canonical.cpre (c : h.Canonical) {n : Nat} : GivesSome Chip.Canonical (h.cpre v n x) := .ite .absent (.present c.vacate)

/-! ## Flash images (R337, R403, R436) -/

/-- A memory with some bytes taken from another one. -/
theorem Mem.wf_takeRanges {m other : Mem} (own : Memory.wf m = true) (rs : List (Nat × Nat)) : Memory.wf (m.takeRanges other rs) = true :=
  List.foldlRecOn (motive := fun m => Memory.wf m = true) _ _ (Mem.wf_filter _ own) fun _ own _ _ => Mem.wf_write _ _ own

theorem Chip.Canonical.snapshot (c : h.Canonical) {vt : Nat} : (h.snapshot pid vt).canonical := ⟨c.hbm, c.clusters.filter _, c.part pid⟩

theorem Chip.Canonical.layWrites (c : h.Canonical) {ws : List (Nat × List Byte)} : (h.layWrites pid ws).Canonical :=
  c.foldl fun _ c _ => c.foldl fun _ c _ => .ite (c.withHbm (Mem.wf_write _ _ c.hbm)) c

theorem Chip.Canonical.keepHostWrite (c : h.Canonical) {a : Nat} {bs : List Byte} : (h.keepHostWrite a bs).Canonical :=
  c.eachPart fun _ q own => by split <;> exact own

theorem Chip.Canonical.restoreImage (c : h.Canonical) {i : FlashImage} (image : i.canonical) : (h.restoreImage pid i).Canonical := by
  obtain ⟨hbm, clusters, saved⟩ := image
  have listed : ∀ f : Nat × Cluster → Bool, canonicalClusters ((i.clusters ++ i.part.saved).filter f) := (clusters.append saved).filter
  refine Chip.Canonical.abortTasks ?_
  exact { c with
    hbm := Mem.wf_takeRanges c.hbm _
    clusters := canonicalClusters.puts _ (listed _) c.clusters
    parts := Map.forall_put (P := fun q : Partition => canonicalClusters q.saved) c.parts
      (canonicalClusters.puts _ (listed _) canonicalClusters.nil) }

theorem Chip.Canonical.machineCheck (c : h.Canonical) {r : Restore} {cls target count vt : Nat} :
    (h.machineCheck r cls target count vt).Canonical := c.withRegs.record

theorem Chip.Canonical.reportBounded (c : h.Canonical) : (h.reportBounded pid).Canonical := .ite c.machineCheck c

theorem Chip.Canonical.fallBack (c : h.Canonical) : (h.fallBack pid v).Canonical := by
  unfold Chip.fallBack
  split
  · rename_i found
    exact .ite c.haltPartition (c.restoreImage (Map.forall_get (P := FlashImage.canonical) c.images found))
  · exact c.haltPartition

theorem Chip.Canonical.beginImage (c : h.Canonical) {vt : Nat} : (h.beginImage pid vt).Canonical := by
  unfold Chip.beginImage
  exact Chip.Canonical.modPart (c.withImages (Map.forall_put (P := FlashImage.canonical) c.images c.snapshot))

/-- The images that a partition may go back to. -/
theorem Chip.Canonical.agreed (c : h.Canonical) {i : FlashImage} (mem : i ∈ (h.images.get (2 * pid)).toList ++ h.older.getOr pid []) :
    i.canonical := by
  rcases List.mem_append.1 mem with last | older
  · exact Map.forall_get (P := FlashImage.canonical) c.images (Option.mem_toList.1 last)
  · exact Map.forall_getOr (P := fun is : List FlashImage => ∀ i ∈ is, i.canonical) c.older
      (fun _ absent => absurd absent List.not_mem_nil) pid i older

theorem Partition.mem_of_mem_keeps {q : Partition} {is : List FlashImage} {i : FlashImage} (mem : i ∈ q.keeps is) : i ∈ is := by
  rcases List.mem_append.1 mem with first | agreed
  · exact (List.takeWhile_subset _ first)
  · exact List.mem_of_find?_eq_some (Option.mem_toList.1 agreed)

end

/-! ## Events -/

section
variable {s : State} (c : s.chip.Canonical) {v n pid : Nat} {x : BitVec 64}
include c

theorem Chip.Canonical.execVacateComplete {slot : Nat} : KeepsCanonical (execVacateComplete v n slot s) := .chip (.ite c.preempt c)

theorem Chip.Canonical.execContextWriteback : KeepsCanonical (execContextWriteback v s) := by
  unfold Machine.execContextWriteback
  dsimp only
  split
  · exact .ite (.chip c.modCluster) (.next c)
  · exact .next c

theorem Chip.Canonical.execFlashImageWritten : KeepsCanonical (execFlashImageWritten pid s) := by
  unfold Machine.execFlashImageWritten
  dsimp only
  split
  · exact .next c
  · rename_i i found
    have image := Map.forall_get (P := FlashImage.canonical) c.images found
    refine .chip (Chip.Canonical.modPart (f := fun _ => _) ?_)
    refine { c with images := ?images, older := ?older }
    case images => exact Map.forall_put (P := FlashImage.canonical) (Map.forall_erase (P := FlashImage.canonical) c.images) image
    case older =>
      refine Map.forall_put (P := fun is : List FlashImage => ∀ i ∈ is, i.canonical) c.older fun j mem => ?_
      have mem := Partition.mem_of_mem_keeps (List.mem_of_mem_drop mem)
      rcases List.mem_cons.1 mem with rfl | before
      · exact image
      · split at before
        · exact c.agreed before
        · exact absurd before List.not_mem_nil

theorem Chip.Canonical.execImageDataFrame : KeepsCanonical (execImageDataFrame pid s) := by
  unfold Machine.execImageDataFrame
  dsimp only
  split
  · exact .next c
  · exact .chip c.sendFrame.modPart

theorem Chip.Canonical.execCairnAcknowledge : KeepsCanonical (execCairnAcknowledge v s) :=
  .chip (c.modCluster fun _ own => by split <;> exact own)

end

end Sys2Proof.Machine
end

section
/-! PROOFS. The family 10, memories in canonical form: virtual time, commits, digests and irrevocable actions (R331 to R336, R356, R357,
R361, R398, R431, R433 to R435). -/

namespace Sys2Proof.Machine

set_option Elab.async false

section
variable {h : Chip} {v pid uid : Nat} {w : Word}

/-! ## Lazy writes (R357) -/

theorem Chip.Canonical.drainBytes (c : h.Canonical) {f : Chip → Nat → Byte → Chip}
    (keeps : ∀ g a b, g.Canonical → (f g a b).Canonical)
    {pa : Nat} {m : Map Byte} : (drainBytes f h pa m).Canonical := c.foldl fun _ c _ => keeps _ _ _ c

theorem Chip.Canonical.performLazy (c : h.Canonical) {x : Lazy} : (h.performLazy pid w x).Canonical := by
  have noticed : ∀ {line : Nat} {vs : List Nat}, Chip.Canonical (vs.foldl (fun h t => h.performNotice t line (some w) false) h) :=
    c.foldl fun _ c _ => c.performNotice
  have fell : ∀ {us : List Nat}, (if us = [] then h else h.abortTasks us []).Canonical := .ite c c.abortTasks
  unfold Chip.performLazy
  dsimp only
  split
  · exact (noticed.drainBytes fun _ _ _ c => c.writeHome.modCluster).raiseDir
  · exact c.drainBytes fun _ _ _ c => c.writePrivate.modCluster
  · exact (noticed.writeHome.modCluster).raiseDir
  · exact fell.putScratch
  · exact fell.withHbm (Mem.wf_write _ _ fell.hbm)
  · exact c.modGroup

theorem Chip.Canonical.ropeAdd (c : h.Canonical) : (h.ropeAdd pid uid w).Canonical := .ite c c.modPart

/-! ## Commit (R357) -/

theorem Chip.Canonical.finishCommit (c : h.Canonical) {t : Task} : (h.finishCommit pid uid t).Canonical := by
  have freed : ∀ {home : Nat → List Packet} {shadows : List Shadow},
      Chip.Canonical { h with clusters := h.clusters.each fun v k => k.freeTask uid (home v), shadows := shadows } := by
    intro home shadows
    exact (c.eachCluster (f := fun v k => k.freeTask uid (home v))).withShadows
  unfold Chip.finishCommit
  extract_lets w irvs g g' handed exited left
  have handed : handed.Canonical := (Chip.Canonical.modPart (f := fun _ => _) freed).handLaunches
  have exited : exited.Canonical := by
    unfold exited
    split
    · exact handed.noteAbort
    · exact handed
  exact exited.leaveGroups.withTasks.launchLive

theorem Chip.Canonical.commitAll (c : h.Canonical) {set rest : List (Nat × Task)} {stop : Option Word} :
    (h.commitAll pid set rest stop).chip.Canonical := by
  induction rest generalizing h stop with
  | nil => exact c
  | cons t rest ih =>
    unfold Chip.commitAll
    refine iteInduction (motive := fun x : Commit => x.chip.Canonical) (fun _ => c) fun _ => ?_
    dsimp only
    split
    · exact c.dupStamp
    · refine ih (Chip.Canonical.finishCommit ?_)
      exact List.foldlRecOn (motive := fun acc : Chip × Option Word => acc.1.Canonical) _ _ c.ropeAdd fun acc c x _ => c.performLazy

/-! ## Cairn points and rope intervals (R398, R433 to R435) -/

theorem Chip.Canonical.points (c : h.Canonical) (pid : Nat) : ∀ i ∈ h.atPoints.getOr pid [], i.canonical :=
  Map.forall_getOr (P := fun is : List FlashImage => ∀ i ∈ is, i.canonical) c.atPoints
    (fun _ absent => absurd absent List.not_mem_nil) pid

theorem Chip.Canonical.putPoints (c : h.Canonical) {is : List FlashImage} (each : ∀ i ∈ is, i.canonical) :
    Chip.Canonical { h with atPoints := h.atPoints.put pid is } :=
  c.withAtPoints (Map.forall_put (P := fun is : List FlashImage => ∀ i ∈ is, i.canonical) c.atPoints each)

theorem Chip.Canonical.cairnPoint (c : h.Canonical) : (h.cairnPoint pid).Canonical := by
  have taken : ∀ (q : Partition) (vs : List Nat) (vt : Nat), Chip.Canonical (vs.foldl (fun (h : Chip) v =>
      match q.partners.get v with
      | some u =>
        let c := h.newCairn v vt u (q.points + 1)
        h.modCluster v fun k => { k with cairnNext := some c, inputsNext := [], logFull := false }
      | none => h) h) := by
    intro q vs vt
    refine c.foldl fun g c v => ?_
    split
    · exact c.modCluster
    · exact c
  unfold Chip.cairnPoint
  extract_lets q vt take m g g' g''
  have counted : g'.Canonical := (taken q q.vcns m).modPart
  have pointed : g''.Canonical := by
    refine .ite (counted.putPoints fun i mem => ?_) counted
    rcases List.mem_cons.1 (Partition.mem_of_mem_keeps mem) with rfl | before
    · exact counted.snapshot
    · exact counted.points pid i before
  exact .ite (taken _ _ _) (.ite pointed.beginImage pointed)

theorem Chip.Canonical.ropeClose (c : h.Canonical) : (h.ropeClose pid).Canonical :=
  .ite c (c.foldl fun _ c _ => Chip.Canonical.sendFrame (Chip.Canonical.modPart (f := fun _ => _) c))

theorem Chip.Canonical.agreedImage (c : h.Canonical) : GivesSome FlashImage.canonical (h.agreedImage pid) :=
  ⟨fun found => c.agreed (List.mem_of_find?_eq_some found)⟩

theorem Chip.Canonical.haltDiverged (c : h.Canonical) : (h.haltDiverged pid).Canonical := by
  refine Chip.Canonical.haltPartition ?_
  split
  · rename_i found
    exact c.restoreImage (c.points pid _ (List.mem_of_find?_eq_some found))
  · exact c

theorem Chip.Canonical.ropeCompare (c : h.Canonical) {n : Nat} : (h.ropeCompare pid n).Canonical := by
  induction n generalizing h with
  | zero => exact c
  | succ n ih =>
    unfold Chip.ropeCompare
    extract_lets q
    split
    · rename_i x y mine theirs
      by_cases agree : x = y
      · rw [if_pos agree]
        exact ih c.modPart
      · rw [if_neg agree]
        extract_lets diverged g
        have preempted : diverged.Canonical := c.partitionPreempt.modPart
        have pointed : g.Canonical := preempted.putPoints fun i mem => preempted.points pid i (List.mem_of_mem_filter mem)
        clear_value diverged g
        split
        · rename_i found
          exact (pointed.reportBounded.restoreImage (pointed.agreedImage.of_some found)).modPart
        · exact pointed.haltDiverged
    · exact c

/-! ## The commit phase (R331, R353, R356, R357) -/

theorem Chip.Canonical.endRound (c : h.Canonical) : (h.endRound pid w).Canonical := by
  unfold Chip.endRound
  extract_lets period noted forget expired filled laid pointed
  have noted : noted.Canonical := c.modPart
  have expired : expired.Canonical := noted.eachCluster fun _ k own => by unfold forget; split <;> exact own
  have filled : filled.Canonical := expired.foldl fun _ c _ => .ite c.fillPending c
  have laid : laid.Canonical := .ite filled.layWrites.modPart filled
  exact laid.cairnPoint.ropeClose.ropeCompare

theorem Chip.Canonical.leaveIdle (c : h.Canonical) {busy : Bool} : (h.leaveIdle pid busy).Canonical := .ite c.modPart c

theorem Chip.Canonical.commitPhase (c : h.Canonical) : (h.commitPhase pid w).Canonical :=
  .ite (c.leaveIdle.commitAll.modPart) c.leaveIdle.commitAll.endRound

theorem Chip.Canonical.roundStart (c : h.Canonical) : (h.roundStart pid).Canonical := .ite c c.modPart

theorem Chip.Canonical.fabricRound (c : h.Canonical) : (h.fabricRound pid).Canonical := by
  unfold Chip.fabricRound
  extract_lets q x kept g q' u g'
  have told : g.Canonical := .ite c (c.modPart.foldl fun _ c _ => c.sendFrame)
  have counted : g'.Canonical := told.modPart
  exact .ite c (.ite told (counted.foldl fun _ c _ => c.sendFrame))

theorem Chip.Canonical.gvtCut (c : h.Canonical) : (h.gvtCut pid v).Canonical := by
  unfold Chip.gvtCut
  dsimp only
  split
  · exact c
  · exact .ite c (Chip.Canonical.fabricRound (Chip.Canonical.modPart c.modCluster))

theorem Chip.Canonical.irvPerform (c : h.Canonical) {x : IrvItem} : (h.irvPerform pid x).Canonical := by
  unfold Chip.irvPerform
  refine .ite c ?_
  split
  · exact c.writeHost
  · exact .ite c { c with flash := Mem.wf_writeBytes _ _ c.flash }
  · exact c.withRegs.raise

/-! ## Replay (R129, R132) -/

variable {p : At} {t : Thread} {op : Op}

theorem Chip.Canonical.replayVector (c : h.Canonical) : Gives CanonicalThird (h.replayVector p t op) := by
  unfold Chip.replayVector
  dsimp only
  split
  · exact .error
  · exact .ite .error (c.readyContext.vectorRun.bind fun _ c => .third c.modClaim)

theorem Chip.Canonical.replayEngine (c : h.Canonical) : Gives Chip.Canonical (h.replayEngine p t op) := by
  refine .ite c.drainThroughs.engFill ?_
  split
  · exact .error
  · exact Gives.foldlM (fun _ _ c => c.engRun.bind fun _ c => .ok (c.foldl fun _ c _ => c.send)) c.drainThroughs _

theorem Chip.Canonical.replayMember (c : h.Canonical) : Gives CanonicalSnd (h.replayMember p t op) := by
  unfold Chip.replayMember
  split
  · exact .error
  · exact c.memberRun.bind fun _ c => .snd (Chip.Canonical.modGang c)

theorem Chip.Canonical.replayOp (c : h.Canonical) : Gives CanonicalThird (h.replayOp p t op) :=
  .ite (.ite (c.performAny.bind fun _ c => .third c) c.replayVector) (.ite (c.performAny.bind fun _ c => .third c)
    (.ite (c.replayEngine.bind fun _ c => .third c) (.ite (c.replayMember.bind fun _ c => .third c) c.replayVector)))

theorem Chip.Canonical.replay (c : h.Canonical) {g : Chip} (done : h.replay p t = .done g) : g.Canonical := by
  unfold Chip.replay at done
  split at done
  · split at done
    · cases done
    · cases done
    · cases done
    · cases done
    · rename_i run
      have ran := c.replayOp.of_ok run
      split at done
      · cases done
      · split at done
        · cases done
          exact Chip.Canonical.putHere ran
        · cases done
  · cases done

theorem Chip.Canonical.resumeTask (c : h.Canonical) {u : Suspended} : (h.resumeTask p u).Canonical := c.modThread

theorem Chip.Canonical.trapReturn (c : h.Canonical) {u : Suspended} : Gives Chip.Canonical (h.trapReturn p t u) := by
  unfold Chip.trapReturn
  refine .ite ?_ (.ok c.resumeTask)
  split
  · rename_i done
    split
    · exact .ok (c.replay done).resumeTask
    · exact .error
  · exact .ok c.resumeTask.takeTrap
  · exact .ok c.waitWalk
  · exact .ite (.ok c.resumeTask) .error

end

/-! ## Instructions and events -/

section
variable {s : State} (c : s.chip.Canonical) {d a : BitVec 7} {v n pid : Nat}
include c

theorem Chip.Canonical.execConflictNotice : KeepsCanonical (execConflictNotice n s) := by
  unfold Machine.execConflictNotice
  dsimp only
  split
  · split
    · exact .ite (.chip c.withFlights.performNotice) (.next c)
    · exact .next c
  · exact .next c

theorem Chip.Canonical.execHeldTrapDelivery {tid : Nat} : KeepsCanonical (execHeldTrapDelivery v tid s) := by
  unfold Machine.execHeldTrapDelivery
  dsimp only
  split
  · exact .ite (.chip c.arrive) (.next c)
  · exact .next c

theorem Chip.Canonical.execIrvPerform : KeepsCanonical (execIrvPerform pid s) := by
  unfold Machine.execIrvPerform
  dsimp only
  split
  · exact .ite (.next c) (.chip (.ite c.irvPerform.modPart.modPart c.irvPerform.modPart))
  · exact .next c

theorem Chip.Canonical.execTreplay : KeepsCanonical (execTreplay d s) := by
  unfold Machine.execTreplay
  refine c.issueChip fun self p h c => .ite .error ?_
  split
  · rename_i done
    exact .ok (c.replay done).writeDst
  · exact .ok c.modThread.writeDst
  · exact .ok c.waitWalk
  · exact .error

theorem Chip.Canonical.execEret : KeepsCanonical (execEret s) := by
  unfold Machine.execEret
  refine c.issueChip fun self p h c => ?_
  split
  · exact .error
  · exact c.trapReturn

theorem Chip.Canonical.execTrap : KeepsCanonical (execTrap a s) := by
  unfold Machine.execTrap
  exact c.issueChip fun _ _ _ c => .bind_any fun _ => .error

theorem Chip.Canonical.execBkpt : KeepsCanonical (execBkpt s) := by
  unfold Machine.execBkpt
  exact c.issueChip fun _ _ _ c => .ite .error (.ok c)

theorem Chip.Canonical.execWait : KeepsCanonical (execWait d a s) := by
  unfold Machine.execWait
  exact c.issueChip fun _ _ _ c => c.readAt.bind fun _ c => .ite .error (.ite .error (.ok c.writeDst))

end

end Sys2Proof.Machine
end

section
/-! PROOFS. The family 10, memories in canonical form: the network, the units at work and launches (R140, R194 to R197, R304, R305, R307,
R352 to R356, R367 to R383, R394, R427 to R430, R452). -/

namespace Sys2Proof.Machine

set_option Elab.async false

section
variable {h : Chip} {k v pid uid : Nat} {t : Thread}

/-! ## Packets and migrating threads (R140, R194 to R197) -/

theorem Chip.Canonical.landed (c : h.Canonical) : (h.landed k).Canonical := c.withFlights

theorem Chip.Canonical.noteWaiting (c : h.Canonical) {x : Task} : (h.noteWaiting uid x).Canonical :=
  .ite c (c.foldl fun _ c _ => c.modGroup)

theorem Chip.Canonical.refill (c : h.Canonical) {n : Nat} : (h.refill v n).Canonical := by
  unfold Chip.refill
  dsimp only
  split
  · exact .ite c c.modCore.tick
  · exact c

theorem Chip.Canonical.arrivalAccess (c : h.Canonical) {claim : Option Claim} {q : Pend} :
    GivesSome (fun r => r.1.Canonical) (h.arrivalAccess v t claim q) := by
  unfold Chip.arrivalAccess
  refine .ite ?pool ?scalar
  case pool =>
    split
    · exact .present c
    · dsimp only
      split
      · exact .ite (.present c) (.present c)
      · exact .present c
      · exact .present c
  case scalar =>
    split
    · rename_i done
      exact .present (c.performAny.of_ok done)
    · exact .present c
    · exact .present c
    · exact .present c
    · exact .absent

theorem Chip.Canonical.settleArrival (c : h.Canonical) {q : Parked} {claim : Option Claim} : (h.settleArrival v q t claim).Canonical := by
  unfold Chip.settleArrival
  extract_lets n cached x g g'
  have entered : g.Canonical := by
    unfold g
    exact c.dropPrivate.modCluster
  have ran : g'.Canonical := by
    unfold g'
    split
    · exact entered.withTasks
    · exact entered
  exact ran.arrive.renegotiate

theorem Chip.Canonical.waitThere (c : h.Canonical) : (h.waitThere k).Canonical := c.withFlights

theorem Chip.Canonical.migrationArrives (c : h.Canonical) {q : Parked} : (h.migrationArrives k v q).Canonical := by
  unfold Chip.migrationArrives
  dsimp only
  split
  · split
    · rename_i room
      exact (c.arrivalContext.of_some room).landed.settleArrival
    · exact c.waitThere
  · split
    · split
      · rename_i room
        exact (c.arrivalContext.of_some room).landed.settleArrival
      · exact c.waitThere
    · exact c.landed.send
    · split
      · exact c.waitThere
      · rename_i room
        split
        · rename_i access
          exact Chip.Canonical.settleArrival (Chip.Canonical.landed ((c.arrivalContext.of_some room).arrivalAccess.of_some access))
        · exact c.waitThere

/-! ## Frames of the fabric (R427) -/

theorem Chip.Canonical.withFrameGot (c : h.Canonical) {m : Map Nat} : Chip.Canonical { h with frameGot := m } := c.elsewhere

theorem Chip.Canonical.noteAck (c : h.Canonical) {src ack : Nat} : (h.noteAck src ack).Canonical := c.elsewhere

theorem Chip.Canonical.pureAck (c : h.Canonical) {d : Nat} : (h.pureAck pid d).Canonical := c.elsewhere

section
variable {f : WireFrame} {act : WireFrame → Chip → Option Chip} (keeps : ∀ {f h}, h.Canonical → GivesSome Chip.Canonical (act f h))
include keeps

theorem Chip.Canonical.actFrame (c : h.Canonical) : (h.actFrame k f act).Canonical :=
  .ite c.landed (.ite c.withFlights ((keeps c.landed).getD c.withFlights))

theorem Chip.Canonical.onFrame (c : h.Canonical) {kind : Nat} : (h.onFrame k kind act).Canonical := by
  unfold Chip.onFrame
  split
  · exact c
  · refine .ite c (.ite (c.actFrame keeps) (.ite c (.ite c.landed (.ite c.noteAck.landed (.ite c.noteAck.landed.pureAck ?_)))))
    exact Chip.Canonical.actFrame keeps c.noteAck.withFrameGot

end

/-! ## The pending set (R352 to R356, R394, R395, R429, R430) -/

section
variable {a : Anti} {f : WireFrame}

theorem Chip.Canonical.acknowledge (c : h.Canonical) {units : Nat} : (h.acknowledge a units).Canonical := .ite c.send c.sendFrame

theorem Chip.Canonical.overtaken (c : h.Canonical) {cut : Nat} {x : Word} : (h.overtaken v cut x).Canonical := .ite c.modCluster c

theorem Chip.Canonical.messageArrives (c : h.Canonical) {m : Message} : (h.messageArrives m).Canonical := by
  unfold Chip.messageArrives
  exact .ite c.acknowledge (.ite (Chip.Canonical.acknowledge c.modCluster) (Chip.Canonical.acknowledge c.modCluster))

theorem Chip.Canonical.antiArrives (c : h.Canonical) : (h.antiArrives a).Canonical := by
  unfold Chip.antiArrives
  refine .ite c.acknowledge ?_
  split
  · dsimp only
    split
    · exact Chip.Canonical.acknowledge (Chip.Canonical.fillPending c.cancel.modCluster)
    · exact Chip.Canonical.acknowledge (Chip.Canonical.fillPending c.modCluster)
  · exact Chip.Canonical.acknowledge c.modCluster

theorem Chip.Canonical.frameMessage (c : h.Canonical) : GivesSome Chip.Canonical (h.frameMessage f) := by
  unfold Chip.frameMessage
  split
  · exact .ite (.present c.messageArrives) .absent
  · exact .present c

theorem Chip.Canonical.unpublish (c : h.Canonical) : (h.unpublish a).Canonical := by
  unfold Chip.unpublish
  dsimp only
  split
  · exact c.withFlights.cancel.acknowledge
  · exact c.withFlights.acknowledge

theorem Chip.Canonical.frameAnti (c : h.Canonical) : GivesSome Chip.Canonical (h.frameAnti f) := by
  unfold Chip.frameAnti
  split
  · exact .ite (.present c.unpublish) (.ite (.present c.antiArrives) .absent)
  · exact .present c

theorem Chip.Canonical.withUnacked (c : h.Canonical) {m : Map WireFrame} : Chip.Canonical { h with unacked := m } := c.elsewhere

theorem Chip.Canonical.frameAck (c : h.Canonical) : GivesSome Chip.Canonical (h.frameAck f) := by
  unfold Chip.frameAck
  split
  · split
    · exact .present c.withUnacked.overtaken
    · exact .present c
  · exact .present c

theorem Chip.Canonical.handOver (c : h.Canonical) {m : Message} : (h.handOver v m).Canonical := by
  unfold Chip.handOver
  extract_lets uid x g taken g'
  have made : g.Canonical := c.elsewhere
  exact Chip.Canonical.enqueue made.modCluster

theorem Chip.Canonical.resendFrom (c : h.Canonical) {r : Nat} : (h.resendFrom v r).Canonical := c.foldl fun _ c _ => c.send

end

/-! ## What the host writes and the command processor reads (R365, R367, R371) -/

variable {x : Word} {rs : List Nat} {r : LaunchReq} {is : List Image} {bs : List Byte} {gid : Nat}

theorem Chip.Canonical.withWinA (c : h.Canonical) {a : WindowA} : Chip.Canonical { h with winA := a } := c.elsewhere

theorem Chip.Canonical.launchSubmit (c : h.Canonical) : (h.launchSubmit x).Canonical := by
  unfold Chip.launchSubmit
  extract_lets slot pid r forget window g
  have forgotten : g.Canonical := (c.eachPart (f := fun _ q => { q with jobs := q.jobs.map forget })).withWinA
  exact .ite c forgotten.modPart

theorem Chip.Canonical.windowA (c : h.Canonical) {off : Nat} : (h.windowA off x).Canonical := by
  refine .ite c (.ite c.withWinA (.ite c.launchSubmit (.ite c.withWinA (.ite ?_ c))))
  split
  · exact c.modGroup
  · exact c.modGroup
  · exact c

theorem Chip.Canonical.cpRead (c : h.Canonical) {va n : Nat} : Gives CanonicalSnd (h.cpRead pid rs va n) :=
  Gives.foldlM (P := CanonicalSnd) (fun _ _ c => .ite .error (.bind_any fun _ => .ite (.snd c.warm) (.ite (.snd c.warm) .error)))
    (by exact c) _

theorem Gives.cpResult {α : Type} {P : α → Prop} {n : Nat} {r : Except Blocked α} (gives : Gives P r) : Gives P (cpResult n r) := by
  unfold Machine.cpResult
  split
  · exact .ok (gives.of_ok rfl)
  · exact .error
  · exact .error
  · exact .error

theorem Chip.Canonical.imageList (c : h.Canonical) {va : Nat} : Gives CanonicalSnd (h.imageList pid rs va) := by
  refine .ite (.snd c) (c.cpRead.cpResult.bind fun _ c => .ite .error (c.cpRead.cpResult.bind fun _ c => .bind_any fun _ => ?_))
  exact Gives.foldlM (P := CanonicalSnd) (fun _ _ c => c.cpRead.cpResult.bind fun _ c => .snd c) (by exact c) _

theorem Chip.Canonical.pin (c : h.Canonical) : (h.pin pid).Canonical := c.foldl fun _ c _ => c.enterUpper

theorem Chip.Canonical.launchChecks (c : h.Canonical) : Gives CanonicalThird (h.launchChecks pid r) :=
  .ite .error (.ite .error (c.cpRead.cpResult.bind fun _ c => .ite .error (c.imageList.bind fun _ c =>
    .ite .error (.ite .error (.ite .error (.ite .error (.ite .error (.ite .error (.ite .error (.ite .error (.third c)))))))))))

/-! ## Acceptance (R369) -/

theorem Chip.Canonical.nameGroup (c : h.Canonical) {host : Bool} : (h.nameGroup pid host gid).Canonical :=
  .ite c.modGroup (c.modGroup.foldl fun _ c _ => c.modCluster)

theorem Cluster.canonical_mapBanks {k : Cluster} (own : k.canonical) (r : List Byte) : (k.mapBanks r).canonical := by
  refine List.foldlRecOn (motive := Cluster.canonical) _ _ own fun k own b _ => ?_
  split
  · exact own
  · exact Cluster.canonical_switchBank own _ _

theorem Chip.Canonical.copyImage (c : h.Canonical) {i : Image} : (h.copyImage pid i).Canonical :=
  c.foldl fun _ c _ => c.putScratch.modCluster

theorem Chip.Canonical.launchStatus (c : h.Canonical) {slot : Option Nat} {n : Nat} : (h.launchStatus slot n).Canonical := by
  unfold Chip.launchStatus
  split
  · exact c
  · exact c.withWinA.raise

theorem Chip.Canonical.acceptLaunch (c : h.Canonical) : (h.acceptLaunch pid r bs is).Canonical := by
  unfold Chip.acceptLaunch
  extract_lets base vs named mapped copied pinned q j run interval running writes kept fresh listed reserved
  have named : named.Canonical := c.foldl fun _ c _ => c.nameGroup
  have mapped : mapped.Canonical := .ite named (named.foldl fun _ c _ => c.modCluster fun _ own => Cluster.canonical_mapBanks own _)
  have copied : copied.Canonical := mapped.foldl fun _ c _ => c.copyImage
  have pinned : pinned.Canonical := .ite copied.pin copied
  have listed : listed.Canonical := pinned.modPart
  have reserved : reserved.Canonical := .ite (listed.foldl fun _ c _ => c.modCluster) listed
  exact .ite reserved reserved.launchStatus

theorem Chip.Canonical.refuseLaunch (c : h.Canonical) {n : Nat} : (h.refuseLaunch r n).Canonical := .ite c c.launchStatus

theorem Chip.Canonical.forward (c : h.Canonical) : (h.forward pid r).Canonical := .ite c.sendFrame c

theorem Chip.Canonical.replayWrites (c : h.Canonical) : (h.replayWrites pid r).Canonical := .ite c.layWrites (.ite c.layWrites c)

theorem Chip.Canonical.launchProcess (c : h.Canonical) : (h.launchProcess pid).Canonical := by
  unfold Chip.launchProcess
  split
  · exact c
  · refine .ite c (.ite (Chip.Canonical.acceptLaunch c.modPart) ?_)
    dsimp only
    split
    · rename_i done
      have checked := c.replayWrites.launchChecks.of_ok done
      exact Chip.Canonical.acceptLaunch (Chip.Canonical.forward (Chip.Canonical.modPart checked))
    · exact Chip.Canonical.refuseLaunch c.replayWrites.modPart
    · exact c.replayWrites.addWalk
    · exact c.replayWrites

/-! ## Chunks, barriers and placement (R307, R372, R376, R381 to R383) -/

theorem Chip.Canonical.allPlaced (c : h.Canonical) {j : LaunchJob} : (h.allPlaced pid j).Canonical :=
  c.foldl fun _ c _ => c.modGroup.exitIfDone

theorem Chip.Canonical.chunkHandout (c : h.Canonical) {n m : Nat} : (h.chunkHandout pid n m).Canonical := by
  unfold Chip.chunkHandout
  split
  · exact c
  · refine .ite c ?_
    extract_lets rest g is g'
    have listed : g.Canonical := c.modPart
    have made : g'.Canonical := listed.foldl fun _ c _ => c.newTask
    exact .ite made.allPlaced made

theorem Chip.Canonical.barrierArrive (c : h.Canonical) : (h.barrierArrive pid gid uid).Canonical := by
  unfold Chip.barrierArrive
  split
  · exact c
  · split
    · exact .ite c.modGroup c
    · exact c

theorem Chip.Canonical.releaseBarrier (c : h.Canonical) {n : Nat} {f : BitVec 5} {mixed : Bool} :
    (h.releaseBarrier pid gid n x f mixed).Canonical := by
  unfold Chip.releaseBarrier
  extract_lets us g g'
  have dropped : g.Canonical := c.foldl fun _ c _ => c.dropPrivate
  have released : g'.Canonical := dropped.foldl fun _ c _ => c.mapThread
  exact released.modGroup

theorem Chip.Canonical.barrierComplete (c : h.Canonical) : (h.barrierComplete pid gid).Canonical := .ite c c.releaseBarrier

theorem Chip.Canonical.grant (c : h.Canonical) : (h.grant pid gid rs).Canonical := c.modGroup

theorem Chip.Canonical.placeGroup (c : h.Canonical) : (h.placeGroup pid gid).Canonical := by
  refine .ite c (Chip.Canonical.eachCluster (c.grant.modGroup) fun _ k own => ?_)
  dsimp only
  split <;> exact own

theorem Chip.Canonical.reserveClusters (c : h.Canonical) : (h.reserveClusters pid gid).Canonical := by
  unfold Chip.reserveClusters
  split
  · exact c
  · exact .ite c (c.foldl fun _ c _ => .ite c c.modCluster)

theorem Chip.Canonical.clearCore {n fuel : Nat} (c : h.Canonical) : (h.clearCore pid gid v n fuel).Canonical := by
  induction fuel generalizing h with
  | zero => exact c
  | succ fuel ih =>
    unfold Chip.clearCore
    refine .ite c ?_
    split
    · exact ih c.preempt
    · exact c

end

/-! ## Events -/

section
variable {s : State} (c : s.chip.Canonical) {v k : Nat}
include c

theorem Chip.Canonical.unitEvent {f : Chip → Chip} (keeps : (f s.chip).Canonical) : KeepsCanonical (unitEvent s v f) :=
  .chip (.ite keeps c)

theorem Chip.Canonical.startEvent {f : Chip → Chip} (keeps : (f s.chip).Canonical) : KeepsCanonical (startEvent s v f) :=
  c.unitEvent (.ite c keeps)

theorem Chip.Canonical.engineEvent {f : Chip → Chip} (keeps : (f s.chip).Canonical) : KeepsCanonical (engineEvent s v k f) :=
  c.unitEvent (.ite c keeps)

theorem Chip.Canonical.execPacketEnqueue : KeepsCanonical (execPacketEnqueue k s) := by
  unfold Machine.execPacketEnqueue
  dsimp only
  split
  · split
    · split
      · exact .ite (.chip c.landed.enqueue.noteWaiting) (.next c)
      · exact .chip c.landed
    · exact .next c
  · exact .next c

theorem Chip.Canonical.execMigrationArrival : KeepsCanonical (execMigrationArrival k s) := by
  unfold Machine.execMigrationArrival
  dsimp only
  split
  · split
    · exact .chip (.ite c.migrationArrives c)
    · exact .next c
  · exact .next c

theorem Chip.Canonical.execMessageArrival : KeepsCanonical (execMessageArrival k s) := by
  unfold Machine.execMessageArrival
  dsimp only
  split
  · split
    · exact .chip (.ite c.landed.messageArrives c)
    · exact .chip (c.onFrame Chip.Canonical.frameMessage)
    · exact .next c
  · exact .next c

theorem Chip.Canonical.execAntiMessageArrival : KeepsCanonical (execAntiMessageArrival k s) := by
  unfold Machine.execAntiMessageArrival
  dsimp only
  split
  · split
    · exact .chip (.ite c.landed.antiArrives c)
    · exact .chip (c.onFrame Chip.Canonical.frameAnti)
    · exact .next c
  · exact .next c

theorem Chip.Canonical.execMessageAck : KeepsCanonical (execMessageAck k s) := by
  unfold Machine.execMessageAck
  dsimp only
  split
  · split
    · exact .chip (.ite c.landed.overtaken c)
    · exact .chip (c.onFrame Chip.Canonical.frameAck)
    · exact .next c
  · exact .next c

theorem Chip.Canonical.execMessageHandover : KeepsCanonical (execMessageHandover v k s) := by
  unfold Machine.execMessageHandover
  dsimp only
  split
  · exact .ite (.chip c.handOver) (.next c)
  · exact .next c

theorem Chip.Canonical.execPacketForward : KeepsCanonical (execPacketForward k s) := by
  unfold Machine.execPacketForward
  dsimp only
  split
  · split
    · exact .ite (.next c) (.chip c.withFlights.tick)
    · exact .next c
  · exact .next c

theorem Chip.Canonical.execTableEntryUpdate : KeepsCanonical (execTableEntryUpdate k v s) := by
  have read : ∀ {l}, Chip.Canonical { s.chip with stale := l } := c.elsewhere
  exact .chip (.ite read.resendFrom read)

theorem Chip.Canonical.execByteCountAdd : KeepsCanonical (execByteCountAdd k s) := by
  unfold Machine.execByteCountAdd
  dsimp only
  split
  · split
    · exact .chip (.ite c.countAdd c)
    · exact .next c
  · exact .next c

theorem Chip.Canonical.execReservationPreempt : KeepsCanonical (execReservationPreempt v k s) := by
  unfold Machine.execReservationPreempt
  dsimp only
  split
  · exact .next c
  · exact .chip (c.foldl fun _ c _ => c.clearCore)

end

end Sys2Proof.Machine
end

section
/-! PROOFS. The family 10, memories in canonical form: the pool of physical clusters, errors and restores, power-on and losses (R309, R390
to R396, R401 to R408, R416, R420 to R425). -/

namespace Sys2Proof.Machine

set_option Elab.async false

section
variable {h : Chip} {v pid n : Nat}

/-! ## Rotation (R392, R393, R447) -/

theorem Chip.Canonical.writeEntry (c : h.Canonical) : (h.writeEntry v n).Canonical := c.elsewhere

theorem Chip.Canonical.resend (c : h.Canonical) : (h.resend v).Canonical := c.foldl fun _ c _ => c.send

theorem Chip.Canonical.keepMinimum (c : h.Canonical) : (h.keepMinimum v).Canonical := c.modCluster

/-! ## Errors (R170, R175, R248, R401, R405) -/

theorem Chip.Canonical.levelPair (c : h.Canonical) {p : At} : (h.levelPair p).Canonical := by
  unfold Chip.levelPair
  split
  · exact c.setSlot.setSlot.modCore
  · exact c

theorem Chip.Canonical.levelPairs (c : h.Canonical) : (h.levelPairs v).Canonical := c.foldl fun _ c _ => c.foldl fun _ c _ => c.levelPair

theorem Chip.Canonical.stopCluster (c : h.Canonical) : (h.stopCluster v).Canonical := by
  unfold Chip.stopCluster
  extract_lets g us g'
  have stopped : g.Canonical := Chip.Canonical.levelPairs c.modCluster
  have aborted : g'.Canonical := .ite stopped stopped.abortTasks
  exact aborted.vacateCluster

theorem Chip.Canonical.reportFault (c : h.Canonical) : (h.reportFault v).Canonical := by
  unfold Chip.reportFault
  split
  · exact c.haltPartition
  · exact c

theorem Chip.Canonical.stopMirrored (c : h.Canonical) : (h.stopMirrored v).Canonical := by
  unfold Chip.stopMirrored
  split
  · exact c.modGang
  · exact c

theorem Chip.Canonical.reissue (c : h.Canonical) : (h.reissue v).Canonical := .ite c (c.foldl fun _ c _ => c.send)

theorem Chip.Canonical.newPartners (c : h.Canonical) {vs : List Nat} : (h.newPartners vs).Canonical :=
  c.foldl fun _ c _ => Chip.Canonical.assignPartners (c.foldl fun _ c _ => c.modCluster)

theorem Chip.Canonical.cutDie (c : h.Canonical) {vs : List Nat} : (h.cutDie n vs).Canonical := by
  unfold Chip.cutDie
  extract_lets onDie g launched
  have cut : g.Canonical := c.elsewhere
  exact cut.foldl fun _ c _ => c.modCluster

/-! ## Power-on, attestation and losses (R405, R420, R422, R425) -/

theorem Chip.Canonical.setStage (c : h.Canonical) : (h.setStage n).Canonical := by
  have staged : Chip.Canonical { h with stage := n } := c.elsewhere
  exact staged.raise

theorem Chip.Canonical.attest (c : h.Canonical) {x : Word} : (h.attest x).Canonical := c.elsewhere

theorem Chip.Canonical.loseAll (c : h.Canonical) : h.loseAll.Canonical := by
  have halted : ∀ {l : Map Partition}, Chip.Canonical (l.foldl (fun h q => h.haltPartition 3 q.1 (q.2.vcns.headD 0)) h) :=
    c.foldl fun _ c _ => c.haltPartition
  exact halted.elsewhere

theorem Chip.Canonical.loseLines (c : h.Canonical) {lines : List Nat} : (h.loseLines lines).Canonical :=
  c.foldl fun _ c _ => c.reportBounded.fallBack

end

/-! ## States -/

section
variable {s : State} (c : s.chip.Canonical) {v n m : Nat} {x : Word}
include c

theorem Chip.Canonical.startRotation : (s.startRotation v n m).chip.Canonical := by
  unfold State.startRotation
  extract_lets g g' g'' age recorded
  have noted : g''.Canonical := Chip.Canonical.foldl c.vacateCluster.modCluster fun _ c _ => c.modPart
  have recorded : recorded.Canonical := .ite noted.machineCheck noted
  exact recorded

theorem Chip.Canonical.dropRotation : (s.dropRotation v).chip.Canonical := .inState (Chip.Canonical.serveClaims c.modCluster)

omit c in
theorem Chip.Canonical.fillFallow {s : State} (c : s.chip.Canonical) : (s.fillFallow n).chip.Canonical := by
  induction n generalizing s with
  | zero => exact c
  | succ n ih =>
    unfold State.fillFallow
    refine .iteState ?_ c
    split
    · exact ih c
    · exact c

theorem Chip.Canonical.becameSpare : s.becameSpare.chip.Canonical := c

theorem Chip.Canonical.retire : (s.retire n m).chip.Canonical := .inState (.ite c.raise.raise c.raise)

theorem Chip.Canonical.selfTestEnd : (s.selfTestEnd n m).chip.Canonical := by
  refine .iteState c (.iteState ?_ (.iteState ?_ ?_))
  · exact Chip.Canonical.retire (.inState c)
  · exact Chip.Canonical.retire (.inState c)
  · exact Chip.Canonical.becameSpare (.inState c)

theorem Chip.Canonical.rotctl : GivesSome (fun t => t.chip.Canonical) (s.rotctl x) := by
  refine .ite .absent (.present (.iteState (Chip.Canonical.fillFallow (.inState c.withRegs)) (.inState c.withRegs)))

theorem Chip.Canonical.rotreq : GivesSome (fun t => t.chip.Canonical) (s.rotreq x) := .ite .absent (.ite (.present c) (.present c))

theorem Chip.Canonical.loseCairns : (s.loseCairns v).chip.Canonical := .inState (c.foldl fun _ c _ => c.reportBounded.fallBack)

theorem Chip.Canonical.errorSequence {r : Restore} : (s.errorSequence r).chip.Canonical := by
  unfold State.errorSequence
  extract_lets e halted left idle
  have stopped : halted.chip.Canonical := .inState c.stopCluster
  have lost : left.chip.Canonical := stopped.loseCairns
  exact .iteState (.inState lost) (.inState lost.reportFault.machineCheck)

theorem Chip.Canonical.retarget {r : Rotation} : (s.retarget r).chip.Canonical := by
  unfold State.retarget
  extract_lets q t
  have back : t.chip.Canonical := .inState (.ite c.writeEntry c)
  split
  · exact .inState back.modCluster
  · exact .inState (Chip.Canonical.serveClaims back.modCluster)

theorem Chip.Canonical.errorStop {a b d : Nat} {w : BitVec 16} : (s.errorStop v a b d w x).chip.Canonical := by
  unfold State.errorStop
  extract_lets h e pcn before after h' t r
  have mirrored : h'.Canonical := .ite c.stopMirrored c
  have noted : t.chip.Canonical := mirrored
  refine .iteState c ?_
  split
  · exact noted.errorSequence
  · exact .iteState (.inState noted.retarget.machineCheck) (Chip.Canonical.errorSequence (.inState noted.modCluster))

theorem Chip.Canonical.targetError : (s.targetError n).chip.Canonical := by
  unfold State.targetError
  split
  · exact c
  · exact .inState (Chip.Canonical.retarget (.inState c)).machineCheck

theorem Chip.Canonical.cairnRestore : (s.cairnRestore v).chip.Canonical := by
  unfold State.cairnRestore
  split
  · exact c
  · refine .iteState c ?_
    split
    · exact .inState c.reportFault.machineCheck
    · exact .iteState c (.inState (Chip.Canonical.machineCheck (c.foldlState fun _ c _ => c.dropRotation)))

theorem Chip.Canonical.loseCluster : (s.loseCluster v).chip.Canonical := by
  have dropped : ∀ {m}, Chip.Canonical { s.chip with vmap := m } := c.elsewhere
  exact .iteState (.inState dropped.modCluster) (Chip.Canonical.errorSequence (.inState dropped.modCluster))

theorem Chip.Canonical.placeVcn : (s.placeVcn v).chip.Canonical := by
  unfold State.placeVcn
  split
  · exact c
  · exact .inState c.elsewhere

theorem Chip.Canonical.raiseV : (s.raiseV n).chip.Canonical := by
  have placed : ∀ {vs : List Nat}, (vs.foldl State.placeVcn s).chip.Canonical := c.foldlState fun _ c _ => c.placeVcn
  exact .inState placed.elsewhere

theorem Chip.Canonical.withReduced {reduced : Bool} : Chip.Canonical { s.chip with reduced := reduced } := c.elsewhere

theorem Chip.Canonical.reachGrade : s.reachGrade.chip.Canonical :=
  .iteState (Chip.Canonical.fillFallow (.inState c.raiseV.withReduced.setStage)) c

theorem Chip.Canonical.clusterPass : (s.clusterPass n).chip.Canonical := by
  refine .iteState c (.iteState ?_ (Chip.Canonical.reachGrade (.inState c)))
  exact .inState (Chip.Canonical.setStage (Chip.Canonical.withReduced (Chip.Canonical.raiseV (.inState c))))

theorem Chip.Canonical.selfTestFailed : (s.selfTestFailed n).chip.Canonical := .iteState c (Chip.Canonical.reachGrade (.inState c.raise))

/-! ## Events -/

theorem Chip.Canonical.execRotationStart : KeepsCanonical (execRotationStart n m s) := by
  refine .next ?_
  split
  · exact c.startRotation
  · exact c

theorem Chip.Canonical.execRotationCopy : KeepsCanonical (execRotationCopy v s) := by
  unfold Machine.execRotationCopy
  split
  · exact .ite (.chip c.modCluster) (.next c)
  · exact .next c

theorem Chip.Canonical.execRotationRemap : KeepsCanonical (execRotationRemap v s) := by
  unfold Machine.execRotationRemap
  split
  · exact .ite (.chip c.keepMinimum.writeEntry.resend.modCluster) (.next c)
  · exact .next c

theorem Chip.Canonical.execRotationResume : KeepsCanonical (execRotationResume v s) := by
  unfold Machine.execRotationResume
  split
  · exact .ite (.chip (Chip.Canonical.renegotiateZero c.modCluster)) (.next c)
  · exact .next c

theorem Chip.Canonical.execSelfTestStart : KeepsCanonical (execSelfTestStart n s) := .ite (.chip c) (.next c)

theorem Chip.Canonical.execCoastForwardEnd : KeepsCanonical (execCoastForwardEnd v s) := by
  unfold Machine.execCoastForwardEnd
  split
  · exact .next c
  · split
    · exact .next c
    · refine .ite (.chip c.reportFault) (.chip (Chip.Canonical.reissue (Chip.Canonical.foldl ?_ fun _ c _ => c.send)))
      exact Chip.Canonical.serveClaims c.writeEntry.resend.modCluster

theorem Chip.Canonical.execDieFence : KeepsCanonical (execDieFence n s) := by
  refine .ite (.next c) (.chip (Chip.Canonical.newPartners ?_))
  refine Chip.Canonical.foldlState (Chip.Canonical.foldlState (.inState c.cutDie) fun _ c _ => c.dropRotation) fun _ c _ => c.loseCluster

theorem Chip.Canonical.execMasterTakeover : KeepsCanonical (execMasterTakeover s) := by
  have taken : ∀ {d}, Chip.Canonical { s.chip with master := d } := c.elsewhere
  unfold Machine.execMasterTakeover
  refine .ite ?_ (.next c)
  split
  · exact .chip (taken.foldl fun _ c _ => c.reissue)
  · exact .next c

theorem Chip.Canonical.execPowerOn {images : BitVec 8} : KeepsCanonical (execPowerOn images s) :=
  .ite (.next c) (.ite (.chip c.elsewhere) (.chip c.setStage))

theorem Chip.Canonical.execWindowBRead : KeepsCanonical (execWindowBRead n m s) := by
  unfold Machine.execWindowBRead
  dsimp only
  split
  · rename_i a found
    exact .chip (c.touch (pa := a) (dirty := false)).elsewhere
  · exact .next c

theorem Chip.Canonical.execWindowBWrite {x : BitVec 64} : KeepsCanonical (execWindowBWrite n m x s) := by
  unfold Machine.execWindowBWrite
  dsimp only
  split
  · exact .chip c.writePrivate.keepHostWrite
  · exact .next c

theorem Chip.Canonical.execAttestationReport : KeepsCanonical (execAttestationReport s) := by
  unfold Machine.execAttestationReport
  dsimp only
  split
  · exact .chip c.elsewhere
  · exact .next c

theorem Chip.Canonical.execPowerSample : KeepsCanonical (execPowerSample n s) := .chip (.ite c.withRegs.raise c.withRegs)

theorem Chip.Canonical.execSliceUncorrectableError : KeepsCanonical (execSliceUncorrectableError n s) :=
  .next (.iteState c (.inState c.loseLines))

end

end Sys2Proof.Machine
end

section
/-! PROOFS. The family 10, memories in canonical form: the debug port and the system registers (R24, R124, R130, R134, R135, R158, R167, R388,
R411 to R416). -/

namespace Sys2Proof.Machine

set_option Elab.async false

section
variable {h : Chip} {v n i : Nat} {x : Word} {p : At} {t : Thread}

/-! ## The debug port (R134, R135) -/

theorem Chip.Canonical.portResult (c : h.Canonical) {m : Nat} : (h.portResult v n m).Canonical := c.modCore

theorem Chip.Canonical.ddataRead (c : h.Canonical) : CanonicalSnd (h.ddataRead v n) := by
  unfold Chip.ddataRead
  split
  · exact .inPair c.portResult
  · exact .inPair c.portResult

theorem Chip.Canonical.ddataWrite (c : h.Canonical) : (h.ddataWrite v n x).Canonical := by
  unfold Chip.ddataWrite
  dsimp only
  split
  · exact c.portResult
  · refine .ite c.portResult ?_
    split
    · exact .ite c.putHere.portResult c.portResult
    · exact c.portResult

theorem Chip.Canonical.tnqRead (c : h.Canonical) : CanonicalSnd (h.tnqRead v n) := by
  unfold Chip.tnqRead
  split
  · exact c
  · exact .inPair c.modCore

/-- The chip that a debug command leaves is in canonical form. -/
def PortAnswer.canonical : PortAnswer → Prop
  | .done h => h.Canonical
  | .refused => True
  | .waits h => h.Canonical

theorem PortAnswer.canonical_ite {q : Prop} [Decidable q] {a b : PortAnswer} (yes : a.canonical) (no : b.canonical) :
    (if q then a else b).canonical := by
  split
  · exact yes
  · exact no

theorem Chip.Canonical.debugCommand (c : h.Canonical) {m : Nat} {act : At → Slot → PortAnswer} (keeps : ∀ p k, (act p k).canonical) :
    (h.debugCommand v n m act).Canonical := by
  have finished : ∀ {g : Chip} {r : Nat}, g.Canonical →
      ((g.modCore v n fun k => { k with debugPending := false, dcmd := 0 }).portResult v n r).Canonical := fun c => c.modCore.portResult
  unfold Chip.debugCommand
  refine .ite c (.ite (finished c) ?_)
  have kept := keeps (h.selected v n) (h.slot (h.selected v n))
  cases answer : act (h.selected v n) (h.slot (h.selected v n)) with
  | done g => exact finished (answer ▸ kept : (PortAnswer.done g).canonical)
  | refused => exact finished c
  | waits g => exact (answer ▸ kept : (PortAnswer.waits g).canonical)

theorem Chip.Canonical.debugResume (c : h.Canonical) : (h.debugResume p t).canonical := by
  unfold Chip.debugResume
  dsimp only
  split
  · exact c.setSlot
  · split
    · exact c.addWalk
    · split
      · rename_i done
        exact c.setSlot.trapReturn.of_ok done
      · exact c.setSlot.takeTrap
      · exact c

/-! ## The dispatch of a core and the rotation boundary (R124, R158, R167) -/

theorem Chip.Canonical.restartDispatch (c : h.Canonical) : (h.restartDispatch v n).Canonical := .ite c c.setSlot.modCore

theorem Chip.Canonical.trailDispatcher (c : h.Canonical) : (h.trailDispatcher v n).Canonical := by
  unfold Chip.trailDispatcher
  extract_lets p on g
  have screened : g.Canonical := .ite c c.modCore
  split
  · refine .ite ?_ screened
    split
    · exact screened.setSlot.modCore
    · exact screened
  · exact .ite screened screened.setSlot
  · exact screened

theorem Chip.Canonical.rotationBoundary (c : h.Canonical) : (h.rotationBoundary v n).Canonical := c.modCore.trailDispatcher

/-! ## Registers of the core and cluster bands (R134, R160, R166, R347) -/

theorem GivesSome.or {α : Type} {P : α → Prop} {r q : Option α} (first : GivesSome P r) (second : GivesSome P q) :
    GivesSome P (r.or q) := by
  cases r with
  | none => exact second
  | some x => exact first

theorem GivesSome.mapped {α β : Type} {P : α → Prop} {Q : β → Prop} {r : Option α} {f : α → β} (gives : GivesSome P r)
    (next : ∀ x, P x → Q (f x)) : GivesSome Q (r.map f) := by
  cases r with
  | none => exact .absent
  | some x => exact .present (next x (gives.of_some rfl))

theorem Chip.Canonical.readCore (c : h.Canonical) : GivesSome CanonicalSnd (h.readCore v n i) := by
  unfold Chip.readCore
  extract_lets k u e plain
  have plain : ∀ {x}, GivesSome CanonicalSnd (plain x) := .present c
  split
  case h_5 => exact .present c.tnqRead
  case h_8 => exact .present c.ddataRead
  case h_25 => exact .ite plain .absent
  all_goals exact plain

theorem Chip.Canonical.writeCore (c : h.Canonical) : GivesSome Chip.Canonical (h.writeCore v n i x) := by
  unfold Chip.writeCore
  extract_lets within
  have within : ∀ {m : Word} {g : Chip}, g.Canonical → GivesSome Chip.Canonical (within m g) := fun c => .ite (.present c) .absent
  split
  · exact within c
  · exact within c
  · exact c.cpre
  · exact within c
  · exact within c.modCore
  · exact within c.modCore
  · exact .present c.ddataWrite
  · exact .ite (.present (.ite c.portResult c.modCore)) .absent
  · exact within c
  · exact within c.modCore
  · exact within (.ite c.restartDispatch c)
  · exact .ite c.scrcfg .absent
  · exact within c.modCluster
  · exact within c.modCluster
  · exact c.hndcfg
  · exact within c.modCluster
  · exact .absent

/-! ## Registers of the package band (R388, R411 to R416, R428) -/

theorem Chip.Canonical.pgvt (c : h.Canonical) : GivesSome Chip.Canonical (h.pgvt x) := .ite .absent (.present (.ite c.modPart c))

theorem Chip.Canonical.ppre (c : h.Canonical) : GivesSome Chip.Canonical (h.ppre x) :=
  .ite .absent (.present (.ite c.partitionPreempt (.ite c.partitionResume c)))

theorem Chip.Canonical.whileInactive (c : h.Canonical) {f : Partition → Partition}
    (keeps : ∀ q, canonicalClusters q.saved → canonicalClusters (f q).saved := by exact fun _ own => own) :
    (h.whileInactive f).Canonical :=
  c.modPart fun q own => by
    split
    · exact own
    · exact keeps q own

theorem Chip.Canonical.pcfgWrite (c : h.Canonical) : GivesSome Chip.Canonical (h.pcfgWrite x) := .ite (.present c.whileInactive) .absent

theorem Chip.Canonical.fabcfgWrite (c : h.Canonical) : GivesSome Chip.Canonical (h.fabcfgWrite x) :=
  .ite .absent (.present (c.modPart fun q own => by split <;> exact own))

theorem Chip.Canonical.wbbase (c : h.Canonical) : GivesSome Chip.Canonical (h.wbbase x) :=
  .ite .absent (.ite (.present c.withRegs) (.present c.withRegs))

theorem Chip.Canonical.writePart (c : h.Canonical) : GivesSome Chip.Canonical (h.writePart i x) := by
  unfold Chip.writePart
  dsimp only
  split
  · exact .ite (.present c.modPart) .absent
  · exact .ite (.present c.modPart) .absent
  · exact c.pgvt
  · exact .present c.pcairn
  · exact c.ppre
  · exact c.pcfgWrite
  · exact .present c.whileInactive
  · exact .ite (.present c.whileInactive) .absent
  · exact c.fabcfgWrite
  · exact .ite (.present c.modPart) .absent
  · exact c.frdat
  · exact .ite (.ite (.present c.modPart) .absent) (.ite (.present c.whileInactive) .absent)

theorem Chip.Canonical.writeSystem (c : h.Canonical) : GivesSome Chip.Canonical (h.writeSystem i x) := by
  unfold Chip.writeSystem
  split
  · exact .ite (.present c.sliceHash) .absent
  · exact .ite (.present c.fresp) .absent
  · exact .ite (.present c.xlinv) .absent
  · exact c.wbbase
  · exact .present c.attest
  · exact .absent

theorem Chip.Canonical.setBar (c : h.Canonical) : (h.setBar n).Canonical := .ite c.elsewhere c

end

/-! ## States (R24, R130, R415) -/

section
variable {s : State} (c : s.chip.Canonical) {v n i : Nat} {x : Word} {p : At} {self : Thread} {w : Half} {d : BitVec 7}
include c

theorem Chip.Canonical.pcmd : GivesSome (fun t => t.chip.Canonical) (s.pcmd x) :=
  .ite (.present c.createPartition) (.ite (.present (.inState c.destroyPartition)) .absent)

theorem Chip.Canonical.rotreqWrite : GivesSome (fun t => t.chip.Canonical) (s.rotreqWrite x) := c.rotreq.mapped fun _ c => c.withRegs

theorem Chip.Canonical.writePackage : GivesSome (fun t => t.chip.Canonical) (s.writePackage i x) := by
  unfold State.writePackage
  split
  · exact .ite (.present (.inState c.elsewhere)) .absent
  · split
    · exact c.rotctl
    · exact c.rotreqWrite
    · exact c.pcmd
    · exact (c.writePart.or c.writeSystem).mapped fun _ c => c

theorem Chip.Canonical.readReg : GivesSome (fun r => r.2.chip.Canonical) (s.readReg v n i) :=
  .ite (c.readCore.mapped fun _ c => c) (.map fun _ => c)

theorem Chip.Canonical.writeReg : GivesSome (fun t => t.chip.Canonical) (s.writeReg v n i x) :=
  .ite (c.writeCore.mapped fun _ c => c) c.writePackage

theorem Chip.Canonical.mfsThread : Gives (fun t => t.chip.Canonical) (s.mfsThread self p w d i) := by
  unfold State.mfsThread
  split
  · exact .error
  · exact .ite .error (.ite .error (.ok (.inState c.writeDst)))

theorem Chip.Canonical.mtsThread : Gives (fun t => t.chip.Canonical) (s.mtsThread self p w i x) := by
  unfold State.mtsThread
  refine .ite .error (.ite .error (.ite .error ?_))
  split
  · exact .error
  · split
    · exact .ite (.ok (.inState c.setThread)) .error
    · exact .error
    · exact .error

/-- An instruction that reaches the package keeps the form if its body does. -/
theorem Chip.Canonical.issueState {f : Form} {body : Thread → At → State → Except Stop State}
    (keeps : ∀ (self : Thread) (p : At) (t : State), t.chip.Canonical → Gives (fun t => t.chip.Canonical) (body self p t)) :
    KeepsCanonical (issueState f s body) := by
  unfold Machine.issueState
  dsimp only
  split
  · split
    · exact .next c
    · exact .chip c.putHere.stopped
    · split
      · rename_i done
        exact .chip ((keeps _ _ _ (.inState c.putHere)).of_ok done).endStep
      · exact .next c
      · exact .chip c.putHere.stopped
  · exact .next c

theorem Chip.Canonical.execMfs {idx : BitVec 14} : KeepsCanonical (execMfs d idx s) := by
  unfold Machine.execMfs
  refine c.issueState fun self p t c => .ite .error (.ite c.mfsThread (.bind_any fun _ => ?_))
  split
  · rename_i found
    exact .ok (.inState (Chip.Canonical.writeDst (c.readReg.of_some found)))
  · exact .error

theorem Chip.Canonical.execMts {idx : BitVec 14} : KeepsCanonical (execMts d idx s) := by
  unfold Machine.execMts
  refine c.issueState fun self p t c => c.readAt.bind fun r c => ?_
  have c : (State.chip { t with chip := r.2 }).Canonical := c
  refine .ite .error (.ite c.mtsThread (.bind_any fun _ => .ite .error ?_))
  split
  · rename_i found
    exact .ok (c.writeReg.of_some found)
  · exact .error

theorem Chip.Canonical.readWindowC : (s.readWindowC n).2.chip.Canonical := by
  unfold State.readWindowC
  dsimp only
  split
  · split
    · exact c
    · exact c.readReg.getD (P := fun r : Word × State => r.2.chip.Canonical) c
  · exact c

theorem Chip.Canonical.hostRead {management : Bool} : (s.hostRead management n).chip.Canonical := by
  refine .iteState (.iteState (.inState c.readWindowC.elsewhere) c) (.iteState c (.inState c.elsewhere))

theorem Chip.Canonical.execRegisterWrite {x : BitVec 64} : KeepsCanonical (execRegisterWrite n x s) :=
  .ite (.next c) (.next (c.writeReg.getD (P := fun t : State => t.chip.Canonical) c))

/-! ## Events of the debug port and of a core -/

theorem Chip.Canonical.execDdataRead : KeepsCanonical (execDdataRead v n s) := by
  have read := c.ddataRead (v := v) (n := n)
  exact .chip read.elsewhere

theorem Chip.Canonical.execTnqRead : KeepsCanonical (execTnqRead v n s) := by
  have read := c.tnqRead (v := v) (n := n)
  exact .chip read.elsewhere

theorem Chip.Canonical.execDebugHalt : KeepsCanonical (execDebugHalt v n s) := by
  refine .chip (c.debugCommand fun p k => ?_)
  split
  · exact PortAnswer.canonical_ite (a := .done _) c.haltAt c
  · exact c
  · trivial

theorem Chip.Canonical.execDebugResume : KeepsCanonical (execDebugResume v n s) := by
  refine .chip (c.debugCommand fun p k => ?_)
  split
  · exact c.debugResume
  · trivial

theorem Chip.Canonical.execDebugStep : KeepsCanonical (execDebugStep v n s) := by
  refine .chip (c.debugCommand fun p k => ?_)
  split
  · exact c.setSlot
  · trivial

theorem Chip.Canonical.execDebugAbort : KeepsCanonical (execDebugAbort v n s) := by
  refine .chip (c.debugCommand fun p k => ?_)
  split
  · exact PortAnswer.canonical_ite (b := .done _) c c.abortSelf
  · trivial

theorem Chip.Canonical.execRotationBoundary : KeepsCanonical (execRotationBoundary v n s) := .chip (.ite c c.rotationBoundary)

end

end Sys2Proof.Machine
end

section
/-! PROOFS. The family 10, memories in canonical form: the fabric, roped partitions and slice gates (R265, R357, R376, R427 to R437). -/

namespace Sys2Proof.Machine

set_option Elab.async false

section
variable {h : Chip} {k v pid gid : Nat} {f : WireFrame} {m : Message}

/-! ## Transport and publications (R427, R430) -/

theorem Chip.Canonical.retransmit (c : h.Canonical) : (h.retransmit k).Canonical := by
  unfold Chip.retransmit
  split
  · exact .ite c c.elsewhere
  · exact c

theorem Chip.Canonical.withLostPkgs (c : h.Canonical) {ns : List Nat} : Chip.Canonical { h with lostPkgs := ns } := c.elsewhere

theorem Chip.Canonical.losePackage (c : h.Canonical) : (h.losePackage k).Canonical :=
  .ite c (c.withLostPkgs.foldl fun _ c _ => c.haltPartition)

theorem Chip.Canonical.publicationEnds (c : h.Canonical) {record backing : Nat} : (h.publicationEnds m record backing).Canonical :=
  c.writeHbm.elsewhere

theorem Chip.Canonical.publicationData (c : h.Canonical) : (h.publicationData k m).Canonical := by
  unfold Chip.publicationData
  dsimp only
  split
  · exact c.warm.landed.haltPartition
  · refine .ite c.warm.landed.haltPartition ?_
    have room : ∀ {p : Prop} [Decidable p] {r n : Nat} {g : Chip}, g.Canonical → (if p then g.evictOwners r n else g).Canonical :=
      fun c => .ite c.evictOwners c
    split
    · exact .ite (room c.warm).landed.publicationEnds (Chip.Canonical.acknowledge (room c.warm).landed.publicationEnds)
    · exact room c.warm

theorem Chip.Canonical.framePublication (c : h.Canonical) : GivesSome Chip.Canonical (h.framePublication f) := by
  unfold Chip.framePublication
  split
  · split
    · exact .present c.send.publicationData
    · exact .present c
  · exact .present c

/-! ## Rounds and groups over several packages (R376, R431, R432) -/

theorem Chip.Canonical.frameRound (c : h.Canonical) : GivesSome Chip.Canonical (h.frameRound f) := by
  unfold Chip.frameRound
  dsimp only
  split
  · exact .ite .absent (.present (Chip.Canonical.fabricRound c.modPart))
  · exact .ite .absent (.present c.modPart)
  · exact .present c

theorem Chip.Canonical.tellGroup (c : h.Canonical) {body : List Word} : (h.tellGroup pid body).Canonical :=
  c.foldl fun _ c _ => c.sendFrame

theorem Chip.Canonical.fabricBarrier (c : h.Canonical) : (h.fabricBarrier pid gid).Canonical :=
  .ite c (Chip.Canonical.releaseBarrier (Chip.Canonical.modGroup (c.foldl fun _ c _ => c.sendFrame)))

theorem Chip.Canonical.frameGroup (c : h.Canonical) : GivesSome Chip.Canonical (h.frameGroup f) := by
  unfold Chip.frameGroup
  dsimp only
  split
  · exact .present c.modGroup
  · exact .ite (.present c) (.present c.modGroup.releaseBarrier)
  · exact .present (.ite c.modGroup.exitGroup (.ite c c.modGroup))
  · exact .present c.sendFrame.modGroup
  · exact .present c

theorem Chip.Canonical.settleGroup (c : h.Canonical) : (h.settleGroup pid gid).Canonical :=
  .ite (.ite c c.sendFrame.modGroup) (.ite c (.ite c.tellGroup.modGroup (.ite c.tellGroup.modGroup.exitGroup c)))

theorem Chip.Canonical.settleGroups (c : h.Canonical) : h.settleGroups.Canonical :=
  c.foldl fun _ c _ => c.foldl fun _ c _ => c.settleGroup

/-! ## Roped partitions and launches forwarded to the partner (R433 to R435) -/

theorem Chip.Canonical.frameDigest (c : h.Canonical) : GivesSome Chip.Canonical (h.frameDigest f) := by
  unfold Chip.frameDigest
  split
  · exact .present (Chip.Canonical.ropeCompare c.modPart)
  · exact .present c

theorem Chip.Canonical.tieBreak (c : h.Canonical) {mine theirs : BitVec 256} : (h.tieBreak pid mine theirs).Canonical := by
  unfold Chip.tieBreak
  dsimp only
  split
  · exact c
  · exact .ite c (.ite (Chip.Canonical.ropeCompare c.modPart) c.haltDiverged)

theorem Chip.Canonical.frameLaunch (c : h.Canonical) : GivesSome Chip.Canonical (h.frameLaunch f) := .present c.modPart

/-! ## Slice gates (R437) -/

theorem Chip.Canonical.beginSlice (c : h.Canonical) : h.beginSlice.Canonical := .ite c.partitionResume.elsewhere c

theorem Chip.Canonical.withGateReports (c : h.Canonical) {ns : List Nat} : Chip.Canonical { h with gateReports := ns } := c.elsewhere

theorem Chip.Canonical.sliceGate (c : h.Canonical) : h.sliceGate.Canonical := by
  unfold Chip.sliceGate
  extract_lets n out g g' p others
  have vacated : g.Canonical := by
    unfold g
    cases out with
    | none => exact c
    | some p => exact c.partitionPreempt
  have noted : g'.Canonical := vacated.elsewhere
  exact .ite c (Chip.Canonical.beginSlice (noted.foldl fun _ c _ => c.sendFrame))

theorem Chip.Canonical.frameGate (c : h.Canonical) : GivesSome Chip.Canonical (h.frameGate f) := by
  unfold Chip.frameGate
  split
  · exact .ite .absent (.ite (.present c.withGateReports.beginSlice) (.present c))
  · exact .present c

end

/-! ## Events -/

section
variable {s : State} (c : s.chip.Canonical) {k v pid gid : Nat}
include c

theorem Chip.Canonical.moveVcn : (s.moveVcn v).chip.Canonical := by
  unfold State.moveVcn
  dsimp only
  split
  · exact .inState c.writeEntry
  · exact c

theorem Chip.Canonical.spread {before : Bool} : (s.spread pid before).chip.Canonical :=
  .iteState (c.foldlState fun _ c _ => c.moveVcn) c

theorem Chip.Canonical.execFrameRetransmit : KeepsCanonical (execFrameRetransmit k s) := .chip c.retransmit

theorem Chip.Canonical.execPackageLost : KeepsCanonical (execPackageLost k s) := .chip c.losePackage

theorem Chip.Canonical.execFabricPublicationData : KeepsCanonical (execFabricPublicationData k s) := by
  unfold Machine.execFabricPublicationData
  dsimp only
  split
  · split
    · exact .chip (c.onFrame Chip.Canonical.framePublication)
    · exact .chip (.ite c c.publicationData)
    · exact .next c
  · exact .next c

theorem Chip.Canonical.execFabricGvtFrame : KeepsCanonical (execFabricGvtFrame k s) := .chip (c.onFrame Chip.Canonical.frameRound)

theorem Chip.Canonical.execBarrierComplete : KeepsCanonical (execBarrierComplete pid gid s) :=
  .chip (.ite c.barrierComplete c.fabricBarrier)

theorem Chip.Canonical.execFabricGroupFrame : KeepsCanonical (execFabricGroupFrame k s) := .chip (c.onFrame Chip.Canonical.frameGroup)

theorem Chip.Canonical.execCommitPhase : KeepsCanonical (execCommitPhase pid s) := by
  have go : ∀ {p : Prop} [Decidable p] {g : Word} {before : Bool},
      KeepsCanonical (.next (if p then s else State.spread { s with chip := s.chip.commitPhase pid g } pid before)) :=
    fun {_ _ _ _} => .next (.iteState c (Chip.Canonical.spread (.inState c.commitPhase)))
  exact .ite (.next c) (.ite go (.ite (.next c) go))

theorem Chip.Canonical.execRopeDigestFrame : KeepsCanonical (execRopeDigestFrame k s) := by
  unfold Machine.execRopeDigestFrame
  dsimp only
  split
  · exact .next (Chip.Canonical.spread (.inState (c.onFrame Chip.Canonical.frameDigest)))
  · exact .next c

theorem Chip.Canonical.execTieBreakEnd {mine theirs : BitVec 256} : KeepsCanonical (execTieBreakEnd pid mine theirs s) :=
  .next (Chip.Canonical.spread (.inState c.tieBreak))

theorem Chip.Canonical.execSliceGate : KeepsCanonical (execSliceGate s) := .chip c.sliceGate

theorem Chip.Canonical.execSliceGateFrame : KeepsCanonical (execSliceGateFrame k s) := .chip (c.onFrame Chip.Canonical.frameGate)

theorem Chip.Canonical.execSliceAbandon : KeepsCanonical (execSliceAbandon s) := by
  unfold Machine.execSliceAbandon
  dsimp only
  split
  · refine .ite (.next c) ?_
    split
    · exact .chip c.partitionResume.elsewhere
    · exact .chip c.elsewhere
  · exact .next c

end

end Sys2Proof.Machine
end

section
/-! PROOFS. The family 10, memories in canonical form: the OMEM, MMA, TW and X64 majors, and every instruction and event. -/

namespace Sys2Proof.Machine

set_option Elab.async false

/-! ## The OMEM and MMA majors (R233 to R246) -/

section
variable {s : State} (c : s.chip.Canonical) {d a b : BitVec 7} {w : Half}
include c

theorem Chip.Canonical.gangForm {desc : Thread → Word} : KeepsCanonical (gangForm w desc s) := by
  unfold Machine.gangForm
  exact c.issueChip fun _ _ _ c => c.gangStep

theorem Chip.Canonical.execOld : KeepsCanonical (execOld d a b s) := by
  unfold Machine.execOld
  exact c.issueChip fun _ _ _ c => c.readAt.bind fun _ c => c.readAt.bind fun _ c => c.oldIssue

theorem Chip.Canonical.execArd : KeepsCanonical (execArd a b s) := by
  unfold Machine.execArd
  exact c.issueChip fun _ _ _ c => c.readAt.bind fun _ c => c.readAt.bind fun _ c => c.accIssue

theorem Chip.Canonical.execAwr : KeepsCanonical (execAwr a b s) := by
  unfold Machine.execAwr
  exact c.issueChip fun _ _ _ c => c.readAt.bind fun _ c => c.readAt.bind fun _ c => c.accIssue

theorem Chip.Canonical.execAclr : KeepsCanonical (execAclr b s) := by
  unfold Machine.execAclr
  exact c.issueChip fun _ _ _ c => c.readAt.bind fun _ c => c.accIssue

theorem Chip.Canonical.execMwait : KeepsCanonical (execMwait a b s) := by
  unfold Machine.execMwait
  exact c.issueChip fun _ _ _ c => c.readAt.bind fun _ c => c.readAt.bind fun _ c => c.mwaitIssue

end

/-! ## The TW major (R350, R351, R360, R361) -/

section
variable {h : Chip} {self : Thread} {p : At} {d : BitVec 7} {x y addr : Word} {n : Nat} {bs : List Byte}

theorem Chip.Canonical.sendNow (c : h.Canonical) : Gives Chip.Canonical (h.sendNow self p d x y addr bs) :=
  c.need.bind fun _ c => .ok (Chip.Canonical.writeDst (Chip.Canonical.modThread (Chip.Canonical.post (Chip.Canonical.addRecord c))))

theorem Chip.Canonical.payload (c : h.Canonical) {al : Nat} : Gives CanonicalSnd (h.payload self p x n al) := by
  unfold Chip.payload
  refine .ite .error (.ite .error (.ite .error ?_))
  split
  · rename_i done
    exact .ok (c.readBytes.of_ok done)
  · exact .error
  · exact .error
  · exact .error

theorem Chip.Canonical.irvNow (c : h.Canonical) {k : IrvKind} : Gives Chip.Canonical (h.irvNow self p k addr n y bs) :=
  c.need.bind fun _ c => .ok c.addRecord

end

section
variable {s : State} (c : s.chip.Canonical) {d a b : BitVec 7}
include c

theorem Chip.Canonical.execSend : KeepsCanonical (execSend d a b s) := by
  unfold Machine.execSend
  exact c.issueChip fun _ _ _ c => c.readAt.bind fun _ c => c.readAt.bind fun _ c => c.readAt.bind fun _ c => .bind_any fun _ =>
    .ite c.sendNow (c.payload.bind fun _ c => c.sendNow)

theorem Chip.Canonical.execSendv {va : BitVec 5} : KeepsCanonical (execSendv d va b s) := by
  unfold Machine.execSendv
  exact c.issueChip fun _ _ _ c => c.readAt.bind fun _ c => c.readAt.bind fun _ c => .bind_any fun _ => .bind_any fun _ =>
    .ite .error c.sendNow

theorem Chip.Canonical.execGvt : KeepsCanonical (execGvt d s) := by
  unfold Machine.execGvt
  exact c.issueChip fun _ _ _ c => .ite (.ok c.writeDst) (.ite (.ok c.writeDst) .error)

theorem Chip.Canonical.execStamp : KeepsCanonical (execStamp d s) := by
  unfold Machine.execStamp
  exact c.issueChip fun _ _ _ c => .ok c.writeDst

theorem Chip.Canonical.execIrvHost : KeepsCanonical (execIrvHost a b s) := by
  unfold Machine.execIrvHost
  refine c.issueChip fun self _ _ c => c.readAt.bind fun x c => c.readAt.bind fun _ c => .bind_any fun _ => .ite .error (.ite .error ?_)
  have warm := Chip.Canonical.warm c (pid := self.pid) (va := x.1.toNat)
  dsimp only
  split
  · exact .error
  · exact .ok warm.waitWalk
  · exact .error
  · exact .ite .error (warm.payload.bind fun _ c => c.irvNow)

theorem Chip.Canonical.execIrvFlash : KeepsCanonical (execIrvFlash a b s) := by
  unfold Machine.execIrvFlash
  exact c.issueChip fun _ _ _ c => c.readAt.bind fun _ c => c.readAt.bind fun _ c => .bind_any fun _ => .ite .error (.ite .error
    (c.payload.bind fun _ c => c.irvNow))

theorem Chip.Canonical.execIrvDb : KeepsCanonical (execIrvDb a b s) := by
  unfold Machine.execIrvDb
  exact c.issueChip fun _ _ _ c => c.readAt.bind fun _ c => c.readAt.bind fun _ c => .bind_any fun _ => .ite .error c.irvNow

end

/-! ## The X64 majors, and REP (R35, R52, R85) -/

section
variable {s : State} (c : s.chip.Canonical)
include c

theorem Chip.Canonical.issueX64 {f : Form} {body : Thread → Here → Except Stop Here} : KeepsCanonical (issueX64 f s body) := by
  unfold Machine.issueX64
  refine .ite c.issueHere (.ite c.issueHere ?_)
  split
  · exact .ite (.next c) (.chip c.parkTo.renegotiate)
  · exact .next c

section
variable {w : Half} {d a b : BitVec 7}

theorem Chip.Canonical.aluForm {f : Word → Word → Word} : KeepsCanonical (aluForm w d a b f s) := c.issueHere

theorem Chip.Canonical.unaryForm {f : Word → Word} : KeepsCanonical (unaryForm w d a f s) := c.issueHere

theorem Chip.Canonical.branchForm {off : BitVec 9} {f : Word → Word → Bool} : KeepsCanonical (branchForm w a b off f s) := c.issueHere

theorem Chip.Canonical.bitBranchForm {bit : BitVec 6} {sense : Bool} {off : BitVec 12} :
    KeepsCanonical (bitBranchForm w a bit sense off s) := c.issueHere

theorem Chip.Canonical.divForm {f : Word → Word → Word} : KeepsCanonical (divForm w d a b f s) := c.issueX64

end

theorem Chip.Canonical.execRep {n : BitVec 6} {sd sa sb len : BitVec 4} : KeepsCanonical (execRep n sd sa sb len s) := by
  unfold Machine.execRep
  refine c.issueChip fun self p h c => ?_
  split
  · exact .error
  · exact .ok c.waitWalk
  · exact .error
  · rename_i done
    exact .ok (Chip.Canonical.modThread (c.capture.of_ok done))

/-! ## Every instruction and event -/

/-- Every instruction and every event keeps the memories in canonical form: forms that share an argument stand together. -/
theorem Chip.Canonical.exec (i : Instr) : KeepsCanonical (exec i s) := by
  unfold Machine.exec
  cases i with
  | add | sub | and | or | xor | andn | sll | srl | sra | rol | ror | slt | sltu | min | max | minu | maxu | mul | mulh | mulhu =>
    exact c.aluForm
  | clz | ctz | popc | brev | sextB | sextH | sextW | zextW | addi | andi | ori | xori | slti | sltiu | slli | srli | srai | rori =>
    exact c.unaryForm
  | lui | auipc | j | jal | jalr | faddS | fsubS | fmulS | fdivS | fsqrtS | fminS | fmaxS | feqS | fltS | fleS | fclassS | fmaddS | fmsubS
  | fnmsubS | fnmaddS | cvtSL | cvtSLu | cvtLS | cvtLuS | cvtBf16S | cvtSBf16 | cvtHS | cvtSH | cvtE4m3S | cvtSE4m3 | cvtE5m2S | cvtSE5m2
  | cvtF4bS | cvtSF4b | unassignedWord => exact c.issueHere
  | beq | bne | blt | bge | bltu | bgeu => exact c.branchForm
  | bbs | bbc => exact c.bitBranchForm
  | div | divu | rem | remu => exact c.divForm
  | faddD | fsubD | fmulD | fdivD | fsqrtD | fminD | fmaxD | feqD | fltD | fleD | fclassD | cvtDS | cvtSD | cvtDL | cvtLD | fmaddD |
  fmsubD | fnmsubD | fnmaddD => exact c.issueX64
  | ldB | ldBu | ldH | ldHu | ldW | ldWu | ldD => exact c.loadForm
  | stB | stH | stW | stD => exact c.storeForm
  | amoSwap | amoAdd | amoAnd | amoOr | amoXor | amoMin | amoMax | amoCas => exact c.amoForm
  | redAdd | redOr | redMin | redMax | redFaddS => exact c.redForm
  | vaddS | vsubS | vmulS | vfmaS | vfmsS | vminS | vmaxS | vabsS | vnegS | vrcpS | vrsqS | vexp2S | vlog2S | viadd | visub | vimul | vand
  | vor | vxor | vshl | vshr | vsra | vperm | vslide | vsel | vbcast | vcomp | vsprs | vcvtBf16S | vcvtHS | vcvtE4m3S | vcvtE5m2S |
  vcvtF4bS | vcvtSBf16 | vcvtSH | vcvtSE4m3 | vcvtSE5m2 | vcvtSF4b | vibadd | vibsub | vembed | vschur | vdamp | vsolve =>
    exact c.vectorForm
  | vcmpeqS | vcmpneS | vcmpltS | vcmpleS | vcmpeqI | vcmpneI | vcmpltI | vcmpleI | vrsum | vrmax | vrmin | vmovs | vibres =>
    exact c.vsForm
  | vld | vst | vlds | vsts | vgath | vscat => exact c.vmForm
  | cpy | cpy2d | cpymc | gath | scat => exact c.dataForm
  | mbld | mbupd => exact c.mailboxForm
  | mma | mmaOw | mmaHalf | mmaHalfOw | mmaSp | mmaSpOw | mmaHalfSp | mmaHalfSpOw | oclaim | orel => exact c.gangForm
  | spawn => exact c.execSpawn
  | take => exact c.execTake
  | reap => exact c.execReap
  | tend => exact c.execTend
  | tabort => exact c.execTabort
  | yield => exact c.execYield
  | mfc => exact c.execMfc
  | mtc => exact c.execMtc
  | self => exact c.execSelf
  | grade => exact c.execGrade
  | topo => exact c.execTopo
  | trap => exact c.execTrap
  | eret => exact c.execEret
  | mfs => exact c.execMfs
  | mts => exact c.execMts
  | bkpt => exact c.execBkpt
  | treplay => exact c.execTreplay
  | wait => exact c.execWait
  | bmode => exact c.execBmode
  | cflush => exact c.execCflush
  | cinv => exact c.execCinv
  | home => exact c.execHome
  | bar => exact c.execBar
  | barv => exact c.execBarv
  | gred => exact c.execGred
  | gleave => exact c.execGleave
  | launch => exact c.execLaunch
  | gqry => exact c.execGqry
  | chain => exact c.execChain
  | ewait => exact c.execEwait
  | shopen => exact c.execShopen
  | publ => exact c.execPubl
  | bcarm => exact c.execBcarm
  | bcwait => exact c.execBcwait
  | claim => exact c.execClaim
  | vrel => exact c.execVrel
  | reneg => exact c.execReneg
  | mbset => exact c.execMbset
  | rotationBoundary => exact c.execRotationBoundary
  | heldTrapDelivery => exact c.execHeldTrapDelivery
  | debugHalt => exact c.execDebugHalt
  | debugResume => exact c.execDebugResume
  | debugStep => exact c.execDebugStep
  | debugAbort => exact c.execDebugAbort
  | ddataRead => exact c.execDdataRead
  | tnqRead => exact c.execTnqRead
  | vacateComplete => exact c.execVacateComplete
  | contextWriteback => exact c.execContextWriteback
  | packetEnqueue => exact c.execPacketEnqueue
  | migrationArrival => exact c.execMigrationArrival
  | byteCountAdd => exact c.execByteCountAdd
  | messageArrival => exact c.execMessageArrival
  | antiMessageArrival => exact c.execAntiMessageArrival
  | messageAck => exact c.execMessageAck
  | messageHandover => exact c.execMessageHandover
  | packetForward => exact c.execPacketForward
  | tableEntryUpdate => exact c.execTableEntryUpdate
  | commitPhase => exact c.execCommitPhase
  | conflictNotice => exact c.execConflictNotice
  | irvPerform => exact c.execIrvPerform
  | barrierComplete => exact c.execBarrierComplete
  | reservationPreempt => exact c.execReservationPreempt
  | rotationStart => exact c.execRotationStart
  | rotationCopy => exact c.execRotationCopy
  | rotationRemap => exact c.execRotationRemap
  | rotationResume => exact c.execRotationResume
  | selfTestStart => exact c.execSelfTestStart
  | coastForwardEnd => exact c.execCoastForwardEnd
  | dieFence => exact c.execDieFence
  | masterTakeover => exact c.execMasterTakeover
  | xlinvDone => exact c.execXlinvDone
  | sliceRehashComplete => exact c.execSliceRehashComplete
  | lineEviction => exact c.execLineEviction
  | windowBRead => exact c.execWindowBRead
  | windowBWrite => exact c.execWindowBWrite
  | attestationReport => exact c.execAttestationReport
  | powerSample => exact c.execPowerSample
  | powerOn => exact c.execPowerOn
  | frameRetransmit => exact c.execFrameRetransmit
  | packageLost => exact c.execPackageLost
  | fabricPublicationData => exact c.execFabricPublicationData
  | fabricGvtFrame => exact c.execFabricGvtFrame
  | fabricGroupFrame => exact c.execFabricGroupFrame
  | ropeDigestFrame => exact c.execRopeDigestFrame
  | tieBreakEnd => exact c.execTieBreakEnd
  | imageDataFrame => exact c.execImageDataFrame
  | sliceGate => exact c.execSliceGate
  | sliceGateFrame => exact c.execSliceGateFrame
  | sliceAbandon => exact c.execSliceAbandon
  | registerWrite => exact c.execRegisterWrite
  | sliceUncorrectableError => exact c.execSliceUncorrectableError
  | cairnAcknowledge => exact c.execCairnAcknowledge
  | flashImageWritten => exact c.execFlashImageWritten
  | rep => exact c.execRep
  | send => exact c.execSend
  | sendv => exact c.execSendv
  | gvt => exact c.execGvt
  | irvHost => exact c.execIrvHost
  | irvFlash => exact c.execIrvFlash
  | irvDb => exact c.execIrvDb
  | stamp => exact c.execStamp
  | old => exact c.execOld
  | ard => exact c.execArd
  | awr => exact c.execAwr
  | aclr => exact c.execAclr
  | mwait => exact c.execMwait
  | loadComplete => exact .chip c.loadComplete
  | cdispRestart => exact .chip c.restartDispatch
  | ddataWrite => exact .chip c.ddataWrite
  | cpreWrite => exact .chip (c.cpre.getD c)
  | displace => exact .chip c.displace
  | barrierYield => exact .chip c.barrierYield
  | overflowRefill => exact .chip c.refill
  | gvtRoundStart => exact .chip c.roundStart
  | gvtCut => exact .chip c.gvtCut
  | launchSubmit => exact .chip c.launchSubmit
  | launchProcess => exact .chip c.launchProcess
  | chunkHandout => exact .chip c.chunkHandout
  | barrierArrival => exact .chip c.barrierArrive
  | groupPlacement => exact .chip c.placeGroup
  | gangReservation => exact .chip c.reserveClusters
  | partitionPreempt => exact .chip c.partitionPreempt
  | partitionResume => exact .chip c.partitionResume
  | partitionCreate => exact .next c.createPartition
  | partitionDestroy => exact .chip c.destroyPartition
  | hndcfgWrite => exact .chip (c.hndcfg.getD c)
  | scrcfgWrite => exact .chip (.ite (c.scrcfg.getD c) c)
  | pcairnWrite => exact .chip c.pcairn
  | frdatWrite => exact .chip (c.frdat.getD c)
  | rotctlWrite => exact .next (c.rotctl.getD (P := fun t : State => t.chip.Canonical) c)
  | rotationRequest => exact .next (c.rotreq.getD (P := fun t : State => t.chip.Canonical) c)
  | selfTestEnd => exact .next c.selfTestEnd
  | errorStop => exact .next c.errorStop
  | cairnRestore => exact .next c.cairnRestore
  | pageWalkComplete => exact .chip c.walkComplete
  | frespRetry => exact .chip (.ite c.frespRetry c)
  | frespReject => exact .chip (.ite c.frespReject c)
  | xlinv => exact .chip (.ite c.xlinv c)
  | sliceHashSelWrite => exact .chip (.ite c.sliceHash c)
  | writeThroughPerform => exact .chip c.performThrough
  | attestationRequest => exact .chip c.attest
  | thermalTrip => exact .chip c.loseAll
  | bringupClusterPass => exact .next c.clusterPass
  | gradeTimeout => exact .chip (.ite c.setStage c)
  | windowAWrite => exact .chip c.windowA
  | memoryDieLoss => exact .chip (.ite c.loseAll c)
  | laneGrant => exact c.unitEvent c.serveClaims
  | vectorCommandComplete => exact c.unitEvent (.ite c c.completeVector)
  | mmaComplete => exact c.unitEvent c.mmaComplete
  | gangPark => exact c.unitEvent c.gangPark
  | gangInstructionEffect => exact c.startEvent c.gangEffect
  | mmaStart => exact c.startEvent (.ite c c.mmaStart)
  | oldComplete => exact c.startEvent c.memberComplete
  | accumulatorOpComplete => exact c.startEvent c.memberComplete
  | gangReclaim => exact c.startEvent c.gangReclaim
  | engineCommandComplete => exact c.engineEvent c.engStep
  | chainDescriptorComplete => exact c.engineEvent c.engStep

end

end Sys2Proof.Machine
end

section
/-! PROOFS. The family 10, memories in canonical form: turns, screened pairs and what follows every step (R136, R166 to R177, R323, R414,
R417). -/

namespace Sys2Proof.Machine

set_option Elab.async false

/-! ## What completes for a slot before it issues -/

section
variable {h : Chip} {v pid gid uid : Nat} {t : Thread} {p : At}

theorem Chip.Canonical.serveWalks (c : h.Canonical) : (h.serveWalks uid).Canonical := by
  unfold Chip.serveWalks
  dsimp only
  split
  · exact c.walkComplete
  · exact c

theorem Chip.Canonical.serveVector (c : h.Canonical) : (h.serveVector v uid).Canonical := by
  unfold Chip.serveVector
  split
  · exact c
  · have served : ∀ {q : Prop} [Decidable q], (if q then h.serveClaims v else h).Canonical := .ite c.serveClaims c
    exact .ite served served.completeVector

theorem Chip.Canonical.serveGang (c : h.Canonical) : (h.serveGang v pid gid).Canonical := by
  unfold Chip.serveGang
  have begun := c.gangEffect (v := v) (pid := pid) (gid := gid)
  dsimp only
  split
  · exact begun
  · split
    · exact begun
    · exact .ite (.ite begun.mmaComplete (.ite begun begun.mmaStart)) begun.memberComplete

theorem Chip.Canonical.serveGangs (c : h.Canonical) : (h.serveGangs v t).Canonical := by
  unfold Chip.serveGangs
  split
  · exact .ite c.serveGang c
  · exact c

theorem Chip.Canonical.serveEngine (c : h.Canonical) : (h.serveEngine v).Canonical := by
  unfold Chip.serveEngine
  extract_lets g
  have advanced : g.Canonical := by
    unfold g
    split
    · exact c
    · exact c.engStep
  split
  · exact .ite advanced.countAdd advanced
  · exact advanced

theorem Chip.Canonical.serveBarrier (c : h.Canonical) : (h.serveBarrier t).Canonical := by
  unfold Chip.serveBarrier
  split
  · exact c.barrierArrive.barrierComplete
  · exact c

theorem Chip.Canonical.serve (c : h.Canonical) : (h.serve p).Canonical := by
  unfold Chip.serve
  split
  · exact .ite c c.performThrough.serveWalks.loadComplete.serveVector.serveGangs.serveEngine.serveBarrier
  · exact c

theorem Chip.Canonical.fetchFailed (c : h.Canonical) {b : Blocked} : (h.fetchFailed p t b).Canonical := by
  cases b with
  | fault e x => exact c.takeTrap.endStep
  | walk pid r => exact c.waitWalk
  | stop e => exact c

/-! ## Screened pairs (R166 to R177) -/

theorem Chip.Canonical.setPair (c : h.Canonical) {q : Pair} : (h.setPair p t q).Canonical := c.setSlot

theorem Chip.Canonical.modPair (c : h.Canonical) {f : Pair → Pair} : (h.modPair p f).Canonical := by
  unfold Chip.modPair
  split
  · exact c.setPair
  · exact c

theorem Chip.Canonical.pairMismatch (c : h.Canonical) {kind : Nat} : (h.pairMismatch p kind).Canonical := c.modCluster

theorem Chip.Canonical.followLevel (c : h.Canonical) {old : Chip} {x u : Thread} {q : Pair} : (h.followLevel old p x u q).Canonical := by
  unfold Chip.followLevel
  refine .ite c ?_
  split
  · exact .ite c c.setPair.modCore
  · exact c.setPair

theorem Chip.Canonical.followSlot (c : h.Canonical) {old : Chip} {n k : Nat} : (h.followSlot old v n k).Canonical := by
  unfold Chip.followSlot
  dsimp only
  split
  · exact c.followLevel
  · exact c.followLevel
  · exact c.setSlot
  · exact c.setSlot
  · exact c.setSlot
  · exact c

theorem Chip.Canonical.followPairs (c : h.Canonical) {old : Chip} : (h.followPairs old).Canonical :=
  c.foldl fun _ c _ => c.foldl fun _ c _ => .ite (c.foldl fun _ c _ => c.followSlot) c

/-! ## Records and interrupts for the host (R323, R414, R417) -/

theorem Chip.Canonical.deviceWrite (c : h.Canonical) {a : Nat} {bs : List Byte} : GivesSome Chip.Canonical (h.deviceWrite a bs) :=
  .ite (.ite (.present c.writeHost) .absent) (.present c.writeHbm)

theorem Chip.Canonical.ringWrite (c : h.Canonical) {x : RingRec} : GivesSome Chip.Canonical (h.ringWrite x) :=
  .ite (.ite (.present c.writeHost.raise) .absent) (.ite .absent (c.deviceWrite.mapped fun _ c => c.withRegs.raise))

theorem Chip.Canonical.withRecords (c : h.Canonical) {rs : List RingRec} : Chip.Canonical { h with rings := rs } := c.elsewhere

theorem Chip.Canonical.ringWrites {rs : List RingRec} (c : h.Canonical) : (h.ringWrites rs).Canonical := by
  induction rs generalizing h with
  | nil => exact c
  | cons x rs ih =>
    unfold Chip.ringWrites
    split
    · rename_i written
      exact ih (c.ringWrite.of_some written)
    · exact ih c.withRecords

theorem Chip.Canonical.sendInterrupts (c : h.Canonical) : h.sendInterrupts.Canonical := c.elsewhere

theorem Chip.Canonical.settle (c : h.Canonical) {old : Chip} : (h.settle old).Canonical :=
  c.followPairs.parkWaiters.settleQuiet.settleGroups.withRecords.ringWrites.sendInterrupts

theorem Chip.Canonical.frameEnters (c : h.Canonical) {f : WireFrame} : (h.frameEnters f).Canonical :=
  .ite (c.withFlights.tick.onFrame Chip.Canonical.frameLaunch) c.withFlights.tick

end

/-! ## Outcomes of a turn -/

theorem Answers.andThen {P Q : State → Prop} {o : Host.Outcome State Fault Refusal} {f : State → State} (first : Answers P o)
    (next : ∀ s, P s → Q (f s)) : Answers Q (andThen o f) := by
  cases o with
  | next s => exact .next (next s (first.of_next rfl))
  | fault e => exact .fault
  | refused e => exact .refused

/-- What a fetch leaves of a chip whose memories are in canonical form: it may have failed. -/
def fetchCanonical : Except Chip (Half × Chip) → Prop
  | .ok r => r.2.Canonical
  | .error h => h.Canonical

section
variable {s : State} (c : s.chip.Canonical) {p : At} {t u : Thread} {q : Pair} {w : Half}
include c

theorem Chip.Canonical.fetched : GivesSome fetchCanonical s.fetched := by
  unfold State.fetched
  dsimp only
  split
  · split
    · split
      · rename_i done
        exact .present (c.fetchNext.of_ok done)
      · exact .present c.fetchFailed
    · exact .absent
  · exact .absent

theorem Chip.Canonical.run : KeepsCanonical (s.run w) := by
  unfold State.run
  split
  · exact c.exec _
  · exact c.issueHere

theorem Chip.Canonical.issueOne : KeepsCanonical s.issueOne := by
  unfold State.issueOne
  have fetched := c.fetched
  split
  · exact .next c
  · rename_i failed
    exact .chip (fetched.of_some failed)
  · rename_i word h done
    have own : h.Canonical := fetched.of_some done
    exact Chip.Canonical.run (.inState own)

/-! ## The turns of a screened pair (R167 to R171, R174, R175) -/

theorem Chip.Canonical.stage {y : Held} : (s.stage p y).chip.Canonical := .inState c.modPair

theorem Chip.Canonical.asTrailing : (s.asTrailing p u).chip.Canonical := .inState c.setSlot.modCore

theorem Chip.Canonical.back {lead : Slot} : (s.back p lead u q).chip.Canonical := .inState c.setSlot.setPair.modCore

theorem Chip.Canonical.leadPassed {g : State} (own : g.chip.Canonical) {r : Role} {y : Here} {e : Held} :
    (s.leadPassed g p t u q r y e).chip.Canonical := by
  unfold State.leadPassed
  cases r with
  | value => exact .iteState c (.inState own.setPair)
  | output => exact .iteState c.stage (.iteState c (.inState c.putHere.setPair.elsewhere))
  | inside => exact .inState own.setPair
  | sync => exact .inState own.setPair

theorem Chip.Canonical.issueAgreed {e : Option Held} : KeepsCanonical (s.issueAgreed p t e) := by
  have issued : KeepsCanonical (State.issueOne { s with chip := s.chip.modPair p fun q => { q with sync := none, agreed := false } }) :=
    Chip.Canonical.issueOne (.inState c.modPair)
  exact issued.andThen fun g c => .iteState (.inState (Chip.Canonical.modPair c)) c

theorem Chip.Canonical.leadIssue : KeepsCanonical (s.leadIssue p t u q) := by
  unfold State.leadIssue
  refine .ite (.ite c.issueAgreed (.next c)) (.ite (.next c) ?_)
  have fetched := c.fetched
  split
  · exact .next c
  · rename_i failed
    exact .next (.iteState (.inState (fetched.of_some failed)) c.stage)
  · rename_i word h done
    have own : h.Canonical := fetched.of_some done
    have held : (State.chip { s with chip := h }).Canonical := own
    refine .ite (.next (.iteState held.stage held)) ?_
    have ran := held.run (w := word)
    split
    · rename_i g after
      have other : g.chip.Canonical := ran.of_next after
      split
      · exact .next (.iteState held other)
      · exact .next held.stage
      · exact .next (held.leadPassed other)
    · exact ran

theorem Chip.Canonical.mismatchedPair {kind : Nat} : (State.chip { s with chip := s.chip.pairMismatch p kind }).Canonical :=
  c.pairMismatch

theorem Chip.Canonical.trailPassed {f g : State} (before : f.chip.Canonical) (own : g.chip.Canonical) {r : Role} {y : Here} {e : Held} :
    (s.trailPassed f g p u q r y e).chip.Canonical := by
  unfold State.trailPassed
  cases r with
  | value =>
    dsimp only
    split
    · exact c
    · exact Chip.Canonical.back (.inState before.putHere)
  | output =>
    dsimp only
    split
    · exact c.mismatchedPair
    · exact .iteState c.mismatchedPair own.back
  | inside => exact own.back
  | sync => exact own.back

theorem Chip.Canonical.meet {t : State} {x y : Held} {n : Nat} {word : Option Half} : (s.meet t p n x y word).chip.Canonical :=
  .iteState c.mismatchedPair (.iteState c.mismatchedPair (.inState c.modPair))

theorem Chip.Canonical.trailIssue : KeepsCanonical (s.trailIssue p u q) := by
  unfold State.trailIssue
  refine iteInduction (motive := KeepsCanonical) (fun _ => .next c) fun _ => .ite (.next c) ?_
  have fetched := c.asTrailing (p := p) (u := u) |>.fetched
  have bad : ∀ {kind : Nat}, KeepsCanonical (.next { s with chip := s.chip.pairMismatch p kind }) := .next c.mismatchedPair
  dsimp only
  split
  · exact .next c
  · rename_i failed
    refine .ite (.next (Chip.Canonical.back (.inState (fetched.of_some failed)))) ?_
    split
    · exact .next c.meet
    · exact bad
  · rename_i word h done
    have own : h.Canonical := fetched.of_some done
    have held : (State.chip { s with chip := h }).Canonical := own
    split
    · exact .next (.iteState c.meet held.back)
    · refine .ite bad ?_
      have ran := held.run (w := word)
      split
      · rename_i g after
        have other : g.chip.Canonical := ran.of_next after
        split
        · exact .next held.back
        · exact bad
        · exact .next (c.trailPassed held other)
      · exact ran

theorem Chip.Canonical.issue : KeepsCanonical s.issue := by
  unfold State.issue
  dsimp only
  split
  · exact c.trailIssue
  · split
    · exact c.leadIssue
    · exact c.issueOne
  · exact .next c

/-! ## The step -/

theorem Chip.Canonical.raiseMismatches : s.raiseMismatches.chip.Canonical := by
  refine c.foldlState fun t c k => ?_
  split
  · exact .inState (Chip.Canonical.modCluster (Chip.Canonical.errorStop c))
  · exact c

theorem Chip.Canonical.finish {old : Chip} : (s.finish old).chip.Canonical := Chip.Canonical.raiseMismatches (.inState c.settle)

theorem Chip.Canonical.nextTurn : s.nextTurn.chip.Canonical := .inState (.ite c.rotationBoundary c.modCore)

theorem Chip.Canonical.withNow {n : Nat} : Chip.Canonical { s.chip with now := n } := c.elsewhere

theorem Chip.Canonical.before : s.before.chip.Canonical := .inState c.withNow.serve

theorem Chip.Canonical.after {old : Chip} : (s.after old).chip.Canonical := c.nextTurn.finish

theorem Chip.Canonical.turn : KeepsCanonical s.turn := c.before.issue.andThen fun _ c => Chip.Canonical.after c

theorem Chip.Canonical.take (a : Agenda) : KeepsCanonical (s.take a) := by
  cases a with
  | event i => exact .ite ((c.exec i).andThen fun _ c => Chip.Canonical.finish c) (.next c)
  | turn v n =>
    have focused : (State.chip { s with focusV := v, focusC := n }).Canonical := c
    exact focused.issue.andThen fun _ c => Chip.Canonical.after c
  | frame f => exact .chip c.frameEnters
  | elapse ns => exact .chip c.withNow
  | corrected p => exact .chip c
  | differs v => exact .chip c
  | targetError p => exact .next c.targetError.finish
  | lineError a => exact .next (Chip.Canonical.finish (.inState c.loseLines))
  | logFull v => exact .chip c.modCluster
  | hostRead management k => exact .next c.hostRead
  | barSize n => exact .chip c.setBar
  | msixTable n a => exact .chip c.elsewhere
  | thermalWarning => exact .next (Chip.Canonical.finish (.inState c.raise))
  | selfTestFailed p => exact .next c.selfTestFailed.finish

theorem Chip.Canonical.step : KeepsCanonical (step s) := by
  unfold Machine.step
  refine .ite .fault ?_
  split
  · exact c.turn
  · exact Chip.Canonical.take (.inState c) _

end

end Sys2Proof.Machine

open Sys2Proof Sys2Proof.Machine

/-- Settles O60: every function that changes the chip keeps its memories in canonical form, and so do the turns and events of a step,
which are made of them. -/
theorem stepsKeepMemoriesCanonical : Obligations.StepsKeepMemoriesCanonical := by
  unfold Obligations.StepsKeepMemoriesCanonical
  exact fun _ _ c next => c.step.of_next next
end
